-- ==== Sys2Proof/Word.lean ====
section
/-!
DEFINITION. The words of the machine. Registers and counts are natural numbers kept below two to their width; the
thread cores' data are 32-bit words. The bit helpers the meanings use stand in Sys2Proof/Machine/Bits.lean.
-/
namespace Sys2Proof

/-- A 32-bit word of a thread core. -/
abbrev Word := BitVec 32

/-- A byte of memory. -/
abbrev Byte := BitVec 8

end Sys2Proof
end

