-- ==== Sys2Proof/Syntax.lean ====
section
/-!
DEFINITION. The commands of the machine: one constructor per row of the table of operations and events, with the
operands the row needs. What the outside or an agent of the machine supplies (a level, a code, the bytes of a frame, the
master a request comes from) is an operand; what the machine holds is not.
-/
namespace Sys2Proof

/-- Who issues a request (R150): a thread by its number 8c + t (32 to 39: the supervisor pair), a DMA channel (its
master ID is the one DMA_MID names), or another master by its ID. -/
inductive Master where
  | thread (t : Fin 40)
  | dma (c : Fin 32)
  | unit (mid : Fin 64)
deriving DecidableEq, Repr

/-- Where a request comes from: its master and whether it is at supervisor level (R155, PRIV). -/
structure Source where
  who : Master
  priv : Bool
deriving DecidableEq, Repr

/-- What a request brings beside its address: its size as a power of two, and the data of a write (R155, R156). -/
structure Payload where
  size : Fin 6
  data : BitVec 256
deriving DecidableEq, Repr

/-- An edge at the index input of a quadrature decoder: the decoder, and the level of the ball after the edge (R312). -/
structure IndexEdge where
  qd : Fin 2
  level : Bool
deriving DecidableEq, Repr

/-- A supply rail, in the order of PTM_SUPPLY.GOOD (R182). -/
inductive Rail where
  | vdd33 | vdd12 | vcore | vdda | vusb33 | vddioA
deriving DecidableEq, Repr

/-- An upper die. -/
inductive Upper where
  | c | m
deriving DecidableEq, Repr

/-- What the fuses of the B-die hold (01, Site straps and fuses; R93; R688, R692, R711). -/
structure BFuses where
  stackId : BitVec 64
  sealed : Bool
  rootHash0 : BitVec 256
  rootHash1 : BitVec 256
  rootEpoch0 : BitVec 8
  rootEpoch1 : BitVec 8
  revoke : BitVec 2
  dbg : BitVec 2
  eccLim : BitVec 16
  wearLim : BitVec 32
  hotLim : BitVec 16
  spLim : BitVec 8
  lanes : List (BitVec 28)
deriving DecidableEq, Repr



/-- The commands, in the order of the table. -/
inductive Instr where
  /-- REGISTER_WRITE (R8): A fabric write to a register that has no row of its own, applied under its access codes, Basic/Expert aliasing, BLK_LOCK and PL protection. -/
  | registerWrite (src : Source) (addr : BitVec 32) (size : Fin 6) (data : BitVec 256)
  /-- TALLY_WRITE (R50): A write of any value to a tally register clears the tallies in that register. -/
  | tallyWrite (src : Source) (addr : BitVec 32) (size : Fin 6) (data : BitVec 256)
  /-- RAIL_RISE (R182): A supply rail rises above its rising threshold and becomes good, releasing the dies and functions it feeds. -/
  | railRise (rail : Rail) (testEn : Bool)
  /-- RAIL_FALL (R183): A supply rail falls below its falling threshold, causing the reset, bind-off or forced-off consequence given for that rail. -/
  | railFall (rail : Rail)
  /-- BANK_DETECT (R182): The bank detector decides the VDDIO_A level 10 us after the rail becomes good, and sets MISMATCH after cast-on if the level disagrees. -/
  | bankDetect (v18 : Bool)
  /-- RESET_N_LOW (R53): A low pulse on RESET_N of at least 1 us resets the B-die outside AO. -/
  | resetNLow (ns : BitVec 32)
  /-- TRST_N_LOW (R697): TRST_N low resets the TAP only. -/
  | trstNLow
  /-- SYS_RESET_STACK (R52): A ticketed write of SYS_RESET.STACK resets the B-die outside AO and both upper dies. -/
  | sysResetStack (src : Source) (ticket : BitVec 16)
  /-- B_DIE_FUSE_READ (R17): The B-die site code and fuses have been read, and a strap fault or invalid STACK_ID confines the device to Tier 0. -/
  | bDieFuseRead (site : BitVec 3) (fuses : BFuses)
  /-- UPPER_FUSE_READ (R16): The C-site and M-site codes and fuses have been read over the sidebands, and a die with a strap fault or failed stack-ID check is treated as absent. -/
  | upperFuseRead (cSite mSite : BitVec 3) (cId mId : BitVec 64)
  /-- HSXO_STABLE (R185): HSXO becomes stable and the PLLs lock to it or move their reference to it. -/
  | hsxoStable
  /-- HSXO_START_TIMEOUT (R57): HSXO is not stable 2 ms after power-on, so the PLLs lock to FRC and HSXO_FAIL and ledger cause OSC are set. -/
  | hsxoStartTimeout
  /-- HSXO_STOP (R187): HSXO stops while it is the reference and the PLLs move back to FRC. -/
  | hsxoStop
  /-- PLL_LOCK (R184): PLLC and PLLT achieve lock. -/
  | pllLock
  /-- PLL_REF_MOVE_DONE (R185): The rate-limited move of the PLL reference completes and PTM_CLKSTAT.REF changes. -/
  | pllRefMoveDone
  /-- PLLC_LOSS_OF_LOCK (R39): PLLC loses lock, which at once declares both upper dies lost. -/
  | pllcLossOfLock
  /-- PLLT_LOSS_OF_LOCK (R188): PLLT loses lock, which causes bind-off. -/
  | plltLossOfLock
  /-- LSXO_FAIL (R189): LSXO has not started within 1 s or stops, so the AO domain runs from LSRC and LSXO_FAIL is set. -/
  | lsxoFail
  /-- LINK_TRAINING_DONE (R28): Training of both links completes, with fused spares applied and failing lanes repaired or bundles retired. -/
  | linkTrainingDone (bad : List (Fin 32 × Fin 68))
  /-- UPPER_DIE_RELEASE (R73): An upper die is released from reset; for the C-die ROM_PHASE is set, the boot straps are sampled and thread 0.0 starts the boot ROM. -/
  | upperDieRelease (die : Upper) (boot : Fin 4)
  /-- FLIT_RECEIVE (R20): A link receiver takes a flit, accepting it in sequence or discarding it as bad, reserved, out of order or duplicate, with a NAK where needed. -/
  | flitReceive (linkEnd : Fin 64) (flit : BitVec 256)
  /-- ACK_RECEIVE (R23): A sender receives an ACK and releases retry-buffer entries up to the named SEQ. -/
  | ackReceive (linkEnd : Fin 64) (seq : BitVec 8)
  /-- NAK_RECEIVE (R24): A sender receives a NAK and resends from the named SEQ onwards. -/
  | nakReceive (linkEnd : Fin 64) (seq : BitVec 8)
  /-- ACK_TIMER_EXPIRE (R23): 100 ns passes since the last ACK and the receiver sends ACK with the last accepted SEQ. -/
  | ackTimerExpire (linkEnd : Fin 64)
  /-- HEARTBEAT_SEND (R36): Every 1 us the C-die sends a HEARTBEAT flit on every control bundle. -/
  | heartbeatSend
  /-- HEARTBEAT_PERIOD_MISS (R37): A 1 us period passes without a valid HEARTBEAT, short of a loss, and HB_MISS counts it. -/
  | heartbeatPeriodMiss
  /-- HEARTBEAT_TIMEOUT (R37): 4 us pass without a valid HEARTBEAT on any control bundle and the stack monitor declares the C-die lost. -/
  | heartbeatTimeout
  /-- M_LINK_SILENT_TIMEOUT (R38): 4 us pass without a valid flit on any MB bundle and the M-die is declared lost. -/
  | mLinkSilentTimeout
  /-- M_DIE_RETURN (R46): The restarted M-die's link is trained, key and counter winners and page tallies are loaded, M_STATE becomes up and EV007 is posted. -/
  | mDieReturn
  /-- STK_RESET_C_RST (R39): A ticketed STK_RESET.C_RST write explicitly resets the C-die, declaring it lost at once. -/
  | stkResetCRst (src : Source) (ticket : BitVec 16)
  /-- STK_RESET_M_RST (R39): A ticketed STK_RESET.M_RST write explicitly resets the M-die, declaring it lost at once. -/
  | stkResetMRst (src : Source) (ticket : BitVec 16)
  /-- ORPHAN_TIMEOUT (R41): T_ORPHAN expires after a C-die loss and hold-last legs go to their safe state. -/
  | orphanTimeout (leg : Fin 16)
  /-- LANE_TEST_START (R30): The LBIST gap expires and the next lane is steered onto a spare by a STEER flit and tested, or its bundle is skipped. -/
  | laneTestStart (link : Fin 2)
  /-- LANE_TEST_DONE (R31): A run-time lane test ends; a lane failing twice stays on the spare and LANE_REP is set, otherwise traffic is steered back. -/
  | laneTestDone (link : Fin 2) (bad : Bool)
  /-- HEADER_ARRIVE (R153): A HEADER flit arrives at the crossroads and takes a tag, or is held in the link buffer if none is free. -/
  | headerArrive (src : Source) (op : BitVec 4) (addr : BitVec 32) (body : Payload)
  /-- HELD_HEADER_TAGGED (R153): A held HEADER receives a freed tag and proceeds. -/
  | heldHeaderTagged
  /-- TAG_TIMEOUT (R154): A transaction has held its tag for TMO us and is answered ABORT, its tag freed and XR_LATE counted. -/
  | tagTimeout (tag : BitVec 12)
  /-- RESPONSE_RECEIVE (R165): A response arrives for its master and its tag is freed, or a late reply is discarded into LOST_REPLY. -/
  | responseReceive (tag : BitVec 12) (code : Fin 8) (dup : Bool) (data : BitVec 256)
  /-- MEMORY_READ (R159): A read request to SRAM, local memory, ROM or a register is served in issue order and answered with data or a response code. -/
  | memoryRead (src : Source) (addr : BitVec 32) (size : Fin 6) (ecc : Fin 3)
  /-- MEMORY_WRITE (R161): A write request to SRAM or local memory takes effect and is answered, with ECC merge rules for partial words. -/
  | memoryWrite (src : Source) (addr : BitVec 32) (size : Fin 6) (data : BitVec 256)
  /-- ATOMIC_SWAP (R158): A SWAP request atomically replaces a word in SRAM or local memory and returns the old value. -/
  | atomicSwap (src : Source) (addr : BitVec 32) (wide : Bool) (data : BitVec 64)
  /-- ATOMIC_ADD (R158): An ADD request atomically adds to a word in SRAM or local memory and returns the old value. -/
  | atomicAdd (src : Source) (addr : BitVec 32) (wide : Bool) (data : BitVec 64)
  /-- SHADOW_WRITE (R157): A SHADOW request from the loop engine writes a pulse-generator shadow register, or is discarded into XR_SHADOW_ERR. -/
  | shadowWrite
  /-- DOMAIN_DRAIN_START (R171): The PTM begins to power down a domain, which becomes draining and refuses new requests with PDOWN. -/
  | domainDrainStart (dom : Fin 136)
  /-- DRAIN_ABORT_TIMEOUT (R172): 2 us after drain start, requests the domain still has open are answered ABORT. -/
  | drainAbortTimeout (dom : Fin 136)
  /-- DOMAIN_SWITCH_OFF (R173): A draining domain switches off once all its requests are complete, or is forced off at 10 us. -/
  | domainSwitchOff (dom : Fin 136) (forced : Bool)
  /-- POWERUP_HOLD_TIMEOUT (R174): A request held for a powering-up domain is not served within 10 us and completes with PDOWN. -/
  | powerupHoldTimeout (who : Master)
  /-- BUSY_HOLD_TIMEOUT (R175): A request held at a block under reset or live loading for 1 us completes with BUSY. -/
  | busyHoldTimeout (who : Master)
  /-- ROM_SELF_CHECK (R58): The boot ROM completes its CRC self-check and SRAM bank 0 test, giving up to Tier 0 on failure. -/
  | romSelfCheck (romOk bankOk : Bool)
  /-- ROM_IMAGE_CHECK (R63): The ROM checks a candidate Pattern or firmware image through the ordered checks and records the result code in BOOT_LOG. -/
  | romImageCheck
  /-- CAST_ON (R131): The Pattern is checked and then loaded section by section in the fixed step order. -/
  | castOn (fail : Option (Fin 136))
  /-- FIRMWARE_ENTRY (R69): Firmware starts at ENTRY on thread 0.0, TIER becomes 2 and outputs are released to their functions. -/
  | firmwareEntry
  /-- GIVE_UP_WRITE (R72): The ROM writes SU_TIER.GIVE_UP and the PTM holds the C-die in reset, refused outside ROM_PHASE. -/
  | giveUpWrite (src : Source)
  /-- ROM_DONE_WRITE (R73): The ROM writes ROM_DONE, clearing ROM_PHASE and RECOVER. -/
  | romDoneWrite (src : Source)
  /-- RECOVER_WRITE (R74): A write of SU_TIER.RECOVER requests Tier 1 at the next C-die start. -/
  | recoverWrite (src : Source)
  /-- PROGRESS_WATCHDOG_EXPIRE (R56): The progress watchdog period expires and the PTM explicitly resets the C-die. -/
  | progressWatchdogExpire
  /-- PWD_KICK (R56): A ticketed write of PWD_KICK or SU_KICK restarts the progress watchdog period. -/
  | pwdKick (src : Source) (basic : Bool) (ticket : BitVec 16)
  /-- RECOVERY_PROMPT (R80): Every 100 ms the Tier 1 ROM sends PKRQ on UART0. -/
  | recoveryPrompt
  /-- RECOVERY_IMAGE_RECEIVE (R80): The ROM receives a length and recovery image over UART0 or USB, checks it and answers with a result byte. -/
  | recoveryImageReceive (usb : Bool) (data : List (BitVec 8))
  /-- RECOVERY_TRANSFER_TIMEOUT (R81): A gap of more than 1 s aborts a recovery transfer and prompting resumes. -/
  | recoveryTransferTimeout
  /-- TOMBSTONE_BREAK (R87): A break of at least 250 us on UART0_RX ends and is taken as a tombstone request if the tier allows. -/
  | tombstoneBreak
  /-- TOMBSTONE_SEND_START (R88): The stump sequencer takes UART0_TX and starts sending the 48-byte tombstone record. -/
  | tombstoneSendStart
  /-- TOMBSTONE_SENT (R88): The tombstone record has been sent and UART0_TX is returned. -/
  | tombstoneSent
  /-- HOT_TIME_MINUTE (R94): A minute passes with a die sensor above 115 C and HOT_TIME counts it. -/
  | hotTimeMinute
  /-- LEDGER_RECORD_WRITE (R96): The PTM hands a pending ledger record to the NVM controller once the M-die is up and no drop warning is raised. -/
  | ledgerRecordWrite
  /-- LEDGER_CLR (R95): A ticketed LEDGER_CLR clears named causes in the OPEN debug state, otherwise it is refused. -/
  | ledgerClr (src : Source) (causes : BitVec 8) (ticket : BitVec 16)
  /-- PAT_LIVE_GO (R135): A ticketed GO starts a live re-pattern from the delta in SRAM, or is refused if one is pending. -/
  | patLiveGo (src : Source) (ticket : BitVec 16)
  /-- PAT_LIVE_CANCEL (R141): A ticketed CANCEL discards a pending delta's shadows before the switch. -/
  | patLiveCancel (src : Source) (ticket : BitVec 16)
  /-- LIVE_VERIFY_DONE (R135): The delta's hash, signature and check pass finish, and it is either loaded or rejected. -/
  | liveVerifyDone
  /-- LIVE_LOAD_DONE (R136): Loading of the delta shadows ends and STATE becomes ARMED. -/
  | liveLoadDone
  /-- LIVE_SWITCH_TIMEOUT (R143): The switch row does not complete within 10 ms of ARMED and the shadows are discarded. -/
  | liveSwitchTimeout
  /-- CLOCK_REQUEST (R190): A block or PTM_CLKREQ raises a request for an optional clock source. -/
  | clockRequest (clk : Fin 4) (who : Option (Fin 136))
  /-- CLOCK_GRANT (R190): A requested clock source becomes stable and its grant is raised. -/
  | clockGrant (clk : Fin 4)
  /-- CLOCK_RELEASE (R191): A clock request is withdrawn and the PTM stops the source when no request holds it. -/
  | clockRelease (clk : Fin 4) (who : Option (Fin 136))
  /-- STATE_REQ_DOZE (R193): Firmware requests DOZE, which is then entered whenever no thread has a task. -/
  | stateReqDoze (src : Source) (fastNap : Bool)
  /-- STATE_REQ_NAP (R195): Firmware requests NAP entry, which is refused or starts draining. -/
  | stateReqNap (src : Source) (fastNap : Bool)
  /-- STATE_REQ_HIBERNATE (R195): Firmware requests HIBERNATE entry, which is refused or starts draining. -/
  | stateReqHibernate (src : Source) (fastNap : Bool)
  /-- STATE_REQ_SHUTDOWN (R195): Firmware requests SHUTDOWN entry, which is refused or starts draining. -/
  | stateReqShutdown (src : Source) (fastNap : Bool)
  /-- STATE_ENTRY_TASK_TIMEOUT (R195): A thread still has a task 100 us after a state request and entry is refused with code 3. -/
  | stateEntryTaskTimeout
  /-- STATE_ENTRY_COMPLETE (R196): Draining for a power state ends, clocks stop, pads are held and PWR_EN falls for SHUTDOWN. -/
  | stateEntryComplete
  /-- DOZE_ENTER (R193): With DOZE requested and no thread holding a task, the thread-core clocks are gated. -/
  | dozeEnter
  /-- WAKE_EVENT (R200): An enabled wake source asserts, abandoning an entry in progress or starting a wake. -/
  | wakeEvent (src : Fin 12)
  /-- HIBERNATE_CONFIG_CHECK (R204): On the warm path the ROM checks retained configuration against its CRC, issuing a stack reset on failure. -/
  | hibernateConfigCheck (ok : Bool)
  /-- WAKE_RESUME (R201): The device returns to RUN, records the wake cause and posts EV003. -/
  | wakeResume
  /-- FAST_NAP_PLL_SWITCH (R203): After a fast NAP wake the PLLs lock and the clocks switch from FRC to the PLLs without a glitch. -/
  | fastNapPllSwitch
  /-- DOM_CTRL_ON (R207): Firmware writes a domain's PTM_DOM_CTRL bit to switch it on, or the write is refused with a code. -/
  | domCtrlOn (src : Source) (dom : Fin 136)
  /-- DOM_CTRL_OFF (R207): Firmware clears a domain's PTM_DOM_CTRL bit to switch it off by drain, or the write is refused. -/
  | domCtrlOff (src : Source) (dom : Fin 136)
  /-- DOMAIN_ON (R207): A domain reaches on and held requests to it are released. -/
  | domainOn (dom : Fin 136)
  /-- DOMAIN_ON_TIMEOUT (R208): A domain fails to reach on within 10 us and is recorded with code 4. -/
  | domainOnTimeout (dom : Fin 136)
  /-- TEMP_CONVERSION (R209): Every 50 us each die sensor is converted and the governing temperature is compared with the thermal thresholds. -/
  | tempConversion (tsB tsM tsC0 tsC1 : BitVec 8)
  /-- SUPPLY_DROP_WARNING (R214): VDD33 falls below 2.95 V or the named comparator asserts and the supply-drop warning is raised. -/
  | supplyDropWarning
  /-- SUPPLY_DROP_CLEAR (R217): VDD33 has stayed above 2.98 V for 1 ms and the warning clears, posting EV002. -/
  | supplyDropClear
  /-- ADC_TRIGGER (R250): A rising edge of an ADC trigger destination starts a sequence, pre-empting sequence B or being discarded as overrun. -/
  | adcTrigger (ad : Fin 4) (seq : Fin 2)
  /-- AD_SWTRIG_A (R250): A write of AD_SWTRIG.A triggers sequence A. -/
  | adSwtrigA (src : Source) (ad : Fin 4)
  /-- AD_SWTRIG_B (R250): A write of AD_SWTRIG.B triggers sequence B. -/
  | adSwtrigB (src : Source) (ad : Fin 4)
  /-- ADC_CONVERSION_END (R260): A step's conversion ends, its result is written and sent as a RESULT flit, and the sequence advances or ends with its DMA request and events. -/
  | adcConversionEnd (ad : Fin 4) (uv : BitVec 32)
  /-- YANK_CLEAR (R413): Firmware clears YANK and the run count restarts from 0. -/
  | yankClear (src : Source)
  /-- CSA_READY (R265): An amplifier's output becomes valid 5 us after enable or 1 us after a gain change. -/
  | csaReady (amp : Fin 8)
  /-- COMPARATOR_CROSSING (R268): A comparator's raw output changes as its input crosses the threshold, acting at once on trips and the strobe gate. -/
  | comparatorCrossing (cmp : Fin 24) (uv : BitVec 32)
  /-- COMPARATOR_FILTER_SAMPLE (R271): The majority filter samples the synchronised raw output and updates the conditioned and latched outputs. -/
  | comparatorFilterSample (cmp : Fin 24)
  /-- CM_CFG_WRITE (R270): A write to CMn_CFG or CMn_DAC takes effect, or is ignored for a trip comparator with an armed leg. -/
  | cmCfgWrite (src : Source) (cmp : Fin 24) (dac : Bool) (data : BitVec 32)
  /-- SW_GO (R279): A write of SW_GO starts the selected swatch test or refuses it. -/
  | swGo (src : Source)
  /-- SWATCH_TEST_DONE (R279): A swatch test ends, its result and fail bit are recorded, routes are released and EV096 is posted. -/
  | swatchTestDone (meas : BitVec 12)
  /-- SWATCH_AD3_TIMEOUT (R281): AD3 is not idle within 1 ms and test 4 ends with RESULT 4. -/
  | swatchAd3Timeout
  /-- SLICE_STEP (R290): A counter slice's prescaler expires and the count steps, with matches, period points, REF and load-point transfers. -/
  | sliceStep (slice : Fin 16)
  /-- SLICE_START_EDGE (R294): A rising edge on a slice's start destination sets RUN. -/
  | sliceStartEdge (slice : Fin 16)
  /-- CT_GSTART (R294): A write to CT_GSTART sets RUN on every named slice on the same tick. -/
  | ctGstart (src : Source) (slices : BitVec 16)
  /-- SLICE_SYNC_EDGE (R295): A rising edge on a slice's synchronise destination loads PHASE and PDIR at the next step. -/
  | sliceSyncEdge (slice : Fin 16)
  /-- CT_SHCTL_FORCE (R301): A write of CT_SHCTL.FORCE transfers the slice's shadows at once. -/
  | ctShctlForce (src : Source) (slice : Fin 16) (hold : Bool)
  /-- CT_SHADOW_WRITE (R300): A software write to a slice shadow register lands, becoming active at the next load point or at once under LOAD immediate. -/
  | ctShadowWrite (src : Source) (slice : Fin 16) (which : Fin 5) (data : BitVec 32)
  /-- CAPTURE_EDGE (R306): A filtered edge is accepted by a capture channel and its time is queued or dropped on overflow. -/
  | captureEdge (ch : Fin 16) (rise : Bool)
  /-- CP_DATA_POP (R309): A read of CP_DATA_n pops the head of the capture queue. -/
  | cpDataPop (src : Source) (ch : Fin 16)
  /-- QD_TRANSITION (R310): A quadrature transition steps POS or counts an error. -/
  | qdTransition (qd : Fin 2) (a b : Bool)
  /-- QD_INDEX_EDGE (R312): A rising index edge copies POS to IDXPOS and optionally resets POS. -/
  | qdIndexEdge (edge : IndexEdge)
  /-- LEG_REF_EDGE (R313): A leg's REF changes, turning a side off at once and starting the other side's dead time. -/
  | legRefEdge (leg : Fin 16)
  /-- DEAD_TIME_EXPIRE (R313): A side's dead time expires and it turns on, unless REF has changed back. -/
  | deadTimeExpire (leg : Fin 16) (side : Fin 2)
  /-- BLANK_WINDOW_END (R322): A blanking window ends and a recorded OC either trips the leg or sets BLANKED. -/
  | blankWindowEnd (leg : Fin 16)
  /-- LG_ARM_ARM (R316): A write of LG_ARM.ARM requests arming at the next period start, or is refused with ARM_ERR. -/
  | lgArmArm (src : Source) (leg : Fin 16)
  /-- LG_ARM_NOW (R316): ARM with NOW arms the leg at once. -/
  | lgArmNow (src : Source) (leg : Fin 16)
  /-- LG_ARM_DISARM (R318): A write of LG_ARM.DISARM returns the leg to safe and cancels a pending arm. -/
  | lgArmDisarm (src : Source) (leg : Fin 16)
  /-- LG_ARM_SWTRIP (R321): A write of LG_ARM.SWTRIP trips the leg with cause SW. -/
  | lgArmSwtrip (src : Source) (leg : Fin 16)
  /-- LEG_EXT_TRIP (R321): A rising edge of a leg's external trip destination trips it with cause EXT. -/
  | legExtTrip (leg : Fin 16)
  /-- BG_ARM (R317): A write to BG_ARM arms every leg of the named groups on one period start, or refuses the group. -/
  | bgArm (src : Source) (groups : BitVec 6)
  /-- LG_CFG_WRITE (R315): A write to LG_CFG or LG_DT takes effect only while the leg is disarmed, else CFG_IGN is set. -/
  | lgCfgWrite (src : Source) (leg : Fin 16) (dt : Bool) (data : BitVec 32)
  /-- STROBE_BURST_START (R332): A burst start from the streamer or destination 81 transfers widths and schedules each enabled strobe. -/
  | strobeBurstStart
  /-- STROBE_ACTIVATE (R332): A strobe's delay expires and it goes active. -/
  | strobeActivate (strobe : Fin 8)
  /-- STROBE_WIDTH_END (R332): A strobe's width expires and it goes inactive. -/
  | strobeWidthEnd (strobe : Fin 8)
  /-- ROW_TRIGGER (R357): A row's trigger pulse is relayed as EV240+r and the row becomes pending, or overruns. -/
  | rowTrigger (row : Fin 16)
  /-- STITCH (R351): The loop engine executes one stitch of a slot's law and output stage, issuing its SHADOW. -/
  | stitch (ecc : Fin 3)
  /-- RESULT_RECEIVE (R361): A RESULT flit writes a slot latch and marks it fresh, making an express slot ready, or posts an event. -/
  | resultReceive
  /-- EXPRESS_STITCH (R362): At a stitch boundary the lowest ready express slot runs its stitch. -/
  | expressStitch (ecc : Fin 3)
  /-- LE_SWAP (R377): A write to LE_SWAP requests a parameter bank swap at the next row boundary. -/
  | leSwap (src : Source) (high : Bool) (slots : BitVec 32)
  /-- LE_CLR (R379): A write to LE_CLR clears a slot's state at its next stitch. -/
  | leClr (src : Source) (high : Bool) (slots : BitVec 32)
  /-- LT_PRELOAD (R370): A PRELOAD request copies PRELOAD into VALUE at the next row boundary. -/
  | ltPreload (src : Source) (table : Fin 4) (freeze : Bool)
  /-- LT_SNAP (R370): A SNAP request copies VALUE into SNAP at the next row boundary. -/
  | ltSnap (src : Source) (table : Fin 4) (freeze : Bool)
  /-- LT_COPY_DONE (R370): A table copy ends, BUSY clears and EV177 is posted. -/
  | ltCopyDone (table : Fin 4)
  /-- HDS_COMMIT (R391): A write of HDS_COMMIT sets FULL for a line slot, or counts a duplicate. -/
  | hdsCommit (src : Source) (slots : BitVec 2)
  /-- HDS_CTRL_WRITE (R392): A write of HDS_CTRL; EN rising clears FULL bits and NEXT, EN falling abandons a line. -/
  | hdsCtrlWrite (src : Source) (data : BitVec 32)
  /-- LINE_START (R398): A rising edge of destination 80 starts a line from slot NEXT, or counts overrun or underrun. -/
  | lineStart
  /-- HDS_GO_LINE (R398): A write of HDS_GO.LINE starts a line. -/
  | hdsGoLine (src : Source)
  /-- PLANE_SHIFT_DONE (R395): A plane has been shifted into the head. -/
  | planeShiftDone
  /-- LATCH_PULSE_START (R395): After setup and gap the latch pulse goes active. -/
  | latchPulseStart
  /-- LATCH_PULSE_END (R395): The latch pulse ends and a scaled strobe burst is requested, starting the next plane's shift. -/
  | latchPulseEnd
  /-- HCU_IN_WR_WRITE (R404): Firmware advances HCU_IN_WR, making a line available to the HCU. -/
  | hcuInWrWrite (src : Source) (data : BitVec 32)
  /-- HCU_LINE_PROCESS (R404): The HCU processes the line at IN_RD into four planes and writes them to its next slot. -/
  | hcuLineProcess
  /-- HCU_SLOT_POLL (R408): Every 1 us the HCU re-reads a FULL slot until it is free. -/
  | hcuSlotPoll
  /-- HCU_COMMIT (R408): All plane writes are OK and the HCU commits the slot and posts EV103. -/
  | hcuCommit
  /-- HCU_ERR_CLEAR (R418): Firmware clears ERR and the HCU retries the failed line. -/
  | hcuErrClear (src : Source)
  /-- HCU_HIST_CLR (R407): A write of HIST_CLR makes the two history lines read as zeros. -/
  | hcuHistClr (src : Source) (data : BitVec 32)
  /-- DK_FIRE (R415): A write of DK_FIRE_d starts a drawer-kick pulse, or is refused. -/
  | dkFire (src : Source) (dk : Fin 2)
  /-- DK_PULSE_END (R415): ON_MS expires, the output goes inactive and EV105 is posted. -/
  | dkPulseEnd (dk : Fin 2)
  /-- DK_COOL_END (R415): OFF_MS cooling expires and the output may fire again. -/
  | dkCoolEnd (dk : Fin 2)
  /-- FETCH_REFILL_DONE (R432): A thread's fetch-buffer refill completes, or raises BUS_LOAD on fetch. -/
  | fetchRefillDone (t : Fin 48) (parity : Bool)
  /-- LOAD_RESPONSE (R439): A load or atomic response arrives, writing the register or raising BUS_LOAD. -/
  | loadResponse (t : Fin 48) (parity : Bool)
  /-- STORE_BUFFER_DRAIN (R441): A posted store leaves the store buffer for the fabric within the thread's limit. -/
  | storeBufferDrain (t : Fin 48)
  /-- STORE_RESPONSE (R444): A posted store's response frees its entry and raises a NOTICE if not OK. -/
  | storeResponse (t : Fin 48)
  /-- DIVIDE_DONE (R430): A divide completes and writes its result. -/
  | divideDone (t : Fin 48)
  /-- ASYNC_EXCEPTION (R452): A pending WATCHDOG, NOTICE or DISPATCH is taken in place of the thread's next issue. -/
  | asyncException (t : Fin 48)
  /-- THREAD_WATCHDOG_EXPIRE (R457): A thread watchdog expires, sets EXPIRED, reloads and raises WATCHDOG. -/
  | threadWatchdogExpire (t : Fin 40)
  /-- WD_KICK (R456): A write of WD_KICK reloads the thread watchdogs named. -/
  | wdKick (src : Source) (basic : Bool) (threads : BitVec 8)
  /-- TC_DFAULT_CLEAR (R454): Clearing a TC_DFAULT bit lets the thread take tasks again. -/
  | tcDfaultClear (src : Source) (core : Fin 5) (threads : BitVec 8)
  /-- CC_INV_IC_ALL (R435): Invalidate the whole instruction cache. -/
  | ccInvIcAll (src : Source)
  /-- CC_INV_RC_ALL (R435): Invalidate the whole read cache. -/
  | ccInvRcAll (src : Source)
  /-- CC_INV_IC_RANGE (R435): Invalidate a range of the instruction cache. -/
  | ccInvIcRange (src : Source)
  /-- CC_INV_RC_RANGE (R435): Invalidate a range of the read cache. -/
  | ccInvRcRange (src : Source)
  /-- CC_INV_DONE (R435): A cache invalidation ends and BUSY clears. -/
  | ccInvDone (core : Fin 6)
  /-- ADD (R466): rd := ra + rb. -/
  | add (t : Fin 48) (rd ra rb : Fin 16)
  /-- SUB (R466): rd := ra - rb. -/
  | sub (t : Fin 48) (rd ra rb : Fin 16)
  /-- AND (R466): Bitwise AND. -/
  | and_ (t : Fin 48) (rd ra rb : Fin 16)
  /-- OR (R466): Bitwise OR. -/
  | or_ (t : Fin 48) (rd ra rb : Fin 16)
  /-- XOR (R466): Bitwise XOR. -/
  | xor_ (t : Fin 48) (rd ra rb : Fin 16)
  /-- ANDN (R466): rd := ra AND NOT rb. -/
  | andn (t : Fin 48) (rd ra rb : Fin 16)
  /-- SHL (R466): Shift left. -/
  | shl (t : Fin 48) (rd ra rb : Fin 16)
  /-- SHR (R466): Shift right logical. -/
  | shr (t : Fin 48) (rd ra rb : Fin 16)
  /-- SAR (R466): Shift right arithmetic. -/
  | sar (t : Fin 48) (rd ra rb : Fin 16)
  /-- ROR (R466): Rotate right. -/
  | ror (t : Fin 48) (rd ra rb : Fin 16)
  /-- SLT (R466): Set if less than, signed. -/
  | slt (t : Fin 48) (rd ra rb : Fin 16)
  /-- SLTU (R466): Set if less than, unsigned. -/
  | sltu (t : Fin 48) (rd ra rb : Fin 16)
  /-- MIN (R466): Signed minimum. -/
  | min (t : Fin 48) (rd ra rb : Fin 16)
  /-- MAX (R466): Signed maximum. -/
  | max (t : Fin 48) (rd ra rb : Fin 16)
  /-- MINU (R466): Unsigned minimum. -/
  | minu (t : Fin 48) (rd ra rb : Fin 16)
  /-- MAXU (R466): Unsigned maximum. -/
  | maxu (t : Fin 48) (rd ra rb : Fin 16)
  /-- MUL (R467): Low 32 bits of the product. -/
  | mul (t : Fin 48) (rd ra rb : Fin 16)
  /-- MULH (R467): High 32 bits of the signed product. -/
  | mulh (t : Fin 48) (rd ra rb : Fin 16)
  /-- MULHU (R467): High 32 bits of the unsigned product. -/
  | mulhu (t : Fin 48) (rd ra rb : Fin 16)
  /-- MULQ (R467): Rounded saturating Q1.31 product. -/
  | mulq (t : Fin 48) (rd ra rb : Fin 16)
  /-- MULX (R467): Rounded saturating Q16.16 product. -/
  | mulx (t : Fin 48) (rd ra rb : Fin 16)
  /-- DIV (R467): Signed quotient, or DIVZERO. -/
  | div (t : Fin 48) (rd ra rb : Fin 16)
  /-- DIVU (R467): Unsigned quotient, or DIVZERO. -/
  | divu (t : Fin 48) (rd ra rb : Fin 16)
  /-- REM (R467): Signed remainder. -/
  | rem (t : Fin 48) (rd ra rb : Fin 16)
  /-- REMU (R467): Unsigned remainder. -/
  | remu (t : Fin 48) (rd ra rb : Fin 16)
  /-- ADDS (R468): Saturating signed add. -/
  | adds (t : Fin 48) (rd ra rb : Fin 16)
  /-- SUBS (R468): Saturating signed subtract. -/
  | subs (t : Fin 48) (rd ra rb : Fin 16)
  /-- ADDUS (R468): Saturating unsigned add. -/
  | addus (t : Fin 48) (rd ra rb : Fin 16)
  /-- SUBUS (R468): Saturating unsigned subtract. -/
  | subus (t : Fin 48) (rd ra rb : Fin 16)
  /-- NEGS (R468): Saturating negate. -/
  | negs (t : Fin 48) (rd ra : Fin 16)
  /-- ABSS (R468): Saturating absolute value. -/
  | abss (t : Fin 48) (rd ra : Fin 16)
  /-- SATS (R468): Clamp to an n-bit signed range. -/
  | sats (t : Fin 48) (rd ra : Fin 16) (n : Fin 32)
  /-- SATU (R468): Clamp to an n-bit unsigned range. -/
  | satu (t : Fin 48) (rd ra : Fin 16) (n : Fin 32)
  /-- SHLS (R468): Saturating shift left. -/
  | shls (t : Fin 48) (rd ra rb : Fin 16)
  /-- EXTU (R469): Extract a bit field, zero-extended. -/
  | extu (t : Fin 48) (rd ra : Fin 16) (p w : Fin 32)
  /-- EXTS (R469): Extract a bit field, sign-extended. -/
  | exts (t : Fin 48) (rd ra : Fin 16) (p w : Fin 32)
  /-- INS (R469): Insert a bit field into rd. -/
  | ins (t : Fin 48) (rd ra : Fin 16) (p w : Fin 32)
  /-- CLZ (R469): Count leading zeros. -/
  | clz (t : Fin 48) (rd ra : Fin 16)
  /-- POPC (R469): Count one bits. -/
  | popc (t : Fin 48) (rd ra : Fin 16)
  /-- REV8 (R469): Reverse byte order. -/
  | rev8 (t : Fin 48) (rd ra : Fin 16)
  /-- SWAPW (R476): Atomic 4-byte swap. -/
  | swapw (t : Fin 48) (rd ra rb : Fin 16)
  /-- ADDW (R476): Atomic 4-byte add. -/
  | addw (t : Fin 48) (rd ra rb : Fin 16)
  /-- SWAPD (R476): Atomic 8-byte swap. -/
  | swapd (t : Fin 48) (rd ra rb : Fin 16)
  /-- ADDD (R476): Atomic 8-byte add. -/
  | addd (t : Fin 48) (rd ra rb : Fin 16)
  /-- ADDI (R470): Add a sign-extended immediate. -/
  | addi (t : Fin 48) (rd ra : Fin 16) (imm : BitVec 18)
  /-- ANDI (R470): AND with a zero-extended immediate. -/
  | andi (t : Fin 48) (rd ra : Fin 16) (imm : BitVec 18)
  /-- ORI (R470): OR with a zero-extended immediate. -/
  | ori (t : Fin 48) (rd ra : Fin 16) (imm : BitVec 18)
  /-- XORI (R470): XOR with a zero-extended immediate. -/
  | xori (t : Fin 48) (rd ra : Fin 16) (imm : BitVec 18)
  /-- SLTI (R470): Set if less than an immediate, signed. -/
  | slti (t : Fin 48) (rd ra : Fin 16) (imm : BitVec 18)
  /-- SLTIU (R470): Set if less than an immediate, unsigned. -/
  | sltiu (t : Fin 48) (rd ra : Fin 16) (imm : BitVec 18)
  /-- SHI (R470): Shift or rotate by an immediate. -/
  | shi (t : Fin 48) (rd ra : Fin 16) (kind : Fin 4) (n : Fin 32)
  /-- LUI (R470): rd := imm22 << 10. -/
  | lui (t : Fin 48) (rd : Fin 16) (imm : BitVec 22)
  /-- LI (R470): rd := sext(imm22). -/
  | li (t : Fin 48) (rd : Fin 16) (imm : BitVec 22)
  /-- JAL (R481): Jump relative and link. -/
  | jal (t : Fin 48) (rd : Fin 16) (imm : BitVec 22)
  /-- JALR (R481): Jump to register plus offset and link. -/
  | jalr (t : Fin 48) (rd ra : Fin 16) (imm : BitVec 18)
  /-- BR (R480): Compare two registers and branch. -/
  | br (t : Fin 48) (cond : Fin 8) (ra rb : Fin 16) (disp : BitVec 14)
  /-- BRZ (R480): Compare a register with zero and branch. -/
  | brz (t : Fin 48) (cond : Fin 8) (ra : Fin 16) (disp : BitVec 14)
  /-- LDB (R471): Load a byte, sign-extended. -/
  | ldb (t : Fin 48) (rd ra : Fin 16) (imm : BitVec 18)
  /-- LDBU (R471): Load a byte, zero-extended. -/
  | ldbu (t : Fin 48) (rd ra : Fin 16) (imm : BitVec 18)
  /-- LDH (R471): Load a halfword, sign-extended. -/
  | ldh (t : Fin 48) (rd ra : Fin 16) (imm : BitVec 18)
  /-- LDHU (R471): Load a halfword, zero-extended. -/
  | ldhu (t : Fin 48) (rd ra : Fin 16) (imm : BitVec 18)
  /-- LDW (R471): Load a word. -/
  | ldw (t : Fin 48) (rd ra : Fin 16) (imm : BitVec 18)
  /-- LDP (R471): Load a register pair in one 8-byte request. -/
  | ldp (t : Fin 48) (rd ra : Fin 16) (imm : BitVec 18)
  /-- STB (R471): Store a byte. -/
  | stb (t : Fin 48) (rd ra : Fin 16) (imm : BitVec 18)
  /-- STH (R471): Store a halfword. -/
  | sth (t : Fin 48) (rd ra : Fin 16) (imm : BitVec 18)
  /-- STW (R471): Store a word. -/
  | stw (t : Fin 48) (rd ra : Fin 16) (imm : BitVec 18)
  /-- STP (R471): Store a register pair in one 8-byte request. -/
  | stp (t : Fin 48) (rd ra : Fin 16) (imm : BitVec 18)
  /-- MFS (R491): Read a system register. -/
  | mfs (t : Fin 48) (rd : Fin 16) (num : BitVec 10)
  /-- MTS (R484): Write a system register. -/
  | mts (t : Fin 48) (ra : Fin 16) (num : BitVec 10)
  /-- TRAP (R448): Raise cause TRAP with XINFO n. -/
  | trap (t : Fin 48) (num : BitVec 10)
  /-- RETX (R448): Return from exception, restoring TSR and PC. -/
  | retx (t : Fin 48)
  /-- SYNC (R443): Wait until all of the thread's stores have responses. -/
  | sync (t : Fin 48)
  /-- TEND (R509): End the running task; it becomes IDLE or READY again if PENDING. -/
  | tend (t : Fin 48)
  /-- TWAIT (R510): Save the task's context and wait for a dispatcher signal. -/
  | twait (t : Fin 48)
  /-- BRK (R708): Halt for debug or raise DEBUG. -/
  | brk (t : Fin 48) (num : BitVec 10)
  /-- IBUF (R482): Discard the thread's fetch buffer. -/
  | ibuf (t : Fin 48)
  /-- NOP (R482): No effect. -/
  | nop (t : Fin 48)
  /-- ILLEGAL_INSTRUCTION (R487): A reserved or malformed encoding raises ILLEGAL. -/
  | illegalInstruction (t : Fin 48) (word : BitVec 32)
  /-- EVENT_POST (R498): An enabled event input posts its bound task, acting on the task's state. -/
  | eventPost (ev : Fin 256)
  /-- DSP_POST (R498): A ticketed write of DSP_POST or DSP_BASIC_POST posts the named task. -/
  | dspPost (src : Source) (basic : Bool) (task : BitVec 8) (ticket : BitVec 16)
  /-- CONTEXT_SAVE_DONE (R507): A victim's save record writes complete and the new task is loaded. -/
  | contextSaveDone (t : Fin 40)
  /-- TASK_DISPATCH (R502): A free thread takes the most urgent runnable task from its queues. -/
  | taskDispatch
  /-- LOAD_WINDOW_END (R517): A load window ends and ISSUE and BUSY are stored. -/
  | loadWindowEnd (core : Fin 5)
  /-- DSP_RECOVER (R520): A write of DSP_RECOVER returns a FAULTED task to IDLE. -/
  | dspRecover (src : Source) (task : BitVec 8)
  /-- DSP_CTRL_EN (R522): A write of DSP_CTRL.EN holds or releases posts at the queues. -/
  | dspCtrlEn (src : Source) (en : Bool)
  /-- MPU_LOCK (R535): A write of MPU_CTRL.LOCK locks the core's MPU registers. -/
  | mpuLock (src : Source) (defEn : Bool)
  /-- SENSE_LINE_CHANGE (R553): A SENSE destination changes and reaches each copy's synchroniser. -/
  | senseLineChange (line : Fin 16) (copy : Fin 2) (level : Bool)
  /-- SP_WINDOW_CLASSIFY (R558): A supervisor window ends and the compare unit classifies agreement, divergence or mismatch. -/
  | spWindowClassify
  /-- SP_RESEED_DONE (R560): The copy of SP-M state into SP-C ends and SP-C restarts two cycles behind. -/
  | spReseedDone
  /-- SP_RATE_INTERVAL (R561): A RATE_MS interval ends and SP_RATE is cleared. -/
  | spRateInterval
  /-- SP_SPLIT (R564): A write of SP_HINGE.SPLIT starts a split, or is refused with HCODE. -/
  | spSplit (src : Source)
  /-- SP_REJOIN (R564): A write of SP_HINGE.REJOIN starts a rejoin, or is refused with HCODE. -/
  | spRejoin (src : Source)
  /-- SP_SPLIT_HINGE (R568): The truncated window is classified and the threads are divided at the split hinge. -/
  | spSplitHinge
  /-- SP_REJOIN_HINGE (R569): All responses are in, thread states are exchanged and lock-step resumes. -/
  | spRejoinHinge
  /-- SP_DEGRADE (R572): A write of SP_CTRL.DEGRADE moves the pair to degraded. -/
  | spDegrade (src : Source)
  /-- SP_INJ_C (R576): Inject one compute mismatch in the OPEN debug state. -/
  | spInjC (src : Source)
  /-- SP_INJ_I (R576): Inject one input divergence in the OPEN debug state. -/
  | spInjI (src : Source)
  /-- SP_REPLAY_APPLY (R575): SP-C applies a debug write from the replay log at the matching instruction boundary. -/
  | spReplayApply
  /-- DC_DOORBELL (R586): A ticketed doorbell ring makes an idle channel fetch its next descriptor, or sets RESCAN. -/
  | dcDoorbell (src : Source) (ch : Fin 32) (ticket : BitVec 16)
  /-- DESCRIPTOR_FETCHED (R584): A descriptor fetch completes and it is checked, run, skipped or rejected. -/
  | descriptorFetched (ch : Fin 32)
  /-- DMA_READ_RESPONSE (R591): A channel's source read completes and data is buffered for writing. -/
  | dmaReadResponse (ch : Fin 32)
  /-- DMA_WRITE_RESPONSE (R591): A channel's destination write completes. -/
  | dmaWriteResponse (ch : Fin 32)
  /-- DESCRIPTOR_COMPLETE (R595): A descriptor's completion writes finish and the channel posts its event and moves on. -/
  | descriptorComplete (ch : Fin 32)
  /-- DMA_PACE_REQUEST (R593): A paced request source asks for a chunk. -/
  | dmaPaceRequest (source : Fin 64)
  /-- DC_RING_RD_WRITE (R597): Firmware advances DC_RING_RD, releasing a channel in RINGWAIT. -/
  | dcRingRdWrite (src : Source) (ch : Fin 32) (data : BitVec 32)
  /-- DC_STOP (R603): A write of DC_CTRL.STOP ends issue at the next request boundary. -/
  | dcStop (src : Source) (ch : Fin 32)
  /-- DC_STOPPED (R603): Outstanding requests complete and the channel enters STOPPED. -/
  | dcStopped (ch : Fin 32)
  /-- DC_CLEAR (R602): A write of DC_CTRL.CLEAR moves a halted or stopped channel to idle. -/
  | dcClear (src : Source) (ch : Fin 32)
  /-- DC_CFG_WRITE (R587): A write of DC_CFG; clearing EN on an active channel acts as STOP. -/
  | dcCfgWrite (src : Source) (ch : Fin 32) (data : BitVec 32)
  /-- DC_NEXT_WRITE (R602): A write of DC_NEXT, refused unless the channel is idle, halted or stopped. -/
  | dcNextWrite (src : Source) (ch : Fin 32) (data : BitVec 32)
  /-- DMA_MID_WRITE (R581): A write of DMA_MID_n, refused while busy or locked. -/
  | dmaMidWrite (src : Source) (ch : Fin 32) (mid : BitVec 6)
  /-- DMA_MID_LOCK (R581): A write of DMA_CTRL.MID_LOCK locks every DMA_MID_n. -/
  | dmaMidLock (src : Source)
  /-- CX_FEED_WRITE (R613): A write to a context's feed window folds its bytes. -/
  | cxFeedWrite (src : Source) (ctx : Fin 16) (place : Fin 32) (size : Fin 6) (data : BitVec 256)
  /-- CX_START (R612): CX_CMD.START sets S := INIT and clears status. -/
  | cxStart (src : Source) (ctx : Fin 16)
  /-- CX_FINISH (R612): CX_CMD.FINISH computes RESULT and compares it in COMPARE mode. -/
  | cxFinish (src : Source) (ctx : Fin 16)
  /-- CX_PRESET (R611): A write of CX_PRESET loads a preset's parameters. -/
  | cxPreset (src : Source) (ctx : Fin 16) (code : BitVec 3)
  /-- CX_CONFIG_WRITE (R610): A write to a context's configuration, refused while busy, in a frame or binding a taken path. -/
  | cxConfigWrite (src : Source) (ctx : Fin 16) (which : Fin 5) (data : BitVec 64)
  /-- CX_FRAME_START (R616): A frame starts on a bound port path and the context resets S and sets FRAME. -/
  | cxFrameStart (path : Fin 4)
  /-- CX_APPEND (R616): At the end of a transmitted frame the context appends its check bytes. -/
  | cxAppend (link : Bool)
  /-- CX_STRIP (R617): At the end of a received frame the context strips and compares its check bytes. -/
  | cxStrip (link : Bool) (frame : List (BitVec 8))
  /-- CX_SCRUB_PERIOD (R618): A scrub period ends and a pass starts, or SCRUB_LATE counts. -/
  | cxScrubPeriod (ctx : Fin 16)
  /-- CX_SCRUB_PASS_END (R618): A scrub pass finishes its reads and compares, or ends on a read error. -/
  | cxScrubPassEnd (ctx : Fin 16)
  /-- CX_SLICE (R620): The engine begins a new slice, choosing the next context by class and rotation. -/
  | cxSlice
  /-- PT_TX_PUSH (R627): A ticketed push appends bytes to a port's transmit FIFO, or is held for room. -/
  | ptTxPush (src : Source) (port : Fin 6) (data : BitVec 32) (n : Fin 4) (ep : Fin 8) (ticket : BitVec 16)
  /-- TX_PUSH_TIMEOUT (R629): A held push finds no room within 1 us and completes with ABORT. -/
  | txPushTimeout (who : Master)
  /-- PT_TX_STREAM (R628): A write to PT_TX_STREAM appends four bytes. -/
  | ptTxStream (src : Source) (port : Fin 6) (ep : Fin 8) (data : BitVec 32)
  /-- PT_RX_POP (R630): A read of PT_RX_POP removes one entry from the receive FIFO. -/
  | ptRxPop (src : Source) (port : Fin 6) (ep : Fin 8)
  /-- USB_OUT_TOKEN (R635): An OUT or PING is answered ACK, NAK or NYET, and data is taken or a toggle duplicate discarded. -/
  | usbOutToken (addr : BitVec 7) (ep : Fin 8) (ping toggle : Bool) (data : List (BitVec 8))
  /-- USB_IN_TOKEN (R635): An IN is answered with a full buffer's packet or NAK. -/
  | usbInToken (addr : BitVec 7) (ep : Fin 8) (acked : Bool)
  /-- USB_SETUP (R636): A SETUP packet is accepted into unit 0 and delivered as a frame. -/
  | usbSetup (addr : BitVec 7) (data : BitVec 64)
  /-- USB_VBUS_RISE (R637): VBUS rises and the pull-up is applied if connected and clocked. -/
  | usbVbusRise
  /-- USB_VBUS_FALL (R637): VBUS falls, removing the pull-up, flushing endpoints and posting EV180. -/
  | usbVbusFall
  /-- USB_BUS_RESET (R637): A bus reset clears USB_ADDR and the toggles and posts EV180. -/
  | usbBusReset (hs : Bool)
  /-- USB_SUSPEND (R638): 3 ms of bus idle sets SUSPENDED and posts EV180. -/
  | usbSuspend
  /-- USB_RESUME (R638): Host resume signalling clears SUSPENDED. -/
  | usbResume
  /-- USB_RWAKE (R638): A write of RWAKE while suspended starts 2 ms of resume signalling. -/
  | usbRwake (src : Source) (connect hsEn : Bool)
  /-- USB_RWAKE_END (R638): Remote-wake resume signalling ends after 2 ms. -/
  | usbRwakeEnd
  /-- USB_EPCFG_WRITE (R634): A write of USB_EPCFG_n, refused on overlap or while enabled. -/
  | usbEpcfgWrite (src : Source) (ep : Fin 7) (data : BitVec 32)
  /-- ETH_FRAME_RECEIVE (R642): A received frame is filtered, checked and stored, or dropped. -/
  | ethFrameReceive (frame : List (BitVec 8))
  /-- ETH_PAUSE_REPEAT (R644): Every PAUSE_TIME/2 quanta above XOFF_LEVEL the PAUSE is repeated. -/
  | ethPauseRepeat
  /-- ETH_PAUSE_RECEIVE (R645): A received PAUSE holds the next frame start for its time. -/
  | ethPauseReceive (quanta : BitVec 16)
  /-- ETH_PAUSE_EXPIRE (R645): The received pause time expires and transmission may resume. -/
  | ethPauseExpire
  /-- ETH_FRAME_TRANSMIT (R641): A whole frame in the transmit FIFO starts transmission. -/
  | ethFrameTransmit
  /-- ETH_FRAME_SENT (R641): A frame transmission ends, or is retried or discarded after collisions. -/
  | ethFrameSent (collision : Bool)
  /-- ETH_MDIO_CMD (R646): A write of ETH_MDIO_CMD starts a management frame, or sets MDIO_OVR. -/
  | ethMdioCmd (src : Source) (data : BitVec 32)
  /-- ETH_MDIO_DONE (R646): A management frame completes and EV183 is posted. -/
  | ethMdioDone (data : BitVec 16)
  /-- UART_CHAR_RECEIVE (R651): A character or break is received into the FIFO, with flow control and overrun. -/
  | uartCharReceive (u : Fin 2) (data : BitVec 8) (framing parity brk : Bool)
  /-- UART_CHAR_TRANSMIT (R649): A character starts transmission when CTS and XOFF allow. -/
  | uartCharTransmit (u : Fin 2) (cts : Bool)
  /-- UART_CHAR_SENT (R649): A transmitted character completes its stop bits. -/
  | uartCharSent (u : Fin 2)
  /-- MOD_TRANSACTION_START (R653): A whole frame and room for the reply start an SPI transaction. -/
  | modTransactionStart
  /-- MOD_BLOCK_START (R653): MOD_RDY is high and the next block of BURST bytes is clocked. -/
  | modBlockStart
  /-- MOD_TRANSACTION_DONE (R653): CS_N rises, the received frame is delivered and EV188 is posted. -/
  | modTransactionDone (rx : List (BitVec 8))
  /-- MOD_RDY_TIMEOUT (R654): MOD_RDY stays low for RDY_TMO and the transaction ends with STATUS 2. -/
  | modRdyTimeout (rx : List (BitVec 8))
  /-- MOD_IRQ_FALL (R656): A falling edge of MOD_IRQ posts EV189. -/
  | modIrqFall
  /-- SL_DATA_RECEIVE (R665): A station-link DATA frame is received, checked, stored or discarded, and its credits taken. -/
  | slDataReceive (frame : List (BitVec 8))
  /-- SL_CREDIT_RECEIVE (R661): A CREDIT frame adds CRET to TX_CREDITS. -/
  | slCreditReceive (frame : List (BitVec 8))
  /-- SL_HELLO_RECEIVE (R664): A HELLO sets credits, brings the link up or resets the peer state. -/
  | slHelloReceive (frame : List (BitVec 8))
  /-- SL_DATA_SEND (R661): A DATA frame starts when the link is up and enough credits are available. -/
  | slDataSend
  /-- SL_CREDIT_TIMEOUT (R662): No frame starts within 1 us of pending credits and a CREDIT frame is sent. -/
  | slCreditTimeout
  /-- SL_HELLO_TIMER (R663): Every 10 us until a HELLO is received the link sends HELLO. -/
  | slHelloTimer
  /-- SL_LINK_TIMEOUT (R665): No SL_RXC edge for 1 us takes the link down. -/
  | slLinkTimeout
  /-- NVM_READ (R675): An NVM word read returns data, corrected data or ECC. -/
  | nvmRead (src : Source) (offset : BitVec 25) (size : Fin 6) (word : Fin 4) (ecc : Fin 3)
  /-- NVM_WRITE (R674): An NVM write programs and verifies its words in order and counts page tallies. -/
  | nvmWrite (src : Source) (offset : BitVec 25) (size : Fin 6) (data : BitVec 256) (fail : Option (Fin 4))
  /-- ECC_BUCKET_ROLL (R675): An hour of powered time ends and the 24-hour count rolls to a new bucket. -/
  | eccBucketRoll
  /-- NVM_TALLY_SAVE (R678): A write of NVM_TALLY_SAVE saves the page tallies. -/
  | nvmTallySave (src : Source)
  /-- NVM_TALLY_SAVE_TIMER (R678): Every 60 minutes of powered time the tallies are saved. -/
  | nvmTallySaveTimer
  /-- KEY_COMMIT (R681): A ticketed KEY_COMMIT starts verification of a staged key record. -/
  | keyCommit (src : Source) (slot : Fin 4) (ticket : BitVec 16)
  /-- KEY_COMMIT_VERIFIED (R682): The authorising signature check ends and the commit proceeds or fails. -/
  | keyCommitVerified
  /-- KEY_COMMIT_WRITTEN (R681): The record's words are written, winners are re-elected and EV098 is posted. -/
  | keyCommitWritten (fail : Option (Fin 10))
  /-- CTR_RAISE (R687): A write of CTR_RAISE_n raises a counter by writing both copies. -/
  | ctrRaise (src : Source) (ctr : Fin 8) (value : BitVec 32)
  /-- CTR_RAISE_DONE (R687): Both copy writes end, the value is re-elected and a log entry is written. -/
  | ctrRaiseDone (n : Fin 8) (fail0 fail1 : Bool)
  /-- EVENT_LOG_WRITE (R694): A pending entry is written at LOG_WR with the next SEQ. -/
  | eventLogWrite
  /-- LOG_SEARCH_DONE (R759): The event-log search at M-die up ends and LOG_WR and LOG_SEQ are set. -/
  | logSearchDone
  /-- CR_HASH (R693): Crypto command HASH computes SHA-256. -/
  | crHash (src : Source)
  /-- CR_VERIFY (R688): Crypto command VERIFY checks a signature. -/
  | crVerify (src : Source)
  /-- CR_IMAGE (R693): Crypto command IMAGE checks an image. -/
  | crImage (src : Source) (kind : BitVec 3)
  /-- CR_REVOKE (R692): Crypto command REVOKE revokes a root. -/
  | crRevoke (src : Source)
  /-- CR_COMMAND_DONE (R693): A crypto command ends and EV099 is posted. -/
  | crCommandDone
  /-- TAP_RESET (R698): A TAP reset selects IDCODE. -/
  | tapReset
  /-- TAP_EXTEST (R701): EXTEST drives balls from boundary-scan cells. -/
  | tapExtest (cells : BitVec 311)
  /-- TAP_SAMPLE_PRELOAD (R698): SAMPLE/PRELOAD captures and loads the chain. -/
  | tapSamplePreload (cells : BitVec 311)
  /-- TAP_IDCODE (R699): IDCODE returns the device identity. -/
  | tapIdcode
  /-- TAP_CLAMP (R701): CLAMP drives balls from the cells with bypass selected. -/
  | tapClamp
  /-- TAP_HIGHZ (R701): HIGHZ places outputs at high impedance. -/
  | tapHighz
  /-- TAP_DBG_ACC (R702): DBG_ACC selects the debug access register. -/
  | tapDbgAcc
  /-- TAP_BYPASS (R698): BYPASS selects the one-bit register. -/
  | tapBypass
  /-- TAP_STACK_RESET (R698): STACK_RESET at Update-IR resets the B-die outside AO. -/
  | tapStackReset
  /-- TAP_DBG_AUTH (R713): DBG_AUTH at Update-IR draws a fresh challenge. -/
  | tapDbgAuth
  /-- DBG_AUTH_SUBMIT (R713): A signature and descriptor are submitted. -/
  | dbgAuthSubmit (dr : BitVec 520)
  /-- DBG_AUTH_VERIFIED (R714): Verification ends; the state becomes OPEN or the attempt is refused. -/
  | dbgAuthVerified
  /-- DBG_AUTH_LOCKOUT_END (R714): The 1 s lockout after a refusal ends. -/
  | dbgAuthLockoutEnd
  /-- DBG_ACC_GO (R702): Update-DR with GO issues one request as master 47. -/
  | dbgAccGo (dr : BitVec 99)
  /-- DBG_ACC_RESPONSE (R702): The request's response is held for Capture-DR. -/
  | dbgAccResponse
  /-- DBG_HALT (R703): A write of DBG_HALT requests a halt at the next boundary. -/
  | dbgHalt (src : Source) (high : Bool) (threads : BitVec 32)
  /-- DBG_HALTED (R703): The thread has nothing issued and DBG_HALTED is set. -/
  | dbgHalted (t : Fin 40)
  /-- DBG_RESUME (R707): A write of DBG_RESUME resumes a halted thread. -/
  | dbgResume (src : Source) (high : Bool) (threads : BitVec 32)
  /-- DBG_STEP (R707): A write of DBG_STEP runs one instruction, then halts. -/
  | dbgStep (src : Source) (high : Bool) (threads : BitVec 32)
  /-- DBG_REG_ACCESS (R709): An access to DBG_PC, DBG_GPR_n or DBG_SYS_DATA reaches a halted thread. -/
  | dbgRegAccess (src : Source) (reg : Fin 18) (write : Bool) (data : BitVec 32)
  /-- TST_LOCK (R712): A write of TST_LOCK.LOCK moves OPEN to LOCKED. -/
  | tstLock (src : Source)
  /-- TST_FUSE_PROG (R712): A write of TST_FUSE_PROG in OPEN programs DBG_FUSE bits. -/
  | tstFuseProg (src : Source) (fuses : BitVec 2)
  /-- TEST_EN_RISE (R716): A rise of TEST_EN after AO release sets TEST_SEEN. -/
  | testEnRise
  /-- NVM_TALLY_SAVE_DONE (R678): A page-tally save of 4,096 words to the alternate copy in array 7 ends about 0.82 ms after it began and NVM_STAT.TALLY_SAVING clears. -/
  | nvmTallySaveDone
  /-- SL_HEADER_ERROR (R659): A station-link header with a reserved TYPE, a LEN out of range or a CRET above 8 is counted in HDR_ERR, and the receiver returns at once to hunting for SYNC. -/
  | slHeaderError
deriving DecidableEq, Repr

end Sys2Proof
end

