-- ==== Sys2Proof/Decode.lean ====
section
/-!
DEFINITION. The command a word spells. The table of operations and events gives no row any bits (the commands of this
hardware are register accesses, bus events and happenings of its parts, not encoded words), so no word spells one. The
instruction words of the thread cores (12_instruction_set.md) are decoded where the machine executes them, in
Sys2Proof/Machine/Isa.lean.
-/
namespace Sys2Proof

/-- The command that the low `nbits` bits of a word spell by the table's bits: none, since no row has any. -/
def decodeTableWord (_nbits _w : Nat) : Option Instr := none

end Sys2Proof
end

