-- ==== Sys2Proof/Machine/Bits.lean ====
section
/-!
DEFINITION. Bit fields, sign extension and byte order over natural numbers, as the chapters of the spec use them.
-/
namespace Sys2Proof.Machine

/-- `v` cut to its low `w` bits. -/
def lowBits (w v : Nat) : Nat := v % 2 ^ w

/-- Bits `hi` down to `lo` of `v`. -/
def bits (v hi lo : Nat) : Nat := (v / 2 ^ lo) % 2 ^ (hi + 1 - lo)

/-- A truth value as 0 or 1. -/
def bnat (b : Bool) : Nat := if b then 1 else 0

/-- The two's-complement value of the low `w` bits of `v`. -/
def signedOf (w v : Nat) : Int :=
  let u := v % 2 ^ w
  if u < 2 ^ (w - 1) then Int.ofNat u else Int.ofNat u - Int.ofNat (2 ^ w)

/-- The `w`-bit two's-complement pattern of an integer. -/
def patternOf (w : Nat) (x : Int) : Nat := (x % Int.ofNat (2 ^ w)).toNat

/-- `x` held between `lo` and `hi`. -/
def clampInt (lo hi x : Int) : Int := if x < lo then lo else if hi < x then hi else x

/-- `v` with bit `n` made `b`. -/
def putBit (v n : Nat) (b : Bool) : Nat :=
  if v.testBit n == b then v else if b then v + 2 ^ n else v - 2 ^ n

/-- `v` with its bits `hi` down to `lo` replaced by `x`. -/
def putField (v hi lo x : Nat) : Nat :=
  v % 2 ^ lo + (x % 2 ^ (hi + 1 - lo)) * 2 ^ lo + (v / 2 ^ (hi + 1)) * 2 ^ (hi + 1)

/-- The positions below `n` at which `v` has a one, lowest first. -/
def onesOf (v n : Nat) : List Nat := (List.range n).filter fun k => v.testBit k

/-- The number whose bit `k` is `p k`, for the positions below `n`. -/
def maskOf (n : Nat) (p : Nat → Bool) : Nat :=
  (List.range n).foldl (fun acc k => if p k then acc + 2 ^ k else acc) 0

/-- `v` with the bits of `m` cleared (`n` bits wide). -/
def clearBits (v m : Nat) : Nat := v - (v &&& m)

/-- The bytes of `v`, lowest first, `n` of them. -/
def toBytes (n v : Nat) : List Byte := (List.range n).map fun k => BitVec.ofNat 8 (v / 2 ^ (8 * k))

/-- The number a list of bytes spells, lowest first. -/
def ofBytes : List Byte → Nat
  | [] => 0
  | b :: r => b.toNat + 256 * ofBytes r

/-- The number a list of bytes spells, highest first. -/
def ofBytesBE (l : List Byte) : Nat := l.foldl (fun acc b => acc * 256 + b.toNat) 0

/-- Bit reversal of the low `w` bits of `v`. -/
def reflect (w v : Nat) : Nat := maskOf w fun k => v.testBit (w - 1 - k)

/-- Number of ones among the low `n` bits of `v`. -/
def popCount (n v : Nat) : Nat := (onesOf v n).length

/-- The parity of the low `n` bits of `v`. -/
def parity (n v : Nat) : Nat := popCount n v % 2

/-- The first failure of a list of checks. -/
def firstSome {α : Type} (l : List (Option α)) : Option α := l.foldl (fun m x => match m with | none => x | some y => some y) none

end Sys2Proof.Machine
end

