-- ==== Sys2Proof/Machine/Hash.lean ====
section
/-!
DEFINITION. The check values and signatures the rules name by their standards: CRC-32C and CRC-32/ISO-HDLC (R126, R89,
R607), SHA-256 (R104) and ECDSA over P-256 with public-key recovery (R688).
-/
namespace Sys2Proof.Machine

/-! CRC of `w` bits, reflected in and out, over bytes in order; `poly` is written without its top bit. -/

/-- One bit of a reflected CRC register; `rpoly` is the reflected polynomial. -/
def crcBit (rpoly x : Nat) : Nat := if x % 2 = 1 then (x / 2) ^^^ rpoly else x / 2

/-- One byte. -/
def crcByte (rpoly x b : Nat) : Nat := (List.range 8).foldl (fun x _ => crcBit rpoly x) (x ^^^ b)

/-- A reflected 32-bit CRC with all-ones start and final complement. -/
def crc32With (rpoly : Nat) (l : List Byte) : Nat :=
  (l.foldl (fun x b => crcByte rpoly x b.toNat) 0xFFFFFFFF) ^^^ 0xFFFFFFFF

/-- CRC-32C (polynomial 0x1EDC6F41). -/
def crc32c (l : List Byte) : Nat := crc32With 0x82F63B78 l

/-- CRC-32/ISO-HDLC (polynomial 0x04C11DB7). -/
def crc32hdlc (l : List Byte) : Nat := crc32With 0xEDB88320 l

/-! SHA-256. -/

/-- The words of a 256-bit number, the highest first. -/
def words256 (x : Nat) : List (BitVec 32) := (List.range 8).map fun i => BitVec.ofNat 32 (x / 2 ^ (32 * (7 - i)))

/-- The round constants, eight to a number: the first 32 bits of the fractions of the cube roots of the first 64 primes. -/
def shaK : List (BitVec 32) := [
  0x428a2f9871374491b5c0fbcfe9b5dba53956c25b59f111f1923f82a4ab1c5ed5,
  0xd807aa9812835b01243185be550c7dc372be5d7480deb1fe9bdc06a7c19bf174,
  0xe49b69c1efbe47860fc19dc6240ca1cc2de92c6f4a7484aa5cb0a9dc76f988da,
  0x983e5152a831c66db00327c8bf597fc7c6e00bf3d5a7914706ca635114292967,
  0x27b70a852e1b21384d2c6dfc53380d13650a7354766a0abb81c2c92e92722c85,
  0xa2bfe8a1a81a664bc24b8b70c76c51a3d192e819d6990624f40e3585106aa070,
  0x19a4c1161e376c082748774c34b0bcb5391c0cb34ed8aa4a5b9cca4f682e6ff3,
  0x748f82ee78a5636f84c878148cc7020890befffaa4506cebbef9a3f7c67178f2].flatMap words256

/-- The message schedule grows by one word; the last sixteen stand newest first. -/
def shaExtend (w : List (BitVec 32)) : List (BitVec 32) :=
  let g (k : Nat) : BitVec 32 := w.getD k 0
  let x15 := g 14
  let x2 := g 1
  let s0 := x15.rotateRight 7 ^^^ x15.rotateRight 18 ^^^ x15 >>> 3
  let s1 := x2.rotateRight 17 ^^^ x2.rotateRight 19 ^^^ x2 >>> 10
  (g 15 + s0 + g 6 + s1) :: w

/-- One round on the eight working words. -/
def shaRound (h : List (BitVec 32)) (k w : BitVec 32) : List (BitVec 32) :=
  match h with
  | [a, b, c, d, e, f, g, x] =>
    let s1 := e.rotateRight 6 ^^^ e.rotateRight 11 ^^^ e.rotateRight 25
    let t1 := x + s1 + ((e &&& f) ^^^ (~~~e &&& g)) + k + w
    let s0 := a.rotateRight 2 ^^^ a.rotateRight 13 ^^^ a.rotateRight 22
    let t2 := s0 + ((a &&& b) ^^^ (a &&& c) ^^^ (b &&& c))
    [t1 + t2, a, b, c, d + t1, e, f, g]
  | _ => h

/-- One block of sixteen words. -/
def shaBlock (h blk : List (BitVec 32)) : List (BitVec 32) :=
  let w := ((List.range 48).foldl (fun w _ => shaExtend w) blk.reverse).reverse
  let r := (shaK.zip w).foldl (fun acc kw => shaRound acc kw.1 kw.2) h
  h.zipWith (· + ·) r

/-- The big-endian words of a list of bytes. -/
def beWords (fuel : Nat) (l : List Byte) : List (BitVec 32) :=
  match fuel with
  | 0 => []
  | n + 1 => if l.isEmpty then [] else BitVec.ofNat 32 (ofBytesBE (l.take 4)) :: beWords n (l.drop 4)

/-- The blocks, one after the other. -/
def shaRun (fuel : Nat) (h ws : List (BitVec 32)) : List (BitVec 32) :=
  match fuel with
  | 0 => h
  | n + 1 => if ws.isEmpty then h else shaRun n (shaBlock h (ws.take 16)) (ws.drop 16)

/-- SHA-256 of a list of bytes, as the big-endian number of its 32 bytes. -/
def sha256 (l : List Byte) : Nat :=
  let n := l.length
  let pad := (55 + 64 - n % 64) % 64
  let msg := l ++ [0x80#8] ++ List.replicate pad 0#8 ++ (toBytes 8 (8 * n)).reverse
  let h0 := words256 0x6a09e667bb67ae853c6ef372a54ff53a510e527f9b05688c1f83d9ab5be0cd19
  (shaRun (n / 64 + 2) h0 (beWords (n / 4 + 34) msg)).foldl (fun acc w => acc * 2 ^ 32 + w.toNat) 0

/-- The 32 bytes of a big-endian 256-bit number. -/
def be32 (x : Nat) : List Byte := (toBytes 32 x).reverse

/-! P-256 (FIPS 186): y² = x³ − 3 x + b over the prime p; n is the order of the base point. -/

def ecP : Nat := 0xFFFFFFFF00000001000000000000000000000000FFFFFFFFFFFFFFFFFFFFFFFF
def ecN : Nat := 0xFFFFFFFF00000000FFFFFFFFFFFFFFFFBCE6FAADA7179E84F3B9CAC2FC632551
def ecB : Nat := 0x5AC635D8AA3A93E7B3EBBD55769886BC651D06B0CC53B0F63BCE3C3E27D2604B
def ecGx : Nat := 0x6B17D1F2E12C4247F8BCE6E563A440F277037D812DEB33A0F4A13945D898C296
def ecGy : Nat := 0x4FE342E2FE1A7F9B8EE7EB4A7C0F9E162BCE33576B315ECECBB6406837BF51F5

/-- `a - b` modulo `m`. -/
def subMod (m a b : Nat) : Nat := (a + (m - b % m)) % m

/-- Powers with the highest bit first, so that each step squares once. -/
def powBits (m a : Nat) (acc : Nat) : List Bool → Nat
  | [] => acc
  | b :: r => let x := acc * acc % m; powBits m a (if b then x * a % m else x) r

/-- The bits of a 256-bit number, highest first. -/
def bits256 (e : Nat) : List Bool := (List.range 256).map fun k => e.testBit (255 - k)

/-- `a` to the power `e` modulo `m`. -/
def modPow (m a e : Nat) : Nat := powBits m (a % m) 1 (bits256 e)

/-- The inverse of `a` modulo the prime `m`. -/
def modInv (m a : Nat) : Nat := modPow m a (m - 2)

/-- A point in Jacobian coordinates; Z = 0 is the point at infinity. -/
structure EcPoint where
  x : Nat
  y : Nat
  z : Nat
deriving DecidableEq, Repr

/-- The point at infinity. -/
def ecInf : EcPoint := ⟨1, 1, 0⟩

/-- Twice a point. -/
def ecDouble (q : EcPoint) : EcPoint :=
  if q.z = 0 ∨ q.y = 0 then ecInf
  else
    let p := ecP
    let z2 := q.z * q.z % p
    let m := 3 * subMod p q.x z2 * ((q.x + z2) % p) % p
    let y2 := q.y * q.y % p
    let s := 4 * q.x * y2 % p
    let x := subMod p (m * m) (2 * s)
    ⟨x, subMod p (m * subMod p s x) (8 * (y2 * y2 % p)), 2 * q.y * q.z % p⟩

/-- The sum of two points. -/
def ecAdd (a b : EcPoint) : EcPoint :=
  if a.z = 0 then b
  else if b.z = 0 then a
  else
    let p := ecP
    let za := a.z * a.z % p
    let zb := b.z * b.z % p
    let u1 := a.x * zb % p
    let u2 := b.x * za % p
    let s1 := a.y * b.z % p * zb % p
    let s2 := b.y * a.z % p * za % p
    if u1 = u2 then (if s1 = s2 then ecDouble a else ecInf)
    else
      let h := subMod p u2 u1
      let r := subMod p s2 s1
      let h2 := h * h % p
      let h3 := h2 * h % p
      let v := u1 * h2 % p
      let x := subMod p (subMod p (r * r) h3) (2 * v)
      ⟨x, subMod p (r * subMod p v x) (s1 * h3), a.z * b.z % p * h % p⟩

/-- `k` times a point. -/
def ecMul (k : Nat) (q : EcPoint) : EcPoint :=
  (bits256 k).foldl (fun acc b => let d := ecDouble acc; if b then ecAdd d q else d) ecInf

/-- The affine coordinates. -/
def ecAffine (q : EcPoint) : Option (Nat × Nat) :=
  if q.z = 0 then none
  else
    let i := modInv ecP q.z
    let i2 := i * i % ecP
    some (q.x * i2 % ecP, q.y * (i2 * i % ecP) % ecP)

/-- (x, y) lies on the curve. -/
def ecOnCurve (x y : Nat) : Bool :=
  decide (x < ecP) && decide (y < ecP) && y * y % ecP == (x * x % ecP * x + 3 * (ecP - x) + ecB) % ecP

/-- ECDSA verification (FIPS 186) of (r, s) over the hash value `e` with the key (qx, qy). -/
def ecdsaVerify (qx qy e r s : Nat) : Bool :=
  if r = 0 ∨ ecN ≤ r ∨ s = 0 ∨ ecN ≤ s ∨ !ecOnCurve qx qy then false
  else
    let w := modInv ecN s
    let pt := ecAdd (ecMul (e * w % ecN) ⟨ecGx, ecGy, 1⟩) (ecMul (r * w % ecN) ⟨qx, qy, 1⟩)
    match ecAffine pt with
    | none => false
    | some xy => xy.1 % ecN == r

/-- The candidate public keys of (r, s) over `e` (R688). -/
def ecdsaRecover (e r s : Nat) : List (Nat × Nat) :=
  if r = 0 ∨ ecN ≤ r ∨ s = 0 ∨ ecN ≤ s then []
  else
    let xs := r :: (if r + ecN < ecP then [r + ecN] else [])
    let pts := xs.flatMap fun x =>
      let y2 := (x * x % ecP * x + 3 * (ecP - x) + ecB) % ecP
      let y := modPow ecP y2 ((ecP + 1) / 4)
      if y * y % ecP = y2 then [(x, y), (x, (ecP - y) % ecP)] else []
    let ri := modInv ecN r
    pts.filterMap fun xy =>
      ecAffine (ecMul ri (ecAdd (ecMul s ⟨xy.1, xy.2, 1⟩) (ecMul ((ecN - e % ecN) % ecN) ⟨ecGx, ecGy, 1⟩)))

/-- A signature by a key known by the hash of QX‖QY alone (R688, Root slot n). -/
def rootSigValid (rootHash e r s : Nat) : Bool :=
  (ecdsaRecover e r s).any fun q => sha256 (be32 q.1 ++ be32 q.2) == rootHash && ecdsaVerify q.1 q.2 e r s

end Sys2Proof.Machine
end

