-- ==== Sys2Proof/Config.lean ====
section
/-!
DEFINITION. What the spec leaves open: constants without a body, so that nothing in Lean can evaluate them or prove a
value of one. A claim holds whatever they are (log entries 5 and 8).
-/
namespace Sys2Proof.Config

/-- A value the spec leaves open, by a number that tells one drawing from the next (`State.free`). DESIGN CHOICE: log
entry 5. -/
opaque freeValue : Nat → Nat

/-- The content of the boot ROM (R749: fixed for a revision and not published). UNVERIFIED: log entry 8. -/
opaque romByte : Nat → Byte

/-- BLK_VER of a block, by its type code (00_scope.md: per block; no value is given). UNVERIFIED: log entry 8. -/
opaque blkVer : Nat → BitVec 16

/-- BLK_VER of the boot ROM (R639), which is no block of the register map. UNVERIFIED: log entry 8. -/
opaque bootRomVer : BitVec 16

/-- The level the outside drives on an input ball (second argument) at a moment (first argument, in units of 500 ps).
No command of the table carries it where it is merely read (R755 even calls it undefined for an open ball): log entry 21. -/
opaque ballLevel : Nat → Nat → Bool

/-- How far the depth of a port's FIFO exceeds the least that the rules need: the port and 0 for transmit or 1 for receive, in
bytes. The spec states some depths only: log entry 22. -/
opaque fifoDepth : Nat → Nat → Nat

end Sys2Proof.Config
end

