-- ==== Sys2Proof/Machine/State.lean ====
section
/-!
DEFINITION. The state of the machine as plain data, and the state after reset.

Every register field and every piece of state the rules name has one home: an entry of `regs`, found by a `Fld` (its
number, width and reset value; the constants stand in Sys2Proof/Machine/Regs.lean) and two indices. The register file
lists only what differs from its reset value, so equal contents are equal data; memory and the queues are kept in the
same form.
-/
namespace Sys2Proof.Machine

/-- The three dies of the stack (R12). -/
inductive Die where
  | b | c | m
deriving DecidableEq, Repr

/-- The register blocks (R745). -/
inductive Blk where
  | stk | su | pat | aon | xr | fab | ptm | stump | pin | ad | csa | cm | sw | ct | lg | trip | st | cp | qd | le
  | hds | hcu | tc | sramc | cc | wd | dsp | mpu | fw | sp | dma | dmg | cx | cr | usb | eth | uart | mod | sl
  | nvm | key | log | tst | dbg | rt | phy
deriving DecidableEq, Repr

/-- A field of the machine: its number in the register file, its width in bits, its value at reset. -/
structure Fld where
  id : Nat
  w : Nat
  rst : Nat
deriving DecidableEq, Repr

/-- Where a field (or a queue) is kept: its number and two indices. -/
structure Key where
  f : Nat
  i : Nat
  j : Nat
deriving DecidableEq, Repr

/-- The order in which the register file lists its keys. -/
def Key.lt (a b : Key) : Bool :=
  decide (a.f < b.f) ||
    (decide (a.f = b.f) && (decide (a.i < b.i) || (decide (a.i = b.i) && decide (a.j < b.j))))

/-- The value listed for `k`, or `d`. -/
def lookupD {K V : Type} [DecidableEq K] (m : List (K × V)) (k : K) (d : V) : V :=
  match m with
  | [] => d
  | e :: r => if e.1 = k then e.2 else lookupD r k d

/-- `m` without entries for `k`. -/
def eraseKey {K V : Type} [DecidableEq K] (m : List (K × V)) (k : K) : List (K × V) :=
  m.filter fun e => !decide (e.1 = k)

/-- `m` with the entry put before the first greater key. -/
def insertKey {K V : Type} (lt : K → K → Bool) (m : List (K × V)) (k : K) (v : V) : List (K × V) :=
  match m with
  | [] => [(k, v)]
  | e :: r => if lt k e.1 then (k, v) :: e :: r else e :: insertKey lt r k v

/-- `m` with `k` holding `v`; nothing is listed for a key that holds its default `d`. -/
def setKey {K V : Type} [DecidableEq K] [DecidableEq V] (lt : K → K → Bool) (m : List (K × V)) (k : K) (v d : V) :
    List (K × V) :=
  if v = d then eraseKey m k else insertKey lt (eraseKey m k) k v

/-- The answer codes of a request (R165), each with its number. -/
inductive Code where
  | ok | absent | pdown | abort | busy | firewall | decode | ecc
deriving DecidableEq, Repr

/-- R165: the number of a response code. -/
def Code.num : Code → Nat
  | .ok => 0 | .absent => 1 | .pdown => 2 | .abort => 3 | .busy => 4 | .firewall => 5 | .decode => 6 | .ecc => 7

/-- An answer to a request: its code, the duplicate mark of R168 and the data read. -/
structure Resp where
  code : Code
  dup : Bool
  data : Nat
deriving DecidableEq, Repr

/-- An entry of a core's store buffer (R441): the issuing thread, the task it ran, the request, whether its request has
left for the fabric, the answer once it is known, and the copy of the supervisor pair it belongs to (0 SP-M, 1 SP-C). -/
structure StoreEntry where
  thread : Nat
  task : Nat
  addr : Nat
  size : Nat
  data : Nat
  user : Bool
  issued : Bool
  answer : Option Resp
deriving DecidableEq, Repr

/-- A SHADOW request of the loop engine on its way to a pulse-generator shadow register (R157). -/
structure Shadow where
  addr : Nat
  data : Nat
deriving DecidableEq, Repr

/-- A RESULT flit on its way to the loop engine (R155): the ADC, its channel, the value, the tick stamp and the slot. -/
structure Result where
  ad : Nat
  ch : Nat
  value : Nat
  stamp : Nat
  slot : Option Nat
deriving DecidableEq, Repr

/-- A request that a block, a domain or the crossroads holds (R153, R174, R175). -/
structure Held where
  who : Master
  priv : Bool
  op : Nat
  addr : Nat
  size : Nat
  data : Nat
deriving DecidableEq, Repr

/-- The machine. -/
structure State where
  /-- The commands that are waiting, first in, first out (the row's cut). -/
  pending : List Instr
  /-- Time since the release of the always-on domain, in units of 500 ps (log entry 1). -/
  time : Nat
  /-- How many free values have been drawn (log entry 5). -/
  free : Nat
  /-- The register file: every field that differs from its reset value. -/
  regs : List (Key × Nat)
  /-- FIFOs, histories and buffers whose elements are words; an unlisted one is empty. -/
  queues : List (Key × List Nat)
  /-- The bytes of memory that differ from what an unlisted address reads as. -/
  mem : List Host.Cell
  /-- The first addresses of the memory words whose check bits do not correct (R165, R380, R438, R675), rising. -/
  bad : List Nat
  /-- The answer to the latest request, as its master sees it (log entry 6). -/
  resp : Resp
  /-- The event inputs whose pulse is on its way to the dispatcher, oldest first (log entry 7). -/
  events : List Nat
  /-- The store buffers, oldest entry first (R441). -/
  stores : List StoreEntry
  /-- SHADOW requests on their way, oldest first (R157, R163). -/
  shadows : List Shadow
  /-- RESULT flits on their way, oldest first (R163). -/
  results : List Result
  /-- Requests held, oldest first (R153, R174, R175). -/
  held : List Held
deriving DecidableEq, Repr

/-- Why the machine stops. No rule of the spec stops the device as a whole, so no meaning raises one. -/
inductive Fault where
  /-- No meaning raises this: it keeps the type inhabited by a name. Safe. -/
  | none
deriving DecidableEq, Repr

/-- Why a command has no meaning here. -/
inductive Refusal where
  /-- The command's meaning has not been written yet; raised only by an arm of `exec`. Safe. -/
  | notModelled (mnemonic : String)
deriving DecidableEq, Repr

/-- What a command answers. -/
abbrev Out := Host.Outcome State Fault Refusal

/-- The machine right after the always-on domain has been released and before anything else has happened: every field
at its reset value (R4; log entry 2 names the values the spec does not give), nothing listed in memory, nothing
waiting. -/
def State.reset : State where
  pending := []
  time := 0
  free := 0
  regs := []
  queues := []
  mem := []
  bad := []
  resp := ⟨.ok, false, 0⟩
  events := []
  stores := []
  shadows := []
  results := []
  held := []

namespace State

/-- Read field `f` at indices `i`, `j`: a value of its width. -/
def rd (s : State) (f : Fld) (i : Nat := 0) (j : Nat := 0) : Nat := lookupD s.regs ⟨f.id, i, j⟩ f.rst % 2 ^ f.w

/-- Write field `f` at indices `i`, `j`, cut to its width. -/
def wr (s : State) (f : Fld) (v : Nat) (i : Nat := 0) (j : Nat := 0) : State :=
  { s with regs := setKey Key.lt s.regs ⟨f.id, i, j⟩ (v % 2 ^ f.w) f.rst }

/-- Whether field `f` is not zero. -/
def on (s : State) (f : Fld) (i : Nat := 0) (j : Nat := 0) : Bool := s.rd f i j != 0

/-- The queue `f` at indices `i`, `j`. -/
def q (s : State) (f : Nat) (i : Nat := 0) (j : Nat := 0) : List Nat := lookupD s.queues ⟨f, i, j⟩ []

/-- Replace a queue. -/
def setq (s : State) (f : Nat) (l : List Nat) (i : Nat := 0) (j : Nat := 0) : State :=
  { s with queues := setKey Key.lt s.queues ⟨f, i, j⟩ l [] }

end State
end Sys2Proof.Machine
end

