-- ==== Sys2Proof/Machine/Regs.lean ====
section
/-!
DEFINITION. Every field of every register of the spec, and every piece of state its rules give outside the register
tables, as one named constant `F.<REGISTER>_<FIELD>` or `F.<NAME>`: its number in the register file, its width in bits
and the value it holds at reset (the spec's; where the spec states none, the value log entry 2 names).
`State.rd` and `State.wr` are the only ways to read and write one. For a block of several instances the first index is
the instance and the second the register's number within it; for a block of one instance the first index is the
register's number. The comment over each block names the chapter and rule that give it.
-/
namespace Sys2Proof.Machine
namespace F


/-! Block stk: 01_stack_and_dies.md, R13, register reference. -/

def STK_STATUS_TIER : Fld := ⟨0, 2, 0⟩
def STK_STATUS_C_UP : Fld := ⟨1, 1, 0⟩
def STK_STATUS_M_UP : Fld := ⟨2, 1, 0⟩
def STK_STATUS_LANE_WARN : Fld := ⟨3, 1, 0⟩
def STK_STATUS_BUNDLE_DOWN : Fld := ⟨4, 1, 0⟩
def STK_EVENTS_EVT : Fld := ⟨5, 4, 0⟩
def STK_CTRL_LBIST_EN : Fld := ⟨6, 1, 0⟩
def STK_DIESTATE_TIER : Fld := ⟨7, 2, 0⟩
def STK_DIESTATE_C_STATE : Fld := ⟨8, 2, 0⟩
def STK_DIESTATE_M_STATE : Fld := ⟨9, 2, 0⟩
def STK_DIESTATE_STRAP_B : Fld := ⟨10, 3, 0⟩
def STK_DIESTATE_STRAP_C : Fld := ⟨11, 3, 0⟩
def STK_DIESTATE_STRAP_M : Fld := ⟨12, 3, 0⟩
def STK_DIESTATE_LAST_C_CAUSE : Fld := ⟨13, 3, 0⟩
def STK_DIESTATE_LAST_M_CAUSE : Fld := ⟨14, 3, 0⟩
def STK_ID_B_ID : Fld := ⟨15, 64, 0⟩
def STK_ID_C_ID : Fld := ⟨16, 64, 0⟩
def STK_ID_M_ID : Fld := ⟨17, 64, 0⟩
def STK_EVT_C_LOST : Fld := ⟨18, 1, 0⟩
def STK_EVT_M_LOST : Fld := ⟨19, 1, 0⟩
def STK_EVT_LANE_REP : Fld := ⟨20, 1, 0⟩
def STK_EVT_BUNDLE_RET : Fld := ⟨21, 1, 0⟩
def STK_RESET_C_RST : Fld := ⟨22, 1, 0⟩
def STK_RESET_M_RST : Fld := ⟨23, 1, 0⟩
def STK_RESET_TICKET : Fld := ⟨24, 16, 0⟩
def LBIST_CFG_EN : Fld := ⟨25, 1, 0⟩
def LBIST_CFG_GAP : Fld := ⟨26, 16, 0x3e8⟩
def LBIST_CFG_CRC_TRIG : Fld := ⟨27, 8, 0x10⟩
def LANE_SUMMARY_SPARES_USED : Fld := ⟨28, 8, 0⟩
def LANE_SUMMARY_RETIRED : Fld := ⟨29, 6, 0⟩
def LANE_SUMMARY_EXHAUST : Fld := ⟨30, 1, 0⟩
def STK_TALLY0_HB_MISS : Fld := ⟨31, 16, 0⟩
def STK_TALLY0_LBIST_SKIP : Fld := ⟨32, 16, 0⟩
def STK_TALLY1_ABSORB_C : Fld := ⟨33, 32, 0⟩
def BUNDLE_STATE : Fld := ⟨34, 2, 0⟩
def BUNDLE_CTRL : Fld := ⟨35, 1, 0⟩
def BUNDLE_SPARES : Fld := ⟨36, 3, 0⟩
def BUNDLE_CRC_ERR : Fld := ⟨37, 8, 0⟩
def BUNDLE_RETRY : Fld := ⟨38, 8, 0⟩
def BUNDLE_DUP : Fld := ⟨39, 8, 0⟩
def LANE_MAP_PHYS_0 : Fld := ⟨40, 6, 0⟩
def LANE_MAP_VALID_0 : Fld := ⟨41, 1, 0⟩
def LANE_MAP_PHYS_1 : Fld := ⟨42, 6, 0⟩
def LANE_MAP_VALID_1 : Fld := ⟨43, 1, 0⟩
def LANE_MAP_PHYS_2 : Fld := ⟨44, 6, 0⟩
def LANE_MAP_VALID_2 : Fld := ⟨45, 1, 0⟩
def LANE_MAP_PHYS_3 : Fld := ⟨46, 6, 0⟩
def LANE_MAP_VALID_3 : Fld := ⟨47, 1, 0⟩
def LANE_MAP_FUSED : Fld := ⟨48, 4, 0⟩

/-! Block su: 02_startup_and_service_tiers.md, R51, register reference. -/

def SU_STATUS_TIER : Fld := ⟨49, 2, 0⟩
def SU_STATUS_CAUSE : Fld := ⟨50, 4, 0⟩
def SU_STATUS_REPLACE : Fld := ⟨51, 1, 0⟩
def SU_STATUS_FAULT : Fld := ⟨52, 1, 1⟩
def SU_FAULT_ACK_ACK : Fld := ⟨53, 5, 1⟩
def SU_KICK_KICK : Fld := ⟨54, 1, 0⟩
def SU_KICK_TICKET : Fld := ⟨55, 16, 0⟩
def SU_TIER_TIER : Fld := ⟨56, 2, 0⟩
def SU_TIER_CAUSE : Fld := ⟨57, 4, 0⟩
def SU_TIER_BOOT_STRAP : Fld := ⟨58, 2, 0⟩
def SU_TIER_PAT_SLOT : Fld := ⟨59, 1, 0⟩
def SU_TIER_FW_SLOT : Fld := ⟨60, 1, 0⟩
def SU_TIER_HSXO_FAIL : Fld := ⟨61, 1, 0⟩
def SU_TIER_LEDGER_SRC : Fld := ⟨62, 1, 0⟩
def SU_TIER_GIVE_UP : Fld := ⟨63, 1, 0⟩
def SU_TIER_RECOVER : Fld := ⟨64, 1, 0⟩
def SU_TIER_ROM_PHASE : Fld := ⟨65, 1, 0⟩
def SU_TIER_ROM_DONE : Fld := ⟨66, 1, 0⟩
def SU_TIER_BO_SRC : Fld := ⟨67, 3, 0⟩
def BOOT_LOG_PA : Fld := ⟨68, 4, 0⟩
def BOOT_LOG_PB : Fld := ⟨69, 4, 0⟩
def BOOT_LOG_FA : Fld := ⟨70, 4, 0⟩
def BOOT_LOG_FB : Fld := ⟨71, 4, 0⟩
def BOOT_LOG_REC : Fld := ⟨72, 4, 0⟩
def BOOT_LOG_ROLLBACK_SKIP : Fld := ⟨73, 1, 0⟩
def RST_CAUSE_POR : Fld := ⟨74, 1, 1⟩
def RST_CAUSE_PIN : Fld := ⟨75, 1, 0⟩
def RST_CAUSE_VDD12 : Fld := ⟨76, 1, 0⟩
def RST_CAUSE_SOFT : Fld := ⟨77, 1, 0⟩
def RST_CAUSE_DEBUG : Fld := ⟨78, 1, 0⟩
def RST_CAUSE_VCORE : Fld := ⟨79, 1, 0⟩
def RST_CAUSE_PWD : Fld := ⟨80, 1, 0⟩
def RST_CAUSE_CLOSS : Fld := ⟨81, 1, 0⟩
def RST_CAUSE_MLOSS : Fld := ⟨82, 1, 0⟩
def RST_CAUSE_BINDOFF : Fld := ⟨83, 1, 0⟩
def SYS_RESET_STACK : Fld := ⟨84, 1, 0⟩
def SYS_RESET_TICKET : Fld := ⟨85, 16, 0⟩
def PWD_CFG_PERIOD : Fld := ⟨86, 16, 0⟩
def PWD_KICK_KICK : Fld := ⟨87, 1, 0⟩
def PWD_KICK_TICKET : Fld := ⟨88, 16, 0⟩
def FAULT_CAUSE_BOOT : Fld := ⟨89, 1, 1⟩
def FAULT_CAUSE_C_LOST : Fld := ⟨90, 1, 0⟩
def FAULT_CAUSE_BINDOFF : Fld := ⟨91, 1, 0⟩
def FAULT_CAUSE_TRIP : Fld := ⟨92, 1, 0⟩
def FAULT_CAUSE_SP_MISMATCH : Fld := ⟨93, 1, 0⟩
def FAULT_CAUSE_DEGRADED : Fld := ⟨94, 1, 1⟩
def FAULT_CAUSE_FW : Fld := ⟨95, 1, 0⟩
def FAULT_CAUSE_ANY : Fld := ⟨96, 1, 1⟩
def LEDGER_CAUSES : Fld := ⟨97, 8, 0⟩
def LEDGER_ANY : Fld := ⟨98, 1, 0⟩
def LEDGER_CLR_CLR : Fld := ⟨99, 8, 0⟩
def LEDGER_CLR_TICKET : Fld := ⟨100, 16, 0⟩
def ECC_LIM_ECC_LIM : Fld := ⟨101, 16, 0x100⟩
def WEAR_LIM_WEAR_LIM : Fld := ⟨102, 32, 0x55d4a80⟩
def HOT_LIM_HOT_LIM : Fld := ⟨103, 16, 0x3e8⟩
def SP_LIM_SP_LIM : Fld := ⟨104, 8, 8⟩
def HOT_TIME_MINUTES : Fld := ⟨105, 32, 0⟩
def LEDGER_TALLY_SP_COUNT : Fld := ⟨106, 16, 0⟩
def TS_CFG_T2_EN : Fld := ⟨107, 1, 0⟩
def TS_STAT_BUSY : Fld := ⟨108, 1, 0⟩
def TS_STAT_COUNT : Fld := ⟨109, 8, 0⟩

/-! Block pat: 03_pattern_image.md, R101, register reference. -/

def PAT_STATUS_SLOT : Fld := ⟨110, 1, 0⟩
def PAT_STATUS_DELTA : Fld := ⟨111, 1, 0⟩
def PAT_STATUS_LIVE : Fld := ⟨112, 3, 0⟩
def PAT_STATUS_REJECT : Fld := ⟨113, 8, 0⟩
def PAT_ACTIVE_SLOT : Fld := ⟨114, 1, 0⟩
def PAT_ACTIVE_DELTA : Fld := ⟨115, 1, 0⟩
def PAT_ACTIVE_VALID : Fld := ⟨116, 1, 0⟩
def PAT_VERSION_VERSION : Fld := ⟨117, 32, 0⟩
def PAT_FAMILY_FAMILY : Fld := ⟨118, 32, 0⟩
def PAT_DIGEST_WORD : Fld := ⟨119, 32, 0⟩
def PAT_REJECT_CODE : Fld := ⟨120, 8, 0⟩
def PAT_REJECT_TYPE : Fld := ⟨121, 8, 0⟩
def PAT_REJECT_SOURCE : Fld := ⟨122, 1, 0⟩
def PAT_REJECT_OFF_OFFSET : Fld := ⟨123, 18, 0⟩
def PAT_LIVE_ADDR_ADDR : Fld := ⟨124, 29, 0⟩
def PAT_LIVE_CTRL_ROW : Fld := ⟨125, 4, 0⟩
def PAT_LIVE_GO_GO : Fld := ⟨126, 1, 0⟩
def PAT_LIVE_GO_CANCEL : Fld := ⟨127, 1, 0⟩
def PAT_LIVE_GO_TICKET : Fld := ⟨128, 16, 0⟩
def PAT_LIVE_STAT_STATE : Fld := ⟨129, 3, 0⟩
def PAT_LIVE_STAT_RESULT : Fld := ⟨130, 4, 0⟩
def PAT_LIVE_STAT_OVERRIDE : Fld := ⟨131, 1, 0⟩
def PAT_LIVE_STAT_SWITCHES : Fld := ⟨132, 8, 0⟩

/-! Block xr: 04_fabric_and_address_map.md, R146, register reference. -/

def XR_STATUS_TAGS : Fld := ⟨133, 13, 0⟩
def XR_STATUS_LOST : Fld := ⟨134, 1, 0⟩
def XR_CFG_TMO : Fld := ⟨135, 16, 0x64⟩
def XR_TAGS_USED : Fld := ⟨136, 13, 0⟩
def XR_TAGS_MAX : Fld := ⟨137, 13, 0⟩
def XR_LOST_LOST_REPLY : Fld := ⟨138, 32, 0⟩
def XR_LATE_LATE : Fld := ⟨139, 32, 0⟩
def XR_SHADOW_ERR_COUNT : Fld := ⟨140, 16, 0⟩

/-! Block fab: 04_fabric_and_address_map.md, R752, register reference. -/

def FAB_STATUS_DUP : Fld := ⟨141, 16, 0⟩
def FAB_DUP_COUNT : Fld := ⟨142, 32, 0⟩
def FAB_DUP_LAST_MID : Fld := ⟨143, 6, 0⟩
def FAB_DUP_LAST_BLOCK : Fld := ⟨144, 20, 0⟩
def FAB_ERR_COUNT : Fld := ⟨145, 32, 0⟩

/-! Block ptm: 05_power_clocks_thermal.md, R181, register reference. -/

def PM_STATUS_STATE : Fld := ⟨146, 3, 0⟩
def PM_STATUS_THROTTLE : Fld := ⟨147, 1, 0⟩
def PM_STATUS_DROP : Fld := ⟨148, 1, 0⟩
def PM_REQ_REQ : Fld := ⟨149, 3, 0⟩
def PTM_STATE_CUR : Fld := ⟨150, 3, 0⟩
def PTM_STATE_LAST : Fld := ⟨151, 3, 0⟩
def PTM_STATE_REFUSE : Fld := ⟨152, 4, 0⟩
def PTM_STATE_ABORTED : Fld := ⟨153, 1, 0⟩
def PTM_STATE_ONFRC : Fld := ⟨154, 1, 0⟩
def PTM_STATE_REQ_REQ : Fld := ⟨155, 3, 0⟩
def PTM_STATE_REQ_FAST_NAP : Fld := ⟨156, 1, 0⟩
def PTM_RESUME_ADDR : Fld := ⟨157, 30, 0⟩
def PTM_WAKE_EN_EN : Fld := ⟨158, 12, 0⟩
def PTM_WAKE_EN_WAKE0_POL : Fld := ⟨159, 1, 0⟩
def PTM_WAKE_EN_WAKE1_POL : Fld := ⟨160, 1, 0⟩
def PTM_WAKE_CAUSE_SRC : Fld := ⟨161, 12, 0⟩
def PTM_WAKE_CAUSE_DISPATCH : Fld := ⟨162, 1, 0⟩
def PTM_CLKREQ_REQ : Fld := ⟨163, 4, 0⟩
def PTM_CLKSTAT_GRANT : Fld := ⟨164, 4, 0⟩
def PTM_CLKSTAT_PLL : Fld := ⟨165, 1, 0⟩
def PTM_CLKSTAT_REF : Fld := ⟨166, 1, 0⟩
def PTM_CLKSTAT_LSXO_FAIL : Fld := ⟨167, 1, 0⟩
def PTM_CLKSTAT_HSXO_FAIL : Fld := ⟨168, 1, 0⟩
def PTM_CLKSTAT_THROTTLE : Fld := ⟨169, 1, 0⟩
def PTM_TEMP_TS_B : Fld := ⟨170, 8, 0x80⟩
def PTM_TEMP_TS_M : Fld := ⟨171, 8, 0x80⟩
def PTM_TEMP_TS_C0 : Fld := ⟨172, 8, 0x80⟩
def PTM_TEMP_TS_C1 : Fld := ⟨173, 8, 0x80⟩
def PTM_TEMP_MAX_TS_B : Fld := ⟨174, 8, 0x80⟩
def PTM_TEMP_MAX_TS_M : Fld := ⟨175, 8, 0x80⟩
def PTM_TEMP_MAX_TS_C0 : Fld := ⟨176, 8, 0x80⟩
def PTM_TEMP_MAX_TS_C1 : Fld := ⟨177, 8, 0x80⟩
def PTM_THERM_T_WARN : Fld := ⟨178, 8, 0x64⟩
def PTM_THERM_T_THROTTLE : Fld := ⟨179, 8, 0x6e⟩
def PTM_THERM_T_CRIT : Fld := ⟨180, 8, 0x7a⟩
def PTM_THROTTLE_TIME_MS : Fld := ⟨181, 32, 0⟩
def PTM_SUPPLY_GOOD : Fld := ⟨182, 6, 0⟩
def PTM_SUPPLY_V18 : Fld := ⟨183, 1, 0⟩
def PTM_SUPPLY_DROP_WARN : Fld := ⟨184, 1, 0⟩
def PTM_DROP_CFG_CMP : Fld := ⟨185, 5, 0x1f⟩
def PTM_DROP_COUNT_COUNT : Fld := ⟨186, 16, 0⟩
def PTM_DOM_STATE_STATE : Fld := ⟨187, 32, 0⟩
def PTM_DOM_CTRL_CTRL : Fld := ⟨188, 32, 0xffffffff⟩
def PTM_DOM_ERR_DOMAIN : Fld := ⟨189, 8, 0⟩
def PTM_DOM_ERR_CODE : Fld := ⟨190, 4, 0⟩
def PTM_DOM_ERR_NEW : Fld := ⟨191, 1, 0⟩

/-! Block pin: 06_balls_and_signals.md, R225, register reference. -/

def PIN_GP_IN_LEVEL : Fld := ⟨192, 24, 0⟩
def PIN_GP_OUT_VALUE : Fld := ⟨193, 24, 0⟩
def GP_IN_LEVEL : Fld := ⟨194, 24, 0⟩
def GP_OUT_VALUE : Fld := ⟨195, 24, 0⟩
def GP_SET_SET : Fld := ⟨196, 24, 0⟩
def GP_CLR_CLR : Fld := ⟨197, 24, 0⟩
def BANK_A_V18 : Fld := ⟨198, 1, 0⟩
def BANK_A_DET : Fld := ⟨199, 1, 0⟩
def BANK_A_GOOD : Fld := ⟨200, 1, 0⟩
def BANK_A_MISMATCH : Fld := ⟨201, 1, 0⟩
def PIN_CFG_FUNC : Fld := ⟨202, 6, 0⟩
def PIN_CFG_DRIVE : Fld := ⟨203, 2, 1⟩
def PIN_CFG_PULL : Fld := ⟨204, 2, 0⟩
def PIN_CFG_INVERT : Fld := ⟨205, 1, 0⟩
def PIN_CFG_SAFE : Fld := ⟨206, 2, 0⟩

/-! Block ad: 07_analog_inputs.md, R246, register reference. -/

def AD_BASIC_CTRL_EN : Fld := ⟨207, 1, 0⟩
def AD_BASIC_CTRL_GO_B : Fld := ⟨208, 1, 0⟩
def AD_BASIC_RES_VALUE : Fld := ⟨209, 16, 0⟩
def AD_BASIC_RES_STEP : Fld := ⟨210, 4, 0⟩
def AD_CFG_EN : Fld := ⟨211, 1, 0⟩
def AD_CFG_SAMPLE : Fld := ⟨212, 6, 0xf⟩
def AD_CFG_PAIR : Fld := ⟨213, 1, 0⟩
def AD_SEQ_A_LEN : Fld := ⟨214, 2, 0⟩
def AD_SEQ_A_TRIG_EN : Fld := ⟨215, 1, 0⟩
def AD_SEQ_B_LEN : Fld := ⟨216, 4, 0⟩
def AD_SEQ_B_TRIG_EN : Fld := ⟨217, 1, 0⟩
def AD_SEQ_B_CONT : Fld := ⟨218, 1, 0⟩
def AD_SWTRIG_A : Fld := ⟨219, 1, 0⟩
def AD_SWTRIG_B : Fld := ⟨220, 1, 0⟩
def AD_STATUS_BUSY_A : Fld := ⟨221, 1, 0⟩
def AD_STATUS_BUSY_B : Fld := ⟨222, 1, 0⟩
def AD_STATUS_OVR_A : Fld := ⟨223, 1, 0⟩
def AD_STATUS_OVR_B : Fld := ⟨224, 1, 0⟩
def AD_STATUS_CHERR : Fld := ⟨225, 1, 0⟩
def AD_STATUS_DMA_OVR : Fld := ⟨226, 1, 0⟩
def AD_DMA_REQ_A : Fld := ⟨227, 1, 0⟩
def AD_DMA_REQ_B : Fld := ⟨228, 1, 0⟩
def AD_DMA_EVT_A : Fld := ⟨229, 1, 0⟩
def AD_DMA_EVT_B : Fld := ⟨230, 1, 0⟩
def AD_TALLY_TRIG_LOST : Fld := ⟨231, 16, 0⟩
def AD_TALLY_PREEMPT : Fld := ⟨232, 16, 0⟩
def AD_STEP_CH : Fld := ⟨233, 6, 0x30⟩
def AD_STEP_OVS : Fld := ⟨234, 3, 0⟩
def AD_STEP_TO_LE : Fld := ⟨235, 1, 0⟩
def AD_STEP_SLOT : Fld := ⟨236, 6, 0⟩
def AD_RES_VALUE : Fld := ⟨237, 16, 0⟩
def AD_RES_STAMP : Fld := ⟨238, 16, 0⟩

/-! Block csa: 07_analog_inputs.md, R246, register reference. -/

def CA_BASIC_EN : Fld := ⟨239, 8, 0⟩
def CA_CFG_EN : Fld := ⟨240, 1, 0⟩
def CA_CFG_GAIN : Fld := ⟨241, 2, 0⟩
def CA_STAT_READY : Fld := ⟨242, 8, 0⟩

/-! Block cm: 07_analog_inputs.md, R246, register reference. -/

def CM_OUT_OUT : Fld := ⟨243, 24, 0⟩
def CM_LATCH_CLR_CLR : Fld := ⟨244, 24, 0⟩
def CM_CFG_EN : Fld := ⟨245, 1, 0⟩
def CM_CFG_INSEL : Fld := ⟨246, 5, 0⟩
def CM_CFG_POL : Fld := ⟨247, 1, 0⟩
def CM_CFG_HYST : Fld := ⟨248, 2, 0⟩
def CM_CFG_FILT : Fld := ⟨249, 3, 0⟩
def CM_CFG_LATCH : Fld := ⟨250, 2, 0⟩
def CM_CFG_LSLICE : Fld := ⟨251, 4, 0⟩
def CM_CFG_EVT : Fld := ⟨252, 1, 0⟩
def CM_CFG_GATE_FILT : Fld := ⟨253, 1, 0⟩
def CM_FDIV_FDIV : Fld := ⟨254, 16, 0⟩
def CM_DAC_CODE : Fld := ⟨255, 10, 0x3ff⟩
def CM_RAW_RAW : Fld := ⟨256, 24, 0⟩
def CM_COND_COND : Fld := ⟨257, 24, 0⟩
def CM_LATCHED_LATCHED : Fld := ⟨258, 24, 0⟩
def CM_REFUSED_COUNT : Fld := ⟨259, 16, 0⟩
def CM_LEGUSE_USE : Fld := ⟨260, 24, 0⟩

/-! Block sw: 07_analog_inputs.md, R246, register reference. -/

def SW_BASIC_BUSY : Fld := ⟨261, 1, 0⟩
def SW_BASIC_RESULT : Fld := ⟨262, 3, 0⟩
def VREF_CFG_OUT_EN : Fld := ⟨263, 1, 0⟩
def SW_CFG_CMP : Fld := ⟨264, 5, 0⟩
def SW_CFG_TEST : Fld := ⟨265, 3, 0⟩
def SW_GO_GO : Fld := ⟨266, 1, 0⟩
def SW_STAT_BUSY : Fld := ⟨267, 1, 0⟩
def SW_STAT_RESULT : Fld := ⟨268, 3, 0⟩
def SW_RESULT_MEAS : Fld := ⟨269, 12, 0⟩
def SW_RESULT_EXPECT : Fld := ⟨270, 12, 0⟩
def SW_FAIL_FAIL : Fld := ⟨271, 24, 0⟩

/-! Block ct: 08_counters_and_pulse_generators.md, R288, register reference. -/

def CT_BASIC_CTRL_RUN : Fld := ⟨272, 1, 0⟩
def CT_BASIC_DUTY_VALUE : Fld := ⟨273, 24, 0⟩
def CT_CFG_MODE : Fld := ⟨274, 2, 0⟩
def CT_CFG_CHAIN : Fld := ⟨275, 1, 0⟩
def CT_CFG_LOAD : Fld := ⟨276, 2, 0⟩
def CT_CFG_PRESCALE : Fld := ⟨277, 8, 0⟩
def CT_CTRL_RUN : Fld := ⟨278, 1, 0⟩
def CT_CTRL_SYNC_EN : Fld := ⟨279, 1, 0⟩
def CT_CTRL_START_EN : Fld := ⟨280, 1, 0⟩
def CT_COUNT_COUNT : Fld := ⟨281, 24, 0⟩
def CT_COUNT_DIR : Fld := ⟨282, 1, 0⟩
def CT_PERIOD_PERIOD : Fld := ⟨283, 24, 0⟩
def CT_PERIOD_ACT_PERIOD : Fld := ⟨284, 24, 0⟩
def CT_PHASE_PHASE : Fld := ⟨285, 24, 0⟩
def CT_PHASE_PDIR : Fld := ⟨286, 1, 0⟩
def CT_SHCTL_HOLD : Fld := ⟨287, 1, 0⟩
def CT_SHCTL_FORCE : Fld := ⟨288, 1, 0⟩
def CT_CMP_SH_VALUE : Fld := ⟨289, 24, 0⟩
def CT_CMP_SH_FINE : Fld := ⟨290, 3, 0⟩
def CT_CMP_SH_EVDIR : Fld := ⟨291, 2, 0⟩
def CT_CMP_ACT_VALUE : Fld := ⟨292, 24, 0⟩
def CT_CMP_ACT_FINE : Fld := ⟨293, 3, 0⟩
def CT_CMP_ACT_EVDIR : Fld := ⟨294, 2, 0⟩
def CT_EVT_PSTART : Fld := ⟨295, 1, 0⟩
def CT_TALLY_SH_COLL : Fld := ⟨296, 16, 0⟩
def CT_GSTART_START : Fld := ⟨297, 16, 0⟩

/-! Block lg: 08_counters_and_pulse_generators.md, R288, register reference. -/

def LG_BASIC_STATE : Fld := ⟨298, 2, 0⟩
def LG_BASIC_TRIPPED : Fld := ⟨299, 1, 0⟩
def LG_CFG_SLICE : Fld := ⟨300, 4, 0⟩
def LG_CFG_REF_MODE : Fld := ⟨301, 2, 0⟩
def LG_CFG_UA : Fld := ⟨302, 2, 0⟩
def LG_CFG_UB : Fld := ⟨303, 2, 0⟩
def LG_CFG_LMODE : Fld := ⟨304, 2, 0⟩
def LG_CFG_EXT_EN : Fld := ⟨305, 1, 0⟩
def LG_DT_DT_RISE : Fld := ⟨306, 10, 0⟩
def LG_DT_FINE_RISE : Fld := ⟨307, 3, 0⟩
def LG_DT_DT_FALL : Fld := ⟨308, 10, 0⟩
def LG_DT_FINE_FALL : Fld := ⟨309, 3, 0⟩
def LG_TRIPCFG_OC_CMP : Fld := ⟨310, 5, 0x1f⟩
def LG_TRIPCFG_HS_CMP : Fld := ⟨311, 5, 0x1f⟩
def LG_TRIPCFG_GROUP : Fld := ⟨312, 3, 7⟩
def LG_TRIPCFG_SAFE : Fld := ⟨313, 2, 0⟩
def LG_TRIPCFG_ORPHAN : Fld := ⟨314, 1, 0⟩
def LG_TRIPCFG_T_ORPHAN : Fld := ⟨315, 8, 0⟩
def LG_TRIPCFG_FAULT : Fld := ⟨316, 1, 0⟩
def LG_BLANK_BLANK : Fld := ⟨317, 11, 0⟩
def LG_ARM_ARM : Fld := ⟨318, 1, 0⟩
def LG_ARM_DISARM : Fld := ⟨319, 1, 0⟩
def LG_ARM_NOW : Fld := ⟨320, 1, 0⟩
def LG_ARM_SWTRIP : Fld := ⟨321, 1, 0⟩
def LG_STAT_STATE : Fld := ⟨322, 2, 0⟩
def LG_STAT_OC : Fld := ⟨323, 1, 0⟩
def LG_STAT_HS : Fld := ⟨324, 1, 0⟩
def LG_STAT_EXT : Fld := ⟨325, 1, 0⟩
def LG_STAT_SW : Fld := ⟨326, 1, 0⟩
def LG_STAT_BLANKED : Fld := ⟨327, 1, 0⟩
def LG_STAT_ARM_ERR : Fld := ⟨328, 3, 0⟩
def LG_STAT_TRIPPED : Fld := ⟨329, 1, 0⟩
def LG_STAT_CFG_IGN : Fld := ⟨330, 1, 0⟩
def LG_TALLY_TRIPS : Fld := ⟨331, 16, 0⟩
def LG_TALLY_BLANKED : Fld := ⟨332, 8, 0⟩
def LG_TALLY_SWALLOW : Fld := ⟨333, 8, 0⟩

/-! Block trip: 08_counters_and_pulse_generators.md, R288, register reference. -/

def TRIP_BASIC_LEGS : Fld := ⟨334, 16, 0⟩
def TRIP_BASIC_GROUPS : Fld := ⟨335, 6, 0⟩
def BG_CFG_GSAFE : Fld := ⟨336, 2, 0⟩
def BG_CFG_FAULT : Fld := ⟨337, 1, 0⟩
def BG_CFG_LEGS : Fld := ⟨338, 16, 0⟩
def BG_STAT_TRIPPED : Fld := ⟨339, 1, 0⟩
def BG_STAT_BRAKE_FB : Fld := ⟨340, 1, 0⟩
def BG_ARM_ARM : Fld := ⟨341, 6, 0⟩
def TRIP_LEGS_LEGS : Fld := ⟨342, 16, 0⟩
def TRIP_FIRST_LEG : Fld := ⟨343, 4, 0⟩
def TRIP_FIRST_KIND : Fld := ⟨344, 4, 0⟩
def TRIP_FIRST_TIED : Fld := ⟨345, 1, 0⟩
def TRIP_FIRST_VALID : Fld := ⟨346, 1, 0⟩
def TRIP_FIRST_STAMP_STAMP : Fld := ⟨347, 24, 0⟩
def TRIP_FIRST_MASK_MASK : Fld := ⟨348, 16, 0⟩

/-! Block st: 08_counters_and_pulse_generators.md, R288, register reference. -/

def ST_WIDTH_TICKS : Fld := ⟨349, 16, 0⟩
def ST_WIDTH_FINE : Fld := ⟨350, 3, 0⟩
def ST_DELAY_DELAY : Fld := ⟨351, 16, 0⟩
def ST_CTRL_EN : Fld := ⟨352, 8, 0⟩
def ST_CTRL_ROUTE_EN : Fld := ⟨353, 1, 0⟩
def ST_LIMIT_LIMIT : Fld := ⟨354, 16, 0⟩
def ST_STAT_ACTIVE : Fld := ⟨355, 8, 0⟩
def ST_STAT_INHIBIT : Fld := ⟨356, 8, 0⟩
def ST_STAT_CUT : Fld := ⟨357, 8, 0⟩
def ST_TALLY_ST_OVERRUN : Fld := ⟨358, 16, 0⟩
def ST_TALLY_CLAMP : Fld := ⟨359, 16, 0⟩

/-! Block cp: 08_counters_and_pulse_generators.md, R288, register reference. -/

def CP_BASIC_NONEMPTY : Fld := ⟨360, 16, 0⟩
def CP_CFG_EN : Fld := ⟨361, 1, 0⟩
def CP_CFG_EDGE : Fld := ⟨362, 2, 0⟩
def CP_CFG_SRC : Fld := ⟨363, 1, 0⟩
def CP_CFG_FILT : Fld := ⟨364, 4, 0⟩
def CP_CFG_TB : Fld := ⟨365, 5, 0⟩
def CP_CFG_EVT : Fld := ⟨366, 1, 0⟩
def CP_DATA_VALUE : Fld := ⟨367, 24, 0⟩
def CP_DATA_RISE : Fld := ⟨368, 1, 0⟩
def CP_DATA_VALID : Fld := ⟨369, 1, 0⟩
def CP_STAT_NONEMPTY : Fld := ⟨370, 16, 0⟩
def CP_STAT_OVF : Fld := ⟨371, 16, 0⟩

/-! Block qd: 08_counters_and_pulse_generators.md, R288, register reference. -/

def QD_BASIC_POS : Fld := ⟨372, 24, 0⟩
def QD_CFG_EN : Fld := ⟨373, 1, 0⟩
def QD_CFG_SWAP : Fld := ⟨374, 1, 0⟩
def QD_CFG_IDX_RST : Fld := ⟨375, 1, 0⟩
def QD_CFG_IDX_EN : Fld := ⟨376, 1, 0⟩
def QD_CFG_EVT : Fld := ⟨377, 1, 0⟩
def QD_MAX_MAX : Fld := ⟨378, 24, 0xffffff⟩
def QD_POS_POS : Fld := ⟨379, 24, 0⟩
def QD_POS_DIR : Fld := ⟨380, 1, 0⟩
def QD_IDXPOS_IDXPOS : Fld := ⟨381, 24, 0⟩
def QD_ERR_COUNT : Fld := ⟨382, 16, 0⟩

/-! Block le: 09_loop_engine.md, R339, register reference. -/

def LE_BASIC_CTRL_EN : Fld := ⟨383, 1, 0⟩
def LE_BASIC_CTRL_ROWS : Fld := ⟨384, 16, 0⟩
def LE_BASIC_STAT_OVR : Fld := ⟨385, 1, 0⟩
def LE_BASIC_STAT_SAT : Fld := ⟨386, 1, 0⟩
def LE_BASIC_STAT_ECC : Fld := ⟨387, 1, 0⟩
def LE_CTRL_EN : Fld := ⟨388, 1, 0⟩
def LE_ROWEN_EN : Fld := ⟨389, 16, 0⟩
def LE_ROWSTAT_ROW : Fld := ⟨390, 4, 0⟩
def LE_ROWSTAT_ACTIVE : Fld := ⟨391, 1, 0⟩
def LE_ROWSTAT_PENDING : Fld := ⟨392, 16, 0⟩
def LE_EVT_ROW_OVR : Fld := ⟨393, 1, 0⟩
def LE_EVT_SAT : Fld := ⟨394, 1, 0⟩
def LE_EVT_ECC : Fld := ⟨395, 1, 0⟩
def LE_EVT_XOVR : Fld := ⟨396, 1, 0⟩
def LE_EVT_STALE : Fld := ⟨397, 1, 0⟩
def LE_BANK0_BANK : Fld := ⟨398, 32, 0⟩
def LE_BANK1_BANK : Fld := ⟨399, 16, 0⟩
def LE_SWAP0_SWAP : Fld := ⟨400, 32, 0⟩
def LE_SWAP1_SWAP : Fld := ⟨401, 16, 0⟩
def LE_CLR0_CLR : Fld := ⟨402, 32, 0⟩
def LE_CLR1_CLR : Fld := ⟨403, 16, 0⟩
def LE_LT_CTL_FREEZE : Fld := ⟨404, 1, 0⟩
def LE_LT_CTL_PRELOAD : Fld := ⟨405, 1, 0⟩
def LE_LT_CTL_SNAP : Fld := ⟨406, 1, 0⟩
def LE_LT_CTL_BUSY : Fld := ⟨407, 1, 0⟩
def LE_LT_CTL_LEN : Fld := ⟨408, 11, 0⟩
def LE_TALLY0_ROW_OVR : Fld := ⟨409, 16, 0⟩
def LE_TALLY0_XOVR : Fld := ⟨410, 16, 0⟩
def LE_TALLY1_STALE : Fld := ⟨411, 16, 0⟩
def LE_TALLY1_LT_SKIP : Fld := ⟨412, 16, 0⟩
def LE_TALLY2_XWAIT_MAX : Fld := ⟨413, 8, 0⟩
def LE_TALLY2_ECC_CORR : Fld := ⟨414, 16, 0⟩
def LE_SLOT_CFG_LAW : Fld := ⟨415, 4, 0⟩
def LE_SLOT_CFG_EXPRESS : Fld := ⟨416, 1, 0⟩
def LE_SLOT_CFG_FMT : Fld := ⟨417, 1, 0⟩
def LE_SLOT_CFG_LT : Fld := ⟨418, 2, 0⟩
def LE_SLOT_CFG_LT_EN : Fld := ⟨419, 1, 0⟩
def LE_SLOT_CFG1_MEAS : Fld := ⟨420, 8, 0xff⟩
def LE_SLOT_CFG1_OUT : Fld := ⟨421, 8, 0xff⟩
def LE_SLOT_CFG1_XTRIG : Fld := ⟨422, 8, 0⟩
def LE_SAT_TOTAL_COUNT : Fld := ⟨423, 32, 0⟩
def LE_SLOT_STAT_SAT_RUN : Fld := ⟨424, 16, 0⟩
def LE_SLOT_STAT_SAT_HIT : Fld := ⟨425, 1, 0⟩
def LE_SLOT_STAT_STALE : Fld := ⟨426, 1, 0⟩
def LE_SLOT_STAT_ARITH : Fld := ⟨427, 1, 0⟩
def LE_SLOT_STAT_FF_CLAMP : Fld := ⟨428, 1, 0⟩
def LE_SLOT_STAT_NOPH : Fld := ⟨429, 1, 0⟩
def LE_SLOT_STAT_ECC_OFF : Fld := ⟨430, 1, 0⟩
def LE_SLOT_STAT_CFGERR : Fld := ⟨431, 1, 0⟩
def LE_MICRO_BASE : Fld := ⟨432, 10, 0⟩
def LE_MICRO_LEN : Fld := ⟨433, 7, 0⟩

/-! Block hds: 10_print_path.md, R387, register reference. -/

def HDS_BASIC_EN : Fld := ⟨434, 1, 0⟩
def HDS_BASIC_FULL : Fld := ⟨435, 2, 0⟩
def HDS_BASIC_YANK : Fld := ⟨436, 1, 0⟩
def HDS_CTRL_EN : Fld := ⟨437, 1, 0⟩
def HDS_CTRL_OWNER : Fld := ⟨438, 1, 0⟩
def HDS_CTRL_WCOPY : Fld := ⟨439, 1, 0⟩
def HDS_CTRL_LINE_EVT : Fld := ⟨440, 1, 0⟩
def HDS_CTRL_ORDER : Fld := ⟨441, 1, 0⟩
def HDS_GEOM_DOTS : Fld := ⟨442, 11, 0x400⟩
def HDS_GEOM_LANES2 : Fld := ⟨443, 1, 0⟩
def HDS_GEOM_HALF : Fld := ⟨444, 8, 5⟩
def HDS_LAT_LAT_SU : Fld := ⟨445, 8, 1⟩
def HDS_LAT_LAT_W : Fld := ⟨446, 8, 1⟩
def HDS_LAT_GAP : Fld := ⟨447, 16, 1⟩
def HDS_PLANES_PEN : Fld := ⟨448, 4, 0xf⟩
def HDS_PMUL_MUL : Fld := ⟨449, 9, 0x40⟩
def HDS_SLOT_FULL : Fld := ⟨450, 2, 0⟩
def HDS_SLOT_NEXT : Fld := ⟨451, 1, 0⟩
def HDS_SLOT_BUSY : Fld := ⟨452, 1, 0⟩
def HDS_SLOT_PLANE : Fld := ⟨453, 2, 0⟩
def HDS_COMMIT_COMMIT : Fld := ⟨454, 2, 0⟩
def HDS_GO_LINE : Fld := ⟨455, 1, 0⟩
def HDS_TALLY0_LINE_OVR : Fld := ⟨456, 16, 0⟩
def HDS_TALLY0_UNDERRUN : Fld := ⟨457, 16, 0⟩
def HDS_TALLY1_INH_LINES : Fld := ⟨458, 16, 0⟩
def HDS_TALLY1_COMMIT_DUP : Fld := ⟨459, 16, 0⟩
def HDS_LINES_COUNT : Fld := ⟨460, 32, 0⟩
def YK_CFG_EN : Fld := ⟨461, 1, 0⟩
def YK_CFG_PAIR : Fld := ⟨462, 1, 0⟩
def YK_CFG_NEG : Fld := ⟨463, 1, 0⟩
def YK_CFG_YK_N : Fld := ⟨464, 4, 0⟩
def YK_CFG_SA : Fld := ⟨465, 4, 0⟩
def YK_CFG_UAP : Fld := ⟨466, 2, 0⟩
def YK_CFG_UAN : Fld := ⟨467, 2, 0⟩
def YK_CFG_SB : Fld := ⟨468, 4, 0⟩
def YK_CFG_UBP : Fld := ⟨469, 2, 0⟩
def YK_CFG_UBN : Fld := ⟨470, 2, 0⟩
def YK_THR_THR : Fld := ⟨471, 32, 0xffffffff⟩
def YK_LEGS_LEGS : Fld := ⟨472, 16, 0⟩
def YK_STAT_YANK : Fld := ⟨473, 1, 0⟩
def YK_STAT_RUN : Fld := ⟨474, 4, 0⟩
def YK_LAST_Y : Fld := ⟨475, 32, 0⟩
def YK_COUNT_COUNT : Fld := ⟨476, 16, 0⟩
def CUT_CFG_EN : Fld := ⟨477, 1, 0⟩
def CUT_CFG_HOME_CAP : Fld := ⟨478, 4, 0⟩
def CUT_CFG_LEGS : Fld := ⟨479, 16, 0⟩
def CUT_STAT_HOMED : Fld := ⟨480, 1, 0⟩
def DK_CFG_ON_MS : Fld := ⟨481, 8, 0x32⟩
def DK_CFG_OFF_MS : Fld := ⟨482, 8, 0x64⟩
def DK_FIRE_FIRE : Fld := ⟨483, 1, 0⟩
def DK_STAT_ACTIVE : Fld := ⟨484, 2, 0⟩
def DK_STAT_COOLING : Fld := ⟨485, 2, 0⟩
def DK_STAT_REFUSED : Fld := ⟨486, 2, 0⟩

/-! Block hcu: 10_print_path.md, R386, register reference. -/

def HCU_BASIC_EN : Fld := ⟨487, 1, 0⟩
def HCU_BASIC_ERR : Fld := ⟨488, 1, 0⟩
def HCU_CTRL_EN : Fld := ⟨489, 1, 0⟩
def HCU_CTRL_PREHEAT : Fld := ⟨490, 1, 0⟩
def HCU_CTRL_HIST_CLR : Fld := ⟨491, 1, 0⟩
def HCU_CTRL_EVT : Fld := ⟨492, 1, 0⟩
def HCU_IN_BASE_BASE : Fld := ⟨493, 27, 0⟩
def HCU_RING_DOTS : Fld := ⟨494, 11, 0x280⟩
def HCU_RING_NLINES : Fld := ⟨495, 8, 1⟩
def HCU_IN_WR_WR : Fld := ⟨496, 8, 0⟩
def HCU_IN_RD_RD : Fld := ⟨497, 8, 0⟩
def HCU_STAT_BUSY : Fld := ⟨498, 1, 0⟩
def HCU_STAT_ERR : Fld := ⟨499, 1, 0⟩
def HCU_STAT_ECODE : Fld := ⟨500, 4, 0⟩
def HCU_STAT_RESP : Fld := ⟨501, 3, 0⟩
def HCU_HIST_TMO_MS : Fld := ⟨502, 16, 0⟩
def HCU_ETAB_ENTRIES : Fld := ⟨503, 32, 0⟩
def HCU_LINES_COUNT : Fld := ⟨504, 32, 0⟩

/-! Block tc: 11_thread_cores.md, R422, register reference. -/

def TC_BASIC_ACTIVE : Fld := ⟨505, 8, 0⟩
def TC_BASIC_DFAULT : Fld := ⟨506, 8, 0⟩
def TC_THREADS_ACTIVE : Fld := ⟨507, 8, 0⟩
def TC_THREADS_WAITING : Fld := ⟨508, 8, 0⟩
def TC_THREADS_HALTED : Fld := ⟨509, 8, 0⟩
def TC_DFAULT_THREADS : Fld := ⟨510, 8, 0⟩
def TC_DF_FIRST : Fld := ⟨511, 8, 0⟩
def TC_DF_SECOND : Fld := ⟨512, 8, 0⟩
def TC_DF_PC_PC : Fld := ⟨513, 32, 0⟩
def TC_ISSUED_COUNT : Fld := ⟨514, 32, 0⟩
def TC_BUBBLES_COUNT : Fld := ⟨515, 32, 0⟩
def TC_TALLY_SB_FULL : Fld := ⟨516, 16, 0⟩
def TC_TALLY_NOTICE_LOST : Fld := ⟨517, 16, 0⟩
def STK_LIM_LIMIT : Fld := ⟨518, 29, 0⟩

/-! Block cc: 11_thread_cores.md, R422, register reference. -/

def CC_BASIC_IC_EN : Fld := ⟨519, 1, 1⟩
def CC_BASIC_RC_EN : Fld := ⟨520, 1, 1⟩
def IC_CTRL_EN : Fld := ⟨521, 1, 1⟩
def RC_CTRL_EN : Fld := ⟨522, 1, 1⟩
def CC_INV_IC_ALL : Fld := ⟨523, 1, 0⟩
def CC_INV_RC_ALL : Fld := ⟨524, 1, 0⟩
def CC_INV_IC_RANGE : Fld := ⟨525, 1, 0⟩
def CC_INV_RC_RANGE : Fld := ⟨526, 1, 0⟩
def CC_INV_BUSY : Fld := ⟨527, 1, 0⟩
def INV_BASE_BASE : Fld := ⟨528, 27, 0⟩
def INV_LAST_LAST : Fld := ⟨529, 27, 0⟩
def IC_HIT_COUNT : Fld := ⟨530, 32, 0⟩
def IC_MISS_COUNT : Fld := ⟨531, 32, 0⟩
def RC_HIT_COUNT : Fld := ⟨532, 32, 0⟩
def RC_MISS_COUNT : Fld := ⟨533, 32, 0⟩
def PARITY_COUNT : Fld := ⟨534, 16, 0⟩

/-! Block wd: 11_thread_cores.md, R422, register reference. -/

def WD_BASIC_KICK : Fld := ⟨535, 8, 0⟩
def WD_PERIOD_PERIOD : Fld := ⟨536, 24, 0⟩
def WD_KICK_KICK : Fld := ⟨537, 8, 0⟩
def WD_COUNT_COUNT : Fld := ⟨538, 24, 0⟩
def WD_STAT_EXPIRED : Fld := ⟨539, 8, 0⟩

/-! Block dsp: 13_task_dispatcher.md, R492, register reference. -/

def DSP_BASIC_STAT_READY : Fld := ⟨540, 9, 0⟩
def DSP_BASIC_STAT_EN : Fld := ⟨541, 1, 0⟩
def DSP_BASIC_POST_TASK : Fld := ⟨542, 8, 0⟩
def DSP_BASIC_POST_TICKET : Fld := ⟨543, 16, 0⟩
def DSP_CTRL_EN : Fld := ⟨544, 1, 0⟩
def DSP_STATUS_READY : Fld := ⟨545, 9, 0⟩
def DSP_STATUS_RUNNING : Fld := ⟨546, 6, 0⟩
def DSP_POST_TASK : Fld := ⟨547, 8, 0⟩
def DSP_POST_TICKET : Fld := ⟨548, 16, 0⟩
def DSP_LOADCFG_N : Fld := ⟨549, 5, 0x14⟩
def DSP_QDEPTH_CUR : Fld := ⟨550, 9, 0⟩
def DSP_QDEPTH_MAX : Fld := ⟨551, 9, 0⟩
def DSP_LOAD_ISSUE : Fld := ⟨552, 16, 0⟩
def DSP_LOAD_BUSY : Fld := ⟨553, 16, 0⟩
def DSP_PREEMPTS_COUNT : Fld := ⟨554, 32, 0⟩
def DSP_SIGNALS_COUNT : Fld := ⟨555, 32, 0⟩
def DSP_DUPS_COUNT : Fld := ⟨556, 32, 0⟩
def DSP_COALESCE_COUNT : Fld := ⟨557, 32, 0⟩
def DSP_DROPPED_COUNT : Fld := ⟨558, 32, 0⟩
def DSP_ERR_TASK : Fld := ⟨559, 8, 0⟩
def DSP_ERR_CODE : Fld := ⟨560, 4, 0⟩
def DSP_ERR_NEW : Fld := ⟨561, 1, 0⟩
def TRC_BASE_BASE : Fld := ⟨562, 29, 0⟩
def TRC_LEN_LEN : Fld := ⟨563, 16, 0⟩
def TRC_WR_WR : Fld := ⟨564, 16, 0⟩
def TRC_RD_RD : Fld := ⟨565, 16, 0⟩
def TRC_CFG_EN : Fld := ⟨566, 1, 0⟩
def TRC_CFG_KINDS : Fld := ⟨567, 10, 0⟩
def TRC_LOST_COUNT : Fld := ⟨568, 32, 0⟩
def DSP_RECOVER_TASK : Fld := ⟨569, 8, 0⟩
def DSP_TASKEN_EN : Fld := ⟨570, 32, 0⟩
def TASK_W0_PRIO : Fld := ⟨571, 5, 0⟩
def TASK_W0_PREEMPT : Fld := ⟨572, 1, 0⟩
def TASK_W0_EN : Fld := ⟨573, 1, 0⟩
def TASK_W0_USER : Fld := ⟨574, 1, 0⟩
def TASK_W0_AFF : Fld := ⟨575, 5, 0⟩
def TASK_W0_RERUN : Fld := ⟨576, 1, 0⟩
def TASK_W1_ENTRY : Fld := ⟨577, 30, 0⟩
def TASK_W2_SP : Fld := ⟨578, 32, 0⟩
def TASK_W3_ARG : Fld := ⟨579, 32, 0⟩
def TASK_W4_TRMASK : Fld := ⟨580, 16, 0⟩
def TASK_W5_STK_LIM : Fld := ⟨581, 29, 0⟩
def TASK_W6_WAIT_LIM : Fld := ⟨582, 16, 0⟩
def DSP_TSTAT_STATE : Fld := ⟨583, 3, 0⟩
def DSP_TSTAT_PENDING : Fld := ⟨584, 1, 0⟩
def DSP_TSTAT_SAVED : Fld := ⟨585, 1, 0⟩
def DSP_TSTAT_SIGNALLED : Fld := ⟨586, 1, 0⟩
def DSP_TSTAT_THREAD : Fld := ⟨587, 6, 0⟩
def WAIT_LAST_WAIT : Fld := ⟨588, 32, 0⟩
def WAIT_MAX_WAIT : Fld := ⟨589, 32, 0⟩
def BIND_TASK : Fld := ⟨590, 8, 0⟩
def BIND_EN : Fld := ⟨591, 1, 0⟩

/-! Block mpu: 14_protection.md, R523, register reference. -/

def MPU_BASIC_DEF_EN : Fld := ⟨592, 1, 1⟩
def MPU_BASIC_LOCK : Fld := ⟨593, 1, 0⟩
def MPU_CTRL_DEF_EN : Fld := ⟨594, 1, 1⟩
def MPU_CTRL_LOCK : Fld := ⟨595, 1, 0⟩
def MPU_FAULTS_COUNT : Fld := ⟨596, 16, 0⟩
def MPU_START_START : Fld := ⟨597, 27, 0⟩
def MPU_END_END : Fld := ⟨598, 27, 0⟩
def MPU_ATTR_RIGHTS : Fld := ⟨599, 6, 0⟩
def MPU_ATTR_EN : Fld := ⟨600, 1, 0⟩

/-! Block fw: 14_protection.md, R524, register reference. -/

def FW_BASIC_COUNT : Fld := ⟨601, 16, 0⟩
def FW_BASIC_NEW : Fld := ⟨602, 1, 0⟩
def FW_BASE_BASE : Fld := ⟨603, 27, 0⟩
def FW_LAST_LAST : Fld := ⟨604, 32, 0x1f⟩
def FW_RD_MASK : Fld := ⟨605, 64, 0⟩
def FW_WR_MASK : Fld := ⟨606, 64, 0⟩
def FW_RANGE_BASE_BASE : Fld := ⟨607, 32, 0⟩
def FW_RANGE_LAST_LAST : Fld := ⟨608, 32, 0⟩
def FW_VALID_VALID : Fld := ⟨609, 8, 0⟩
def FW_STAT_MID : Fld := ⟨610, 6, 0⟩
def FW_STAT_WRITE : Fld := ⟨611, 1, 0⟩
def FW_STAT_NEW : Fld := ⟨612, 1, 0⟩
def FW_DENY_ADDR_ADDR : Fld := ⟨613, 32, 0⟩
def FW_DENY_COUNT_COUNT : Fld := ⟨614, 32, 0⟩

/-! Block sp: 15_supervisor_pair.md, R549, register reference. -/

def SP_BASIC_MODE : Fld := ⟨615, 2, 0⟩
def SP_BASIC_MISMATCH : Fld := ⟨616, 1, 0⟩
def SP_BASIC_EXCURSION : Fld := ⟨617, 1, 0⟩
def SP_BASIC_HINGE_SPLIT : Fld := ⟨618, 1, 0⟩
def SP_BASIC_HINGE_REJOIN : Fld := ⟨619, 1, 0⟩
def SP_CFG_WINDOW : Fld := ⟨620, 17, 0x1000⟩
def SP_CFG_REACT : Fld := ⟨621, 2, 1⟩
def SP_DIVCFG_DIV_LIM : Fld := ⟨622, 16, 0x10⟩
def SP_DIVCFG_RATE_MS : Fld := ⟨623, 16, 0x3e8⟩
def SP_CTRL_DEGRADE : Fld := ⟨624, 1, 0⟩
def SP_CTRL_INJ_C : Fld := ⟨625, 1, 0⟩
def SP_CTRL_INJ_I : Fld := ⟨626, 1, 0⟩
def SP_HINGE_SPLIT : Fld := ⟨627, 1, 0⟩
def SP_HINGE_REJOIN : Fld := ⟨628, 1, 0⟩
def SP_STAT_MODE : Fld := ⟨629, 2, 0⟩
def SP_STAT_RESEEDING : Fld := ⟨630, 1, 0⟩
def SP_STAT_HCODE : Fld := ⟨631, 4, 0⟩
def SP_STAT_LAST : Fld := ⟨632, 2, 0⟩
def SP_EVT_MISMATCH : Fld := ⟨633, 1, 0⟩
def SP_EVT_EXCURSION : Fld := ⟨634, 1, 0⟩
def SP_EVT_HINGE_DONE : Fld := ⟨635, 1, 0⟩
def SP_EVT_HINGE_REF : Fld := ⟨636, 1, 0⟩
def SP_EVT_DEGRADED : Fld := ⟨637, 1, 0⟩
def SP_SIG_CM_SIG : Fld := ⟨638, 32, 0⟩
def SP_SIG_CC_SIG : Fld := ⟨639, 32, 0⟩
def SP_SIG_IM_SIG : Fld := ⟨640, 32, 0⟩
def SP_SIG_IC_SIG : Fld := ⟨641, 32, 0⟩
def SP_WINDOWS_COUNT : Fld := ⟨642, 32, 0⟩
def SP_TALLY0_DIVERGE : Fld := ⟨643, 16, 0⟩
def SP_TALLY0_MISMATCH : Fld := ⟨644, 16, 0⟩
def SP_TALLY1_EXCURSIONS : Fld := ⟨645, 16, 0⟩
def SP_TALLY1_HINGES : Fld := ⟨646, 16, 0⟩
def SP_RATE_COUNT : Fld := ⟨647, 16, 0⟩
def SP_SENSE_SENSE : Fld := ⟨648, 16, 0⟩
def SP_REPLAY_COUNT : Fld := ⟨649, 5, 0⟩
def SP_REPLAY_FULL : Fld := ⟨650, 1, 0⟩

/-! Block dma: 16_dma.md, R580, register reference. -/

def DMA_BASIC_HALTED : Fld := ⟨651, 32, 0⟩
def DMA_MID_MID : Fld := ⟨652, 6, 0⟩
def DMA_CTRL_MID_LOCK : Fld := ⟨653, 1, 0⟩
def DMA_HALTED_HALTED : Fld := ⟨654, 32, 0⟩

/-! Block dmg: 16_dma.md, R580, register reference. -/

def DMG_BASIC_EN : Fld := ⟨655, 1, 0⟩
def DMG_BASIC_STATE : Fld := ⟨656, 3, 0⟩
def DC_CFG_EN : Fld := ⟨657, 1, 0⟩
def DC_CFG_PRIO : Fld := ⟨658, 2, 0⟩
def DC_CFG_REQ_SRC : Fld := ⟨659, 6, 0⟩
def DC_NEXT_NEXT : Fld := ⟨660, 27, 0⟩
def DC_DOORBELL_RING : Fld := ⟨661, 1, 0⟩
def DC_DOORBELL_TICKET : Fld := ⟨662, 16, 0⟩
def DC_CTRL_STOP : Fld := ⟨663, 1, 0⟩
def DC_CTRL_CLEAR : Fld := ⟨664, 1, 0⟩
def DC_STAT_STATE : Fld := ⟨665, 3, 0⟩
def DC_STAT_RESCAN : Fld := ⟨666, 1, 0⟩
def DC_STAT_STATUS : Fld := ⟨667, 4, 0⟩
def DC_CUR_CUR : Fld := ⟨668, 27, 0⟩
def DC_DONE_BYTES : Fld := ⟨669, 25, 0⟩
def DC_ERR_ADDR_ADDR : Fld := ⟨670, 32, 0⟩
def DC_ERR_RESP : Fld := ⟨671, 3, 0⟩
def DC_ERR_DIR : Fld := ⟨672, 1, 0⟩
def DC_ERR_PHASE : Fld := ⟨673, 3, 0⟩
def DC_RING_BASE_BASE : Fld := ⟨674, 28, 0⟩
def DC_RING_LEN_LEN : Fld := ⟨675, 16, 0⟩
def DC_RING_WR_WR : Fld := ⟨676, 16, 0⟩
def DC_RING_RD_RD : Fld := ⟨677, 16, 0⟩
def DC_TALLY_DESCS : Fld := ⟨678, 16, 0⟩
def DC_TALLY_DUP : Fld := ⟨679, 16, 0⟩
def DC_TALLY1_RING_STALL : Fld := ⟨680, 16, 0⟩

/-! Block cx: 17_check_value_units.md, R606, register reference. -/

def CV_BASIC_BUSY : Fld := ⟨681, 16, 0⟩
def CV_BASIC_MISMATCH : Fld := ⟨682, 16, 0⟩
def CX_CFG_WIDTH : Fld := ⟨683, 6, 0x1f⟩
def CX_CFG_REFIN : Fld := ⟨684, 1, 1⟩
def CX_CFG_REFOUT : Fld := ⟨685, 1, 1⟩
def CX_CFG_MODE : Fld := ⟨686, 2, 0⟩
def CX_CFG_PORT : Fld := ⟨687, 4, 0⟩
def CX_CFG_ORDER : Fld := ⟨688, 1, 0⟩
def CX_CFG_EVT : Fld := ⟨689, 1, 0⟩
def CX_STAT_BUSY : Fld := ⟨690, 1, 0⟩
def CX_STAT_DONE : Fld := ⟨691, 1, 0⟩
def CX_STAT_MATCH : Fld := ⟨692, 1, 0⟩
def CX_STAT_MISMATCH : Fld := ⟨693, 1, 0⟩
def CX_STAT_ERR : Fld := ⟨694, 1, 0⟩
def CX_STAT_RESP : Fld := ⟨695, 3, 0⟩
def CX_STAT_FRAME : Fld := ⟨696, 1, 0⟩
def CX_CMD_START : Fld := ⟨697, 1, 0⟩
def CX_CMD_FINISH : Fld := ⟨698, 1, 0⟩
def CX_PRESET_CODE : Fld := ⟨699, 3, 0⟩
def CX_POLY_POLY : Fld := ⟨700, 64, 0x1edc6f41⟩
def CX_INIT_INIT : Fld := ⟨701, 64, 0xffffffff⟩
def CX_XOROUT_XOROUT : Fld := ⟨702, 64, 0xffffffff⟩
def CX_VALUE_S : Fld := ⟨703, 64, 0xffffffff⟩
def CX_RESULT_RESULT : Fld := ⟨704, 64, 0⟩
def CX_EXPECT_EXPECT : Fld := ⟨705, 64, 0⟩
def CX_SCRUB_BASE_BASE : Fld := ⟨706, 27, 0⟩
def CX_SCRUB_LEN_LEN : Fld := ⟨707, 20, 0⟩
def CX_SCRUB_PERIOD_MS : Fld := ⟨708, 16, 0⟩
def CX_TALLY_MISMATCHES : Fld := ⟨709, 16, 0⟩
def CX_TALLY_RUNT : Fld := ⟨710, 8, 0⟩
def CX_TALLY_SCRUB_LATE : Fld := ⟨711, 8, 0⟩

/-! Block cr: 19_nvm_and_keys.md, R671, register reference. -/

def CR_BASIC_BUSY : Fld := ⟨712, 1, 0⟩
def CR_BASIC_RESULT : Fld := ⟨713, 4, 0⟩
def CR_CMD_OP : Fld := ⟨714, 3, 0⟩
def CR_CMD_KIND : Fld := ⟨715, 3, 0⟩
def CR_SRC_SRC : Fld := ⟨716, 32, 0⟩
def CR_LEN_LEN : Fld := ⟨717, 25, 0⟩
def CR_STAT_BUSY : Fld := ⟨718, 1, 0⟩
def CR_STAT_RESULT : Fld := ⟨719, 4, 0⟩
def CR_STAT_PARTIAL : Fld := ⟨720, 1, 0⟩
def CR_STAT_REFUSED : Fld := ⟨721, 1, 0⟩
def CR_STAT_RESP : Fld := ⟨722, 3, 0⟩
def CR_STAT_EPOCH_NEW : Fld := ⟨723, 16, 0⟩
def CR_DIGEST_WORD : Fld := ⟨724, 32, 0⟩
def CR_SIG_WORD : Fld := ⟨725, 32, 0⟩
def CR_KEYSLOT_DESC : Fld := ⟨726, 8, 0⟩
def CR_ROOT_REVOKED : Fld := ⟨727, 2, 0⟩
def CR_ROOT_EPOCH0 : Fld := ⟨728, 8, 0⟩
def CR_ROOT_EPOCH1 : Fld := ⟨729, 8, 0⟩

/-! Block usb: 18_host_ports.md, R625, register reference. -/

def PT_BASIC_EN : Fld := ⟨730, 1, 0⟩
def PT_BASIC_RX_LEVEL : Fld := ⟨731, 16, 0⟩
def PT_CTRL_EN : Fld := ⟨732, 1, 0⟩
def PT_CTRL_RX_EN : Fld := ⟨733, 1, 0⟩
def PT_CTRL_TX_EN : Fld := ⟨734, 1, 0⟩
def PT_CTRL_DMA_RX : Fld := ⟨735, 1, 0⟩
def PT_CTRL_DMA_TX : Fld := ⟨736, 1, 0⟩
def PT_CTRL_EVT_RX : Fld := ⟨737, 1, 0⟩
def PT_CTRL_EVT_TX : Fld := ⟨738, 1, 0⟩
def PT_CTRL_EVT_ERR : Fld := ⟨739, 1, 0⟩
def PT_STAT_RX_LEVEL : Fld := ⟨740, 16, 0⟩
def PT_STAT_TX_FREE : Fld := ⟨741, 16, 0⟩
def PT_THR_RX_THR : Fld := ⟨742, 16, 0⟩
def PT_THR_TX_THR : Fld := ⟨743, 16, 0⟩
def PT_TX_PUSH_DATA : Fld := ⟨744, 32, 0⟩
def PT_TX_PUSH_N : Fld := ⟨745, 2, 0⟩
def PT_TX_PUSH_EP : Fld := ⟨746, 4, 0⟩
def PT_TX_PUSH_TICKET : Fld := ⟨747, 16, 0⟩
def PT_TX_STREAM_DATA : Fld := ⟨748, 32, 0⟩
def PT_RX_POP_DATA : Fld := ⟨749, 32, 0⟩
def PT_TALLY_TX_FULL : Fld := ⟨750, 16, 0⟩
def PT_TALLY_OVR : Fld := ⟨751, 16, 0⟩
def USB_CTRL_CONNECT : Fld := ⟨752, 1, 0⟩
def USB_CTRL_HS_EN : Fld := ⟨753, 1, 1⟩
def USB_CTRL_RWAKE : Fld := ⟨754, 1, 0⟩
def USB_STAT_VBUS : Fld := ⟨755, 1, 0⟩
def USB_STAT_HS : Fld := ⟨756, 1, 0⟩
def USB_STAT_SUSPENDED : Fld := ⟨757, 1, 0⟩
def USB_STAT_BUS_RESET : Fld := ⟨758, 1, 0⟩
def USB_ADDR_ADDR : Fld := ⟨759, 7, 0⟩
def USB_EPCFG_EN : Fld := ⟨760, 1, 0⟩
def USB_EPCFG_IN : Fld := ⟨761, 1, 0⟩
def USB_EPCFG_INTR : Fld := ⟨762, 1, 0⟩
def USB_EPCFG_DOUBLE : Fld := ⟨763, 1, 0⟩
def USB_EPCFG_BASE : Fld := ⟨764, 6, 0⟩
def USB_EPCFG_MAXPKT : Fld := ⟨765, 11, 0⟩
def USB_EPSTAT_FULL : Fld := ⟨766, 2, 0⟩
def USB_EPSTAT_STALL : Fld := ⟨767, 1, 0⟩
def USB_EPSTAT_TOGGLE : Fld := ⟨768, 1, 0⟩
def USB_EPSTAT_NAKS : Fld := ⟨769, 16, 0⟩
def USB_DMASEL_SEL0 : Fld := ⟨770, 4, 0⟩
def USB_DMASEL_SEL1 : Fld := ⟨771, 4, 0⟩
def USB_DMASEL_SEL2 : Fld := ⟨772, 4, 0⟩
def USB_DMASEL_SEL3 : Fld := ⟨773, 4, 0⟩
def USB_TALLY_TOGGLE_DUP : Fld := ⟨774, 16, 0⟩
def USB_STREAM_DATA : Fld := ⟨775, 32, 0⟩
def USB_POP_DATA : Fld := ⟨776, 32, 0⟩

/-! Block eth: 18_host_ports.md, R625, register reference. -/

def ETH_CTRL_FULL_DUPLEX : Fld := ⟨777, 1, 1⟩
def ETH_CTRL_SPEED100 : Fld := ⟨778, 1, 1⟩
def ETH_CTRL_PROMISC : Fld := ⟨779, 1, 0⟩
def ETH_CTRL_BCAST_EN : Fld := ⟨780, 1, 1⟩
def ETH_CTRL_PAUSE_TX_EN : Fld := ⟨781, 1, 1⟩
def ETH_CTRL_PAUSE_RX_EN : Fld := ⟨782, 1, 1⟩
def ETH_MAC_LO_MAC : Fld := ⟨783, 32, 0⟩
def ETH_MAC_HI_MAC : Fld := ⟨784, 16, 0⟩
def ETH_HASH_LO_BINS : Fld := ⟨785, 32, 0⟩
def ETH_HASH_HI_BINS : Fld := ⟨786, 32, 0⟩
def ETH_PAUSE_PAUSE_TIME : Fld := ⟨787, 16, 0xffff⟩
def ETH_FLOW_XOFF_LEVEL : Fld := ⟨788, 16, 0x3000⟩
def ETH_FLOW_XON_LEVEL : Fld := ⟨789, 16, 0x2000⟩
def ETH_MDIO_CMD_REG : Fld := ⟨790, 5, 0⟩
def ETH_MDIO_CMD_PHY : Fld := ⟨791, 5, 0⟩
def ETH_MDIO_CMD_WRITE : Fld := ⟨792, 1, 0⟩
def ETH_MDIO_CMD_DATA : Fld := ⟨793, 16, 0⟩
def ETH_MDIO_DATA_DATA : Fld := ⟨794, 16, 0⟩
def ETH_MDIO_DATA_BUSY : Fld := ⟨795, 1, 0⟩
def ETH_MDIO_DATA_MDIO_OVR : Fld := ⟨796, 1, 0⟩
def ETH_TALLY0_RX_DROP : Fld := ⟨797, 16, 0⟩
def ETH_TALLY0_FCS_ERR : Fld := ⟨798, 16, 0⟩
def ETH_TALLY1_PAUSE_SENT : Fld := ⟨799, 16, 0⟩
def ETH_TALLY1_PAUSE_RCVD : Fld := ⟨800, 16, 0⟩
def ETH_TALLY2_TX_BAD : Fld := ⟨801, 16, 0⟩
def ETH_TALLY2_EXCESS : Fld := ⟨802, 8, 0⟩
def ETH_TALLY2_SIZE_ERR : Fld := ⟨803, 8, 0⟩

/-! Block uart: 18_host_ports.md, R625, register reference. -/

def UART_BAUD_DIVI : Fld := ⟨804, 16, 0x10f⟩
def UART_BAUD_DIVF : Fld := ⟨805, 6, 0x11⟩
def UART_FMT_BITS7 : Fld := ⟨806, 1, 0⟩
def UART_FMT_PARITY : Fld := ⟨807, 2, 0⟩
def UART_FMT_STOP2 : Fld := ⟨808, 1, 0⟩
def UART_FC_HWFC : Fld := ⟨809, 1, 0⟩
def UART_FC_SWFC_TX : Fld := ⟨810, 1, 0⟩
def UART_FC_SWFC_RX : Fld := ⟨811, 1, 0⟩
def UART_FC_RTS_FREE : Fld := ⟨812, 8, 8⟩
def UART_FC_XOFF_FREE : Fld := ⟨813, 8, 0x30⟩
def UART_STAT_CTS : Fld := ⟨814, 1, 0⟩
def UART_STAT_RTS : Fld := ⟨815, 1, 0⟩
def UART_STAT_XOFF_RX : Fld := ⟨816, 1, 0⟩
def UART_STAT_XOFF_SENT : Fld := ⟨817, 1, 0⟩
def UART_STAT_OVR : Fld := ⟨818, 1, 0⟩
def UART_STAT_FRAMING : Fld := ⟨819, 1, 0⟩
def UART_STAT_PARITY : Fld := ⟨820, 1, 0⟩
def UART_STAT_BREAK : Fld := ⟨821, 1, 0⟩

/-! Block mod: 18_host_ports.md, R625, register reference. -/

def MOD_CFG_MODE : Fld := ⟨822, 2, 0⟩
def MOD_CFG_DIV : Fld := ⟨823, 8, 9⟩
def MOD_CFG_LSB_FIRST : Fld := ⟨824, 1, 0⟩
def MOD_CFG_BURST : Fld := ⟨825, 10, 0x20⟩
def MOD_STAT_BUSY : Fld := ⟨826, 1, 0⟩
def MOD_STAT_RDY : Fld := ⟨827, 1, 0⟩
def MOD_STAT_IRQ : Fld := ⟨828, 1, 0⟩
def MOD_STAT_RDY_TMO : Fld := ⟨829, 1, 0⟩
def MOD_STAT_CHECK : Fld := ⟨830, 1, 0⟩
def MOD_RDY_TMO_US : Fld := ⟨831, 16, 0⟩

/-! Block sl: 18_host_ports.md, R625, register reference. -/

def SL_STAT_STATE : Fld := ⟨832, 2, 0⟩
def SL_STAT_TX_CREDITS : Fld := ⟨833, 4, 0⟩
def SL_STAT_CRET_PEND : Fld := ⟨834, 4, 0⟩
def SL_STAT_PEER_RST : Fld := ⟨835, 1, 0⟩
def SL_STAT_NOCRC : Fld := ⟨836, 1, 0⟩
def SL_SEQ_TX_SEQ : Fld := ⟨837, 8, 0⟩
def SL_SEQ_RX_SEQ : Fld := ⟨838, 8, 0⟩
def SL_TALLY0_CRC_ERR : Fld := ⟨839, 16, 0⟩
def SL_TALLY0_SEQ_GAP : Fld := ⟨840, 16, 0⟩
def SL_TALLY1_RX_OVR : Fld := ⟨841, 16, 0⟩
def SL_TALLY1_HDR_ERR : Fld := ⟨842, 8, 0⟩
def SL_TALLY1_CREDIT_ERR : Fld := ⟨843, 8, 0⟩

/-! Block nvm: 19_nvm_and_keys.md, R671, register reference. -/

def NVM_BASIC_CORR : Fld := ⟨844, 16, 0⟩
def NVM_BASIC_UNC : Fld := ⟨845, 16, 0⟩
def NVM_STAT_ARRAY_BUSY : Fld := ⟨846, 8, 0⟩
def NVM_STAT_TALLY_SAVING : Fld := ⟨847, 1, 0⟩
def NVM_ECC_CORR_COUNT : Fld := ⟨848, 32, 0⟩
def NVM_ECC_DAY_COUNT : Fld := ⟨849, 16, 0⟩
def NVM_ECC_UNC_COUNT : Fld := ⟨850, 32, 0⟩
def NVM_ERR_ADDR_ADDR : Fld := ⟨851, 32, 0⟩
def NVM_CORR_ADDR_ADDR : Fld := ⟨852, 32, 0⟩
def NVM_TALLY_MAX_MAX : Fld := ⟨853, 32, 0⟩
def NVM_TALLY_MAXPG_PAGE : Fld := ⟨854, 13, 0⟩
def NVM_TALLY_SEL_PAGE : Fld := ⟨855, 13, 0⟩
def NVM_TALLY_VAL_TALLY : Fld := ⟨856, 32, 0⟩
def NVM_TALLY_SAVE_SAVE : Fld := ⟨857, 1, 0⟩

/-! Block key: 19_nvm_and_keys.md, R671, register reference. -/

def KEY_BASIC_STATE : Fld := ⟨858, 3, 0⟩
def KEY_BASIC_RESULT : Fld := ⟨859, 4, 0⟩
def KEY_HDR_HDR : Fld := ⟨860, 64, 0⟩
def KEY_Q_WORD : Fld := ⟨861, 64, 0⟩
def KEY_AUTH_WORD : Fld := ⟨862, 64, 0⟩
def KEY_AUTH_DESC_DESC : Fld := ⟨863, 8, 0⟩
def KEY_COMMIT_SLOT : Fld := ⟨864, 2, 0⟩
def KEY_COMMIT_TICKET : Fld := ⟨865, 16, 0⟩
def KEY_STAT_STATE : Fld := ⟨866, 3, 0⟩
def KEY_STAT_RESULT : Fld := ⟨867, 4, 0⟩
def KEY_STAT_OVERRUN : Fld := ⟨868, 1, 0⟩
def KEY_STAT_CTRBAD : Fld := ⟨869, 8, 0⟩
def KEY_SLOT_SEQ : Fld := ⟨870, 32, 0⟩
def KEY_SLOT_EPOCH : Fld := ⟨871, 16, 0⟩
def KEY_SLOT_STATE : Fld := ⟨872, 2, 0⟩
def KEY_SLOT_COPY : Fld := ⟨873, 1, 0⟩
def CTR_VALUE : Fld := ⟨874, 32, 0⟩
def CTR_RAISE_V : Fld := ⟨875, 32, 0⟩
def KEY_POLICY_DUAL_STRICT : Fld := ⟨876, 1, 0⟩

/-! Block log: 19_nvm_and_keys.md, R671, register reference. -/

def LOG_WR_WR : Fld := ⟨877, 12, 0⟩
def LOG_SEQ_SEQ : Fld := ⟨878, 32, 0⟩

/-! Block tst: 20_debug_and_test.md, R697, register reference. -/

def TST_BASIC_STATE : Fld := ⟨879, 2, 0⟩
def TST_LOCK_STATE : Fld := ⟨880, 2, 0⟩
def TST_LOCK_LOCK : Fld := ⟨881, 1, 0⟩
def TST_FUSE_DBG_FUSE : Fld := ⟨882, 2, 0⟩
def TST_FUSE_PROG_BITS : Fld := ⟨883, 2, 0⟩
def TST_STAT_TEST_SEEN : Fld := ⟨884, 1, 0⟩
def TST_STAT_TESTMODE : Fld := ⟨885, 1, 0⟩
def TST_STAT_AUTH_FAIL : Fld := ⟨886, 8, 0⟩

/-! Block dbg: 20_debug_and_test.md, R709, register reference. -/

def DBG_BASIC_HALTED : Fld := ⟨887, 32, 0⟩
def DBG_HALT0_HALT : Fld := ⟨888, 32, 0⟩
def DBG_HALT1_HALT : Fld := ⟨889, 8, 0⟩
def DBG_RESUME0_RESUME : Fld := ⟨890, 32, 0⟩
def DBG_RESUME1_RESUME : Fld := ⟨891, 8, 0⟩
def DBG_STEP0_STEP : Fld := ⟨892, 32, 0⟩
def DBG_STEP1_STEP : Fld := ⟨893, 8, 0⟩
def DBG_HALTED0_HALTED : Fld := ⟨894, 32, 0⟩
def DBG_HALTED1_HALTED : Fld := ⟨895, 8, 0⟩
def DBG_SEL_SEL : Fld := ⟨896, 6, 0⟩
def DBG_REASON_REASON : Fld := ⟨897, 3, 0⟩
def DBG_REASON_NUM : Fld := ⟨898, 10, 0⟩
def DBG_PC_PC : Fld := ⟨899, 30, 0⟩
def DBG_GPR_G : Fld := ⟨900, 32, 0⟩
def DBG_SYS_NUM_NUM : Fld := ⟨901, 10, 0⟩
def DBG_SYS_DATA_DATA : Fld := ⟨902, 32, 0⟩
def DBG_CTRL_BRK_HALT : Fld := ⟨903, 1, 0⟩

/-! State the rules give outside the register tables. -/


-- stack, links
/-- R14: B-die fuses have been read since the AO release (DESIGN marker of B_DIE_FUSE_READ). -/
def FUSE_VALID : Fld := ⟨1000, 1, 0⟩
/-- R15: STACK_ID fuse of the B-die. -/
def FUSE_STACK_ID : Fld := ⟨1001, 64, 0⟩
/-- R692: FUSE_SEAL of the B-die. -/
def FUSE_SEAL : Fld := ⟨1002, 1, 0⟩
/-- R688: ROOT_HASH of root i. -/
def FUSE_ROOT_HASH : Fld := ⟨1003, 256, 0⟩
/-- R688: ROOT_EPOCH of root i. -/
def FUSE_ROOT_EPOCH : Fld := ⟨1004, 8, 0⟩
/-- R692: ROOT_REVOKE bit of root i. -/
def FUSE_ROOT_REVOKE : Fld := ⟨1005, 1, 0⟩
/-- R711: DBG_FUSE. -/
def FUSE_DBG : Fld := ⟨1006, 2, 0⟩
/-- R93: fused ledger limit. -/
def FUSE_ECC_LIM : Fld := ⟨1007, 16, 256⟩
/-- R93: fused ledger limit. -/
def FUSE_WEAR_LIM : Fld := ⟨1008, 32, 90000000⟩
/-- R93: fused ledger limit. -/
def FUSE_HOT_LIM : Fld := ⟨1009, 16, 1000⟩
/-- R93: fused ledger limit. -/
def FUSE_SP_LIM : Fld := ⟨1010, 8, 8⟩
/-- R70: start-up outcome that confines the device to Tier 0 (its cause code; 0 none). -/
def TIER0_ONLY : Fld := ⟨1011, 4, 0⟩
/-- R16: C-die absent (strap fault, stack ID or restart limit). -/
def C_ABSENT : Fld := ⟨1012, 1, 0⟩
/-- R16: M-die absent. -/
def M_ABSENT : Fld := ⟨1013, 1, 0⟩
/-- R49: failed restarts of the C-die in succession. -/
def C_FAILS : Fld := ⟨1014, 2, 0⟩
/-- R49: failed restarts of the M-die in succession. -/
def M_FAILS : Fld := ⟨1015, 2, 0⟩
/-- R89: C-die restarts since power-on (saturating). -/
def C_RESTARTS : Fld := ⟨1016, 16, 0⟩
/-- R89: the C-die has been up since power-on. -/
def C_WAS_UP : Fld := ⟨1017, 1, 0⟩
/-- R19: next SEQ of link end i (i = 2 x bundle + dir; dir 0 sends towards the upper die). -/
def LK_TXSEQ : Fld := ⟨1018, 8, 0⟩
/-- R20: expected SEQ of the receiver fed by link end i. -/
def LK_EXPECT : Fld := ⟨1019, 8, 0⟩
/-- R21: receiver of link end i discards until the expected SEQ arrives. -/
def LK_SKIP : Fld := ⟨1020, 1, 0⟩
/-- R23: flits accepted since the last ACK. -/
def LK_UNACKED : Fld := ⟨1021, 4, 0⟩
/-- R23: last accepted SEQ. -/
def LK_LAST_ACC : Fld := ⟨1022, 8, 255⟩
/-- R23: SEQ of the latest ACK the receiver of link end i sent. -/
def LK_ACK_OUT : Fld := ⟨1023, 8, 0⟩
/-- R21: SEQ of the latest NAK the receiver sent. -/
def LK_NAK_OUT : Fld := ⟨1024, 8, 0⟩
/-- R21: NAKs sent by the receiver of link end i. -/
def LK_NAKS : Fld := ⟨1025, 32, 0⟩
/-- R23: ACKs sent by the receiver of link end i. -/
def LK_ACKS : Fld := ⟨1026, 32, 0⟩
/-- R24: SEQ from which the sender of link end i last resent. -/
def LK_RESENT : Fld := ⟨1027, 8, 0⟩
/-- R37: a valid HEARTBEAT has arrived in the current 1 us period. -/
def HB_SEEN : Fld := ⟨1028, 1, 0⟩
/-- R197: heartbeat and M-link supervision suspended. -/
def HB_SUSPENDED : Fld := ⟨1029, 1, 0⟩
/-- R32: bundle i is still to be tested under the CRC trigger. -/
def CRC_PEND : Fld := ⟨1030, 1, 0⟩
/-- R30: bundle link i visited last (0 C-link, 1 M-link). -/
def LT_BUNDLE : Fld := ⟨1031, 6, 23⟩
/-- R30: bundle under test on link i. -/
def LT_TEST_BUNDLE : Fld := ⟨1032, 6, 0⟩
/-- R30: lane under test on link i. -/
def LT_TEST_LANE : Fld := ⟨1033, 7, 0⟩
/-- R30: lane link i visited last. -/
def LT_LANE : Fld := ⟨1034, 7, 63⟩
/-- R29: spare steered for the running lane test of link i, plus 1 (0 none). -/
def LT_SPARE : Fld := ⟨1035, 3, 0⟩
/-- R28: SEQ at which both ends of link i's bundle under test switch. -/
def LT_SWITCH : Fld := ⟨1036, 8, 0⟩
/-- R30: a lane test of link i is running. -/
def LT_ACTIVE : Fld := ⟨1037, 1, 0⟩
/-- R32: bundle whose every lane is to be tested first, plus 1 (0 none), link i. -/
def LT_TRIG : Fld := ⟨1038, 6, 0⟩
/-- R32: next lane of that bundle. -/
def LT_TRIG_LANE : Fld := ⟨1039, 7, 0⟩
/-- R31: lane j of bundle i is known to be defective. -/
def LANE_BAD : Fld := ⟨1040, 1, 0⟩
/-- R34: every bundle of link i is retired. -/
def BUNDLE_LOST : Fld := ⟨1041, 1, 0⟩

-- start-up
/-- R227: cast-on step 12 has not yet switched the balls. -/
def PRE_CAST : Fld := ⟨1042, 1, 1⟩
/-- R754: the outputs have been released to their functions. -/
def RELEASED : Fld := ⟨1043, 1, 0⟩
/-- R55: bind-off in force. -/
def BINDOFF : Fld := ⟨1044, 1, 0⟩
/-- R69: boot ROM progress: 0 none, 1 started, 2 checked itself and searching, 3 images chosen, 4 cast on, 5 recovery, 6 handed over. -/
def ROM_STAGE : Fld := ⟨1045, 3, 0⟩
/-- R97: the M-die was lost during the search of the boot ROM. -/
def ROM_MLOST : Fld := ⟨1046, 1, 0⟩
/-- R65: Pattern slot chosen (0 PA, 1 PB). -/
def CHOSEN_PAT : Fld := ⟨1047, 1, 0⟩
/-- R65: a Pattern slot has been chosen. -/
def PAT_FOUND : Fld := ⟨1048, 1, 0⟩
/-- R65: firmware slot chosen (0 FA, 1 FB). -/
def CHOSEN_FW : Fld := ⟨1049, 1, 0⟩
/-- R64: image slot i (0 PA, 1 PB, 2 FA, 3 FB) has been checked in this start. -/
def IMG_TRIED : Fld := ⟨1050, 1, 0⟩
/-- R46: the M-die is restarting after a loss. -/
def M_RETURN : Fld := ⟨1051, 1, 0⟩
/-- R66: Pattern slot i has been tried by cast-on. -/
def CAST_TRIED : Fld := ⟨1052, 1, 0⟩
/-- R66: the latest cast-on failed. -/
def CAST_FAILED : Fld := ⟨1053, 1, 0⟩
/-- R76: slot of the active Pattern kept in AO. -/
def KEPT_SLOT : Fld := ⟨1054, 1, 0⟩
/-- R76: SHA-256 digest of the active Pattern kept in AO (big-endian number). -/
def KEPT_DIGEST : Fld := ⟨1055, 256, 0⟩
/-- R56: the progress watchdog runs. -/
def PWD_RUN : Fld := ⟨1056, 1, 0⟩
/-- R56: ms left of the progress-watchdog period. -/
def PWD_LEFT : Fld := ⟨1057, 16, 0⟩
/-- R83: recovery transfer in progress: 0 none, 1 UART0, 2 USB. -/
def REC_PORT : Fld := ⟨1058, 2, 0⟩
/-- R227: balls that recovery has switched to their functions: bit 0 UART0, bit 1 USB for the image that runs. -/
def REC_PADS : Fld := ⟨1059, 2, 0⟩
/-- R80: prompts sent. -/
def REC_PROMPTS : Fld := ⟨1060, 32, 0⟩
/-- R80: latest answer byte of the ROM. -/
def REC_ANSWER : Fld := ⟨1061, 8, 0⟩
/-- R80: the ROM offers recovery. -/
def REC_MODE : Fld := ⟨1062, 1, 0⟩
/-- R87: a tombstone request has been taken. -/
def TS_REQ : Fld := ⟨1063, 1, 0⟩
/-- R96: a ledger record waits in AO. -/
def LEDGER_PENDING : Fld := ⟨1064, 1, 0⟩
/-- R96: minutes of HOT_TIME since the last ledger record. -/
def HOT_SINCE : Fld := ⟨1065, 6, 0⟩

-- pattern
/-- R135: address of the pending delta. -/
def LIVE_DELTA : Fld := ⟨1066, 32, 0⟩
/-- R124: LOCKS POLICY LIVE_EN of the active Pattern. -/
def LIVE_EN : Fld := ⟨1067, 1, 0⟩
/-- R536: LOCKS POLICY MPU_LOCK. -/
def MPU_LOCK_POL : Fld := ⟨1068, 1, 0⟩
/-- R134: section type i carries LIVE = 1 in the active Pattern. -/
def LIVE_SECT : Fld := ⟨1069, 1, 0⟩
/-- R141: GO writes refused with code 0x44. -/
def LIVE_REFUSED : Fld := ⟨1070, 32, 0⟩
/-- R10: BLK_LOCK.BAS_LOCK of block i, instance j. -/
def BAS_LOCK : Fld := ⟨1071, 1, 0⟩
/-- R10: BLK_LOCK.EXP_LOCK of block i, instance j. -/
def EXP_LOCK : Fld := ⟨1072, 1, 0⟩
/-- R541: firewall windows are in effect (cast-on has ended). -/
def FW_LIVE : Fld := ⟨1073, 1, 0⟩
/-- R545: the C-die firewall windows are in effect. -/
def FW_C_LIVE : Fld := ⟨1074, 1, 0⟩
/-- R117: SRC of destination i. -/
def RT_SRC : Fld := ⟨1075, 8, 0⟩
/-- R117: EN of destination i. -/
def RT_EN : Fld := ⟨1076, 1, 0⟩
/-- R117: INV of destination i. -/
def RT_INV : Fld := ⟨1077, 1, 0⟩
/-- R117: SYNC of destination i. -/
def RT_SYNC : Fld := ⟨1078, 2, 0⟩
/-- R117: level of destination i as its consumers last saw it. -/
def RT_LEVEL : Fld := ⟨1079, 1, 0⟩
/-- R117: edges of destination i on their way to its consumer: bit 0 a rising one, bit 1 a falling one. -/
def RT_EDGE : Fld := ⟨1080, 2, 0⟩
/-- R122: TRIP GATE comparators. -/
def GATE_MASK : Fld := ⟨1081, 24, 0⟩
/-- R122: OC_DAC of leg i. -/
def OC_DAC : Fld := ⟨1082, 10, 0⟩
/-- R122: HS_DAC of leg i. -/
def HS_DAC : Fld := ⟨1083, 10, 0⟩
/-- R116: POLICY of domain i. -/
def POLICY : Fld := ⟨1084, 2, 3⟩
/-- R116: KEEP_DOZE of domain i. -/
def KEEP_DOZE : Fld := ⟨1085, 1, 0⟩
/-- R116: KEEP_NAP of domain i. -/
def KEEP_NAP : Fld := ⟨1086, 1, 0⟩
/-- R116: KEEP_HIB of domain i. -/
def KEEP_HIB : Fld := ⟨1087, 1, 0⟩
/-- R746: CLOCK SOURCES. -/
def LSXO_FIT : Fld := ⟨1088, 1, 0⟩
/-- R746: CLOCK SOURCES. -/
def RMII_OUT : Fld := ⟨1089, 1, 0⟩
/-- R746: CLOCK SOURCES. -/
def USB_EN : Fld := ⟨1090, 1, 1⟩
/-- R746: CLOCK SOURCES. -/
def HSXO_EXT : Fld := ⟨1091, 1, 0⟩
/-- R125: task i has a TASK frame. -/
def TASK_DEF : Fld := ⟨1092, 1, 0⟩
/-- R118: START of the SLICE frame of slice i. -/
def SLICE_START : Fld := ⟨1093, 1, 0⟩
/-- R373: words of the micro-op store in use. -/
def MS_USED : Fld := ⟨1094, 11, 0⟩

-- fabric
/-- R153: tag i is allocated. -/
def TAG_BUSY : Fld := ⟨1095, 1, 0⟩
/-- R153: master of tag i: a thread by its number, 64 + a DMA channel, 128 + another master. -/
def TAG_MID : Fld := ⟨1096, 8, 0⟩
/-- R154: TMO taken with tag i. -/
def TAG_TMO : Fld := ⟨1097, 16, 0⟩
/-- R153: address of tag i. -/
def TAG_ADDR : Fld := ⟨1098, 32, 0⟩
/-- R153: operation of tag i. -/
def TAG_OP : Fld := ⟨1099, 4, 0⟩
/-- R154: time at which tag i was taken. -/
def TAG_SINCE : Fld := ⟨1100, 64, 0⟩
/-- R164: number of in-service general bundles when tag i was taken. -/
def TAG_N : Fld := ⟨1101, 6, 0⟩
/-- R33: bundle of link j that carries tag i, plus 1 (0 none). -/
def TAG_BUNDLE : Fld := ⟨1102, 6, 0⟩
/-- R155: log2 of the bytes of tag i. -/
def TAG_SIZE : Fld := ⟨1103, 3, 0⟩
/-- R45: data of a write of tag i. -/
def TAG_DATA : Fld := ⟨1104, 256, 0⟩
/-- R756: domain of the master that issued tag i. -/
def TAG_DOM : Fld := ⟨1105, 8, 0⟩

-- power
/-- R244: bank A held at high impedance by a level mismatch. -/
def BANK_HIZ : Fld := ⟨1106, 1, 0⟩
/-- R185: HSXO is stable. -/
def HSXO_ON : Fld := ⟨1107, 1, 0⟩
/-- R185: a move of the PLL reference is in progress, plus the target in j = 1. -/
def HSXO_SELECT : Fld := ⟨1108, 1, 0⟩
/-- R184: both PLLs are locked. -/
def PLL_LOCKED : Fld := ⟨1109, 1, 0⟩
/-- R190: requester j holds a request for clock i (j = domain, 255 firmware). -/
def CLK_HOLD : Fld := ⟨1110, 1, 0⟩
/-- R190: optional clock i is running and stable. -/
def CLK_RUN : Fld := ⟨1111, 1, 0⟩
/-- R171: state of domain i: 0 off, 1 powering up, 2 on, 3 draining. -/
def DOM_STATE : Fld := ⟨1112, 2, 0⟩
/-- R173: domain i was switched off by force. -/
def DOM_FORCED : Fld := ⟨1113, 1, 0⟩
/-- R195: power state whose entry is in progress. -/
def ENTRY_REQ : Fld := ⟨1114, 3, 0⟩
/-- R200: wake sources asserted during a wake. -/
def WAKE_PEND : Fld := ⟨1115, 12, 0⟩
/-- R202: a wake is in progress. -/
def WAKING : Fld := ⟨1116, 1, 0⟩
/-- R231: output ball i is held. -/
def PAD_HOLD : Fld := ⟨1117, 1, 0⟩
/-- R231: the level at which it is held: 0 low, 1 high, 2 high impedance, 3 the running signal. -/
def PAD_LEVEL : Fld := ⟨1118, 2, 0⟩
/-- R218: level of PWR_EN. -/
def PWR_EN : Fld := ⟨1119, 1, 0⟩
/-- R210: the latest conversion was at or above T_CRIT. -/
def TEMP_CRIT_ONCE : Fld := ⟨1120, 1, 0⟩
/-- R210: at or above T_WARN. -/
def WARNED : Fld := ⟨1121, 1, 0⟩
/-- R202: domain i was on at entry to HIBERNATE. -/
def DOM_WAS_ON : Fld := ⟨1122, 1, 0⟩

-- analog
/-- R250: sequence state of ADn: i = AD, j = sequence; 0 idle, 1 running, 2 pre-empted, 3 pending. -/
def AD_SEQ : Fld := ⟨1123, 2, 0⟩
/-- R251: step in progress of ADn, sequence j. -/
def AD_STEP_NOW : Fld := ⟨1124, 4, 0⟩
/-- R258: conversions already summed in the step. -/
def AD_OVS_N : Fld := ⟨1125, 9, 0⟩
/-- R258: sum of the codes of the step. -/
def AD_ACC : Fld := ⟨1126, 24, 0⟩
/-- R262: DMA request of ADn, sequence j, waits. -/
def AD_DMA_REQ : Fld := ⟨1127, 1, 0⟩
/-- R246: last completed step of ADn. -/
def AD_LAST : Fld := ⟨1128, 4, 0⟩
/-- R256: sequence A of ADn was started by its partner. -/
def AD_PAIRED : Fld := ⟨1129, 1, 0⟩
/-- R286: LEN - 1 in force for sequence A of ADn. -/
def AD_LEN_A : Fld := ⟨1130, 2, 0⟩
/-- R286: LEN - 1 in force for sequence B. -/
def AD_LEN_B : Fld := ⟨1131, 4, 0⟩
/-- R286: CONT in force. -/
def AD_CONT : Fld := ⟨1132, 1, 0⟩
/-- R286: AD_STEP_j of ADi in force. -/
def AD_STEPF : Fld := ⟨1133, 16, 0⟩
/-- R271: last nine filter samples of CMn. -/
def CM_HIST : Fld := ⟨1134, 9, 0⟩
/-- R274: CMn is latched and waits for a period start. -/
def CM_WAIT : Fld := ⟨1135, 1, 0⟩
/-- R265: the output of amplifier i is valid (CA_STAT.READY). -/
def CA_OK : Fld := ⟨1136, 1, 0⟩
/-- R279: comparator under test. -/
def SW_CMP : Fld := ⟨1137, 5, 0⟩
/-- R279: test running. -/
def SW_TEST : Fld := ⟨1138, 3, 0⟩
/-- R279: CMn's outputs are frozen. -/
def SW_FROZEN : Fld := ⟨1139, 1, 0⟩
/-- R279: CODE to restore. -/
def SW_CODE : Fld := ⟨1140, 10, 0⟩
/-- R279: raw level seen during a test. -/
def SW_PENDING_RAW : Fld := ⟨1141, 1, 0⟩

-- timing
/-- R300: shadow j of CTn written since the last transfer (0-3 CMP, 4 PERIOD). -/
def CT_SHWRIT : Fld := ⟨1142, 1, 0⟩
/-- R295: a synchronise is due at the next step. -/
def CT_SYNC : Fld := ⟨1143, 1, 0⟩
/-- R302: time at which software last wrote shadow j, plus 1 tick. -/
def CT_SW_TICK : Fld := ⟨1144, 64, 0⟩
/-- R302: tick at which a SHADOW last wrote shadow j, plus 1. -/
def CT_SHADOW_TICK : Fld := ⟨1145, 64, 0⟩
/-- R337: value of compare unit j of CTn on its last step. -/
def CT_REFV : Fld := ⟨1146, 24, 0⟩
/-- R327: tick of the first-trip record, plus 1. -/
def TRIP_TICK : Fld := ⟨1147, 64, 0⟩
/-- R313: REF of leg n, j = 0 unit A rule, 1 unit B rule. -/
def LG_REF : Fld := ⟨1148, 1, 0⟩
/-- R313: side j of leg n is on (0 high, 1 low). -/
def LG_SIDE : Fld := ⟨1149, 1, 0⟩
/-- R313: dead time of side j is running. -/
def LG_DTRUN : Fld := ⟨1150, 1, 0⟩
/-- R320: a blanking window of leg n is open. -/
def LG_BLANKING : Fld := ⟨1151, 1, 0⟩
/-- R322: OC was recorded during the window. -/
def LG_OCREC : Fld := ⟨1152, 1, 0⟩
/-- R317: the pending arm came from BG_ARM. -/
def LG_GROUPARM : Fld := ⟨1153, 1, 0⟩
/-- R41: the orphan timer of leg n runs. -/
def ORPHAN_RUN : Fld := ⟨1154, 1, 0⟩
/-- R332: width in force of strobe n, ticks. -/
def ST_WTICK : Fld := ⟨1155, 16, 0⟩
/-- R332: width in force of strobe n, eighths. -/
def ST_WFINE : Fld := ⟨1156, 3, 0⟩
/-- R332: strobe n waits for its delay. -/
def ST_DELAYED : Fld := ⟨1157, 1, 0⟩
/-- R333: strobe n belongs to the running burst. -/
def ST_INBURST : Fld := ⟨1158, 1, 0⟩
/-- R402: plane of the running burst plus 1, 0 when unscaled. -/
def ST_PLANE : Fld := ⟨1159, 3, 0⟩
/-- R310: A and B levels of QDq as last decoded. -/
def QD_AB : Fld := ⟨1160, 2, 0⟩

-- loop engine
/-- R361: latch X(j) of slot i. -/
def LE_LATCH : Fld := ⟨1161, 16, 0⟩
/-- R361: latch X(j) of slot i is fresh. -/
def LE_FRESH : Fld := ⟨1162, 1, 0⟩
/-- R349: latch X(j) of slot i received a result since the previous execution. -/
def LE_NEWRES : Fld := ⟨1163, 1, 0⟩
/-- R361: express slot i is ready. -/
def LE_READY : Fld := ⟨1164, 1, 0⟩
/-- R363: time at which slot i became ready. -/
def LE_READY_AT : Fld := ⟨1165, 64, 0⟩
/-- R342: output y of slot i. -/
def LE_Y : Fld := ⟨1166, 32, 0⟩
/-- R358: next stitch of the running row. -/
def LE_POS : Fld := ⟨1167, 6, 0⟩
/-- R352: y of slot i was clamped at its previous execution: 1 at OMAX, 2 at OMIN. -/
def LE_CLAMP : Fld := ⟨1168, 2, 0⟩
/-- R370: PRELOAD copy requested for table i. -/
def LE_TBUSY_PRE : Fld := ⟨1169, 1, 0⟩
/-- R370: SNAP copy requested for table i. -/
def LE_TBUSY_SNAP : Fld := ⟨1170, 1, 0⟩
/-- R370: a copy of table i is under way. -/
def LE_COPY : Fld := ⟨1171, 1, 0⟩
/-- R373: next micro-op of slot i. -/
def LE_UPC : Fld := ⟨1172, 7, 0⟩
/-- R374: working value Wj of slot i (j = 0-3), v (j = 4), F (j = 5), ACC (j = 6). -/
def LE_W : Fld := ⟨1173, 64, 0⟩
/-- R373: slot i is part-way through a sample. -/
def LE_MID : Fld := ⟨1174, 1, 0⟩
/-- R372: SAT_ACTION of slot i has been taken. -/
def LE_SATDONE : Fld := ⟨1175, 1, 0⟩
/-- R377: the swap of slot i fell due while it was part-way through a sample. -/
def LE_SWAP_DUE : Fld := ⟨1176, 1, 0⟩
/-- R357: triggers of row i that the B-die has seen and not yet relayed. -/
def ROW_DUE : Fld := ⟨1177, 16, 0⟩
/-- R203: calendar triggers held until the PLLs run again after a fast NAP wake. -/
def ROW_HELD : Fld := ⟨1178, 16, 0⟩

-- print
/-- R395: line sequence: 0 idle, 1 shifting, 2 waiting for the latch, 3 latch pulse, 4 last burst. -/
def HDS_PHASE : Fld := ⟨1179, 3, 0⟩
/-- R395: a burst of this line is in progress. -/
def HDS_BURSTING : Fld := ⟨1180, 1, 0⟩
/-- R395: plane being shifted or latched. -/
def HDS_NEXTPLANE : Fld := ⟨1181, 3, 0⟩
/-- R395: that plane has been shifted. -/
def HDS_SHIFTED : Fld := ⟨1182, 1, 0⟩
/-- R397: geometry in force for the line. -/
def HDS_G_DOTS : Fld := ⟨1183, 11, 1024⟩
/-- R397: geometry in force. -/
def HDS_G_LANES2 : Fld := ⟨1184, 1, 0⟩
/-- R397: planes in force. -/
def HDS_G_PEN : Fld := ⟨1185, 4, 15⟩
/-- R397: multiplier j in force. -/
def HDS_G_MUL : Fld := ⟨1186, 9, 64⟩
/-- R403: the width has been captured for this line. -/
def HDS_WCAP : Fld := ⟨1187, 1, 0⟩
/-- R403: captured width in eighths. -/
def HDS_W : Fld := ⟨1188, 19, 0⟩
/-- R401: the line has run while strobes were inhibited. -/
def HDS_INH : Fld := ⟨1189, 1, 0⟩
/-- R394: the bits that data lane i has shifted of the latest plane, the first in bit 0. -/
def HDS_LANE : Fld := ⟨1190, 1024, 0⟩
/-- R394: dots last shifted into the head. -/
def HDS_SHIFTREG : Fld := ⟨1191, 1024, 0⟩
/-- R395: dots latched in the head. -/
def HDS_LATCHED : Fld := ⟨1192, 1024, 0⟩
/-- R409: the HCU's next slot. -/
def HCU_SLOT : Fld := ⟨1193, 1, 0⟩
/-- R407: line n-1. -/
def HCU_H1 : Fld := ⟨1194, 1024, 0⟩
/-- R407: line n-2. -/
def HCU_H2 : Fld := ⟨1195, 1024, 0⟩
/-- R407: time at which the previous line was processed. -/
def HCU_LAST_MS : Fld := ⟨1196, 64, 0⟩
/-- R408: computed plane j. -/
def HCU_PLANE : Fld := ⟨1197, 1024, 0⟩
/-- R408: the line in hand: 0 none, 1 computed and waiting for its slot, 2 written. -/
def HCU_HELD : Fld := ⟨1198, 2, 0⟩
/-- R408: the dots of that line. -/
def HCU_CUR : Fld := ⟨1199, 1024, 0⟩

-- thread cores (i = thread 0-39 global; 40-47 the SP-C copies of 32-39)
/-- R424: thread i has a task. -/
def HASTASK : Fld := ⟨1200, 1, 0⟩
/-- R445: general register gj of thread i. -/
def GPR : Fld := ⟨1201, 32, 0⟩
/-- R445: PC of thread i. -/
def PC : Fld := ⟨1202, 32, 0⟩
/-- R445: [0] U [1] EXL. -/
def TSR : Fld := ⟨1203, 2, 0⟩
/-- R445: saved TSR. -/
def XSR : Fld := ⟨1204, 2, 0⟩
/-- R445: return PC. -/
def XPC : Fld := ⟨1205, 32, 0⟩
/-- R445: cause. -/
def XCAUSE : Fld := ⟨1206, 8, 0⟩
/-- R445: cause detail. -/
def XINFO : Fld := ⟨1207, 32, 0⟩
/-- R445: faulting address. -/
def XADDR : Fld := ⟨1208, 32, 0⟩
/-- R445: handler address of core i. -/
def XVEC : Fld := ⟨1209, 32, 0⟩
/-- R445: number of the running task. -/
def TID_TASK : Fld := ⟨1210, 8, 0⟩
/-- R445: MPU region-enable mask. -/
def TRMASK : Fld := ⟨1211, 16, 0⟩
/-- R445: cycle count of core i. -/
def CYC : Fld := ⟨1212, 32, 0⟩
/-- R445: SCRATCHj. -/
def SCRATCH : Fld := ⟨1213, 32, 0⟩
/-- R703: thread i is halted for debug. -/
def HALTED : Fld := ⟨1214, 1, 0⟩
/-- R703: a halt of thread i is requested. -/
def HALT_REQ : Fld := ⟨1215, 1, 0⟩
/-- R707: thread i runs one instruction. -/
def STEPPING : Fld := ⟨1216, 1, 0⟩
/-- R703: reason of the halt. -/
def HREASON : Fld := ⟨1217, 3, 0⟩
/-- R708: NUM of a BRK halt. -/
def HNUM : Fld := ⟨1218, 10, 0⟩
/-- R454: thread i is stopped by a double fault. -/
def DFAULTED : Fld := ⟨1219, 1, 0⟩
/-- R424: line address of thread i's fetch buffer plus 1 (0 empty). -/
def FB_LINE : Fld := ⟨1220, 33, 0⟩
/-- R424: content of the fetch buffer. -/
def FB_DATA : Fld := ⟨1221, 256, 0⟩
/-- R439: a load or atomic operation of thread i is outstanding. -/
def LD_PEND : Fld := ⟨1222, 1, 0⟩
/-- R439: its destination. -/
def LD_RD : Fld := ⟨1223, 4, 0⟩
/-- R439: its address. -/
def LD_ADDR : Fld := ⟨1224, 32, 0⟩
/-- R439: log2 of its size. -/
def LD_SIZE : Fld := ⟨1225, 2, 0⟩
/-- R439: sign-extended. -/
def LD_SIGN : Fld := ⟨1226, 1, 0⟩
/-- R477: 0 load, 1 swap, 2 add. -/
def LD_OP : Fld := ⟨1227, 2, 0⟩
/-- R477: operand of the atomic operation. -/
def LD_DATA : Fld := ⟨1228, 64, 0⟩
/-- R439: PC of the instruction. -/
def LD_PC : Fld := ⟨1229, 32, 0⟩
/-- R430: a divide of thread i is in the divider. -/
def DIV_PEND : Fld := ⟨1230, 1, 0⟩
/-- R430: its destination. -/
def DIV_RD : Fld := ⟨1231, 4, 0⟩
/-- R430: its result. -/
def DIV_RES : Fld := ⟨1232, 32, 0⟩
/-- R443: thread i waits in SYNC. -/
def SYNCING : Fld := ⟨1233, 1, 0⟩
/-- R453: a NOTICE of thread i is pending. -/
def NT_PEND : Fld := ⟨1234, 1, 0⟩
/-- R453: response code of that notice. -/
def NT_CODE : Fld := ⟨1235, 3, 0⟩
/-- R453: task that issued the store. -/
def NT_TASK : Fld := ⟨1236, 8, 0⟩
/-- R453: store address. -/
def NT_ADDR : Fld := ⟨1237, 32, 0⟩
/-- R457: a WATCHDOG exception of thread i is pending. -/
def WDX_PEND : Fld := ⟨1238, 1, 0⟩
/-- R505: a DISPATCH exception of thread i is pending. -/
def SG_PEND : Fld := ⟨1239, 1, 0⟩
/-- R505: its XINFO. -/
def SG_INFO : Fld := ⟨1240, 13, 0⟩
/-- R435: invalidation in progress on core i. -/
def INV_KIND : Fld := ⟨1241, 4, 0⟩
/-- R552: an answer to SP-M's latest load of thread i waits for SP-C. -/
def LDX_OK : Fld := ⟨1242, 1, 0⟩
/-- R552: its response code. -/
def LDX_CODE : Fld := ⟨1243, 3, 0⟩
/-- R552: its data. -/
def LDX_DATA : Fld := ⟨1244, 64, 0⟩
/-- R552: it took a line request of the read cache. -/
def LDX_MISS : Fld := ⟨1245, 1, 0⟩
/-- R556: the line in thread i's fetch buffer took a fabric request. -/
def FB_REQ : Fld := ⟨1246, 1, 0⟩
/-- R517: cycles of core i in the running load window. -/
def WIN_CYC : Fld := ⟨1247, 32, 0⟩
/-- R517: cycles of that window on which core i issued. -/
def WIN_ISSUE : Fld := ⟨1248, 32, 0⟩
/-- R517: thread-cycles of that window with a task. -/
def WIN_BUSY : Fld := ⟨1249, 36, 0⟩
/-- R425: core i has issued in the running cycle. -/
def ISSUED_NOW : Fld := ⟨1250, 1, 0⟩

-- dispatcher
/-- R498: post stamp of task i. -/
def POST_STAMP : Fld := ⟨1251, 64, 0⟩
/-- R498: stamp of the post that set PENDING of task i. -/
def PEND_STAMP : Fld := ⟨1252, 64, 0⟩
/-- R516: a wait of task i is being measured. -/
def STAMP_LIVE : Fld := ⟨1253, 1, 0⟩
/-- R506: task to load on thread i once the victim is saved, plus 1. -/
def SAVE_FOR : Fld := ⟨1254, 9, 0⟩
/-- R504: task i has become READY and the dispatcher has not yet looked for a thread that gives way to it. -/
def TASK_NEW : Fld := ⟨1255, 1, 0⟩
/-- R139: word 0 of the entry that the running instance of task i keeps, and in bit 14 that there is one. -/
def OLD_W0 : Fld := ⟨1256, 15, 0⟩
/-- R497: task 0 runs the boot-given context (PREEMPT taken as 0). -/
def TASK0_BOOT : Fld := ⟨1257, 1, 0⟩

-- supervisor pair
/-- R552: SP-M's synchronised sense lines. -/
def SENSE_M : Fld := ⟨1258, 16, 0⟩
/-- R552: SP-C's synchronised sense lines. -/
def SENSE_C : Fld := ⟨1259, 16, 0⟩
/-- R555: running compute signature of SP-M. -/
def SIG_CM : Fld := ⟨1260, 32, 4294967295⟩
/-- R555: running compute signature of SP-C. -/
def SIG_CC : Fld := ⟨1261, 32, 4294967295⟩
/-- R555: running input signature of SP-M. -/
def SIG_IM : Fld := ⟨1262, 32, 4294967295⟩
/-- R555: running input signature of SP-C. -/
def SIG_IC : Fld := ⟨1263, 32, 4294967295⟩
/-- R576: complement the next compute item of SP-C. -/
def INJ_C : Fld := ⟨1264, 1, 0⟩
/-- R576: complement the next input item of SP-C. -/
def INJ_I : Fld := ⟨1265, 1, 0⟩
/-- R565: 0 none, 1 split, 2 rejoin, 3 rejoin from degraded. -/
def HINGE_KIND : Fld := ⟨1266, 2, 0⟩
/-- R565: mode before the hinge. -/
def HINGE_FROM : Fld := ⟨1267, 2, 0⟩
/-- R565: requests held for a re-seed: 1 split, 2 rejoin. -/
def HINGE_HELD : Fld := ⟨1268, 2, 0⟩
/-- R567: the truncated window has been classified. -/
def HINGE_SEEN : Fld := ⟨1269, 1, 0⟩
/-- R555: cycles of the running window. -/
def SP_WCYC : Fld := ⟨1270, 17, 0⟩
/-- R561: ms since cast-on, or since SP_RATE was last cleared. -/
def RATE_AGE : Fld := ⟨1271, 16, 0⟩

-- DMA (i = channel)
/-- R582: SRC of the descriptor in progress. -/
def DC_SRC : Fld := ⟨1272, 32, 0⟩
/-- R582: DST. -/
def DC_DST : Fld := ⟨1273, 32, 0⟩
/-- R582: length in bytes. -/
def DC_LEN : Fld := ⟨1274, 25, 0⟩
/-- R582: CTRL as fetched. -/
def DC_DCTRL : Fld := ⟨1275, 32, 0⟩
/-- R582: NEXT. -/
def DC_DNEXT : Fld := ⟨1276, 32, 0⟩
/-- R582: CHUNK. -/
def DC_CHUNK : Fld := ⟨1277, 16, 0⟩
/-- R591: bytes read OK. -/
def DC_RDONE : Fld := ⟨1278, 25, 0⟩
/-- R591: bytes written OK. -/
def DC_WDONE : Fld := ⟨1279, 25, 0⟩
/-- R593: bytes that the served pace requests allow. -/
def DC_PACEGO : Fld := ⟨1280, 25, 0⟩
/-- R596: CTRL has been written back and the record is still to come. -/
def DC_CTLDONE : Fld := ⟨1281, 1, 0⟩
/-- R603: STOP is taking effect. -/
def DC_STOPREQ : Fld := ⟨1282, 1, 0⟩
/-- R594: route destination 440 + i holds a request. -/
def DC_REQ : Fld := ⟨1283, 1, 0⟩
/-- R596: records channel i has written. -/
def DC_RECN : Fld := ⟨1284, 16, 0⟩

-- check-value unit
/-- R620: context last served. -/
def CX_NEXT : Fld := ⟨1285, 4, 0⟩
/-- R621: context i has received bytes of its port path that wait for a slice. -/
def CX_RDY : Fld := ⟨1286, 1, 0⟩
/-- R618: a scrub pass of context i is running. -/
def CX_PASS : Fld := ⟨1287, 1, 0⟩
/-- R617: latest strip of context i mismatched. -/
def CX_SRES : Fld := ⟨1288, 1, 0⟩
/-- R616: check bytes handed to the port. -/
def CX_OUT : Fld := ⟨1289, 64, 0⟩
/-- R616: their number. -/
def CX_OUTN : Fld := ⟨1290, 4, 0⟩

-- ports (port 0 USB, 1 ETH, 2 UART0, 3 UART1, 4 MOD, 5 SL)
/-- R641: a frame or character of port i is being transmitted. -/
def TX_ACTIVE : Fld := ⟨1291, 1, 0⟩
/-- R641: its length. -/
def TX_LEN : Fld := ⟨1292, 16, 0⟩
/-- R644: PAUSE has been sent and not yet released. -/
def ETH_XOFF : Fld := ⟨1293, 1, 0⟩
/-- R645: received pause time in force. -/
def ETH_PAUSE_LEFT : Fld := ⟨1294, 16, 0⟩
/-- R645: the start of the next frame is held. -/
def ETH_PAUSED : Fld := ⟨1295, 1, 0⟩
/-- R641: transmit attempts. -/
def ETH_TRIES : Fld := ⟨1296, 5, 0⟩
/-- R644: time of the PAUSE frame last sent. -/
def ETH_PAUSE_OUT : Fld := ⟨1297, 16, 0⟩
/-- R646: the management frame in progress. -/
def MDIO_REGF : Fld := ⟨1298, 32, 0⟩
/-- R637: address to take after the status stage. -/
def USB_ADDR_NEXT : Fld := ⟨1299, 7, 0⟩
/-- R637: an address change is pending. -/
def USB_ADDR_PEND : Fld := ⟨1300, 1, 0⟩
/-- R637: address in force. -/
def USB_ADDR_ACT : Fld := ⟨1301, 7, 0⟩
/-- R638: resume signalling is driven. -/
def USB_RWAKING : Fld := ⟨1302, 1, 0⟩
/-- R635: latest handshake: 0 none, 1 ACK, 2 NAK, 3 NYET, 4 STALL, 5 data. -/
def USB_ANSWER : Fld := ⟨1303, 3, 0⟩
/-- R650: XOFF (1) or XON (2) to send. -/
def UART_XOFF_DUE : Fld := ⟨1304, 2, 0⟩
/-- R649: latest character sent by UART i. -/
def UART_SENT : Fld := ⟨1305, 9, 0⟩
/-- R647: its bits on the line, the start bit lowest. -/
def UART_LINE : Fld := ⟨1306, 13, 0⟩
/-- R653: bytes of the transaction still to clock. -/
def MOD_LEFT : Fld := ⟨1307, 10, 0⟩
/-- R653: bytes clocked. -/
def MOD_SENT : Fld := ⟨1308, 10, 0⟩
/-- R653: 0 idle, 1 waiting for MOD_RDY, 2 clocking. -/
def MOD_PHASE : Fld := ⟨1309, 2, 0⟩
/-- R663: HELLO has been sent. -/
def SL_HELLO_SENT : Fld := ⟨1310, 1, 0⟩
/-- R663: HELLO has been received. -/
def SL_HELLO_RCVD : Fld := ⟨1311, 1, 0⟩
/-- R662: free receive units. -/
def SL_UNITS : Fld := ⟨1312, 4, 8⟩
/-- R658: TYPE of the latest frame sent. -/
def SL_TXKIND : Fld := ⟨1313, 4, 0⟩
/-- R658: CRET of the latest frame sent. -/
def SL_TXCRET : Fld := ⟨1314, 4, 0⟩
/-- R630: words popped of the packet at the head of endpoint i. -/
def USB_POS : Fld := ⟨1315, 10, 0⟩
/-- R635: bytes still to come of the frame being pushed to IN endpoint i. -/
def USB_LEFT : Fld := ⟨1316, 16, 0⟩
/-- R636: data toggle of IN endpoint i. -/
def USB_IN_TGL : Fld := ⟨1317, 1, 0⟩
/-- R668: the SPI frame being received has lost its check-value context. -/
def MOD_TRUNC : Fld := ⟨1318, 1, 0⟩
/-- R616: check value of the SPI frame, i = 0 transmit, 1 receive: 0 unbound, 1 frame begun, 2 FRAME set, 3 formed or compared. -/
def MOD_STAGE : Fld := ⟨1319, 2, 0⟩
/-- R616: the same for the station link. -/
def SL_STAGE : Fld := ⟨1320, 2, 0⟩
/-- R662: words popped of the station-link frame at the head of the FIFO. -/
def SL_POS : Fld := ⟨1321, 8, 0⟩
/-- R662: its LEN. -/
def SL_HEAD : Fld := ⟨1322, 8, 0⟩
/-- R667: frame in progress was cut short. -/
def SL_ABORTED : Fld := ⟨1323, 1, 0⟩

-- NVM and keys
/-- R675: bucket i of the 24-hour count. -/
def ECC_BUCKET : Fld := ⟨1324, 16, 0⟩
/-- R675: current bucket. -/
def ECC_BNOW : Fld := ⟨1325, 5, 0⟩
/-- R677: write tally of page i. -/
def PAGE_TALLY : Fld := ⟨1326, 32, 0⟩
/-- R678: save sequence of tally copy i; 0 while the copy is not valid. -/
def TALLY_SEQ : Fld := ⟨1327, 32, 0⟩
/-- R681: slot of the commit in progress. -/
def KC_SLOT : Fld := ⟨1328, 2, 0⟩
/-- R681: its signature is being verified. -/
def KC_VERIFY : Fld := ⟨1329, 1, 0⟩
/-- R693: crypto command in progress. -/
def CR_OP : Fld := ⟨1330, 3, 0⟩
/-- R693: its KIND. -/
def CR_KIND : Fld := ⟨1331, 3, 0⟩
/-- R693: users of the engine in order of arrival, two bits each, the running one lowest: 1 firmware, 2 key commit, 3 live loader. -/
def CR_USER : Fld := ⟨1332, 8, 0⟩
/-- R687: counter i is being raised. -/
def CTR_RAISING : Fld := ⟨1333, 1, 0⟩
/-- R687: value of the raise. -/
def CTR_V : Fld := ⟨1334, 32, 0⟩
/-- R759: the log search has ended. -/
def LOG_FOUND : Fld := ⟨1335, 1, 0⟩

-- debug
/-- R698: selected TAP instruction. -/
def TAP_IR : Fld := ⟨1336, 5, 2⟩
/-- R698: what the TAP instruction register captured. -/
def TAP_CAP : Fld := ⟨1337, 5, 1⟩
/-- R698: data register loaded by the latest Capture-DR. -/
def TAP_DR : Fld := ⟨1338, 520, 0⟩
/-- R700: boundary-scan cells (update stage). -/
def BSR : Fld := ⟨1339, 311, 0⟩
/-- R701: 0 none, 1 cells drive the balls, 2 balls at high impedance. -/
def BSR_DRIVE : Fld := ⟨1340, 2, 0⟩
/-- R702: a DBG_ACC request is open. -/
def ACC_BUSY : Fld := ⟨1341, 1, 0⟩
/-- R702: its address. -/
def ACC_ADDR : Fld := ⟨1342, 32, 0⟩
/-- R702: its data. -/
def ACC_DATA : Fld := ⟨1343, 64, 0⟩
/-- R702: its direction. -/
def ACC_WRITE : Fld := ⟨1344, 1, 0⟩
/-- R702: its width. -/
def ACC_WIDE : Fld := ⟨1345, 1, 0⟩
/-- R702: response data held for Capture-DR. -/
def ACC_RDATA : Fld := ⟨1346, 64, 0⟩
/-- R702: response code held. -/
def ACC_RCODE : Fld := ⟨1347, 3, 0⟩
/-- R713: authentication status: 0 ready, 1 verifying, 2 accepted, 3 refused, 4 waiting. -/
def AUTH_STATUS : Fld := ⟨1348, 3, 0⟩
/-- R713: challenge. -/
def AUTH_CHAL : Fld := ⟨1349, 128, 0⟩
/-- R713: the challenge has not served an attempt. -/
def AUTH_READY : Fld := ⟨1350, 1, 0⟩
/-- R713: submitted r, s and descriptor. -/
def AUTH_SIG : Fld := ⟨1351, 520, 0⟩

end F
end Sys2Proof.Machine
end

