-- ==== Sys2Proof/Machine/Ops.lean ====
section
/-!
DEFINITION. The named operations over registers, tallies, queues, memory, events and answers that every meaning uses.
-/
namespace Sys2Proof.Machine

namespace State

/-- Set a one-bit field. -/
def up (s : State) (f : Fld) (i : Nat := 0) (j : Nat := 0) : State := s.wr f 1 i j

/-- Clear a field. -/
def down (s : State) (f : Fld) (i : Nat := 0) (j : Nat := 0) : State := s.wr f 0 i j

/-- Write a truth value. -/
def wrb (s : State) (f : Fld) (b : Bool) (i : Nat := 0) (j : Nat := 0) : State := s.wr f (bnat b) i j

/-- Write where the condition holds. -/
def wrIf (c : Bool) (s : State) (f : Fld) (v : Nat) (i : Nat := 0) (j : Nat := 0) : State :=
  if c then s.wr f v i j else s

/-- Apply `g` where the condition holds. -/
def when (s : State) (c : Bool) (g : State → State) : State := if c then g s else s

/-- Apply `g` for each element of a list, in order. -/
def each {α : Type} (s : State) (l : List α) (g : State → α → State) : State := l.foldl g s

/-- Add `n` to a count that stays at its greatest value (R50, R180: tallies saturate). -/
def bumpBy (s : State) (f : Fld) (n : Nat) (i : Nat := 0) (j : Nat := 0) : State :=
  s.wr f (min (s.rd f i j + n) (2 ^ f.w - 1)) i j

/-- Add one to a count that stays at its greatest value. -/
def bump (s : State) (f : Fld) (i : Nat := 0) (j : Nat := 0) : State := s.bumpBy f 1 i j

/-- Keep the greatest value seen. -/
def peak (s : State) (f : Fld) (v : Nat) (i : Nat := 0) (j : Nat := 0) : State := s.wr f (max (s.rd f i j) v) i j

/-- Append to a queue. -/
def pushq (s : State) (f : Nat) (v : Nat) (i : Nat := 0) (j : Nat := 0) : State := s.setq f (s.q f i j ++ [v]) i j

/-- The answer to a request. -/
def answer (s : State) (c : Code) (data : Nat := 0) : State := { s with resp := ⟨c, false, data⟩ }

/-- The answer to a duplicate of a ticketed write (R168). -/
def answerDup (s : State) : State := { s with resp := ⟨.ok, true, 0⟩ }

/-- A free value of `w` bits, by the number of its drawing (log entry 5). -/
def freeBits (s : State) (w : Nat) : Nat := Config.freeValue s.free % 2 ^ w

/-- The state after a free value has been drawn. -/
def drew (s : State) : State := { s with free := s.free + 1 }

/-- The CLK_T tick (4 ns). -/
def tick (s : State) : Nat := s.time / 8

/-- The 24-bit tick stamp (R155, R289). -/
def stamp (s : State) : Nat := s.tick % 2 ^ 24

/-- Whole microseconds since the release. -/
def usNow (s : State) : Nat := s.time / 2000

/-- Whole milliseconds since the release. -/
def msNow (s : State) : Nat := s.time / 2000000

/-- Whole seconds since the release. -/
def secNow (s : State) : Nat := s.time / 2000000000

end State

/-- The level of an input ball now (log entry 21). Balls of PINMAP carry their index (R111); 128 WAKE0, 129 WAKE1,
130 MOD_IRQ, 131 MOD_RDY. -/
def ballIn (s : State) (b : Nat) : Bool := Config.ballLevel s.time b

/-! Memory. -/

/-- The first address of the copies of the monotonic counters in array 7 (R679, R758). -/
def counterWordBase : Nat := 0x11FC0400

/-- What a byte of memory that nothing has written reads as: 0 (SRAM, local memory: DESIGN CHOICE, log entry 3), and in
NVM 0 but for the high halves of the counter words, which hold the complement of 0 (R758). -/
def memDefault (a : Nat) : Byte :=
  if counterWordBase ≤ a ∧ a < counterWordBase + 0x40 ∧ a % 8 ≥ 4 then 0xFF#8 else 0#8

/-- The canonical form of memory: addresses strictly rising, nothing listed that an unlisted address would read as. -/
abbrev memWf (m : List Host.Cell) : Prop :=
  m.Pairwise (fun a b => a.1 < b.1) ∧ ∀ e ∈ m, e.2 ≠ memDefault e.1

/-- The bytes of the word with check bits of its own at `a`: 8 in NVM (R758), 4 elsewhere (R380, R438; for SRAM the
spec gives no size: DEDUCED, log entry 19). -/
def wordSize (a : Nat) : Nat := if 0x10000000 ≤ a ∧ a < 0x12000000 then 8 else 4

/-- The first address of the word with check bits of its own that holds `a`. -/
def wordBase (a : Nat) : Nat := a / wordSize a * wordSize a

namespace State

/-- The byte at `a`. -/
def byte (s : State) (a : Nat) : Byte := lookupD s.mem a (memDefault a)

/-- Write the byte at `a`. -/
def setByte (s : State) (a : Nat) (b : Byte) : State :=
  { s with mem := setKey (fun x y => decide (x < y)) s.mem a b (memDefault a) }

/-- `n` bytes from `a`. -/
def bytes (s : State) (a n : Nat) : List Byte := (List.range n).map fun k => s.byte (a + k)

/-- Write bytes from `a` on. -/
def setBytes (s : State) (a : Nat) (l : List Byte) : State :=
  match l with
  | [] => s
  | b :: r => (s.setByte a b).setBytes (a + 1) r

/-- The little-endian number in `n` bytes from `a`. -/
def mget (s : State) (a n : Nat) : Nat := ofBytes (s.bytes a n)

/-- Write `n` bytes of `v`, little-endian, from `a` on. -/
def mset (s : State) (a n v : Nat) : State := s.setBytes a (toBytes n v)

/-- Whether the memory word that holds `a` has check bits that do not correct. -/
def isBad (s : State) (a : Nat) : Bool := s.bad.contains (wordBase a)

/-- Whether any word of `n` bytes from `a` does. -/
def anyBad (s : State) (a n : Nat) : Bool := s.bad.any fun w => decide (wordBase a ≤ w) && decide (w < a + n)

/-- The word that holds `a` has been written whole: its check bits are good again. -/
def heal (s : State) (a : Nat) : State := { s with bad := s.bad.filter fun w => w != wordBase a }

/-- The word that holds `a` has failed. -/
def spoil (s : State) (a : Nat) : State :=
  { s with bad := (insertKey (fun x y => decide (x < y)) ((s.heal a).bad.map fun w => (w, ())) (wordBase a) ()).map Prod.fst }

/-- Move every whole word of `n` bytes from `a` to good check bits. -/
def healRange (s : State) (a n : Nat) : State :=
  { s with bad := s.bad.filter fun w => !(decide (a ≤ w) && decide (w + wordSize w ≤ a + n)) }

end State

/-! Numbers of the queues. -/
namespace Q
/-- Flits sent and not yet acknowledged, by link end (R23, R25). -/
def retry : Nat := 0
/-- The last tickets that took effect, by block and master (R168). -/
def tickets : Nat := 1
/-- Capture queue of channel i (R308). -/
def capture : Nat := 2
/-- Ready queue of the dispatcher (R500). -/
def ready : Nat := 3
/-- Receive FIFO of port i, one entry per word (R626). -/
def rx : Nat := 4
/-- Transmit FIFO of port i (R626). -/
def tx : Nat := 5
/-- Endpoint i (8: EP0 IN): j = 0 the bytes of the packet being filled, j = 1 the whole packets (R634, R635). -/
def usb : Nat := 6
/-- Lines of the instruction cache, core i, set j, latest used first (R434). -/
def icache : Nat := 7
/-- Lines of the read cache, core i, set j, latest used first (R434). -/
def rcache : Nat := 8
/-- The tombstone record (R89). -/
def tombstone : Nat := 9
/-- The replay log of debug writes (R575). -/
def replay : Nat := 10
/-- Pending event-log entries (R694). -/
def log : Nat := 11
/-- Bytes of the recovery transfer so far (R80). -/
def recovery : Nat := 13
/-- Sections of the pending delta (R135). -/
def delta : Nat := 14
/-- The frame port i is sending (j = 0) or has received and not yet delivered (j = 1). -/
def frames : Nat := 15
/-- Headers that wait in the link buffer for a tag (R153). -/
def headers : Nat := 16
/-- Bytes channel i has read and not yet written (R591). -/
def dmaBuf : Nat := 17
/-- The nine body words of the owner-key record being written (R681). -/
def keyRec : Nat := 18
/-- The times of the LCRC errors of bundle i, at most a millisecond old (R32). -/
def crcTimes : Nat := 19
/-- The bytes that the boot ROM has last put out for recovery: port 1 UART0, 2 USB (R80). -/
def romOut : Nat := 20
end Q

end Sys2Proof.Machine
end

