-- ==== Sys2Proof/Machine/Flits.lean ====
section
/-!
DEFINITION. The flits of the links and the bundles that carry them (01_stack_and_dies.md, R18 to R26; 04_fabric_and_address_map.md,
R155 to R164; R364). Link end `2 b` sends from the B-die over bundle `b` to its upper die, `2 b + 1` towards the B-die. A sender's
flits stand in `Q.retry`: the first 64 are sent and not yet acknowledged, the later ones wait for room (R24).
-/
namespace Sys2Proof.Machine

/-- The B-die is out of reset: VDD33 and VDD12 are good (R182). -/
def bUp (s : State) : Bool := (s.rd F.PTM_SUPPLY_GOOD).testBit 0 && (s.rd F.PTM_SUPPLY_GOOD).testBit 1

/-- A leg is armed, or holds its last values after a loss. -/
def anyArmed (s : State) : Bool := (List.range 16).any fun k => 2 ≤ s.rd F.LG_STAT_STATE k

/-- The clocks of domain `d` run in RUN and DOZE: in DOZE not those of the thread cores and the pair, the others' while KEEP_DOZE is 1,
and while a leg is armed also those of PD114, PD115 and every B-die domain (the power-state table; R194). -/
def domClocked (s : State) (d : Nat) : Bool :=
  let c := s.rd F.PTM_STATE_CUR
  c == 0 || (c == 1 && (d == 255 || (s.on F.KEEP_DOZE d && (d < 108 || 113 < d)) ||
    (anyArmed s && (d < 44 || d == 114 || d == 115))))

/-- The C-die is up. -/
def cUp (s : State) : Bool := s.rd F.STK_DIESTATE_C_STATE == 3

/-- The M-die is up. -/
def mUp (s : State) : Bool := s.rd F.STK_DIESTATE_M_STATE == 3

/-! Bundles. -/

/-- The bundles of link `l`: 0 the C-link, 1 the M-link. -/
def linkBundles (l : Nat) : List Nat := if l = 0 then List.range 24 else (List.range 8).map (24 + ·)

/-- The link of bundle `b`. -/
def bundleLink (b : Nat) : Nat := if b < 24 then 0 else 1

/-- The upper die at the far side of bundle `b` is up. -/
def farUp (s : State) (b : Nat) : Bool := if b < 24 then cUp s else mUp s

/-- Bundle `b` is in service. -/
def inService (s : State) (b : Nat) : Bool := s.rd F.BUNDLE_STATE b == 2

/-- The control bundles in service (R25, R26). -/
def controlBundles (s : State) : List Nat := (linkBundles 0).filter fun b => s.on F.BUNDLE_CTRL b && inService s b

/-- The bundle that carries the traffic of control bundle `r` (0 CB00, 1 CB01): itself, or the one that has taken over (R26, R364).
Where both are retired, or one bundle alone is left, the spec does not say which takes which: the lower takes that of CB00, and the
one left carries both (DESIGN CHOICE, log entry 86). -/
def controlFor (s : State) (r : Nat) : Option Nat :=
  let c := controlBundles s
  let new := c.filter fun b => 1 < b
  if c.contains r then some r
  else ((if c.contains (1 - r) then new.head? else new[r]?).or c.head?)

/-- The general bundles of link `l` in service (R25, R164). Where only control bundles are left in service they carry general traffic
too (DESIGN CHOICE, log entry 86). -/
def generalBundles (s : State) (l : Nat) : List Nat :=
  let live := (linkBundles l).filter (inService s)
  let g := live.filter fun b => !s.on F.BUNDLE_CTRL b
  if g.isEmpty then live else g

/-- The bundle of link `l` on which the crossroads places a transaction of master ID `mid` to `addr` (R164). -/
def bundleFor (s : State) (l mid addr : Nat) : Option Nat :=
  let g := generalBundles s l
  g[(bits addr 16 12 ^^^ mid) % g.length]?

/-! Flits (R18, R155). -/

/-- CRC-16/IBM-3740 of a byte string: polynomial 0x1021, initial value 0xFFFF, not reflected (R18). -/
def crc16 (l : List Byte) : Nat :=
  l.foldl (fun c b =>
    (List.range 8).foldl (fun c _ => if c.testBit 15 then ((c * 2) % 65536) ^^^ 0x1021 else (c * 2) % 65536)
      (c ^^^ (b.toNat * 256))) 0xFFFF

/-- The LCRC of a flit: over bits [239:0], lowest byte first (R18; the byte order is DEDUCED, log entry 13). -/
def lcrc (flit : Nat) : Nat := crc16 (toBytes 30 flit)

/-- KIND of a flit. -/
def flitKind (flit : Nat) : Nat := bits flit 11 8

/-- R19: the kinds that take a SEQ: HEADER, DATA, RESPONSE, RESULT, HEARTBEAT and STEER. -/
def sequenced (k : Nat) : Bool := (1 ≤ k && k ≤ 5) || k == 8

/-- A flit as its sender makes it but for SEQ and LCRC: KIND, FLAGS.LAST and the body from bit 16 on. -/
structure Draft where
  kind : Nat
  last : Bool
  body : Nat

/-- A HEADER body (R155). TAG is 0 until the crossroads has given one; a read has no write data and no byte enables (log entry 86). -/
def headerFlit (tag mid op size : Nat) (priv : Bool) (addr data : Nat) (last : Bool) : Draft :=
  let n := 2 ^ size
  let en := if op = 0 then 0 else 2 ^ (min n 8) - 1
  ⟨1, last, tag + mid * 2 ^ 12 + op * 2 ^ 18 + size * 2 ^ 22 + bnat priv * 2 ^ 25 + addr * 2 ^ 32 +
    (if op = 0 then 0 else data % 2 ^ 64) * 2 ^ 64 + en * 2 ^ 128⟩

/-- A DATA body: bytes 8 to 31 of a transfer of more than 8 bytes (R155, R156). -/
def dataFlit (tag data : Nat) (last : Bool) : Draft := ⟨2, last, tag + (data / 2 ^ 64 % 2 ^ 192) * 2 ^ 16⟩

/-- A RESPONSE body (R155). -/
def responseFlit (tag : Nat) (r : Resp) (last : Bool) : Draft :=
  ⟨3, last, tag + r.code.num * 2 ^ 12 + bnat r.dup * 2 ^ 15 + (r.data % 2 ^ 64) * 2 ^ 16⟩

/-- The RESULT body of a conversion (R155). -/
def resultFlit (r : Result) : Draft :=
  ⟨4, false, r.ad * 2 ^ 2 + r.ch * 2 ^ 4 + r.value % 2 ^ 16 * 2 ^ 10 + r.stamp % 2 ^ 24 * 2 ^ 26 +
    (match r.slot with | some x => x % 64 * 2 ^ 50 + 2 ^ 56 | none => 0)⟩

/-- The RESULT body of an event (R155). -/
def eventFlit (ev stamp : Nat) : Draft := ⟨4, false, 1 + ev * 2 ^ 2 + stamp % 2 ^ 24 * 2 ^ 26⟩

/-- Link end `e` takes a flit, with its SEQ and LCRC, into the retry buffer, or behind it while 64 flits wait for an ACK (R19, R24). -/
def sendFlit (s : State) (e : Nat) (d : Draft) : State :=
  let seq := s.rd F.LK_TXSEQ e
  let low := seq + d.kind * 2 ^ 8 + bnat d.last * 2 ^ 12 + (d.body % 2 ^ 224) * 2 ^ 16
  (s.pushq Q.retry (low + lcrc low * 2 ^ 240) e).wr F.LK_TXSEQ (seq + 1) e

/-- Link end `e` has room for `n` more flits in its retry buffer (R24). -/
def flitRoom (s : State) (e n : Nat) : Bool := decide ((s.q Q.retry e).length + n ≤ 64)

/-- The flits of link end `e` that wait for room and satisfy `p`. -/
def unsent (s : State) (e : Nat) (p : Nat → Bool) : Nat := (((s.q Q.retry e).drop 64).filter p).length

/-! RESULT and SHADOW flits (R163, R364). -/

/-- The control bundle, 0 or 1, whose traffic the results of ADn are. -/
def resultRole (r : Result) : Nat := r.ad % 2

/-- The same of a SHADOW request: CT08 to CT15 on that of CB01, everything else on that of CB00. -/
def shadowRole (h : Shadow) : Nat := if 0x50018000 ≤ h.addr ∧ h.addr < 0x50020000 then 1 else 0

/-- A RESULT flit leaves for the loop engine. -/
def sendResult (s : State) (r : Result) : State :=
  let s := { s with results := s.results ++ [r] }
  match controlFor s (resultRole r) with
  | some b => sendFlit s (2 * b) (resultFlit r)
  | none => s

/-- A SHADOW request of the loop engine leaves; it takes no tag (R155, R157). -/
def sendShadow (s : State) (h : Shadow) : State :=
  let s := { s with shadows := s.shadows ++ [h] }
  match controlFor s (shadowRole h) with
  | some b => sendFlit s (2 * b + 1) (headerFlit 0 40 2 2 true h.addr h.data true)
  | none => s

/-- The oldest RESULT of a conversion has been sent, and can arrive. -/
def resultDue (s : State) : Bool :=
  match s.results with
  | [] => false
  | r :: _ =>
    match controlFor s (resultRole r) with
    | some b => decide (unsent s (2 * b) (fun f => flitKind f == 4 && bits f 17 16 == 0) <
        (s.results.filter fun x => resultRole x == resultRole r).length)
    | none => true

/-- The oldest SHADOW request has been sent, and can arrive. -/
def shadowDue (s : State) : Bool :=
  match s.shadows with
  | [] => false
  | h :: _ =>
    match controlFor s (shadowRole h) with
    | some b => decide (unsent s (2 * b + 1) (fun f => flitKind f == 1 && bits f 37 34 == 2) <
        (s.shadows.filter fun x => shadowRole x == shadowRole h).length)
    | none => true

/-! Events (R163, log entry 7). -/

/-- Event input `ev` belongs to a block of the B-die or the M-die: the stack monitor and the PTM, CTn, CPn, the groups and legs, the
quadrature decoders, CMn, ADn, the swatch test, the nonvolatile array and its keys, the head data streamer, the yank detector, the
drawer kicks and the cutter. Its event crosses to the dispatcher as a RESULT flit (R155; that those of the M-die do is DEDUCED, log
entry 86). -/
def eventCrosses (ev : Nat) : Bool :=
  ev < 8 || (16 ≤ ev && ev ≤ 57) || (64 ≤ ev && ev ≤ 98) || ev == 100 || ev == 101 || (104 ≤ ev && ev ≤ 106)

namespace State

/-- A pulse on event input `ev` (log entry 7). An event from below goes to the C-die on the bundle of CB00 (DESIGN CHOICE, log entry
86: R364 names the bundles of results and SHADOW requests alone). -/
def post (s : State) (ev : Nat) : State :=
  let s := { s with events := s.events ++ [ev] }
  if eventCrosses ev && cUp s then
    match controlFor s 0 with
    | some b => sendFlit s (2 * b) (eventFlit ev s.stamp)
    | none => s
  else s

/-- A pulse on event input `ev` where the condition holds. -/
def postIf (s : State) (c : Bool) (ev : Nat) : State := if c then s.post ev else s

end State

/-- The event of input `ev` can reach the dispatcher now: one from below has been sent and is the oldest of these (R163). -/
def eventDue (s : State) (ev : Nat) : Bool :=
  if eventCrosses ev then
    let l := s.events.filter eventCrosses
    l.head? == some ev && (match controlFor s 0 with
      | some b => decide (unsent s (2 * b) (fun f => flitKind f == 4 && bits f 17 16 == 1) < l.length)
      | none => true)
  else s.events.contains ev

end Sys2Proof.Machine
end

