-- ==== Sys2Proof/Machine/RegMap.lean ====
section
/-!
DEFINITION. The register map: every register of every block by offset, width and fields with their access codes (the
register reference that closes each chapter of the spec; access codes of 00_scope.md). `tl` is a tally, which any write
clears (R50); `dv` is read from other state; `al` is a Basic alias of an Expert field (R7).
-/
namespace Sys2Proof.Machine

/-- Access codes of a field (00_scope.md, Access codes). -/
inductive Acc where
  | rw | ro | w1c | w1s | wo | pl | tk
  /-- A tally: reads as a count, any write clears it. -/
  | tl
  /-- Read-only, computed from other state. -/
  | dv
  /-- A Basic-view alias of an Expert field. -/
  | al
deriving DecidableEq, Repr

/-- One field of a register: its low bit, its state and its access code. -/
structure FieldRow where
  lo : Nat
  f : Fld
  acc : Acc
deriving DecidableEq, Repr

/-- One register, or an array of `cnt` registers `stride` bytes apart. `w` is its width in bytes. -/
structure RegRow where
  off : Nat
  stride : Nat
  cnt : Nat
  w : Nat
  fields : List FieldRow
deriving DecidableEq, Repr

namespace RegMap

def stk : List RegRow := [
  ⟨0x0, 0, 1, 4, [⟨0, F.STK_STATUS_TIER, .dv⟩, ⟨4, F.STK_STATUS_C_UP, .dv⟩, ⟨5, F.STK_STATUS_M_UP, .dv⟩, ⟨8, F.STK_STATUS_LANE_WARN, .dv⟩, ⟨9, F.STK_STATUS_BUNDLE_DOWN, .dv⟩]⟩,
  ⟨0x4, 0, 1, 4, [⟨0, F.STK_EVENTS_EVT, .al⟩]⟩,
  ⟨0x8, 0, 1, 4, [⟨0, F.STK_CTRL_LBIST_EN, .al⟩]⟩,
  ⟨0x100, 0, 1, 4, [⟨0, F.STK_DIESTATE_TIER, .ro⟩, ⟨2, F.STK_DIESTATE_C_STATE, .ro⟩, ⟨4, F.STK_DIESTATE_M_STATE, .ro⟩, ⟨6, F.STK_DIESTATE_STRAP_B, .ro⟩, ⟨9, F.STK_DIESTATE_STRAP_C, .ro⟩, ⟨12, F.STK_DIESTATE_STRAP_M, .ro⟩, ⟨15, F.STK_DIESTATE_LAST_C_CAUSE, .ro⟩, ⟨18, F.STK_DIESTATE_LAST_M_CAUSE, .ro⟩]⟩,
  ⟨0x108, 0, 1, 8, [⟨0, F.STK_ID_B_ID, .ro⟩]⟩,
  ⟨0x110, 0, 1, 8, [⟨0, F.STK_ID_C_ID, .ro⟩]⟩,
  ⟨0x118, 0, 1, 8, [⟨0, F.STK_ID_M_ID, .ro⟩]⟩,
  ⟨0x120, 0, 1, 4, [⟨0, F.STK_EVT_C_LOST, .w1c⟩, ⟨1, F.STK_EVT_M_LOST, .w1c⟩, ⟨2, F.STK_EVT_LANE_REP, .w1c⟩, ⟨3, F.STK_EVT_BUNDLE_RET, .w1c⟩]⟩,
  ⟨0x128, 0, 1, 8, [⟨0, F.STK_RESET_C_RST, .tk⟩, ⟨1, F.STK_RESET_M_RST, .tk⟩, ⟨48, F.STK_RESET_TICKET, .tk⟩]⟩,
  ⟨0x130, 0, 1, 4, [⟨0, F.LBIST_CFG_EN, .rw⟩, ⟨4, F.LBIST_CFG_GAP, .rw⟩, ⟨24, F.LBIST_CFG_CRC_TRIG, .rw⟩]⟩,
  ⟨0x134, 0, 1, 4, [⟨0, F.LANE_SUMMARY_SPARES_USED, .dv⟩, ⟨8, F.LANE_SUMMARY_RETIRED, .dv⟩, ⟨16, F.LANE_SUMMARY_EXHAUST, .dv⟩]⟩,
  ⟨0x138, 0, 1, 4, [⟨0, F.STK_TALLY0_HB_MISS, .tl⟩, ⟨16, F.STK_TALLY0_LBIST_SKIP, .tl⟩]⟩,
  ⟨0x13c, 0, 1, 4, [⟨0, F.STK_TALLY1_ABSORB_C, .tl⟩]⟩,
  ⟨0x140, 4, 32, 4, [⟨0, F.BUNDLE_STATE, .ro⟩, ⟨2, F.BUNDLE_CTRL, .ro⟩, ⟨4, F.BUNDLE_SPARES, .ro⟩, ⟨8, F.BUNDLE_CRC_ERR, .tl⟩, ⟨16, F.BUNDLE_RETRY, .tl⟩, ⟨24, F.BUNDLE_DUP, .tl⟩]⟩,
  ⟨0x200, 8, 32, 8, [⟨0, F.LANE_MAP_PHYS_0, .ro⟩, ⟨7, F.LANE_MAP_VALID_0, .ro⟩, ⟨8, F.LANE_MAP_PHYS_1, .ro⟩, ⟨15, F.LANE_MAP_VALID_1, .ro⟩, ⟨16, F.LANE_MAP_PHYS_2, .ro⟩, ⟨23, F.LANE_MAP_VALID_2, .ro⟩, ⟨24, F.LANE_MAP_PHYS_3, .ro⟩, ⟨31, F.LANE_MAP_VALID_3, .ro⟩, ⟨32, F.LANE_MAP_FUSED, .ro⟩]⟩]

def su : List RegRow := [
  ⟨0x0, 0, 1, 4, [⟨0, F.SU_STATUS_TIER, .dv⟩, ⟨4, F.SU_STATUS_CAUSE, .dv⟩, ⟨8, F.SU_STATUS_REPLACE, .dv⟩, ⟨9, F.SU_STATUS_FAULT, .dv⟩]⟩,
  ⟨0x4, 0, 1, 4, [⟨0, F.SU_FAULT_ACK_ACK, .al⟩]⟩,
  ⟨0x8, 0, 1, 8, [⟨0, F.SU_KICK_KICK, .tk⟩, ⟨48, F.SU_KICK_TICKET, .tk⟩]⟩,
  ⟨0x100, 0, 1, 4, [⟨0, F.SU_TIER_TIER, .dv⟩, ⟨4, F.SU_TIER_CAUSE, .ro⟩, ⟨8, F.SU_TIER_BOOT_STRAP, .ro⟩, ⟨12, F.SU_TIER_PAT_SLOT, .ro⟩, ⟨13, F.SU_TIER_FW_SLOT, .ro⟩, ⟨14, F.SU_TIER_HSXO_FAIL, .ro⟩, ⟨15, F.SU_TIER_LEDGER_SRC, .ro⟩, ⟨16, F.SU_TIER_GIVE_UP, .w1s⟩, ⟨17, F.SU_TIER_RECOVER, .w1s⟩, ⟨18, F.SU_TIER_ROM_PHASE, .ro⟩, ⟨19, F.SU_TIER_ROM_DONE, .w1s⟩, ⟨20, F.SU_TIER_BO_SRC, .ro⟩]⟩,
  ⟨0x104, 0, 1, 4, [⟨0, F.BOOT_LOG_PA, .ro⟩, ⟨4, F.BOOT_LOG_PB, .ro⟩, ⟨8, F.BOOT_LOG_FA, .ro⟩, ⟨12, F.BOOT_LOG_FB, .ro⟩, ⟨16, F.BOOT_LOG_REC, .ro⟩, ⟨20, F.BOOT_LOG_ROLLBACK_SKIP, .ro⟩]⟩,
  ⟨0x108, 0, 1, 4, [⟨0, F.RST_CAUSE_POR, .w1c⟩, ⟨1, F.RST_CAUSE_PIN, .w1c⟩, ⟨2, F.RST_CAUSE_VDD12, .w1c⟩, ⟨3, F.RST_CAUSE_SOFT, .w1c⟩, ⟨4, F.RST_CAUSE_DEBUG, .w1c⟩, ⟨5, F.RST_CAUSE_VCORE, .w1c⟩, ⟨6, F.RST_CAUSE_PWD, .w1c⟩, ⟨7, F.RST_CAUSE_CLOSS, .w1c⟩, ⟨8, F.RST_CAUSE_MLOSS, .w1c⟩, ⟨9, F.RST_CAUSE_BINDOFF, .w1c⟩]⟩,
  ⟨0x110, 0, 1, 8, [⟨0, F.SYS_RESET_STACK, .tk⟩, ⟨48, F.SYS_RESET_TICKET, .tk⟩]⟩,
  ⟨0x118, 0, 1, 4, [⟨0, F.PWD_CFG_PERIOD, .pl⟩]⟩,
  ⟨0x120, 0, 1, 8, [⟨0, F.PWD_KICK_KICK, .tk⟩, ⟨48, F.PWD_KICK_TICKET, .tk⟩]⟩,
  ⟨0x128, 0, 1, 4, [⟨0, F.FAULT_CAUSE_BOOT, .w1c⟩, ⟨1, F.FAULT_CAUSE_C_LOST, .w1c⟩, ⟨2, F.FAULT_CAUSE_BINDOFF, .w1c⟩, ⟨3, F.FAULT_CAUSE_TRIP, .w1c⟩, ⟨4, F.FAULT_CAUSE_SP_MISMATCH, .w1c⟩, ⟨5, F.FAULT_CAUSE_DEGRADED, .dv⟩, ⟨6, F.FAULT_CAUSE_FW, .rw⟩, ⟨31, F.FAULT_CAUSE_ANY, .dv⟩]⟩,
  ⟨0x130, 0, 1, 4, [⟨0, F.LEDGER_CAUSES, .ro⟩, ⟨31, F.LEDGER_ANY, .dv⟩]⟩,
  ⟨0x138, 0, 1, 8, [⟨0, F.LEDGER_CLR_CLR, .tk⟩, ⟨48, F.LEDGER_CLR_TICKET, .tk⟩]⟩,
  ⟨0x140, 0, 1, 4, [⟨0, F.ECC_LIM_ECC_LIM, .pl⟩]⟩,
  ⟨0x144, 0, 1, 4, [⟨0, F.WEAR_LIM_WEAR_LIM, .pl⟩]⟩,
  ⟨0x148, 0, 1, 4, [⟨0, F.HOT_LIM_HOT_LIM, .pl⟩]⟩,
  ⟨0x14c, 0, 1, 4, [⟨0, F.SP_LIM_SP_LIM, .pl⟩]⟩,
  ⟨0x150, 0, 1, 4, [⟨0, F.HOT_TIME_MINUTES, .ro⟩]⟩,
  ⟨0x154, 0, 1, 4, [⟨0, F.LEDGER_TALLY_SP_COUNT, .ro⟩]⟩,
  ⟨0x160, 0, 1, 4, [⟨0, F.TS_CFG_T2_EN, .pl⟩]⟩,
  ⟨0x164, 0, 1, 4, [⟨0, F.TS_STAT_BUSY, .ro⟩, ⟨8, F.TS_STAT_COUNT, .ro⟩]⟩]

def pat : List RegRow := [
  ⟨0x0, 0, 1, 4, [⟨0, F.PAT_STATUS_SLOT, .dv⟩, ⟨1, F.PAT_STATUS_DELTA, .dv⟩, ⟨2, F.PAT_STATUS_LIVE, .dv⟩, ⟨8, F.PAT_STATUS_REJECT, .dv⟩]⟩,
  ⟨0x100, 0, 1, 4, [⟨0, F.PAT_ACTIVE_SLOT, .ro⟩, ⟨1, F.PAT_ACTIVE_DELTA, .ro⟩, ⟨2, F.PAT_ACTIVE_VALID, .ro⟩]⟩,
  ⟨0x104, 0, 1, 4, [⟨0, F.PAT_VERSION_VERSION, .ro⟩]⟩,
  ⟨0x108, 0, 1, 4, [⟨0, F.PAT_FAMILY_FAMILY, .ro⟩]⟩,
  ⟨0x120, 4, 8, 4, [⟨0, F.PAT_DIGEST_WORD, .ro⟩]⟩,
  ⟨0x140, 0, 1, 4, [⟨0, F.PAT_REJECT_CODE, .ro⟩, ⟨8, F.PAT_REJECT_TYPE, .ro⟩, ⟨16, F.PAT_REJECT_SOURCE, .ro⟩]⟩,
  ⟨0x144, 0, 1, 4, [⟨0, F.PAT_REJECT_OFF_OFFSET, .ro⟩]⟩,
  ⟨0x150, 0, 1, 4, [⟨3, F.PAT_LIVE_ADDR_ADDR, .rw⟩]⟩,
  ⟨0x154, 0, 1, 4, [⟨0, F.PAT_LIVE_CTRL_ROW, .rw⟩]⟩,
  ⟨0x158, 0, 1, 8, [⟨0, F.PAT_LIVE_GO_GO, .tk⟩, ⟨1, F.PAT_LIVE_GO_CANCEL, .tk⟩, ⟨48, F.PAT_LIVE_GO_TICKET, .tk⟩]⟩,
  ⟨0x160, 0, 1, 4, [⟨0, F.PAT_LIVE_STAT_STATE, .ro⟩, ⟨8, F.PAT_LIVE_STAT_RESULT, .ro⟩, ⟨16, F.PAT_LIVE_STAT_OVERRIDE, .w1c⟩, ⟨24, F.PAT_LIVE_STAT_SWITCHES, .ro⟩]⟩]

def aon : List RegRow := []

def xr : List RegRow := [
  ⟨0x0, 0, 1, 4, [⟨0, F.XR_STATUS_TAGS, .dv⟩, ⟨16, F.XR_STATUS_LOST, .dv⟩]⟩,
  ⟨0x100, 0, 1, 4, [⟨0, F.XR_CFG_TMO, .rw⟩]⟩,
  ⟨0x104, 0, 1, 4, [⟨0, F.XR_TAGS_USED, .dv⟩, ⟨16, F.XR_TAGS_MAX, .tl⟩]⟩,
  ⟨0x108, 0, 1, 4, [⟨0, F.XR_LOST_LOST_REPLY, .tl⟩]⟩,
  ⟨0x10c, 0, 1, 4, [⟨0, F.XR_LATE_LATE, .tl⟩]⟩,
  ⟨0x110, 0, 1, 4, [⟨0, F.XR_SHADOW_ERR_COUNT, .tl⟩]⟩]

def fab : List RegRow := [
  ⟨0x0, 0, 1, 4, [⟨0, F.FAB_STATUS_DUP, .dv⟩]⟩,
  ⟨0x100, 0, 1, 4, [⟨0, F.FAB_DUP_COUNT, .tl⟩]⟩,
  ⟨0x104, 0, 1, 4, [⟨0, F.FAB_DUP_LAST_MID, .ro⟩, ⟨12, F.FAB_DUP_LAST_BLOCK, .ro⟩]⟩,
  ⟨0x114, 4, 7, 4, [⟨0, F.FAB_ERR_COUNT, .tl⟩]⟩]

def ptm : List RegRow := [
  ⟨0x0, 0, 1, 4, [⟨0, F.PM_STATUS_STATE, .dv⟩, ⟨4, F.PM_STATUS_THROTTLE, .dv⟩, ⟨5, F.PM_STATUS_DROP, .dv⟩]⟩,
  ⟨0x4, 0, 1, 4, [⟨0, F.PM_REQ_REQ, .al⟩]⟩,
  ⟨0x100, 0, 1, 4, [⟨0, F.PTM_STATE_CUR, .ro⟩, ⟨4, F.PTM_STATE_LAST, .ro⟩, ⟨8, F.PTM_STATE_REFUSE, .ro⟩, ⟨12, F.PTM_STATE_ABORTED, .w1c⟩, ⟨16, F.PTM_STATE_ONFRC, .ro⟩]⟩,
  ⟨0x104, 0, 1, 4, [⟨0, F.PTM_STATE_REQ_REQ, .rw⟩, ⟨8, F.PTM_STATE_REQ_FAST_NAP, .rw⟩]⟩,
  ⟨0x108, 0, 1, 4, [⟨2, F.PTM_RESUME_ADDR, .rw⟩]⟩,
  ⟨0x110, 0, 1, 4, [⟨0, F.PTM_WAKE_EN_EN, .rw⟩, ⟨16, F.PTM_WAKE_EN_WAKE0_POL, .rw⟩, ⟨17, F.PTM_WAKE_EN_WAKE1_POL, .rw⟩]⟩,
  ⟨0x114, 0, 1, 4, [⟨0, F.PTM_WAKE_CAUSE_SRC, .w1c⟩, ⟨12, F.PTM_WAKE_CAUSE_DISPATCH, .w1c⟩]⟩,
  ⟨0x120, 0, 1, 4, [⟨0, F.PTM_CLKREQ_REQ, .rw⟩]⟩,
  ⟨0x124, 0, 1, 4, [⟨0, F.PTM_CLKSTAT_GRANT, .ro⟩, ⟨4, F.PTM_CLKSTAT_PLL, .ro⟩, ⟨5, F.PTM_CLKSTAT_REF, .ro⟩, ⟨6, F.PTM_CLKSTAT_LSXO_FAIL, .ro⟩, ⟨7, F.PTM_CLKSTAT_HSXO_FAIL, .dv⟩, ⟨8, F.PTM_CLKSTAT_THROTTLE, .ro⟩]⟩,
  ⟨0x130, 0, 1, 4, [⟨0, F.PTM_TEMP_TS_B, .ro⟩, ⟨8, F.PTM_TEMP_TS_M, .ro⟩, ⟨16, F.PTM_TEMP_TS_C0, .ro⟩, ⟨24, F.PTM_TEMP_TS_C1, .ro⟩]⟩,
  ⟨0x134, 0, 1, 4, [⟨0, F.PTM_TEMP_MAX_TS_B, .tl⟩, ⟨8, F.PTM_TEMP_MAX_TS_M, .tl⟩, ⟨16, F.PTM_TEMP_MAX_TS_C0, .tl⟩, ⟨24, F.PTM_TEMP_MAX_TS_C1, .tl⟩]⟩,
  ⟨0x138, 0, 1, 4, [⟨0, F.PTM_THERM_T_WARN, .pl⟩, ⟨8, F.PTM_THERM_T_THROTTLE, .pl⟩, ⟨16, F.PTM_THERM_T_CRIT, .pl⟩]⟩,
  ⟨0x13c, 0, 1, 4, [⟨0, F.PTM_THROTTLE_TIME_MS, .tl⟩]⟩,
  ⟨0x140, 0, 1, 4, [⟨0, F.PTM_SUPPLY_GOOD, .ro⟩, ⟨6, F.PTM_SUPPLY_V18, .ro⟩, ⟨8, F.PTM_SUPPLY_DROP_WARN, .ro⟩]⟩,
  ⟨0x144, 0, 1, 4, [⟨0, F.PTM_DROP_CFG_CMP, .rw⟩]⟩,
  ⟨0x148, 0, 1, 4, [⟨0, F.PTM_DROP_COUNT_COUNT, .tl⟩]⟩,
  ⟨0x180, 4, 9, 4, [⟨0, F.PTM_DOM_STATE_STATE, .dv⟩]⟩,
  ⟨0x200, 4, 5, 4, [⟨0, F.PTM_DOM_CTRL_CTRL, .rw⟩]⟩,
  ⟨0x220, 0, 1, 4, [⟨0, F.PTM_DOM_ERR_DOMAIN, .ro⟩, ⟨8, F.PTM_DOM_ERR_CODE, .ro⟩, ⟨16, F.PTM_DOM_ERR_NEW, .w1c⟩]⟩]

def stump : List RegRow := []

def pin : List RegRow := [
  ⟨0x0, 0, 1, 4, [⟨0, F.PIN_GP_IN_LEVEL, .dv⟩]⟩,
  ⟨0x4, 0, 1, 4, [⟨0, F.PIN_GP_OUT_VALUE, .al⟩]⟩,
  ⟨0x100, 0, 1, 4, [⟨0, F.GP_IN_LEVEL, .dv⟩]⟩,
  ⟨0x104, 0, 1, 4, [⟨0, F.GP_OUT_VALUE, .rw⟩]⟩,
  ⟨0x108, 0, 1, 4, [⟨0, F.GP_SET_SET, .dv⟩]⟩,
  ⟨0x10c, 0, 1, 4, [⟨0, F.GP_CLR_CLR, .dv⟩]⟩,
  ⟨0x110, 0, 1, 4, [⟨0, F.BANK_A_V18, .pl⟩, ⟨1, F.BANK_A_DET, .dv⟩, ⟨2, F.BANK_A_GOOD, .dv⟩, ⟨3, F.BANK_A_MISMATCH, .w1c⟩]⟩,
  ⟨0x200, 4, 108, 4, [⟨0, F.PIN_CFG_FUNC, .pl⟩, ⟨6, F.PIN_CFG_DRIVE, .pl⟩, ⟨8, F.PIN_CFG_PULL, .dv⟩, ⟨10, F.PIN_CFG_INVERT, .pl⟩, ⟨12, F.PIN_CFG_SAFE, .pl⟩]⟩]

def ad : List RegRow := [
  ⟨0x0, 0, 1, 4, [⟨0, F.AD_BASIC_CTRL_EN, .al⟩, ⟨1, F.AD_BASIC_CTRL_GO_B, .w1s⟩]⟩,
  ⟨0x4, 0, 1, 4, [⟨0, F.AD_BASIC_RES_VALUE, .dv⟩, ⟨16, F.AD_BASIC_RES_STEP, .dv⟩]⟩,
  ⟨0x100, 0, 1, 4, [⟨0, F.AD_CFG_EN, .rw⟩, ⟨2, F.AD_CFG_SAMPLE, .rw⟩, ⟨8, F.AD_CFG_PAIR, .rw⟩]⟩,
  ⟨0x104, 0, 1, 4, [⟨0, F.AD_SEQ_A_LEN, .rw⟩, ⟨8, F.AD_SEQ_A_TRIG_EN, .rw⟩]⟩,
  ⟨0x108, 0, 1, 4, [⟨0, F.AD_SEQ_B_LEN, .rw⟩, ⟨8, F.AD_SEQ_B_TRIG_EN, .rw⟩, ⟨9, F.AD_SEQ_B_CONT, .rw⟩]⟩,
  ⟨0x10c, 0, 1, 4, [⟨0, F.AD_SWTRIG_A, .w1s⟩, ⟨1, F.AD_SWTRIG_B, .w1s⟩]⟩,
  ⟨0x110, 0, 1, 4, [⟨0, F.AD_STATUS_BUSY_A, .ro⟩, ⟨1, F.AD_STATUS_BUSY_B, .ro⟩, ⟨8, F.AD_STATUS_OVR_A, .w1c⟩, ⟨9, F.AD_STATUS_OVR_B, .w1c⟩, ⟨10, F.AD_STATUS_CHERR, .w1c⟩, ⟨11, F.AD_STATUS_DMA_OVR, .w1c⟩]⟩,
  ⟨0x114, 0, 1, 4, [⟨0, F.AD_DMA_REQ_A, .rw⟩, ⟨1, F.AD_DMA_REQ_B, .rw⟩, ⟨2, F.AD_DMA_EVT_A, .rw⟩, ⟨3, F.AD_DMA_EVT_B, .rw⟩]⟩,
  ⟨0x120, 0, 1, 4, [⟨0, F.AD_TALLY_TRIG_LOST, .tl⟩, ⟨16, F.AD_TALLY_PREEMPT, .tl⟩]⟩,
  ⟨0x140, 4, 16, 4, [⟨0, F.AD_STEP_CH, .rw⟩, ⟨6, F.AD_STEP_OVS, .rw⟩, ⟨9, F.AD_STEP_TO_LE, .rw⟩, ⟨10, F.AD_STEP_SLOT, .rw⟩]⟩,
  ⟨0x180, 4, 16, 4, [⟨0, F.AD_RES_VALUE, .ro⟩, ⟨16, F.AD_RES_STAMP, .ro⟩]⟩]

def csa : List RegRow := [
  ⟨0x0, 0, 1, 4, [⟨0, F.CA_BASIC_EN, .dv⟩]⟩,
  ⟨0x100, 4, 8, 4, [⟨0, F.CA_CFG_EN, .rw⟩, ⟨1, F.CA_CFG_GAIN, .rw⟩]⟩,
  ⟨0x120, 0, 1, 4, [⟨0, F.CA_STAT_READY, .dv⟩]⟩]

def cm : List RegRow := [
  ⟨0x0, 0, 1, 4, [⟨0, F.CM_OUT_OUT, .dv⟩]⟩,
  ⟨0x4, 0, 1, 4, [⟨0, F.CM_LATCH_CLR_CLR, .al⟩]⟩,
  ⟨0x100, 4, 24, 4, [⟨0, F.CM_CFG_EN, .rw⟩, ⟨1, F.CM_CFG_INSEL, .rw⟩, ⟨6, F.CM_CFG_POL, .rw⟩, ⟨7, F.CM_CFG_HYST, .rw⟩, ⟨9, F.CM_CFG_FILT, .rw⟩, ⟨12, F.CM_CFG_LATCH, .rw⟩, ⟨14, F.CM_CFG_LSLICE, .rw⟩, ⟨18, F.CM_CFG_EVT, .rw⟩, ⟨19, F.CM_CFG_GATE_FILT, .rw⟩]⟩,
  ⟨0x180, 4, 24, 4, [⟨0, F.CM_FDIV_FDIV, .rw⟩]⟩,
  ⟨0x200, 4, 24, 4, [⟨0, F.CM_DAC_CODE, .rw⟩]⟩,
  ⟨0x280, 0, 1, 4, [⟨0, F.CM_RAW_RAW, .ro⟩]⟩,
  ⟨0x284, 0, 1, 4, [⟨0, F.CM_COND_COND, .ro⟩]⟩,
  ⟨0x288, 0, 1, 4, [⟨0, F.CM_LATCHED_LATCHED, .w1c⟩]⟩,
  ⟨0x28c, 0, 1, 4, [⟨0, F.CM_REFUSED_COUNT, .tl⟩]⟩,
  ⟨0x290, 0, 1, 4, [⟨0, F.CM_LEGUSE_USE, .ro⟩]⟩]

def sw : List RegRow := [
  ⟨0x0, 0, 1, 4, [⟨0, F.SW_BASIC_BUSY, .dv⟩, ⟨1, F.SW_BASIC_RESULT, .dv⟩]⟩,
  ⟨0x100, 0, 1, 4, [⟨0, F.VREF_CFG_OUT_EN, .rw⟩]⟩,
  ⟨0x110, 0, 1, 4, [⟨0, F.SW_CFG_CMP, .rw⟩, ⟨8, F.SW_CFG_TEST, .rw⟩]⟩,
  ⟨0x114, 0, 1, 4, [⟨0, F.SW_GO_GO, .w1s⟩]⟩,
  ⟨0x118, 0, 1, 4, [⟨0, F.SW_STAT_BUSY, .ro⟩, ⟨1, F.SW_STAT_RESULT, .ro⟩]⟩,
  ⟨0x11c, 0, 1, 4, [⟨0, F.SW_RESULT_MEAS, .ro⟩, ⟨16, F.SW_RESULT_EXPECT, .ro⟩]⟩,
  ⟨0x120, 4, 5, 4, [⟨0, F.SW_FAIL_FAIL, .ro⟩]⟩]

def ct : List RegRow := [
  ⟨0x0, 0, 1, 4, [⟨0, F.CT_BASIC_CTRL_RUN, .al⟩]⟩,
  ⟨0x4, 0, 1, 4, [⟨0, F.CT_BASIC_DUTY_VALUE, .al⟩]⟩,
  ⟨0x100, 0, 1, 4, [⟨0, F.CT_CFG_MODE, .pl⟩, ⟨2, F.CT_CFG_CHAIN, .pl⟩, ⟨3, F.CT_CFG_LOAD, .pl⟩, ⟨8, F.CT_CFG_PRESCALE, .pl⟩]⟩,
  ⟨0x104, 0, 1, 4, [⟨0, F.CT_CTRL_RUN, .rw⟩, ⟨1, F.CT_CTRL_SYNC_EN, .rw⟩, ⟨2, F.CT_CTRL_START_EN, .rw⟩]⟩,
  ⟨0x108, 0, 1, 4, [⟨0, F.CT_COUNT_COUNT, .ro⟩, ⟨24, F.CT_COUNT_DIR, .ro⟩]⟩,
  ⟨0x10c, 0, 1, 4, [⟨0, F.CT_PERIOD_PERIOD, .rw⟩]⟩,
  ⟨0x110, 0, 1, 4, [⟨0, F.CT_PERIOD_ACT_PERIOD, .ro⟩]⟩,
  ⟨0x114, 0, 1, 4, [⟨0, F.CT_PHASE_PHASE, .rw⟩, ⟨24, F.CT_PHASE_PDIR, .rw⟩]⟩,
  ⟨0x118, 0, 1, 4, [⟨0, F.CT_SHCTL_HOLD, .rw⟩, ⟨1, F.CT_SHCTL_FORCE, .w1s⟩]⟩,
  ⟨0x120, 4, 4, 4, [⟨0, F.CT_CMP_SH_VALUE, .rw⟩, ⟨24, F.CT_CMP_SH_FINE, .rw⟩, ⟨28, F.CT_CMP_SH_EVDIR, .rw⟩]⟩,
  ⟨0x130, 4, 4, 4, [⟨0, F.CT_CMP_ACT_VALUE, .ro⟩, ⟨24, F.CT_CMP_ACT_FINE, .ro⟩, ⟨28, F.CT_CMP_ACT_EVDIR, .ro⟩]⟩,
  ⟨0x140, 0, 1, 4, [⟨0, F.CT_EVT_PSTART, .rw⟩]⟩,
  ⟨0x150, 0, 1, 4, [⟨0, F.CT_TALLY_SH_COLL, .tl⟩]⟩,
  ⟨0x180, 0, 1, 4, [⟨0, F.CT_GSTART_START, .w1s⟩]⟩]

def lg : List RegRow := [
  ⟨0x0, 0, 1, 4, [⟨0, F.LG_BASIC_STATE, .dv⟩, ⟨2, F.LG_BASIC_TRIPPED, .dv⟩]⟩,
  ⟨0x100, 0, 1, 4, [⟨0, F.LG_CFG_SLICE, .rw⟩, ⟨4, F.LG_CFG_REF_MODE, .rw⟩, ⟨6, F.LG_CFG_UA, .rw⟩, ⟨8, F.LG_CFG_UB, .rw⟩, ⟨10, F.LG_CFG_LMODE, .rw⟩, ⟨12, F.LG_CFG_EXT_EN, .rw⟩]⟩,
  ⟨0x104, 0, 1, 4, [⟨0, F.LG_DT_DT_RISE, .rw⟩, ⟨10, F.LG_DT_FINE_RISE, .rw⟩, ⟨16, F.LG_DT_DT_FALL, .rw⟩, ⟨26, F.LG_DT_FINE_FALL, .rw⟩]⟩,
  ⟨0x108, 0, 1, 4, [⟨0, F.LG_TRIPCFG_OC_CMP, .pl⟩, ⟨5, F.LG_TRIPCFG_HS_CMP, .pl⟩, ⟨10, F.LG_TRIPCFG_GROUP, .pl⟩, ⟨13, F.LG_TRIPCFG_SAFE, .pl⟩, ⟨15, F.LG_TRIPCFG_ORPHAN, .pl⟩, ⟨16, F.LG_TRIPCFG_T_ORPHAN, .pl⟩, ⟨24, F.LG_TRIPCFG_FAULT, .pl⟩]⟩,
  ⟨0x10c, 0, 1, 4, [⟨0, F.LG_BLANK_BLANK, .pl⟩]⟩,
  ⟨0x110, 0, 1, 4, [⟨0, F.LG_ARM_ARM, .w1s⟩, ⟨1, F.LG_ARM_DISARM, .w1s⟩, ⟨2, F.LG_ARM_NOW, .w1s⟩, ⟨3, F.LG_ARM_SWTRIP, .w1s⟩]⟩,
  ⟨0x114, 0, 1, 4, [⟨0, F.LG_STAT_STATE, .ro⟩, ⟨4, F.LG_STAT_OC, .w1c⟩, ⟨5, F.LG_STAT_HS, .w1c⟩, ⟨6, F.LG_STAT_EXT, .w1c⟩, ⟨7, F.LG_STAT_SW, .w1c⟩, ⟨8, F.LG_STAT_BLANKED, .w1c⟩, ⟨9, F.LG_STAT_ARM_ERR, .ro⟩, ⟨12, F.LG_STAT_TRIPPED, .dv⟩, ⟨13, F.LG_STAT_CFG_IGN, .w1c⟩]⟩,
  ⟨0x120, 0, 1, 4, [⟨0, F.LG_TALLY_TRIPS, .tl⟩, ⟨16, F.LG_TALLY_BLANKED, .tl⟩, ⟨24, F.LG_TALLY_SWALLOW, .tl⟩]⟩]

def trip : List RegRow := [
  ⟨0x0, 0, 1, 4, [⟨0, F.TRIP_BASIC_LEGS, .dv⟩, ⟨16, F.TRIP_BASIC_GROUPS, .dv⟩]⟩,
  ⟨0x100, 4, 6, 4, [⟨0, F.BG_CFG_GSAFE, .pl⟩, ⟨8, F.BG_CFG_FAULT, .pl⟩, ⟨16, F.BG_CFG_LEGS, .pl⟩]⟩,
  ⟨0x120, 4, 6, 4, [⟨0, F.BG_STAT_TRIPPED, .ro⟩, ⟨1, F.BG_STAT_BRAKE_FB, .ro⟩]⟩,
  ⟨0x140, 0, 1, 4, [⟨0, F.BG_ARM_ARM, .w1s⟩]⟩,
  ⟨0x150, 0, 1, 4, [⟨0, F.TRIP_LEGS_LEGS, .dv⟩]⟩,
  ⟨0x154, 0, 1, 4, [⟨0, F.TRIP_FIRST_LEG, .ro⟩, ⟨4, F.TRIP_FIRST_KIND, .ro⟩, ⟨8, F.TRIP_FIRST_TIED, .ro⟩, ⟨9, F.TRIP_FIRST_VALID, .ro⟩]⟩,
  ⟨0x158, 0, 1, 4, [⟨0, F.TRIP_FIRST_STAMP_STAMP, .ro⟩]⟩,
  ⟨0x15c, 0, 1, 4, [⟨0, F.TRIP_FIRST_MASK_MASK, .ro⟩]⟩]

def st : List RegRow := [
  ⟨0x100, 4, 8, 4, [⟨0, F.ST_WIDTH_TICKS, .rw⟩, ⟨16, F.ST_WIDTH_FINE, .rw⟩]⟩,
  ⟨0x120, 4, 8, 4, [⟨0, F.ST_DELAY_DELAY, .rw⟩]⟩,
  ⟨0x140, 0, 1, 4, [⟨0, F.ST_CTRL_EN, .rw⟩, ⟨8, F.ST_CTRL_ROUTE_EN, .rw⟩]⟩,
  ⟨0x144, 0, 1, 4, [⟨0, F.ST_LIMIT_LIMIT, .rw⟩]⟩,
  ⟨0x148, 0, 1, 4, [⟨0, F.ST_STAT_ACTIVE, .ro⟩, ⟨8, F.ST_STAT_INHIBIT, .dv⟩, ⟨16, F.ST_STAT_CUT, .w1c⟩]⟩,
  ⟨0x14c, 0, 1, 4, [⟨0, F.ST_TALLY_ST_OVERRUN, .tl⟩, ⟨16, F.ST_TALLY_CLAMP, .tl⟩]⟩]

def cp : List RegRow := [
  ⟨0x0, 0, 1, 4, [⟨0, F.CP_BASIC_NONEMPTY, .dv⟩]⟩,
  ⟨0x100, 4, 16, 4, [⟨0, F.CP_CFG_EN, .rw⟩, ⟨1, F.CP_CFG_EDGE, .rw⟩, ⟨3, F.CP_CFG_SRC, .rw⟩, ⟨4, F.CP_CFG_FILT, .rw⟩, ⟨8, F.CP_CFG_TB, .rw⟩, ⟨13, F.CP_CFG_EVT, .rw⟩]⟩,
  ⟨0x140, 4, 16, 4, [⟨0, F.CP_DATA_VALUE, .dv⟩, ⟨24, F.CP_DATA_RISE, .dv⟩, ⟨25, F.CP_DATA_VALID, .dv⟩]⟩,
  ⟨0x180, 0, 1, 4, [⟨0, F.CP_STAT_NONEMPTY, .dv⟩, ⟨16, F.CP_STAT_OVF, .w1c⟩]⟩]

def qd : List RegRow := [
  ⟨0x0, 4, 2, 4, [⟨0, F.QD_BASIC_POS, .dv⟩]⟩,
  ⟨0x100, 32, 2, 4, [⟨0, F.QD_CFG_EN, .rw⟩, ⟨1, F.QD_CFG_SWAP, .rw⟩, ⟨2, F.QD_CFG_IDX_RST, .rw⟩, ⟨3, F.QD_CFG_IDX_EN, .rw⟩, ⟨4, F.QD_CFG_EVT, .rw⟩]⟩,
  ⟨0x104, 32, 2, 4, [⟨0, F.QD_MAX_MAX, .rw⟩]⟩,
  ⟨0x108, 32, 2, 4, [⟨0, F.QD_POS_POS, .rw⟩, ⟨24, F.QD_POS_DIR, .ro⟩]⟩,
  ⟨0x10c, 32, 2, 4, [⟨0, F.QD_IDXPOS_IDXPOS, .ro⟩]⟩,
  ⟨0x110, 32, 2, 4, [⟨0, F.QD_ERR_COUNT, .tl⟩]⟩]

def leA : List RegRow := [
  ⟨0x0, 0, 1, 4, [⟨0, F.LE_BASIC_CTRL_EN, .al⟩, ⟨16, F.LE_BASIC_CTRL_ROWS, .al⟩]⟩,
  ⟨0x4, 0, 1, 4, [⟨0, F.LE_BASIC_STAT_OVR, .al⟩, ⟨1, F.LE_BASIC_STAT_SAT, .al⟩, ⟨2, F.LE_BASIC_STAT_ECC, .al⟩]⟩,
  ⟨0x100, 0, 1, 4, [⟨0, F.LE_CTRL_EN, .rw⟩]⟩,
  ⟨0x104, 0, 1, 4, [⟨0, F.LE_ROWEN_EN, .rw⟩]⟩,
  ⟨0x108, 0, 1, 4, [⟨0, F.LE_ROWSTAT_ROW, .ro⟩, ⟨4, F.LE_ROWSTAT_ACTIVE, .ro⟩, ⟨16, F.LE_ROWSTAT_PENDING, .ro⟩]⟩,
  ⟨0x10c, 0, 1, 4, [⟨0, F.LE_EVT_ROW_OVR, .w1c⟩, ⟨1, F.LE_EVT_SAT, .w1c⟩, ⟨2, F.LE_EVT_ECC, .w1c⟩, ⟨3, F.LE_EVT_XOVR, .w1c⟩, ⟨4, F.LE_EVT_STALE, .w1c⟩]⟩,
  ⟨0x110, 0, 1, 4, [⟨0, F.LE_BANK0_BANK, .ro⟩]⟩,
  ⟨0x114, 0, 1, 4, [⟨0, F.LE_BANK1_BANK, .ro⟩]⟩,
  ⟨0x118, 0, 1, 4, [⟨0, F.LE_SWAP0_SWAP, .w1s⟩]⟩,
  ⟨0x11c, 0, 1, 4, [⟨0, F.LE_SWAP1_SWAP, .w1s⟩]⟩,
  ⟨0x120, 0, 1, 4, [⟨0, F.LE_CLR0_CLR, .w1s⟩]⟩,
  ⟨0x124, 0, 1, 4, [⟨0, F.LE_CLR1_CLR, .w1s⟩]⟩,
  ⟨0x140, 4, 4, 4, [⟨0, F.LE_LT_CTL_FREEZE, .rw⟩, ⟨1, F.LE_LT_CTL_PRELOAD, .w1s⟩, ⟨2, F.LE_LT_CTL_SNAP, .w1s⟩, ⟨3, F.LE_LT_CTL_BUSY, .ro⟩, ⟨16, F.LE_LT_CTL_LEN, .ro⟩]⟩,
  ⟨0x160, 0, 1, 4, [⟨0, F.LE_TALLY0_ROW_OVR, .tl⟩, ⟨16, F.LE_TALLY0_XOVR, .tl⟩]⟩,
  ⟨0x164, 0, 1, 4, [⟨0, F.LE_TALLY1_STALE, .tl⟩, ⟨16, F.LE_TALLY1_LT_SKIP, .tl⟩]⟩,
  ⟨0x168, 0, 1, 4, [⟨0, F.LE_TALLY2_XWAIT_MAX, .tl⟩, ⟨16, F.LE_TALLY2_ECC_CORR, .tl⟩]⟩,
  ⟨0x200, 8, 48, 4, [⟨0, F.LE_SLOT_CFG_LAW, .pl⟩, ⟨4, F.LE_SLOT_CFG_EXPRESS, .pl⟩, ⟨5, F.LE_SLOT_CFG_FMT, .pl⟩, ⟨6, F.LE_SLOT_CFG_LT, .pl⟩, ⟨8, F.LE_SLOT_CFG_LT_EN, .pl⟩]⟩,
  ⟨0x204, 8, 48, 4, [⟨0, F.LE_SLOT_CFG1_MEAS, .pl⟩, ⟨8, F.LE_SLOT_CFG1_OUT, .pl⟩, ⟨16, F.LE_SLOT_CFG1_XTRIG, .pl⟩]⟩,
  ⟨0x400, 4, 48, 4, [⟨0, F.LE_SAT_TOTAL_COUNT, .tl⟩]⟩,
  ⟨0x500, 4, 48, 4, [⟨0, F.LE_SLOT_STAT_SAT_RUN, .ro⟩, ⟨16, F.LE_SLOT_STAT_SAT_HIT, .w1c⟩, ⟨17, F.LE_SLOT_STAT_STALE, .w1c⟩, ⟨18, F.LE_SLOT_STAT_ARITH, .w1c⟩, ⟨19, F.LE_SLOT_STAT_FF_CLAMP, .w1c⟩, ⟨20, F.LE_SLOT_STAT_NOPH, .w1c⟩, ⟨21, F.LE_SLOT_STAT_ECC_OFF, .ro⟩, ⟨22, F.LE_SLOT_STAT_CFGERR, .w1c⟩]⟩]

def leB : List RegRow := [
  ⟨0x600, 4, 48, 4, [⟨0, F.LE_MICRO_BASE, .ro⟩, ⟨16, F.LE_MICRO_LEN, .ro⟩]⟩]

def le : List RegRow := leA ++ leB

def hdsA : List RegRow := [
  ⟨0x0, 0, 1, 4, [⟨0, F.HDS_BASIC_EN, .al⟩, ⟨1, F.HDS_BASIC_FULL, .dv⟩, ⟨3, F.HDS_BASIC_YANK, .al⟩]⟩,
  ⟨0x100, 0, 1, 4, [⟨0, F.HDS_CTRL_EN, .rw⟩, ⟨1, F.HDS_CTRL_OWNER, .rw⟩, ⟨2, F.HDS_CTRL_WCOPY, .rw⟩, ⟨3, F.HDS_CTRL_LINE_EVT, .rw⟩, ⟨4, F.HDS_CTRL_ORDER, .rw⟩]⟩,
  ⟨0x104, 0, 1, 4, [⟨0, F.HDS_GEOM_DOTS, .rw⟩, ⟨12, F.HDS_GEOM_LANES2, .rw⟩, ⟨16, F.HDS_GEOM_HALF, .rw⟩]⟩,
  ⟨0x108, 0, 1, 4, [⟨0, F.HDS_LAT_LAT_SU, .rw⟩, ⟨8, F.HDS_LAT_LAT_W, .rw⟩, ⟨16, F.HDS_LAT_GAP, .rw⟩]⟩,
  ⟨0x10c, 0, 1, 4, [⟨0, F.HDS_PLANES_PEN, .rw⟩]⟩,
  ⟨0x110, 4, 4, 4, [⟨0, F.HDS_PMUL_MUL, .rw⟩]⟩,
  ⟨0x120, 0, 1, 4, [⟨0, F.HDS_SLOT_FULL, .ro⟩, ⟨4, F.HDS_SLOT_NEXT, .ro⟩, ⟨5, F.HDS_SLOT_BUSY, .ro⟩, ⟨8, F.HDS_SLOT_PLANE, .ro⟩]⟩,
  ⟨0x124, 0, 1, 4, [⟨0, F.HDS_COMMIT_COMMIT, .w1s⟩]⟩,
  ⟨0x128, 0, 1, 4, [⟨0, F.HDS_GO_LINE, .w1s⟩]⟩,
  ⟨0x130, 0, 1, 4, [⟨0, F.HDS_TALLY0_LINE_OVR, .tl⟩, ⟨16, F.HDS_TALLY0_UNDERRUN, .tl⟩]⟩,
  ⟨0x134, 0, 1, 4, [⟨0, F.HDS_TALLY1_INH_LINES, .tl⟩, ⟨16, F.HDS_TALLY1_COMMIT_DUP, .tl⟩]⟩,
  ⟨0x138, 0, 1, 4, [⟨0, F.HDS_LINES_COUNT, .tl⟩]⟩,
  ⟨0x140, 0, 1, 4, [⟨0, F.YK_CFG_EN, .rw⟩, ⟨1, F.YK_CFG_PAIR, .rw⟩, ⟨2, F.YK_CFG_NEG, .rw⟩, ⟨4, F.YK_CFG_YK_N, .rw⟩, ⟨8, F.YK_CFG_SA, .rw⟩, ⟨12, F.YK_CFG_UAP, .rw⟩, ⟨14, F.YK_CFG_UAN, .rw⟩, ⟨16, F.YK_CFG_SB, .rw⟩, ⟨20, F.YK_CFG_UBP, .rw⟩, ⟨22, F.YK_CFG_UBN, .rw⟩]⟩,
  ⟨0x144, 0, 1, 4, [⟨0, F.YK_THR_THR, .rw⟩]⟩,
  ⟨0x148, 0, 1, 4, [⟨0, F.YK_LEGS_LEGS, .rw⟩]⟩,
  ⟨0x14c, 0, 1, 4, [⟨0, F.YK_STAT_YANK, .w1c⟩, ⟨4, F.YK_STAT_RUN, .ro⟩]⟩,
  ⟨0x150, 0, 1, 4, [⟨0, F.YK_LAST_Y, .ro⟩]⟩,
  ⟨0x154, 0, 1, 4, [⟨0, F.YK_COUNT_COUNT, .tl⟩]⟩,
  ⟨0x160, 0, 1, 4, [⟨0, F.CUT_CFG_EN, .rw⟩, ⟨1, F.CUT_CFG_HOME_CAP, .rw⟩, ⟨16, F.CUT_CFG_LEGS, .rw⟩]⟩,
  ⟨0x164, 0, 1, 4, [⟨0, F.CUT_STAT_HOMED, .w1c⟩]⟩]

def hdsB : List RegRow := [
  ⟨0x180, 8, 2, 4, [⟨0, F.DK_CFG_ON_MS, .rw⟩, ⟨8, F.DK_CFG_OFF_MS, .rw⟩]⟩,
  ⟨0x184, 8, 2, 4, [⟨0, F.DK_FIRE_FIRE, .w1s⟩]⟩,
  ⟨0x1a0, 0, 1, 4, [⟨0, F.DK_STAT_ACTIVE, .ro⟩, ⟨2, F.DK_STAT_COOLING, .ro⟩, ⟨8, F.DK_STAT_REFUSED, .w1c⟩]⟩]

def hds : List RegRow := hdsA ++ hdsB

def hcu : List RegRow := [
  ⟨0x0, 0, 1, 4, [⟨0, F.HCU_BASIC_EN, .al⟩, ⟨1, F.HCU_BASIC_ERR, .al⟩]⟩,
  ⟨0x100, 0, 1, 4, [⟨0, F.HCU_CTRL_EN, .rw⟩, ⟨1, F.HCU_CTRL_PREHEAT, .rw⟩, ⟨2, F.HCU_CTRL_HIST_CLR, .w1s⟩, ⟨3, F.HCU_CTRL_EVT, .rw⟩]⟩,
  ⟨0x104, 0, 1, 4, [⟨5, F.HCU_IN_BASE_BASE, .rw⟩]⟩,
  ⟨0x108, 0, 1, 4, [⟨0, F.HCU_RING_DOTS, .rw⟩, ⟨16, F.HCU_RING_NLINES, .rw⟩]⟩,
  ⟨0x10c, 0, 1, 4, [⟨0, F.HCU_IN_WR_WR, .rw⟩]⟩,
  ⟨0x110, 0, 1, 4, [⟨0, F.HCU_IN_RD_RD, .ro⟩]⟩,
  ⟨0x114, 0, 1, 4, [⟨0, F.HCU_STAT_BUSY, .ro⟩, ⟨1, F.HCU_STAT_ERR, .w1c⟩, ⟨4, F.HCU_STAT_ECODE, .ro⟩, ⟨8, F.HCU_STAT_RESP, .ro⟩]⟩,
  ⟨0x118, 0, 1, 4, [⟨0, F.HCU_HIST_TMO_MS, .rw⟩]⟩,
  ⟨0x120, 4, 8, 4, [⟨0, F.HCU_ETAB_ENTRIES, .rw⟩]⟩,
  ⟨0x140, 0, 1, 4, [⟨0, F.HCU_LINES_COUNT, .tl⟩]⟩]

def tc : List RegRow := [
  ⟨0x0, 0, 1, 4, [⟨0, F.TC_BASIC_ACTIVE, .dv⟩, ⟨8, F.TC_BASIC_DFAULT, .al⟩]⟩,
  ⟨0x100, 0, 1, 4, [⟨0, F.TC_THREADS_ACTIVE, .dv⟩, ⟨8, F.TC_THREADS_WAITING, .dv⟩, ⟨16, F.TC_THREADS_HALTED, .dv⟩]⟩,
  ⟨0x104, 0, 1, 4, [⟨0, F.TC_DFAULT_THREADS, .w1c⟩]⟩,
  ⟨0x110, 4, 8, 4, [⟨0, F.TC_DF_FIRST, .ro⟩, ⟨8, F.TC_DF_SECOND, .ro⟩]⟩,
  ⟨0x130, 4, 8, 4, [⟨0, F.TC_DF_PC_PC, .ro⟩]⟩,
  ⟨0x160, 0, 1, 4, [⟨0, F.TC_ISSUED_COUNT, .tl⟩]⟩,
  ⟨0x164, 0, 1, 4, [⟨0, F.TC_BUBBLES_COUNT, .tl⟩]⟩,
  ⟨0x168, 0, 1, 4, [⟨0, F.TC_TALLY_SB_FULL, .tl⟩, ⟨16, F.TC_TALLY_NOTICE_LOST, .tl⟩]⟩,
  ⟨0x180, 4, 8, 4, [⟨3, F.STK_LIM_LIMIT, .rw⟩]⟩]

def sramc : List RegRow := []

def cc : List RegRow := [
  ⟨0x0, 0, 1, 4, [⟨0, F.CC_BASIC_IC_EN, .al⟩, ⟨1, F.CC_BASIC_RC_EN, .al⟩]⟩,
  ⟨0x100, 0, 1, 4, [⟨0, F.IC_CTRL_EN, .rw⟩]⟩,
  ⟨0x104, 0, 1, 4, [⟨0, F.RC_CTRL_EN, .rw⟩]⟩,
  ⟨0x108, 0, 1, 4, [⟨0, F.CC_INV_IC_ALL, .w1s⟩, ⟨1, F.CC_INV_RC_ALL, .w1s⟩, ⟨2, F.CC_INV_IC_RANGE, .w1s⟩, ⟨3, F.CC_INV_RC_RANGE, .w1s⟩, ⟨8, F.CC_INV_BUSY, .ro⟩]⟩,
  ⟨0x10c, 0, 1, 4, [⟨5, F.INV_BASE_BASE, .rw⟩]⟩,
  ⟨0x110, 0, 1, 4, [⟨5, F.INV_LAST_LAST, .rw⟩]⟩,
  ⟨0x120, 0, 1, 4, [⟨0, F.IC_HIT_COUNT, .tl⟩]⟩,
  ⟨0x124, 0, 1, 4, [⟨0, F.IC_MISS_COUNT, .tl⟩]⟩,
  ⟨0x128, 0, 1, 4, [⟨0, F.RC_HIT_COUNT, .tl⟩]⟩,
  ⟨0x12c, 0, 1, 4, [⟨0, F.RC_MISS_COUNT, .tl⟩]⟩,
  ⟨0x130, 0, 1, 4, [⟨0, F.PARITY_COUNT, .tl⟩]⟩]

def wd : List RegRow := [
  ⟨0x0, 0, 1, 4, [⟨0, F.WD_BASIC_KICK, .w1s⟩]⟩,
  ⟨0x100, 4, 8, 4, [⟨0, F.WD_PERIOD_PERIOD, .rw⟩]⟩,
  ⟨0x120, 0, 1, 4, [⟨0, F.WD_KICK_KICK, .w1s⟩]⟩,
  ⟨0x140, 4, 8, 4, [⟨0, F.WD_COUNT_COUNT, .ro⟩]⟩,
  ⟨0x160, 0, 1, 4, [⟨0, F.WD_STAT_EXPIRED, .w1c⟩]⟩]

def dspA : List RegRow := [
  ⟨0x0, 0, 1, 4, [⟨0, F.DSP_BASIC_STAT_READY, .dv⟩, ⟨16, F.DSP_BASIC_STAT_EN, .al⟩]⟩,
  ⟨0x8, 0, 1, 8, [⟨0, F.DSP_BASIC_POST_TASK, .tk⟩, ⟨48, F.DSP_BASIC_POST_TICKET, .tk⟩]⟩,
  ⟨0x100, 0, 1, 4, [⟨0, F.DSP_CTRL_EN, .rw⟩]⟩,
  ⟨0x104, 0, 1, 4, [⟨0, F.DSP_STATUS_READY, .dv⟩, ⟨16, F.DSP_STATUS_RUNNING, .dv⟩]⟩,
  ⟨0x108, 0, 1, 8, [⟨0, F.DSP_POST_TASK, .tk⟩, ⟨48, F.DSP_POST_TICKET, .tk⟩]⟩,
  ⟨0x110, 0, 1, 4, [⟨0, F.DSP_LOADCFG_N, .rw⟩]⟩,
  ⟨0x120, 4, 5, 4, [⟨0, F.DSP_QDEPTH_CUR, .dv⟩, ⟨16, F.DSP_QDEPTH_MAX, .tl⟩]⟩,
  ⟨0x140, 4, 5, 4, [⟨0, F.DSP_LOAD_ISSUE, .tl⟩, ⟨16, F.DSP_LOAD_BUSY, .tl⟩]⟩,
  ⟨0x160, 0, 1, 4, [⟨0, F.DSP_PREEMPTS_COUNT, .tl⟩]⟩,
  ⟨0x164, 0, 1, 4, [⟨0, F.DSP_SIGNALS_COUNT, .tl⟩]⟩,
  ⟨0x168, 0, 1, 4, [⟨0, F.DSP_DUPS_COUNT, .tl⟩]⟩,
  ⟨0x16c, 0, 1, 4, [⟨0, F.DSP_COALESCE_COUNT, .tl⟩]⟩,
  ⟨0x170, 0, 1, 4, [⟨0, F.DSP_DROPPED_COUNT, .tl⟩]⟩,
  ⟨0x180, 0, 1, 4, [⟨0, F.DSP_ERR_TASK, .ro⟩, ⟨8, F.DSP_ERR_CODE, .ro⟩, ⟨12, F.DSP_ERR_NEW, .w1c⟩]⟩,
  ⟨0x190, 0, 1, 4, [⟨3, F.TRC_BASE_BASE, .rw⟩]⟩,
  ⟨0x194, 0, 1, 4, [⟨0, F.TRC_LEN_LEN, .rw⟩]⟩,
  ⟨0x198, 0, 1, 4, [⟨0, F.TRC_WR_WR, .ro⟩]⟩,
  ⟨0x19c, 0, 1, 4, [⟨0, F.TRC_RD_RD, .rw⟩]⟩,
  ⟨0x1a0, 0, 1, 4, [⟨0, F.TRC_CFG_EN, .rw⟩, ⟨4, F.TRC_CFG_KINDS, .rw⟩]⟩,
  ⟨0x1a4, 0, 1, 4, [⟨0, F.TRC_LOST_COUNT, .tl⟩]⟩]

def dspB : List RegRow := [
  ⟨0x1b0, 0, 1, 4, [⟨0, F.DSP_RECOVER_TASK, .wo⟩]⟩,
  ⟨0x200, 4, 8, 4, [⟨0, F.DSP_TASKEN_EN, .rw⟩]⟩,
  ⟨0x1000, 32, 256, 4, [⟨0, F.TASK_W0_PRIO, .pl⟩, ⟨5, F.TASK_W0_PREEMPT, .pl⟩, ⟨6, F.TASK_W0_EN, .pl⟩, ⟨7, F.TASK_W0_USER, .pl⟩, ⟨8, F.TASK_W0_AFF, .pl⟩, ⟨13, F.TASK_W0_RERUN, .pl⟩]⟩,
  ⟨0x1004, 32, 256, 4, [⟨2, F.TASK_W1_ENTRY, .pl⟩]⟩,
  ⟨0x1008, 32, 256, 4, [⟨0, F.TASK_W2_SP, .pl⟩]⟩,
  ⟨0x100c, 32, 256, 4, [⟨0, F.TASK_W3_ARG, .pl⟩]⟩,
  ⟨0x1010, 32, 256, 4, [⟨0, F.TASK_W4_TRMASK, .pl⟩]⟩,
  ⟨0x1014, 32, 256, 4, [⟨3, F.TASK_W5_STK_LIM, .pl⟩]⟩,
  ⟨0x1018, 32, 256, 4, [⟨0, F.TASK_W6_WAIT_LIM, .pl⟩]⟩,
  ⟨0x101c, 32, 256, 4, []⟩,
  ⟨0x3000, 4, 256, 4, [⟨0, F.DSP_TSTAT_STATE, .ro⟩, ⟨3, F.DSP_TSTAT_PENDING, .ro⟩, ⟨4, F.DSP_TSTAT_SAVED, .ro⟩, ⟨5, F.DSP_TSTAT_SIGNALLED, .ro⟩, ⟨8, F.DSP_TSTAT_THREAD, .ro⟩]⟩,
  ⟨0x4000, 8, 256, 4, [⟨0, F.WAIT_LAST_WAIT, .tl⟩]⟩,
  ⟨0x4004, 8, 256, 4, [⟨0, F.WAIT_MAX_WAIT, .tl⟩]⟩,
  ⟨0x5000, 4, 256, 4, [⟨0, F.BIND_TASK, .pl⟩, ⟨8, F.BIND_EN, .pl⟩]⟩]

def dsp : List RegRow := dspA ++ dspB

def mpu : List RegRow := [
  ⟨0x0, 0, 1, 4, [⟨0, F.MPU_BASIC_DEF_EN, .al⟩, ⟨1, F.MPU_BASIC_LOCK, .al⟩]⟩,
  ⟨0x100, 0, 1, 4, [⟨0, F.MPU_CTRL_DEF_EN, .rw⟩, ⟨1, F.MPU_CTRL_LOCK, .w1s⟩]⟩,
  ⟨0x104, 0, 1, 4, [⟨0, F.MPU_FAULTS_COUNT, .tl⟩]⟩,
  ⟨0x200, 16, 16, 4, [⟨5, F.MPU_START_START, .rw⟩]⟩,
  ⟨0x204, 16, 16, 4, [⟨5, F.MPU_END_END, .rw⟩]⟩,
  ⟨0x208, 16, 16, 4, [⟨0, F.MPU_ATTR_RIGHTS, .rw⟩, ⟨8, F.MPU_ATTR_EN, .rw⟩]⟩]

def fw : List RegRow := [
  ⟨0x0, 0, 1, 4, [⟨0, F.FW_BASIC_COUNT, .dv⟩, ⟨16, F.FW_BASIC_NEW, .al⟩]⟩,
  ⟨0x100, 32, 8, 4, [⟨5, F.FW_BASE_BASE, .pl⟩]⟩,
  ⟨0x104, 32, 8, 4, [⟨0, F.FW_LAST_LAST, .pl⟩]⟩,
  ⟨0x108, 32, 8, 8, [⟨0, F.FW_RD_MASK, .pl⟩]⟩,
  ⟨0x110, 32, 8, 8, [⟨0, F.FW_WR_MASK, .pl⟩]⟩,
  ⟨0x200, 0, 1, 4, [⟨0, F.FW_RANGE_BASE_BASE, .dv⟩]⟩,
  ⟨0x204, 0, 1, 4, [⟨0, F.FW_RANGE_LAST_LAST, .dv⟩]⟩,
  ⟨0x208, 0, 1, 4, [⟨0, F.FW_VALID_VALID, .pl⟩]⟩,
  ⟨0x210, 0, 1, 4, [⟨0, F.FW_STAT_MID, .ro⟩, ⟨8, F.FW_STAT_WRITE, .ro⟩, ⟨9, F.FW_STAT_NEW, .w1c⟩]⟩,
  ⟨0x214, 0, 1, 4, [⟨0, F.FW_DENY_ADDR_ADDR, .ro⟩]⟩,
  ⟨0x218, 0, 1, 4, [⟨0, F.FW_DENY_COUNT_COUNT, .tl⟩]⟩]

def sp : List RegRow := [
  ⟨0x0, 0, 1, 4, [⟨0, F.SP_BASIC_MODE, .dv⟩, ⟨8, F.SP_BASIC_MISMATCH, .al⟩, ⟨9, F.SP_BASIC_EXCURSION, .al⟩]⟩,
  ⟨0x4, 0, 1, 4, [⟨0, F.SP_BASIC_HINGE_SPLIT, .w1s⟩, ⟨1, F.SP_BASIC_HINGE_REJOIN, .w1s⟩]⟩,
  ⟨0x200, 0, 1, 4, [⟨0, F.SP_CFG_WINDOW, .pl⟩, ⟨24, F.SP_CFG_REACT, .pl⟩]⟩,
  ⟨0x204, 0, 1, 4, [⟨0, F.SP_DIVCFG_DIV_LIM, .pl⟩, ⟨16, F.SP_DIVCFG_RATE_MS, .pl⟩]⟩,
  ⟨0x208, 0, 1, 4, [⟨0, F.SP_CTRL_DEGRADE, .w1s⟩, ⟨1, F.SP_CTRL_INJ_C, .w1s⟩, ⟨2, F.SP_CTRL_INJ_I, .w1s⟩]⟩,
  ⟨0x20c, 0, 1, 4, [⟨0, F.SP_HINGE_SPLIT, .w1s⟩, ⟨1, F.SP_HINGE_REJOIN, .w1s⟩]⟩,
  ⟨0x210, 0, 1, 4, [⟨0, F.SP_STAT_MODE, .ro⟩, ⟨2, F.SP_STAT_RESEEDING, .ro⟩, ⟨8, F.SP_STAT_HCODE, .ro⟩, ⟨12, F.SP_STAT_LAST, .ro⟩]⟩,
  ⟨0x214, 0, 1, 4, [⟨0, F.SP_EVT_MISMATCH, .w1c⟩, ⟨1, F.SP_EVT_EXCURSION, .w1c⟩, ⟨2, F.SP_EVT_HINGE_DONE, .w1c⟩, ⟨3, F.SP_EVT_HINGE_REF, .w1c⟩, ⟨4, F.SP_EVT_DEGRADED, .w1c⟩]⟩,
  ⟨0x218, 0, 1, 4, [⟨0, F.SP_SIG_CM_SIG, .ro⟩]⟩,
  ⟨0x21c, 0, 1, 4, [⟨0, F.SP_SIG_CC_SIG, .ro⟩]⟩,
  ⟨0x220, 0, 1, 4, [⟨0, F.SP_SIG_IM_SIG, .ro⟩]⟩,
  ⟨0x224, 0, 1, 4, [⟨0, F.SP_SIG_IC_SIG, .ro⟩]⟩,
  ⟨0x230, 0, 1, 4, [⟨0, F.SP_WINDOWS_COUNT, .tl⟩]⟩,
  ⟨0x234, 0, 1, 4, [⟨0, F.SP_TALLY0_DIVERGE, .tl⟩, ⟨16, F.SP_TALLY0_MISMATCH, .tl⟩]⟩,
  ⟨0x238, 0, 1, 4, [⟨0, F.SP_TALLY1_EXCURSIONS, .tl⟩, ⟨16, F.SP_TALLY1_HINGES, .tl⟩]⟩,
  ⟨0x23c, 0, 1, 4, [⟨0, F.SP_RATE_COUNT, .ro⟩]⟩,
  ⟨0x240, 0, 1, 4, [⟨0, F.SP_SENSE_SENSE, .dv⟩]⟩,
  ⟨0x244, 0, 1, 4, [⟨0, F.SP_REPLAY_COUNT, .dv⟩, ⟨8, F.SP_REPLAY_FULL, .dv⟩]⟩]

def dma : List RegRow := [
  ⟨0x0, 0, 1, 4, [⟨0, F.DMA_BASIC_HALTED, .dv⟩]⟩,
  ⟨0x100, 4, 32, 4, [⟨0, F.DMA_MID_MID, .rw⟩]⟩,
  ⟨0x180, 0, 1, 4, [⟨0, F.DMA_CTRL_MID_LOCK, .w1s⟩]⟩,
  ⟨0x184, 0, 1, 4, [⟨0, F.DMA_HALTED_HALTED, .ro⟩]⟩]

def dmg : List RegRow := [
  ⟨0x0, 4, 8, 4, [⟨0, F.DMG_BASIC_EN, .al⟩, ⟨1, F.DMG_BASIC_STATE, .dv⟩]⟩,
  ⟨0x100, 256, 8, 4, [⟨0, F.DC_CFG_EN, .rw⟩, ⟨1, F.DC_CFG_PRIO, .rw⟩, ⟨8, F.DC_CFG_REQ_SRC, .rw⟩]⟩,
  ⟨0x104, 256, 8, 4, [⟨5, F.DC_NEXT_NEXT, .rw⟩]⟩,
  ⟨0x108, 256, 8, 8, [⟨0, F.DC_DOORBELL_RING, .tk⟩, ⟨48, F.DC_DOORBELL_TICKET, .tk⟩]⟩,
  ⟨0x110, 256, 8, 4, [⟨0, F.DC_CTRL_STOP, .w1s⟩, ⟨1, F.DC_CTRL_CLEAR, .w1s⟩]⟩,
  ⟨0x114, 256, 8, 4, [⟨0, F.DC_STAT_STATE, .ro⟩, ⟨3, F.DC_STAT_RESCAN, .ro⟩, ⟨4, F.DC_STAT_STATUS, .ro⟩]⟩,
  ⟨0x118, 256, 8, 4, [⟨5, F.DC_CUR_CUR, .ro⟩]⟩,
  ⟨0x11c, 256, 8, 4, [⟨0, F.DC_DONE_BYTES, .ro⟩]⟩,
  ⟨0x120, 256, 8, 4, [⟨0, F.DC_ERR_ADDR_ADDR, .ro⟩]⟩,
  ⟨0x124, 256, 8, 4, [⟨0, F.DC_ERR_RESP, .ro⟩, ⟨4, F.DC_ERR_DIR, .ro⟩, ⟨5, F.DC_ERR_PHASE, .ro⟩]⟩,
  ⟨0x128, 256, 8, 4, [⟨4, F.DC_RING_BASE_BASE, .rw⟩]⟩,
  ⟨0x12c, 256, 8, 4, [⟨0, F.DC_RING_LEN_LEN, .rw⟩]⟩,
  ⟨0x130, 256, 8, 4, [⟨0, F.DC_RING_WR_WR, .ro⟩]⟩,
  ⟨0x134, 256, 8, 4, [⟨0, F.DC_RING_RD_RD, .rw⟩]⟩,
  ⟨0x138, 256, 8, 4, [⟨0, F.DC_TALLY_DESCS, .tl⟩, ⟨16, F.DC_TALLY_DUP, .tl⟩]⟩,
  ⟨0x13c, 256, 8, 4, [⟨0, F.DC_TALLY1_RING_STALL, .tl⟩]⟩]

def cx : List RegRow := [
  ⟨0x0, 0, 1, 4, [⟨0, F.CV_BASIC_BUSY, .dv⟩, ⟨16, F.CV_BASIC_MISMATCH, .dv⟩]⟩,
  ⟨0x100, 64, 16, 4, [⟨0, F.CX_CFG_WIDTH, .rw⟩, ⟨6, F.CX_CFG_REFIN, .rw⟩, ⟨7, F.CX_CFG_REFOUT, .rw⟩, ⟨8, F.CX_CFG_MODE, .rw⟩, ⟨16, F.CX_CFG_PORT, .rw⟩, ⟨20, F.CX_CFG_ORDER, .rw⟩, ⟨21, F.CX_CFG_EVT, .rw⟩]⟩,
  ⟨0x104, 64, 16, 4, [⟨0, F.CX_STAT_BUSY, .ro⟩, ⟨1, F.CX_STAT_DONE, .w1c⟩, ⟨2, F.CX_STAT_MATCH, .ro⟩, ⟨3, F.CX_STAT_MISMATCH, .w1c⟩, ⟨4, F.CX_STAT_ERR, .w1c⟩, ⟨5, F.CX_STAT_RESP, .ro⟩, ⟨8, F.CX_STAT_FRAME, .ro⟩]⟩,
  ⟨0x108, 64, 16, 4, [⟨0, F.CX_CMD_START, .w1s⟩, ⟨1, F.CX_CMD_FINISH, .w1s⟩]⟩,
  ⟨0x10c, 64, 16, 4, [⟨0, F.CX_PRESET_CODE, .wo⟩]⟩,
  ⟨0x110, 64, 16, 8, [⟨0, F.CX_POLY_POLY, .rw⟩]⟩,
  ⟨0x118, 64, 16, 8, [⟨0, F.CX_INIT_INIT, .rw⟩]⟩,
  ⟨0x120, 64, 16, 8, [⟨0, F.CX_XOROUT_XOROUT, .rw⟩]⟩,
  ⟨0x128, 64, 16, 8, [⟨0, F.CX_VALUE_S, .rw⟩]⟩,
  ⟨0x130, 64, 16, 8, [⟨0, F.CX_RESULT_RESULT, .ro⟩]⟩,
  ⟨0x138, 64, 16, 8, [⟨0, F.CX_EXPECT_EXPECT, .rw⟩]⟩,
  ⟨0x500, 16, 16, 4, [⟨5, F.CX_SCRUB_BASE_BASE, .rw⟩]⟩,
  ⟨0x504, 16, 16, 4, [⟨5, F.CX_SCRUB_LEN_LEN, .rw⟩]⟩,
  ⟨0x508, 16, 16, 4, [⟨0, F.CX_SCRUB_PERIOD_MS, .rw⟩]⟩,
  ⟨0x50c, 16, 16, 4, [⟨0, F.CX_TALLY_MISMATCHES, .tl⟩, ⟨16, F.CX_TALLY_RUNT, .tl⟩, ⟨24, F.CX_TALLY_SCRUB_LATE, .tl⟩]⟩]

def cr : List RegRow := [
  ⟨0x0, 0, 1, 4, [⟨0, F.CR_BASIC_BUSY, .dv⟩, ⟨4, F.CR_BASIC_RESULT, .dv⟩]⟩,
  ⟨0x100, 0, 1, 4, [⟨0, F.CR_CMD_OP, .wo⟩, ⟨4, F.CR_CMD_KIND, .wo⟩]⟩,
  ⟨0x104, 0, 1, 4, [⟨0, F.CR_SRC_SRC, .rw⟩]⟩,
  ⟨0x108, 0, 1, 4, [⟨0, F.CR_LEN_LEN, .rw⟩]⟩,
  ⟨0x10c, 0, 1, 4, [⟨0, F.CR_STAT_BUSY, .ro⟩, ⟨4, F.CR_STAT_RESULT, .ro⟩, ⟨8, F.CR_STAT_PARTIAL, .ro⟩, ⟨9, F.CR_STAT_REFUSED, .w1c⟩, ⟨10, F.CR_STAT_RESP, .ro⟩, ⟨16, F.CR_STAT_EPOCH_NEW, .ro⟩]⟩,
  ⟨0x120, 4, 8, 4, [⟨0, F.CR_DIGEST_WORD, .rw⟩]⟩,
  ⟨0x140, 4, 16, 4, [⟨0, F.CR_SIG_WORD, .rw⟩]⟩,
  ⟨0x180, 0, 1, 4, [⟨0, F.CR_KEYSLOT_DESC, .rw⟩]⟩,
  ⟨0x184, 0, 1, 4, [⟨0, F.CR_ROOT_REVOKED, .dv⟩, ⟨8, F.CR_ROOT_EPOCH0, .dv⟩, ⟨16, F.CR_ROOT_EPOCH1, .dv⟩]⟩]

def usb : List RegRow := [
  ⟨0x0, 0, 1, 4, [⟨0, F.PT_BASIC_EN, .al⟩, ⟨16, F.PT_BASIC_RX_LEVEL, .dv⟩]⟩,
  ⟨0x100, 0, 1, 4, [⟨0, F.PT_CTRL_EN, .rw⟩, ⟨1, F.PT_CTRL_RX_EN, .rw⟩, ⟨2, F.PT_CTRL_TX_EN, .rw⟩, ⟨8, F.PT_CTRL_DMA_RX, .rw⟩, ⟨9, F.PT_CTRL_DMA_TX, .rw⟩, ⟨16, F.PT_CTRL_EVT_RX, .rw⟩, ⟨17, F.PT_CTRL_EVT_TX, .rw⟩, ⟨18, F.PT_CTRL_EVT_ERR, .rw⟩]⟩,
  ⟨0x104, 0, 1, 4, [⟨0, F.PT_STAT_RX_LEVEL, .dv⟩, ⟨16, F.PT_STAT_TX_FREE, .dv⟩]⟩,
  ⟨0x108, 0, 1, 4, [⟨0, F.PT_THR_RX_THR, .rw⟩, ⟨16, F.PT_THR_TX_THR, .rw⟩]⟩,
  ⟨0x110, 0, 1, 8, [⟨0, F.PT_TX_PUSH_DATA, .tk⟩, ⟨32, F.PT_TX_PUSH_N, .tk⟩, ⟨35, F.PT_TX_PUSH_EP, .tk⟩, ⟨48, F.PT_TX_PUSH_TICKET, .tk⟩]⟩,
  ⟨0x118, 0, 1, 4, [⟨0, F.PT_TX_STREAM_DATA, .wo⟩]⟩,
  ⟨0x11c, 0, 1, 4, [⟨0, F.PT_RX_POP_DATA, .dv⟩]⟩,
  ⟨0x120, 0, 1, 4, [⟨0, F.PT_TALLY_TX_FULL, .tl⟩, ⟨16, F.PT_TALLY_OVR, .tl⟩]⟩,
  ⟨0x140, 0, 1, 4, [⟨0, F.USB_CTRL_CONNECT, .rw⟩, ⟨1, F.USB_CTRL_HS_EN, .rw⟩, ⟨2, F.USB_CTRL_RWAKE, .w1s⟩]⟩,
  ⟨0x144, 0, 1, 4, [⟨0, F.USB_STAT_VBUS, .ro⟩, ⟨1, F.USB_STAT_HS, .ro⟩, ⟨2, F.USB_STAT_SUSPENDED, .ro⟩, ⟨3, F.USB_STAT_BUS_RESET, .w1c⟩]⟩,
  ⟨0x148, 0, 1, 4, [⟨0, F.USB_ADDR_ADDR, .rw⟩]⟩,
  ⟨0x154, 4, 7, 4, [⟨0, F.USB_EPCFG_EN, .rw⟩, ⟨1, F.USB_EPCFG_IN, .rw⟩, ⟨2, F.USB_EPCFG_INTR, .rw⟩, ⟨3, F.USB_EPCFG_DOUBLE, .rw⟩, ⟨4, F.USB_EPCFG_BASE, .rw⟩, ⟨16, F.USB_EPCFG_MAXPKT, .rw⟩]⟩,
  ⟨0x170, 4, 8, 4, [⟨0, F.USB_EPSTAT_FULL, .dv⟩, ⟨2, F.USB_EPSTAT_STALL, .rw⟩, ⟨3, F.USB_EPSTAT_TOGGLE, .ro⟩, ⟨16, F.USB_EPSTAT_NAKS, .tl⟩]⟩,
  ⟨0x190, 0, 1, 4, [⟨0, F.USB_DMASEL_SEL0, .rw⟩, ⟨4, F.USB_DMASEL_SEL1, .rw⟩, ⟨8, F.USB_DMASEL_SEL2, .rw⟩, ⟨12, F.USB_DMASEL_SEL3, .rw⟩]⟩,
  ⟨0x194, 0, 1, 4, [⟨0, F.USB_TALLY_TOGGLE_DUP, .tl⟩]⟩,
  ⟨0x1c0, 4, 8, 4, [⟨0, F.USB_STREAM_DATA, .wo⟩]⟩,
  ⟨0x1e0, 4, 8, 4, [⟨0, F.USB_POP_DATA, .dv⟩]⟩]

def eth : List RegRow := [
  ⟨0x0, 0, 1, 4, [⟨0, F.PT_BASIC_EN, .al⟩, ⟨16, F.PT_BASIC_RX_LEVEL, .dv⟩]⟩,
  ⟨0x100, 0, 1, 4, [⟨0, F.PT_CTRL_EN, .rw⟩, ⟨1, F.PT_CTRL_RX_EN, .rw⟩, ⟨2, F.PT_CTRL_TX_EN, .rw⟩, ⟨8, F.PT_CTRL_DMA_RX, .rw⟩, ⟨9, F.PT_CTRL_DMA_TX, .rw⟩, ⟨16, F.PT_CTRL_EVT_RX, .rw⟩, ⟨17, F.PT_CTRL_EVT_TX, .rw⟩, ⟨18, F.PT_CTRL_EVT_ERR, .rw⟩]⟩,
  ⟨0x104, 0, 1, 4, [⟨0, F.PT_STAT_RX_LEVEL, .dv⟩, ⟨16, F.PT_STAT_TX_FREE, .dv⟩]⟩,
  ⟨0x108, 0, 1, 4, [⟨0, F.PT_THR_RX_THR, .rw⟩, ⟨16, F.PT_THR_TX_THR, .rw⟩]⟩,
  ⟨0x110, 0, 1, 8, [⟨0, F.PT_TX_PUSH_DATA, .tk⟩, ⟨32, F.PT_TX_PUSH_N, .tk⟩, ⟨35, F.PT_TX_PUSH_EP, .tk⟩, ⟨48, F.PT_TX_PUSH_TICKET, .tk⟩]⟩,
  ⟨0x118, 0, 1, 4, [⟨0, F.PT_TX_STREAM_DATA, .wo⟩]⟩,
  ⟨0x11c, 0, 1, 4, [⟨0, F.PT_RX_POP_DATA, .dv⟩]⟩,
  ⟨0x120, 0, 1, 4, [⟨0, F.PT_TALLY_TX_FULL, .tl⟩, ⟨16, F.PT_TALLY_OVR, .tl⟩]⟩,
  ⟨0x140, 0, 1, 4, [⟨0, F.ETH_CTRL_FULL_DUPLEX, .rw⟩, ⟨1, F.ETH_CTRL_SPEED100, .rw⟩, ⟨2, F.ETH_CTRL_PROMISC, .rw⟩, ⟨3, F.ETH_CTRL_BCAST_EN, .rw⟩, ⟨4, F.ETH_CTRL_PAUSE_TX_EN, .rw⟩, ⟨5, F.ETH_CTRL_PAUSE_RX_EN, .rw⟩]⟩,
  ⟨0x144, 0, 1, 4, [⟨0, F.ETH_MAC_LO_MAC, .rw⟩]⟩,
  ⟨0x148, 0, 1, 4, [⟨0, F.ETH_MAC_HI_MAC, .rw⟩]⟩,
  ⟨0x14c, 0, 1, 4, [⟨0, F.ETH_HASH_LO_BINS, .rw⟩]⟩,
  ⟨0x150, 0, 1, 4, [⟨0, F.ETH_HASH_HI_BINS, .rw⟩]⟩,
  ⟨0x154, 0, 1, 4, [⟨0, F.ETH_PAUSE_PAUSE_TIME, .rw⟩]⟩,
  ⟨0x158, 0, 1, 4, [⟨0, F.ETH_FLOW_XOFF_LEVEL, .rw⟩, ⟨16, F.ETH_FLOW_XON_LEVEL, .rw⟩]⟩,
  ⟨0x160, 0, 1, 4, [⟨0, F.ETH_MDIO_CMD_REG, .wo⟩, ⟨5, F.ETH_MDIO_CMD_PHY, .wo⟩, ⟨10, F.ETH_MDIO_CMD_WRITE, .wo⟩, ⟨16, F.ETH_MDIO_CMD_DATA, .wo⟩]⟩,
  ⟨0x164, 0, 1, 4, [⟨0, F.ETH_MDIO_DATA_DATA, .ro⟩, ⟨16, F.ETH_MDIO_DATA_BUSY, .ro⟩, ⟨17, F.ETH_MDIO_DATA_MDIO_OVR, .w1c⟩]⟩,
  ⟨0x170, 0, 1, 4, [⟨0, F.ETH_TALLY0_RX_DROP, .tl⟩, ⟨16, F.ETH_TALLY0_FCS_ERR, .tl⟩]⟩,
  ⟨0x174, 0, 1, 4, [⟨0, F.ETH_TALLY1_PAUSE_SENT, .tl⟩, ⟨16, F.ETH_TALLY1_PAUSE_RCVD, .tl⟩]⟩,
  ⟨0x178, 0, 1, 4, [⟨0, F.ETH_TALLY2_TX_BAD, .tl⟩, ⟨16, F.ETH_TALLY2_EXCESS, .tl⟩, ⟨24, F.ETH_TALLY2_SIZE_ERR, .tl⟩]⟩]

def uart : List RegRow := [
  ⟨0x0, 0, 1, 4, [⟨0, F.PT_BASIC_EN, .al⟩, ⟨16, F.PT_BASIC_RX_LEVEL, .dv⟩]⟩,
  ⟨0x100, 0, 1, 4, [⟨0, F.PT_CTRL_EN, .rw⟩, ⟨1, F.PT_CTRL_RX_EN, .rw⟩, ⟨2, F.PT_CTRL_TX_EN, .rw⟩, ⟨8, F.PT_CTRL_DMA_RX, .rw⟩, ⟨9, F.PT_CTRL_DMA_TX, .rw⟩, ⟨16, F.PT_CTRL_EVT_RX, .rw⟩, ⟨17, F.PT_CTRL_EVT_TX, .rw⟩, ⟨18, F.PT_CTRL_EVT_ERR, .rw⟩]⟩,
  ⟨0x104, 0, 1, 4, [⟨0, F.PT_STAT_RX_LEVEL, .dv⟩, ⟨16, F.PT_STAT_TX_FREE, .dv⟩]⟩,
  ⟨0x108, 0, 1, 4, [⟨0, F.PT_THR_RX_THR, .rw⟩, ⟨16, F.PT_THR_TX_THR, .rw⟩]⟩,
  ⟨0x110, 0, 1, 8, [⟨0, F.PT_TX_PUSH_DATA, .tk⟩, ⟨32, F.PT_TX_PUSH_N, .tk⟩, ⟨35, F.PT_TX_PUSH_EP, .tk⟩, ⟨48, F.PT_TX_PUSH_TICKET, .tk⟩]⟩,
  ⟨0x118, 0, 1, 4, [⟨0, F.PT_TX_STREAM_DATA, .wo⟩]⟩,
  ⟨0x11c, 0, 1, 4, [⟨0, F.PT_RX_POP_DATA, .dv⟩]⟩,
  ⟨0x120, 0, 1, 4, [⟨0, F.PT_TALLY_TX_FULL, .tl⟩, ⟨16, F.PT_TALLY_OVR, .tl⟩]⟩,
  ⟨0x140, 0, 1, 4, [⟨0, F.UART_BAUD_DIVI, .rw⟩, ⟨16, F.UART_BAUD_DIVF, .rw⟩]⟩,
  ⟨0x144, 0, 1, 4, [⟨0, F.UART_FMT_BITS7, .rw⟩, ⟨1, F.UART_FMT_PARITY, .rw⟩, ⟨3, F.UART_FMT_STOP2, .rw⟩]⟩,
  ⟨0x148, 0, 1, 4, [⟨0, F.UART_FC_HWFC, .rw⟩, ⟨1, F.UART_FC_SWFC_TX, .rw⟩, ⟨2, F.UART_FC_SWFC_RX, .rw⟩, ⟨8, F.UART_FC_RTS_FREE, .rw⟩, ⟨16, F.UART_FC_XOFF_FREE, .rw⟩]⟩,
  ⟨0x14c, 0, 1, 4, [⟨0, F.UART_STAT_CTS, .ro⟩, ⟨1, F.UART_STAT_RTS, .ro⟩, ⟨2, F.UART_STAT_XOFF_RX, .ro⟩, ⟨3, F.UART_STAT_XOFF_SENT, .ro⟩, ⟨8, F.UART_STAT_OVR, .w1c⟩, ⟨9, F.UART_STAT_FRAMING, .w1c⟩, ⟨10, F.UART_STAT_PARITY, .w1c⟩, ⟨11, F.UART_STAT_BREAK, .w1c⟩]⟩]

def mod : List RegRow := [
  ⟨0x0, 0, 1, 4, [⟨0, F.PT_BASIC_EN, .al⟩, ⟨16, F.PT_BASIC_RX_LEVEL, .dv⟩]⟩,
  ⟨0x100, 0, 1, 4, [⟨0, F.PT_CTRL_EN, .rw⟩, ⟨1, F.PT_CTRL_RX_EN, .rw⟩, ⟨2, F.PT_CTRL_TX_EN, .rw⟩, ⟨8, F.PT_CTRL_DMA_RX, .rw⟩, ⟨9, F.PT_CTRL_DMA_TX, .rw⟩, ⟨16, F.PT_CTRL_EVT_RX, .rw⟩, ⟨17, F.PT_CTRL_EVT_TX, .rw⟩, ⟨18, F.PT_CTRL_EVT_ERR, .rw⟩]⟩,
  ⟨0x104, 0, 1, 4, [⟨0, F.PT_STAT_RX_LEVEL, .dv⟩, ⟨16, F.PT_STAT_TX_FREE, .dv⟩]⟩,
  ⟨0x108, 0, 1, 4, [⟨0, F.PT_THR_RX_THR, .rw⟩, ⟨16, F.PT_THR_TX_THR, .rw⟩]⟩,
  ⟨0x110, 0, 1, 8, [⟨0, F.PT_TX_PUSH_DATA, .tk⟩, ⟨32, F.PT_TX_PUSH_N, .tk⟩, ⟨35, F.PT_TX_PUSH_EP, .tk⟩, ⟨48, F.PT_TX_PUSH_TICKET, .tk⟩]⟩,
  ⟨0x118, 0, 1, 4, [⟨0, F.PT_TX_STREAM_DATA, .wo⟩]⟩,
  ⟨0x11c, 0, 1, 4, [⟨0, F.PT_RX_POP_DATA, .dv⟩]⟩,
  ⟨0x120, 0, 1, 4, [⟨0, F.PT_TALLY_TX_FULL, .tl⟩, ⟨16, F.PT_TALLY_OVR, .tl⟩]⟩,
  ⟨0x140, 0, 1, 4, [⟨0, F.MOD_CFG_MODE, .rw⟩, ⟨2, F.MOD_CFG_DIV, .rw⟩, ⟨10, F.MOD_CFG_LSB_FIRST, .rw⟩, ⟨16, F.MOD_CFG_BURST, .rw⟩]⟩,
  ⟨0x144, 0, 1, 4, [⟨0, F.MOD_STAT_BUSY, .ro⟩, ⟨1, F.MOD_STAT_RDY, .dv⟩, ⟨2, F.MOD_STAT_IRQ, .dv⟩, ⟨8, F.MOD_STAT_RDY_TMO, .w1c⟩, ⟨9, F.MOD_STAT_CHECK, .w1c⟩]⟩,
  ⟨0x148, 0, 1, 4, [⟨0, F.MOD_RDY_TMO_US, .rw⟩]⟩]

def sl : List RegRow := [
  ⟨0x0, 0, 1, 4, [⟨0, F.PT_BASIC_EN, .al⟩, ⟨16, F.PT_BASIC_RX_LEVEL, .dv⟩]⟩,
  ⟨0x100, 0, 1, 4, [⟨0, F.PT_CTRL_EN, .rw⟩, ⟨1, F.PT_CTRL_RX_EN, .rw⟩, ⟨2, F.PT_CTRL_TX_EN, .rw⟩, ⟨8, F.PT_CTRL_DMA_RX, .rw⟩, ⟨9, F.PT_CTRL_DMA_TX, .rw⟩, ⟨16, F.PT_CTRL_EVT_RX, .rw⟩, ⟨17, F.PT_CTRL_EVT_TX, .rw⟩, ⟨18, F.PT_CTRL_EVT_ERR, .rw⟩]⟩,
  ⟨0x104, 0, 1, 4, [⟨0, F.PT_STAT_RX_LEVEL, .dv⟩, ⟨16, F.PT_STAT_TX_FREE, .dv⟩]⟩,
  ⟨0x108, 0, 1, 4, [⟨0, F.PT_THR_RX_THR, .rw⟩, ⟨16, F.PT_THR_TX_THR, .rw⟩]⟩,
  ⟨0x110, 0, 1, 8, [⟨0, F.PT_TX_PUSH_DATA, .tk⟩, ⟨32, F.PT_TX_PUSH_N, .tk⟩, ⟨35, F.PT_TX_PUSH_EP, .tk⟩, ⟨48, F.PT_TX_PUSH_TICKET, .tk⟩]⟩,
  ⟨0x118, 0, 1, 4, [⟨0, F.PT_TX_STREAM_DATA, .wo⟩]⟩,
  ⟨0x11c, 0, 1, 4, [⟨0, F.PT_RX_POP_DATA, .dv⟩]⟩,
  ⟨0x120, 0, 1, 4, [⟨0, F.PT_TALLY_TX_FULL, .tl⟩, ⟨16, F.PT_TALLY_OVR, .tl⟩]⟩,
  ⟨0x140, 0, 1, 4, [⟨0, F.SL_STAT_STATE, .ro⟩, ⟨8, F.SL_STAT_TX_CREDITS, .ro⟩, ⟨12, F.SL_STAT_CRET_PEND, .ro⟩, ⟨16, F.SL_STAT_PEER_RST, .w1c⟩, ⟨17, F.SL_STAT_NOCRC, .dv⟩]⟩,
  ⟨0x144, 0, 1, 4, [⟨0, F.SL_SEQ_TX_SEQ, .ro⟩, ⟨8, F.SL_SEQ_RX_SEQ, .ro⟩]⟩,
  ⟨0x148, 0, 1, 4, [⟨0, F.SL_TALLY0_CRC_ERR, .tl⟩, ⟨16, F.SL_TALLY0_SEQ_GAP, .tl⟩]⟩,
  ⟨0x14c, 0, 1, 4, [⟨0, F.SL_TALLY1_RX_OVR, .tl⟩, ⟨16, F.SL_TALLY1_HDR_ERR, .tl⟩, ⟨24, F.SL_TALLY1_CREDIT_ERR, .tl⟩]⟩]

def nvm : List RegRow := [
  ⟨0x0, 0, 1, 4, [⟨0, F.NVM_BASIC_CORR, .dv⟩, ⟨16, F.NVM_BASIC_UNC, .dv⟩]⟩,
  ⟨0x100, 0, 1, 4, [⟨0, F.NVM_STAT_ARRAY_BUSY, .ro⟩, ⟨8, F.NVM_STAT_TALLY_SAVING, .ro⟩]⟩,
  ⟨0x104, 0, 1, 4, [⟨0, F.NVM_ECC_CORR_COUNT, .tl⟩]⟩,
  ⟨0x108, 0, 1, 4, [⟨0, F.NVM_ECC_DAY_COUNT, .dv⟩]⟩,
  ⟨0x10c, 0, 1, 4, [⟨0, F.NVM_ECC_UNC_COUNT, .tl⟩]⟩,
  ⟨0x110, 0, 1, 4, [⟨0, F.NVM_ERR_ADDR_ADDR, .ro⟩]⟩,
  ⟨0x114, 0, 1, 4, [⟨0, F.NVM_CORR_ADDR_ADDR, .ro⟩]⟩,
  ⟨0x118, 0, 1, 4, [⟨0, F.NVM_TALLY_MAX_MAX, .dv⟩]⟩,
  ⟨0x11c, 0, 1, 4, [⟨0, F.NVM_TALLY_MAXPG_PAGE, .dv⟩]⟩,
  ⟨0x120, 0, 1, 4, [⟨0, F.NVM_TALLY_SEL_PAGE, .rw⟩]⟩,
  ⟨0x124, 0, 1, 4, [⟨0, F.NVM_TALLY_VAL_TALLY, .dv⟩]⟩,
  ⟨0x128, 0, 1, 4, [⟨0, F.NVM_TALLY_SAVE_SAVE, .w1s⟩]⟩]

def key : List RegRow := [
  ⟨0x0, 0, 1, 4, [⟨0, F.KEY_BASIC_STATE, .dv⟩, ⟨4, F.KEY_BASIC_RESULT, .dv⟩]⟩,
  ⟨0x100, 0, 1, 8, [⟨0, F.KEY_HDR_HDR, .rw⟩]⟩,
  ⟨0x108, 8, 8, 8, [⟨0, F.KEY_Q_WORD, .rw⟩]⟩,
  ⟨0x148, 8, 8, 8, [⟨0, F.KEY_AUTH_WORD, .rw⟩]⟩,
  ⟨0x188, 0, 1, 4, [⟨0, F.KEY_AUTH_DESC_DESC, .rw⟩]⟩,
  ⟨0x190, 0, 1, 8, [⟨0, F.KEY_COMMIT_SLOT, .tk⟩, ⟨48, F.KEY_COMMIT_TICKET, .tk⟩]⟩,
  ⟨0x198, 0, 1, 4, [⟨0, F.KEY_STAT_STATE, .ro⟩, ⟨4, F.KEY_STAT_RESULT, .ro⟩, ⟨8, F.KEY_STAT_OVERRUN, .w1c⟩, ⟨16, F.KEY_STAT_CTRBAD, .ro⟩]⟩,
  ⟨0x1a0, 8, 4, 8, [⟨0, F.KEY_SLOT_SEQ, .ro⟩, ⟨32, F.KEY_SLOT_EPOCH, .ro⟩, ⟨48, F.KEY_SLOT_STATE, .ro⟩, ⟨50, F.KEY_SLOT_COPY, .ro⟩]⟩,
  ⟨0x1c0, 4, 8, 4, [⟨0, F.CTR_VALUE, .ro⟩]⟩,
  ⟨0x1e0, 4, 8, 4, [⟨0, F.CTR_RAISE_V, .wo⟩]⟩,
  ⟨0x200, 0, 1, 4, [⟨0, F.KEY_POLICY_DUAL_STRICT, .dv⟩]⟩]

def log : List RegRow := [
  ⟨0x100, 0, 1, 4, [⟨0, F.LOG_WR_WR, .ro⟩]⟩,
  ⟨0x104, 0, 1, 4, [⟨0, F.LOG_SEQ_SEQ, .ro⟩]⟩]

def tst : List RegRow := [
  ⟨0x0, 0, 1, 4, [⟨0, F.TST_BASIC_STATE, .dv⟩]⟩,
  ⟨0x100, 0, 1, 4, [⟨0, F.TST_LOCK_STATE, .ro⟩, ⟨8, F.TST_LOCK_LOCK, .w1s⟩]⟩,
  ⟨0x104, 0, 1, 4, [⟨0, F.TST_FUSE_DBG_FUSE, .ro⟩]⟩,
  ⟨0x108, 0, 1, 4, [⟨0, F.TST_FUSE_PROG_BITS, .wo⟩]⟩,
  ⟨0x10c, 0, 1, 4, [⟨0, F.TST_STAT_TEST_SEEN, .w1c⟩, ⟨1, F.TST_STAT_TESTMODE, .ro⟩, ⟨8, F.TST_STAT_AUTH_FAIL, .tl⟩]⟩]

def dbg : List RegRow := [
  ⟨0x0, 0, 1, 4, [⟨0, F.DBG_BASIC_HALTED, .dv⟩]⟩,
  ⟨0x100, 0, 1, 4, [⟨0, F.DBG_HALT0_HALT, .w1s⟩]⟩,
  ⟨0x104, 0, 1, 4, [⟨0, F.DBG_HALT1_HALT, .w1s⟩]⟩,
  ⟨0x108, 0, 1, 4, [⟨0, F.DBG_RESUME0_RESUME, .w1s⟩]⟩,
  ⟨0x10c, 0, 1, 4, [⟨0, F.DBG_RESUME1_RESUME, .w1s⟩]⟩,
  ⟨0x110, 0, 1, 4, [⟨0, F.DBG_STEP0_STEP, .w1s⟩]⟩,
  ⟨0x114, 0, 1, 4, [⟨0, F.DBG_STEP1_STEP, .w1s⟩]⟩,
  ⟨0x118, 0, 1, 4, [⟨0, F.DBG_HALTED0_HALTED, .dv⟩]⟩,
  ⟨0x11c, 0, 1, 4, [⟨0, F.DBG_HALTED1_HALTED, .dv⟩]⟩,
  ⟨0x120, 0, 1, 4, [⟨0, F.DBG_SEL_SEL, .rw⟩]⟩,
  ⟨0x124, 0, 1, 4, [⟨0, F.DBG_REASON_REASON, .dv⟩, ⟨16, F.DBG_REASON_NUM, .dv⟩]⟩,
  ⟨0x128, 0, 1, 4, [⟨2, F.DBG_PC_PC, .dv⟩]⟩,
  ⟨0x140, 4, 16, 4, [⟨0, F.DBG_GPR_G, .dv⟩]⟩,
  ⟨0x180, 0, 1, 4, [⟨0, F.DBG_SYS_NUM_NUM, .rw⟩]⟩,
  ⟨0x184, 0, 1, 4, [⟨0, F.DBG_SYS_DATA_DATA, .dv⟩]⟩,
  ⟨0x190, 0, 1, 4, [⟨0, F.DBG_CTRL_BRK_HALT, .rw⟩]⟩]

def rt : List RegRow := []

def phy : List RegRow := []

end RegMap

/-- The registers of a block. -/
def regsOf : Blk → List RegRow
  | .stk => RegMap.stk
  | .su => RegMap.su
  | .pat => RegMap.pat
  | .aon => RegMap.aon
  | .xr => RegMap.xr
  | .fab => RegMap.fab
  | .ptm => RegMap.ptm
  | .stump => RegMap.stump
  | .pin => RegMap.pin
  | .ad => RegMap.ad
  | .csa => RegMap.csa
  | .cm => RegMap.cm
  | .sw => RegMap.sw
  | .ct => RegMap.ct
  | .lg => RegMap.lg
  | .trip => RegMap.trip
  | .st => RegMap.st
  | .cp => RegMap.cp
  | .qd => RegMap.qd
  | .le => RegMap.le
  | .hds => RegMap.hds
  | .hcu => RegMap.hcu
  | .tc => RegMap.tc
  | .sramc => RegMap.sramc
  | .cc => RegMap.cc
  | .wd => RegMap.wd
  | .dsp => RegMap.dsp
  | .mpu => RegMap.mpu
  | .fw => RegMap.fw
  | .sp => RegMap.sp
  | .dma => RegMap.dma
  | .dmg => RegMap.dmg
  | .cx => RegMap.cx
  | .cr => RegMap.cr
  | .usb => RegMap.usb
  | .eth => RegMap.eth
  | .uart => RegMap.uart
  | .mod => RegMap.mod
  | .sl => RegMap.sl
  | .nvm => RegMap.nvm
  | .key => RegMap.key
  | .log => RegMap.log
  | .tst => RegMap.tst
  | .dbg => RegMap.dbg
  | .rt => RegMap.rt
  | .phy => RegMap.phy

/-- A block as R745 places it: its base, the distance and number of its instances, its type code and its die. -/
structure BlkInfo where
  base : Nat
  stride : Nat
  n : Nat
  type : Nat
  die : Die
deriving DecidableEq, Repr

/-- R745: where each block lies. -/
def blkInfo : Blk → BlkInfo
  | .stk => ⟨0x50001000, 0x0, 1, 0x0002, .b⟩
  | .su => ⟨0x50002000, 0x0, 1, 0x0003, .b⟩
  | .pat => ⟨0x50003000, 0x0, 1, 0x0004, .b⟩
  | .aon => ⟨0x50000000, 0x0, 1, 0x0001, .b⟩
  | .xr => ⟨0x50004000, 0x0, 1, 0x0005, .b⟩
  | .fab => ⟨0x40000000, 0x0, 1, 0x0040, .c⟩
  | .ptm => ⟨0x50005000, 0x0, 1, 0x0006, .b⟩
  | .stump => ⟨0x50006000, 0x0, 1, 0x0007, .b⟩
  | .pin => ⟨0x50080000, 0x0, 1, 0x0025, .b⟩
  | .ad => ⟨0x50050000, 0x1000, 4, 0x0020, .b⟩
  | .csa => ⟨0x50054000, 0x0, 1, 0x0021, .b⟩
  | .cm => ⟨0x50060000, 0x0, 1, 0x0022, .b⟩
  | .sw => ⟨0x50061000, 0x0, 1, 0x0023, .b⟩
  | .ct => ⟨0x50010000, 0x1000, 16, 0x0010, .b⟩
  | .lg => ⟨0x50020000, 0x1000, 16, 0x0011, .b⟩
  | .trip => ⟨0x50030000, 0x0, 1, 0x0012, .b⟩
  | .st => ⟨0x50031000, 0x0, 1, 0x0013, .b⟩
  | .cp => ⟨0x50040000, 0x0, 1, 0x0015, .b⟩
  | .qd => ⟨0x50041000, 0x0, 1, 0x0016, .b⟩
  | .le => ⟨0x40010000, 0x0, 1, 0x0044, .c⟩
  | .hds => ⟨0x50032000, 0x0, 1, 0x0014, .b⟩
  | .hcu => ⟨0x40011000, 0x0, 1, 0x0045, .c⟩
  | .tc => ⟨0x40001000, 0x1000, 4, 0x0041, .c⟩
  | .sramc => ⟨0x40005000, 0x0, 1, 0x0042, .c⟩
  | .cc => ⟨0xe0011000, 0x0, 5, 0x0053, .c⟩
  | .wd => ⟨0xe0012000, 0x0, 5, 0x0054, .c⟩
  | .dsp => ⟨0x40020000, 0x0, 1, 0x0046, .c⟩
  | .mpu => ⟨0xe0010000, 0x0, 5, 0x0052, .c⟩
  | .fw => ⟨0x400a0000, 0x1000, 16, 0x0050, .c⟩
  | .sp => ⟨0x40008000, 0x0, 1, 0x0043, .c⟩
  | .dma => ⟨0x40030000, 0x0, 1, 0x0047, .c⟩
  | .dmg => ⟨0x40031000, 0x1000, 4, 0x0048, .c⟩
  | .cx => ⟨0x40040000, 0x0, 1, 0x0049, .c⟩
  | .cr => ⟨0x40041000, 0x0, 1, 0x004a, .c⟩
  | .usb => ⟨0x40050000, 0x0, 1, 0x004b, .c⟩
  | .eth => ⟨0x40060000, 0x0, 1, 0x004c, .c⟩
  | .uart => ⟨0x40070000, 0x1000, 2, 0x004d, .c⟩
  | .mod => ⟨0x40080000, 0x0, 1, 0x004e, .c⟩
  | .sl => ⟨0x40090000, 0x0, 1, 0x004f, .c⟩
  | .nvm => ⟨0x60000000, 0x0, 1, 0x0060, .m⟩
  | .key => ⟨0x60001000, 0x0, 1, 0x0061, .m⟩
  | .log => ⟨0x60002000, 0x0, 1, 0x0062, .m⟩
  | .tst => ⟨0x500f0000, 0x0, 1, 0x0027, .b⟩
  | .dbg => ⟨0x400f0000, 0x0, 1, 0x0051, .c⟩
  | .rt => ⟨0x50070000, 0x0, 1, 0x0024, .b⟩
  | .phy => ⟨0x50090000, 0x1000, 3, 0x0026, .b⟩

/-- The power domain of instance `i` of a block; 255 stands for the always-on logic of its die (R9, R181). -/
def blkDomain (b : Blk) (i : Nat) : Nat :=
  match b with
  | .stk => 255
  | .su => 255
  | .pat => 255
  | .aon => 255
  | .xr => 36
  | .fab => 255
  | .ptm => 255
  | .stump => 255
  | .pin => 42
  | .ad => 0 + i
  | .csa => 5
  | .cm => 255
  | .sw => 4
  | .ct => 15 + i / 2
  | .lg => 28 + i / 4
  | .trip => 32
  | .st => 33
  | .cp => 23
  | .qd => 27
  | .le => 114
  | .hds => 34
  | .hcu => 126
  | .tc => 108 + i
  | .sramc => 255
  | .cc => 108 + i
  | .wd => 108 + i
  | .dsp => 116
  | .mpu => 108 + i
  | .fw => 255
  | .sp => 112
  | .dma => 255
  | .dmg => 117 + i / 2
  | .cx => 119
  | .cr => 120
  | .usb => 121
  | .eth => 122
  | .uart => 123
  | .mod => 124
  | .sl => 125
  | .nvm => 255
  | .key => 255
  | .log => 255
  | .tst => 255
  | .dbg => 127
  | .rt => 35
  | .phy => 39 + i

/-- Every block. -/
def allBlks : List Blk := [.stk, .su, .pat, .aon, .xr, .fab, .ptm, .stump, .pin, .ad, .csa, .cm, .sw, .ct, .lg, .trip, .st, .cp, .qd, .le, .hds, .hcu, .tc, .sramc, .cc, .wd, .dsp, .mpu, .fw, .sp, .dma, .dmg, .cx, .cr, .usb, .eth, .uart, .mod, .sl, .nvm, .key, .log, .tst, .dbg, .rt, .phy]

end Sys2Proof.Machine
end

