-- ==== Sys2Proof/Machine/Masters.lean ====
section
/-!
DEFINITION. Masters, tags and the flits of a request, and how an answer reaches its master (04_fabric_and_address_map.md): what the
losses and resets of Sys2Proof/Machine/Stack.lean need of the fabric.
-/
namespace Sys2Proof.Machine

/-! Masters (R150 to R152, R750, R751, R756, R757). -/

/-- The ID a master's requests carry: a channel's is the one DMA_MID names (R150, R581). -/
def midOf (s : State) : Master → Nat
  | .thread t => t.val
  | .dma c => s.rd F.DMA_MID_MID c.val
  | .unit m => m.val

/-- The B-die masters: the debug access port and the stump sequencer (R751, R757). -/
def isBMaster : Master → Bool
  | .unit m => m.val == 47 || m.val == 53
  | _ => false

/-- The pair is split, or was when a hinge was asked for: SP-C issues for threads 36 to 39 (R150, R565, R756). -/
def pairSplit (s : State) : Bool :=
  (if s.rd F.SP_STAT_MODE = 3 then s.rd F.HINGE_FROM else s.rd F.SP_STAT_MODE) == 1

/-- The domain of a master, for a supervisor thread that of the copy that issues for it now (R751, R756); 255 stands for an always-on
part. -/
def masterDomain (s : State) : Master → Nat
  | .thread t => if t.val < 32 then 108 + t.val / 8 else if 36 ≤ t.val ∧ pairSplit s = true then 113 else 112
  | .dma c => 117 + c.val / 16
  | .unit m =>
    match m.val with
    | 40 => 114 | 41 => 116 | 44 => 126 | 45 => 119 | 46 => 120 | 48 => 121 | 49 => 122 | 50 => 123 | 51 => 124
    | 52 => 125 | 47 => 255 | 53 => 255
    | n => if n < 32 then 108 + n / 8 else if n < 40 then 112 else 255

/-- A master of domain `d` of the C-die can take a reply (R177): the die is up and the domain is on, or still draining; in NAP, only in a
domain that NAP keeps (R197). -/
def cDomainLive (s : State) (d : Nat) : Bool :=
  let st := s.rd F.DOM_STATE d
  cUp s && (d == 255 || (s.rd F.PTM_STATE_CUR ≤ 1 && 2 ≤ st) || (s.rd F.PTM_STATE_CUR == 2 && st == 2))

/-- A master can take a reply (R177). -/
def masterThere (s : State) (m : Master) : Bool := isBMaster m || cDomainLive s (masterDomain s m)

/-- R750: a master can issue a request: it is there, and in DOZE clocked (R194). -/
def masterLive (s : State) (m : Master) : Bool :=
  isBMaster m || (cDomainLive s (masterDomain s m) && (s.rd F.PTM_STATE_CUR != 1 || domClocked s (masterDomain s m)))

/-- The number that names a master in TAG_MID. -/
def masterCode : Master → Nat
  | .thread t => t.val
  | .dma c => 64 + c.val
  | .unit m => 128 + m.val

/-- The master a number names. -/
def masterAt (n : Nat) : Master :=
  if n < 64 then .thread (Fin.ofNat 40 n) else if n < 128 then .dma (Fin.ofNat 32 n) else .unit (Fin.ofNat 64 n)

/-- The number that stands for a master of a C-die that has been lost: the reserved ID 63. -/
def lostCode : Nat := 191

/-- The limit of a master's outstanding requests (R150, R152); a reserved ID issues none. -/
def masterLimit : Master → Nat
  | .thread _ => 4
  | .dma _ => 16
  | .unit m =>
    if m.val < 40 then 4 else if m.val = 40 then 32 else if m.val = 41 ∨ m.val = 45 ∨ m.val = 46 then 8
    else if m.val = 44 ∨ (48 ≤ m.val ∧ m.val ≤ 52) then 16 else if m.val = 47 then 4 else if m.val = 53 then 2 else 0

/-! Tags (R153, R154). -/

/-- Free tag `t`. -/
def freeTag (s : State) (t : Nat) : State :=
  let s := (((((s.down F.TAG_BUSY t).down F.TAG_MID t).down F.TAG_TMO t).down F.TAG_ADDR t).down F.TAG_OP t).down F.TAG_SINCE t
  ((((s.down F.TAG_BUNDLE t 0).down F.TAG_BUNDLE t 1).down F.TAG_DOM t).down F.TAG_SIZE t).down F.TAG_DATA t

/-- The tags in use. -/
def busyTags (s : State) : List Nat :=
  s.regs.filterMap fun e => if e.1.f = F.TAG_BUSY.id then some e.1.i else none

/-- The lowest free tag of the 4,096. -/
def freeTagOf (s : State) : Option Nat := (List.range (min 4096 ((busyTags s).length + 1))).find? fun t => !s.on F.TAG_BUSY t

/-- The tags master `m` holds. -/
def masterTags (s : State) (m : Master) : List Nat := (busyTags s).filter fun t => s.rd F.TAG_MID t == masterCode m

/-! Where a request goes. -/

/-- The number of instance `i` of the block of type code `type`. -/
def blkNum (type i : Nat) : Nat := type * 64 + i

/-- A place in register space: a block, its instance and an offset. -/
structure Loc where
  b : Blk
  i : Nat
  off : Nat
deriving DecidableEq, Repr

/-- The bytes of address space that one instance of a block takes; the dispatcher's arrays follow its block (R493). -/
def blkSpan (b : Blk) : Nat := if b = .dsp then 0x8000 else 0x1000

/-- The offset of `a` in a block outside core-local space. -/
def inBlk (a : Nat) (b : Blk) : Option Loc :=
  let x := blkInfo b
  if x.base ≤ a ∧ a < 0xE0000000 ∧ a < x.base + blkSpan b * x.n then
    some ⟨b, (a - x.base) / blkSpan b, (a - x.base) % blkSpan b⟩
  else none

/-- The core-local blocks, in the order of their addresses (R146, R147). -/
def localBlk (k : Nat) : Blk := if k = 0 then .mpu else if k = 1 then .cc else .wd

/-- The place of `a` as the master sees it (R145 to R147). The supervisor pair's block answers at 0x100 to 0x19F in the
layout of a core-control block (15_supervisor_pair.md). -/
def locate (who : Master) (a : Nat) : Option Loc :=
  if 0xE0000000 ≤ a then
    match who with
    | .thread t =>
      if 0xE0010000 ≤ a ∧ a < 0xE0013000 then some ⟨localBlk ((a - 0xE0010000) / 0x1000), min 4 (t.val / 8), a % 0x1000⟩ else none
    | _ => none
  else
    (firstSome (allBlks.map (inBlk a))).map fun l =>
      if l.b = .sp ∧ 0x100 ≤ l.off ∧ l.off < 0x1A0 then ⟨.tc, 4, l.off⟩ else l

/-- The power domain that must be on for a place to answer (R9). -/
def locDomain (l : Loc) : Nat := blkDomain l.b l.i

/-- The number that names a block instance. -/
def locNum (l : Loc) : Nat := blkNum (blkInfo l.b).type l.i

/-- The number of the block whose lock bits cover a place: the core-control layout within the pair's block is the pair's own
(R10, R147). -/
def lockNum (l : Loc) : Nat := if l.b = .tc ∧ l.i = 4 then blkNum (blkInfo .sp).type 0 else locNum l

/-- What an address names. -/
inductive Target where
  | rom | nvm (k : Nat) | sram (n : Nat) | engine | localMem (n : Nat) | block | unmapped
deriving DecidableEq, Repr

/-- The target of an address as every master but a thread of the owning core sees it. -/
def targetOf (a : Nat) : Target :=
  if a < 0x10000 then .rom
  else if 0x10000000 ≤ a ∧ a < 0x12000000 then .nvm ((a - 0x10000000) / 0x400000)
  else if 0x20000000 ≤ a ∧ a < 0x20400000 then .sram ((a - 0x20000000) / 0x10000)
  else if 0x30000000 ≤ a ∧ a < 0x30018000 then .engine
  else if 0x40100000 ≤ a ∧ a < 0x40140000 then .localMem ((a - 0x40100000) / 0x10000)
  else if (0x40000000 ≤ a ∧ a < 0x40100000) ∨ (0x50000000 ≤ a ∧ a < 0x50100000) ∨ (0x60000000 ≤ a ∧ a < 0x60003000) then .block
  else .unmapped

/-- The domain that holds a memory; 255 for none of its own. -/
def targetDomain : Target → Nat
  | .rom => 255 | .nvm k => 128 + k | .sram n => 44 + n | .engine => 115 | .localMem n => 108 + n | .block => 255
  | .unmapped => 255

/-- The die an address lies on; none for an address that names no part of a die (R146). -/
def dieOf (a : Nat) : Option Die :=
  if a < 0x10000 ∨ (0x20000000 ≤ a ∧ a < 0x50000000) then some .c
  else if 0x50000000 ≤ a ∧ a < 0x50100000 then some .b
  else if (0x10000000 ≤ a ∧ a < 0x12000000) ∨ (0x60000000 ≤ a ∧ a < 0x60003000) then some .m
  else none

/-- The request crosses a link, so it takes a tag of the crossroads (R153). -/
def crosses (who : Master) (a : Nat) : Bool :=
  match dieOf a with
  | none => false
  | some d => d != (if isBMaster who then .b else .c)

/-- The access is one of a thread to the local memory of its own core, and no request of the fabric (R147); the core-local blocks are
reached through the fabric (R431, R441). -/
def coreLocal (who : Master) (a : Nat) : Bool :=
  match who with
  | .thread t => t.val < 32 && 0xE0000000 ≤ a && a < 0xE0010000
  | _ => false

/-- R147: a thread's own local memory, at its alias; none for any other request. -/
def ownAlias (r : Held) : Option Nat :=
  match r.who with
  | .thread t => if coreLocal r.who r.addr then some (0x40100000 + t.val / 8 * 0x10000 + (r.addr - 0xE0000000)) else none
  | _ => none

/-- The domain of a request's target; 255 for always-on logic. -/
def heldDomain (r : Held) : Nat :=
  match ownAlias r, locate r.who r.addr with
  | some a, _ => targetDomain (targetOf a)
  | none, some l => locDomain l
  | none, none => targetDomain (targetOf r.addr)

/-- The block, bank, array or local memory of an address as `who` sees it: requests of one master to one of them take effect in the order
of their issue (R159). -/
def orderPlace (r : Held) : Nat :=
  let a := (ownAlias r).getD r.addr
  match targetOf a, locate r.who a with
  | .sram n, _ => 0x10000 + n
  | .nvm k, _ => 0x10100 + k
  | .localMem n, _ => 0x10200 + n
  | .engine, _ => 0x10300
  | .rom, _ => 0x10301
  | _, some l => lockNum l
  | _, none => 0x20000 + a / 0x1000

/-! The flits of a request (R25, R155, R156, R164). -/

/-- The link ends a request of `who` to `addr` leaves from, from its master on; `near`: the crossroads itself answers it. -/
def requestEnds (s : State) (who : Master) (addr : Nat) (near : Bool) : List Nat :=
  let mid := midOf s who
  let up := (if isBMaster who then none else (bundleFor s 0 mid addr).map fun b => 2 * b + 1)
  let on := if near then none else match dieOf addr with
    | some .m => (bundleFor s 1 mid addr).map fun b => 2 * b
    | some .c => (bundleFor s 0 mid addr).map fun b => 2 * b
    | _ => none
  up.toList ++ on.toList

/-- The link ends its answer leaves from, from the target on: the same bundles the other way. -/
def answerEnds (s : State) (who : Master) (addr : Nat) (near : Bool) : List Nat :=
  (requestEnds s who addr near).reverse.map fun e => if e % 2 = 0 then e + 1 else e - 1

/-- The flits of a request: its HEADER, with the tag once the crossroads has given one, and a DATA flit where it brings more than 8
bytes. -/
def requestFlits (s : State) (r : Held) (tag : Nat) : List Draft :=
  headerFlit tag (midOf s r.who) r.op (Nat.log2 r.size) r.priv r.addr r.data (r.op == 2) ::
    (if r.op != 0 && 8 < r.size then [dataFlit tag r.data false] else [])

/-- The flits of an answer of `n` bytes: RESPONSE, and a DATA flit where more than 8 bytes were read. -/
def answerFlits (tag : Nat) (r : Resp) (n : Nat) : List Draft :=
  if r.code == .ok && 8 < n then [responseFlit tag r false, dataFlit tag r.data true] else [responseFlit tag r true]

/-- Flits leave from each of a list of link ends. -/
def sendAll (s : State) (ends : List Nat) (l : List Draft) : State := s.each ends fun s e => s.each l fun s d => sendFlit s e d

/-- The flits of a request over its C-die master's own link: they carry no tag yet. -/
def sendFirst (s : State) (r : Held) : State :=
  if crosses r.who r.addr then sendAll s (requestEnds s r.who r.addr true) (requestFlits s r 0) else s

/-- The flits of a request from the crossroads on, with its tag. -/
def sendOn (s : State) (r : Held) (tag : Nat) : State :=
  if crosses r.who r.addr then
    sendAll s ((requestEnds s r.who r.addr false).drop (if isBMaster r.who then 0 else 1)) (requestFlits s r tag)
  else s

/-- The HEADER and DATA flits of a request that crosses a link. -/
def sendRequest (s : State) (r : Held) (near : Bool) (tag : Nat) : State :=
  if near then sendFirst s r else sendOn (sendFirst s r) r tag

/-- Every link end on the way of a request and of its answer has room for their flits (R24). -/
def linkRoom (s : State) (r : Held) (near : Bool) : Bool :=
  !crosses r.who r.addr ||
    ((requestEnds s r.who r.addr near).all (flitRoom s · (if r.op != 0 && 8 < r.size then 2 else 1)) &&
      (answerEnds s r.who r.addr near).all (flitRoom s · (if r.op == 0 && 8 < r.size then 2 else 1)))

/-! Answers (R165, R167, R752). -/

/-- What an answer is and how it comes: `size` bytes, the tag its request held, and whether the crossroads itself gave it. -/
structure Reply where
  resp : Resp
  size : Nat
  tag : Nat
  near : Bool

/-- The answer reaches its master. A request that crossed a link has held a tag meanwhile (R153), and its answer comes over the same
bundles. Responses to masters of the C-die are counted while the C-die is up (R752). A reply whose master's domain has gone is discarded
(R177), one for a lost C-die absorbed. -/
def reply (s : State) (who : Master) (addr : Nat) (p : Reply) : State :=
  let r := p.resp
  if !masterThere s who then
    ({ s with resp := ⟨.abort, false, 0⟩ }).bump (if cUp s then F.XR_LOST_LOST_REPLY else F.STK_TALLY1_ABSORB_C)
  else
  let s := { s with resp := if r.code == .ok then r else { r with data := 0 } }
  let s := if crosses who addr then
      sendAll (if p.near then s else s.peak F.XR_TAGS_MAX ((busyTags s).length + 1)) (answerEnds s who addr p.near)
        (answerFlits p.tag s.resp p.size)
    else s
  if isBMaster who || !cUp s || coreLocal who addr then s
  else
    let s := if r.code == .ok then s else s.bump F.FAB_ERR_COUNT (r.code.num - 1)
    if r.dup then ((s.bump F.FAB_DUP_COUNT).wr F.FAB_DUP_LAST_MID (midOf s who)).wr F.FAB_DUP_LAST_BLOCK (addr / 4096) else s

/-- A request of tag `t` is answered with code `c` where it is, and its tag freed; `near`: by the crossroads. The request of a C-die that
has been lost has its answer absorbed (R40 and the table of C-die loss). -/
def answerTag (s : State) (t : Nat) (c : Code) (near : Bool) : State :=
  let s1 := freeTag s t
  if s.rd F.TAG_MID t = lostCode then s1.bump F.STK_TALLY1_ABSORB_C
  else reply s1 (masterAt (s.rd F.TAG_MID t)) (s.rd F.TAG_ADDR t) ⟨⟨c, false, 0⟩, 0, t, near⟩

/-- Requests whose address satisfies `p`, by their tags, are answered with `c`. -/
def answerTags (s : State) (p : Nat → Bool) (c : Code) (near : Bool) : State :=
  s.each ((busyTags s).filter fun t => p (s.rd F.TAG_ADDR t)) fun s t => answerTag s t c near

/-- A code answered to a request. `near`: by the crossroads. -/
def respondNear (s : State) (r : Held) (c : Code) (near : Bool) : State :=
  reply s r.who r.addr ⟨⟨c, false, 0⟩, r.size, (freeTagOf s).getD 0, near⟩

/-- Held requests that satisfy `p` are answered with a code. -/
def answerHeldBy (s : State) (p : Held → Bool) (c : Code) (near : Bool) : State :=
  (s.held.filter p).foldl (fun s r => respondNear s r c near) { s with held := s.held.filter fun r => !p r }

/-! Waiting at the own interface (R150, R151, R159). -/

/-- The requests of a master that are open: those with a tag, those held, and of a thread its posted stores and its load (R150). -/
def openRequests (s : State) (m : Master) : Nat :=
  (masterTags s m).length + (s.held.filter fun r => r.who == m).length +
    match m with
    | .thread t => (s.stores.filter fun e => (e.thread == t.val || e.thread == t.val + 8 && 32 ≤ t.val) && e.issued).length
    | _ => 0

/-- A new request of its master waits behind others: its master is at its limit (R151), or an earlier request of it to the same block,
bank or array is held (R159). -/
def mustWait (s : State) (r : Held) : Bool :=
  decide (masterLimit r.who ≤ openRequests s r.who) || s.held.any fun x => x.who == r.who && orderPlace x == orderPlace r

end Sys2Proof.Machine
end

