-- ==== Sys2Proof/Machine/Home.lean ====
section
/-!
DEFINITION. Which die and power domain each field belongs to, and so which reset clears it. `kept` fields lie in the
always-on domain and outlive every reset but power-on (R54, R101, the retained fields of PTM; that R54's list is
exhaustive for the always-on registers is DEDUCED, log entry 9).
-/
namespace Sys2Proof.Machine

/-- What a field's contents end with: power-on alone, or the reset of its die or of its domain (255: the die's
always-powered part). -/
inductive Home where
  | kept
  | at (d : Die) (dom : Nat)
  /-- A lock bit of block `i` (R9: the identity area is powered with its die). -/
  | lockOf
deriving DecidableEq, Repr

/-- The domain of a thread's state; 40 to 47 are SP-C's copies of the supervisor threads (R181 domain table). -/
def threadDomain (t : Nat) : Nat := if t < 32 then 108 + t / 8 else if t < 40 then 112 else 113

/-- The domain of a core's blocks; core 4 is the supervisor pair (SP-M), 5 stands for SP-C's own parts. -/
def coreDomain (c : Nat) : Nat := if c < 4 then 108 + c else if c = 4 then 112 else 113

/-- The domain of a comparator; CM22 and CM23 lie in the always-on domain. -/
def cmDomain (c : Nat) : Nat := if c < 22 then 9 + c / 4 else 255

/-- The controller domain of a port (R625). -/
def portDomain (p : Nat) : Nat :=
  if p = 0 then 121 else if p = 1 then 122 else if p ≤ 3 then 123 else if p = 4 then 124 else 125

/-- The home of a firewall's windows: those checked at the crossroads outlive the C-die (R537, R545). -/
def fwHome (f : Nat) : Home :=
  if f = 4 ∨ f = 5 ∨ f = 6 ∨ f = 11 ∨ f = 12 ∨ f = 13 then .at .b 255 else .at .c 255

/-- Runs of field numbers and the home of each. -/
def homeRuns : List (Nat × (Nat → Home)) := [
  (73, fun _ => .at .b 255),
  (83, fun _ => .kept),
  (96, fun _ => .at .b 255),
  (97, fun _ => .kept),
  (104, fun _ => .at .b 255),
  (106, fun _ => .kept),
  (107, fun _ => .at .b 255),
  (109, fun _ => .kept),
  (113, fun _ => .at .b 255),
  (114, fun _ => .kept),
  (118, fun _ => .at .b 255),
  (123, fun _ => .kept),
  (131, fun _ => .at .b 255),
  (132, fun _ => .kept),
  (140, fun _ => .at .b 36),
  (145, fun _ => .at .c 255),
  (156, fun _ => .at .b 255),
  (157, fun _ => .kept),
  (181, fun _ => .at .b 255),
  (183, fun _ => .kept),
  (191, fun _ => .at .b 255),
  (206, fun _ => .at .b 42),
  (238, fun i => .at .b i),
  (242, fun i => .at .b (5 + i / 2)),
  (244, fun _ => .at .b 255),
  (255, fun i => .at .b (cmDomain i)),
  (260, fun _ => .at .b 255),
  (270, fun _ => .at .b 4),
  (271, fun _ => .kept),
  (297, fun i => .at .b (15 + i / 2)),
  (333, fun i => .at .b (28 + i / 4)),
  (348, fun _ => .at .b 32),
  (359, fun _ => .at .b 33),
  (360, fun _ => .at .b 23),
  (369, fun i => .at .b (23 + i / 4)),
  (371, fun _ => .at .b 23),
  (382, fun _ => .at .b 27),
  (433, fun _ => .at .c 114),
  (486, fun _ => .at .b 34),
  (504, fun _ => .at .c 126),
  (539, fun i => .at .c (coreDomain i)),
  (591, fun _ => .at .c 116),
  (600, fun i => .at .c (coreDomain i)),
  (614, fun i => (fwHome i)),
  (650, fun _ => .at .c 112),
  (654, fun _ => .at .c 255),
  (680, fun i => .at .c (117 + i / 16)),
  (711, fun _ => .at .c 119),
  (729, fun _ => .at .c 120),
  (751, fun i => .at .c (portDomain i)),
  (776, fun _ => .at .c 121),
  (803, fun _ => .at .c 122),
  (821, fun _ => .at .c 123),
  (831, fun _ => .at .c 124),
  (843, fun _ => .at .c 125),
  (878, fun _ => .at .m 255),
  (886, fun _ => .kept),
  (903, fun _ => .at .c 127),
  (1010, fun _ => .kept),
  (1015, fun _ => .at .b 255),
  (1017, fun _ => .kept),
  (1044, fun _ => .at .b 255),
  (1050, fun _ => .at .c 255),
  (1051, fun _ => .at .b 255),
  (1053, fun _ => .at .c 255),
  (1055, fun _ => .kept),
  (1057, fun _ => .at .b 255),
  (1058, fun _ => .at .c 255),
  (1059, fun _ => .at .b 255),
  (1062, fun _ => .at .c 255),
  (1065, fun _ => .kept),
  (1070, fun _ => .at .b 255),
  (1072, fun _ => .lockOf),
  (1073, fun _ => .at .b 255),
  (1074, fun _ => .at .c 255),
  (1080, fun _ => .at .b 255),
  (1083, fun _ => .at .b 32),
  (1091, fun _ => .at .b 255),
  (1092, fun _ => .at .c 116),
  (1093, fun _ => .at .b 255),
  (1094, fun _ => .at .c 115),
  (1118, fun _ => .at .b 255),
  (1119, fun _ => .kept),
  (1122, fun _ => .at .b 255),
  (1133, fun i => .at .b i),
  (1135, fun i => .at .b (cmDomain i)),
  (1136, fun i => .at .b (5 + i / 2)),
  (1141, fun _ => .at .b 4),
  (1146, fun i => .at .b (15 + i / 2)),
  (1147, fun _ => .at .b 32),
  (1154, fun i => .at .b (28 + i / 4)),
  (1159, fun _ => .at .b 33),
  (1160, fun _ => .at .b 27),
  (1178, fun _ => .at .c 114),
  (1192, fun _ => .at .b 34),
  (1199, fun _ => .at .c 126),
  (1208, fun i => .at .c (threadDomain i)),
  (1209, fun i => .at .c (coreDomain i)),
  (1211, fun i => .at .c (threadDomain i)),
  (1212, fun i => .at .c (coreDomain i)),
  (1240, fun i => .at .c (threadDomain i)),
  (1241, fun i => .at .c (coreDomain i)),
  (1246, fun i => .at .c (threadDomain i)),
  (1250, fun i => .at .c (coreDomain i)),
  (1257, fun _ => .at .c 116),
  (1271, fun _ => .at .c 112),
  (1284, fun i => .at .c (117 + i / 16)),
  (1290, fun _ => .at .c 119),
  (1292, fun i => .at .c (portDomain i)),
  (1298, fun _ => .at .c 122),
  (1303, fun _ => .at .c 121),
  (1306, fun _ => .at .c 123),
  (1309, fun _ => .at .c 124),
  (1314, fun _ => .at .c 125),
  (1317, fun _ => .at .c 121),
  (1319, fun _ => .at .c 124),
  (1323, fun _ => .at .c 125),
  (1325, fun _ => .kept),
  (1326, fun _ => .at .m 255),
  (1327, fun _ => .kept),
  (1329, fun _ => .at .m 255),
  (1332, fun _ => .at .c 120),
  (1335, fun _ => .at .m 255),
  (1351, fun _ => .kept)]

/-- The fields that hold Pattern-loaded configuration, which HIBERNATE keeps in retention cells (05, power states). -/
def patternIds : List Nat := [
  86, 101, 102, 103, 104, 107, 178, 179, 180, 198, 202, 203, 204, 205, 206, 260, 274, 275, 276, 277, 
  283, 284, 310, 311, 312, 313, 314, 315, 316, 317, 336, 337, 338, 389, 408, 415, 416, 417, 418, 419, 
  420, 421, 422, 432, 433, 570, 571, 572, 573, 574, 575, 576, 577, 578, 579, 580, 581, 582, 590, 591, 
  603, 604, 605, 606, 609, 620, 621, 622, 623, 1042, 1043, 1067, 1068, 1069, 1071, 1072, 1073, 1074, 1075, 1076, 
  1077, 1078, 1081, 1082, 1083, 1084, 1085, 1086, 1087, 1088, 1089, 1090, 1091, 1092, 1093, 1094]

/-- The home of field number `id` at first index `i`. -/
def homeOf (id i : Nat) : Home :=
  match homeRuns.find? fun r => decide (id ≤ r.1) with
  | some r => r.2 i
  | none => .kept

end Sys2Proof.Machine
end

