-- ==== Sys2Proof/Machine/Timing.lean ====
section
/-!
DEFINITION. Counter slices, captures, quadrature decoders, legs, the trip matrix and the head strobes
(08_counters_and_pulse_generators.md), as operations over the state. Their commands stand in
Sys2Proof/Machine/TimingRows.lean.
-/
namespace Sys2Proof.Machine

/-- A power domain is on (R171: state code 2). Domain 255, the always-powered part, always is. -/
def domOn (s : State) (d : Nat) : Bool := d == 255 || s.rd F.DOM_STATE d == 2

/-- Destination `d` of the route matrix is connected and the matrix is powered: otherwise it receives a constant 0 and
no edge reaches its consumer (R117, R748). -/
def destLive (s : State) (d : Nat) : Bool := s.on F.RT_EN d && domOn s 35

/-- CLK_T runs in B-die domain `d` (R194, R273). -/
def clkTRuns (s : State) (d : Nat) : Bool := domClocked s d

/-! The route matrix (R117, R748; the sources of R234, R263, R275, R288 and R388). A source that no rule names never moves
(DEDUCED, log entry 82). -/

/-- The level of source `n`, where it is a level and no ball; the pulses are 0 between their ticks. -/
def srcLevel (s : State) (n : Nat) : Bool :=
  if 64 ≤ n ∧ n < 88 then (s.rd F.CM_LATCHED_LATCHED).testBit (n - 64)
  else if 148 ≤ n ∧ n < 154 then s.on F.BG_STAT_TRIPPED (n - 148)
  else if n = 154 then (List.range 16).any fun k =>
    s.on F.LG_STAT_OC k || s.on F.LG_STAT_HS k || s.on F.LG_STAT_EXT k || s.on F.LG_STAT_SW k
  else n == 163 && s.on F.YK_STAT_YANK

/-- Source `n` is a general pin (R234): the outside, or the pin's own output, moves it. -/
def srcPin (n : Nat) : Bool := decide (232 ≤ n)

/-- The level that destination `d` makes of a source level, before SYNC (R117). -/
def destOf (s : State) (d : Nat) (level : Bool) : Bool := destLive s d && xor (s.on F.RT_INV d) level

/-- The destinations that a frame of ROUTE has connected. -/
def liveDests (s : State) : List Nat :=
  s.regs.filterMap fun e => if e.1.f = F.RT_EN.id ∧ destLive s e.1.i = true then some e.1.i else none

/-- Edges reach the consumer of destination `d`: bit 0 a rising one, bit 1 a falling one; they are due until the consumer's own
step takes them. -/
def edgesDue (s : State) (d m : Nat) : State := s.wr F.RT_EDGE (s.rd F.RT_EDGE d ||| m) d

/-- The level of destination `d` before SYNC moves to `b`. Under SYNC 0b10 and 0b11 the selected edge becomes a pulse, which has
both edges (R117). -/
def destMoves (s : State) (d : Nat) (b : Bool) : State :=
  if s.on F.RT_LEVEL d == b then s
  else
    let m := match s.rd F.RT_SYNC d with
      | 2 => if b then 3 else 0
      | 3 => if b then 0 else 3
      | _ => if b then 1 else 2
    edgesDue (s.wrb F.RT_LEVEL b d) d m

/-- Every destination of a level source takes the level the source now has. -/
def routeFollow (s : State) : State :=
  s.each ((liveDests s).filter fun d => !srcPin (s.rd F.RT_SRC d)) fun s d => destMoves s d (destOf s d (srcLevel s (s.rd F.RT_SRC d)))

/-- Word 0 of row `r` of the calendar (R340); its stitch bytes follow. -/
def rowAddr (r : Nat) : Nat := 0x30016C00 + 0x40 * r

/-- TRIG_SRC of row `r` (R120). -/
def rowSource (s : State) (r : Nat) : Nat := (s.byte (rowAddr r)).toNat

/-- The B-die sees a pulse of source `n` and relays it for every enabled row that names it, while the C-die is up (R357). -/
def rowsDue (s : State) (n : Nat) : State :=
  if s.rd F.STK_DIESTATE_C_STATE != 3 then s
  else s.each ((onesOf (s.rd F.LE_ROWEN_EN) 16).filter fun r => rowSource s r == n) fun s r => s.bump F.ROW_DUE r

/-- Source `n` pulses for a tick: with or without INV, and under each SYNC, each destination connected to it has one rising and
one falling edge. -/
def routePulse (s : State) (n : Nat) : State :=
  rowsDue (s.each ((liveDests s).filter fun d => s.rd F.RT_SRC d == n) fun s d => edgesDue s d 3) n

/-- R748: a connection, not a source, has changed the levels of the destinations. Each consumer takes its destination's level as
it now is, and no edge is due. -/
def routesSettled (s : State) : State :=
  let s := s.each (List.range 512) fun s d => (s.down F.RT_LEVEL d).down F.RT_EDGE d
  s.each (liveDests s) fun s d =>
    let n := s.rd F.RT_SRC d
    if srcPin n then s else s.wrb F.RT_LEVEL (destOf s d (srcLevel s n)) d

/-- An edge of destination `d` is there for its consumer to take: one that is due, or one that the outside gives at a general
pin (log entry 21). -/
def edgeAt (s : State) (d : Nat) (rise : Bool) : Bool :=
  destLive s d && ((s.rd F.RT_EDGE d).testBit (if rise then 0 else 1) || srcPin (s.rd F.RT_SRC d))

/-- The consumer of destination `d` has taken the edge. -/
def edgeTaken (s : State) (d : Nat) (rise : Bool) : State :=
  s.wr F.RT_EDGE (putBit (s.rd F.RT_EDGE d) (if rise then 0 else 1) false) d

/-! Slices. -/

/-- Whether slice `n` is the upper half of a chained pair (R119, R304). -/
def ctUpper (s : State) (n : Nat) : Bool := n % 2 == 1 && s.on F.CT_CFG_CHAIN n

/-- Whether slice `n` is the lower half of a chained pair. -/
def ctPaired (s : State) (n : Nat) : Bool := n % 2 == 0 && s.on F.CT_CFG_CHAIN (n + 1)

/-- The slice that acts for `n`: the lower one of a chained pair (R305). -/
def ctLead (s : State) (n : Nat) : Nat := if ctUpper s n then n - 1 else n

/-- A value of the slice, or of the pair its lower slice leads: 24 bits, or 48 (R304). -/
def ctPair (s : State) (f : Fld) (n j : Nat) : Nat :=
  if ctPaired s n then s.rd f n j + 2 ^ 24 * s.rd f (n + 1) j else s.rd f n j

/-- The active period, at least 2 (R292). -/
def ctP (s : State) (n : Nat) : Nat := max 2 (ctPair s F.CT_PERIOD_ACT_PERIOD n 0)

/-- The count of the slice or pair. -/
def ctCount (s : State) (n : Nat) : Nat := ctPair s F.CT_COUNT_COUNT n 0

/-- The value of unit `u` that REF is taken from: the active one, and in a stopped slice the one of its last step (R337). -/
def ctRefValue (s : State) (n u : Nat) : Nat := ctPair s (if s.on F.CT_CTRL_RUN n then F.CT_CMP_ACT_VALUE else F.CT_REFV) n u

/-- R296: the below-A rule of unit `u`. -/
def ctBelow (s : State) (n u : Nat) : Bool :=
  let c := ctCount s n
  let v := ctRefValue s n u
  if s.rd F.CT_CFG_MODE n == 2 && s.on F.CT_COUNT_DIR n then decide (c ≤ v) else decide (c < v)

/-- R297: the window rule of units `a` and `b`. -/
def ctWindow (s : State) (n a b : Nat) : Bool :=
  let c := ctCount s n
  decide (ctRefValue s n a ≤ c) && decide (c < ctRefValue s n b)

/-- Store a count in the slice or pair. -/
def ctSetCount (s : State) (n c : Nat) : State :=
  let s1 := s.wr F.CT_COUNT_COUNT (c % 2 ^ 24) n
  if ctPaired s n then s1.wr F.CT_COUNT_COUNT (c / 2 ^ 24) (n + 1) else s1

/-- Copy shadow `j` of slice `n` into its active copy (0 to 3 the compare units, 4 the period). -/
def ctCopy (s : State) (n j : Nat) : State :=
  let s := s.down F.CT_SHWRIT n j
  if j = 4 then s.wr F.CT_PERIOD_ACT_PERIOD (s.rd F.CT_PERIOD_PERIOD n) n
  else ((s.wr F.CT_CMP_ACT_VALUE (s.rd F.CT_CMP_SH_VALUE n j) n j).wr F.CT_CMP_ACT_FINE
    (s.rd F.CT_CMP_SH_FINE n j) n j).wr F.CT_CMP_ACT_EVDIR (s.rd F.CT_CMP_SH_EVDIR n j) n j

/-- R300: every shadow of slice `n` written since the last transfer becomes active. -/
def ctTransfer (s : State) (n : Nat) : State :=
  s.each (List.range 5) fun s j => if s.on F.CT_SHWRIT n j then ctCopy s n j else s

/-- The transfer of the slice or of both halves of its pair (R304). -/
def ctTransferAll (s : State) (n : Nat) : State :=
  let s1 := ctTransfer s n
  if ctPaired s n then ctTransfer s1 (n + 1) else s1

/-- Count and direction (1 down) on the step after `(c, d)` in mode `m` with period `p` (R290, R291, R293, R303). -/
def ctNext (m p c d : Nat) : Nat × Nat :=
  if m = 1 then (if c = 0 then p else c - 1, 1)
  else if m = 2 then
    if (d = 0 ∧ c < p) ∨ c = 0 then (c + 1, if c + 1 = p then 1 else 0)
    else (c - 1, if c - 1 = 0 then 0 else 1)
  else (if p ≤ c then 0 else c + 1, 0)

/-- Whether count `c` is a load point under LOAD (0 zero, 1 top, 2 both, 3 immediate). -/
def ctLoadPoint (load p c : Nat) : Bool :=
  (load == 0 && c == 0) || (load == 1 && c == p) || (load == 2 && (c == 0 || c == p))

/-- Whether count `c` is the period start (R290). -/
def ctPeriodStart (m p c : Nat) : Bool := if m = 1 then c == p else c == 0

/-- A shadow has been written: active at once under LOAD immediate (R300), else at a load point. -/
def ctShadowWritten (s : State) (n j : Nat) : State :=
  let s := s.up F.CT_SHWRIT n j
  if s.rd F.CT_CFG_LOAD (ctLead s n) == 3 && !s.on F.CT_SHCTL_HOLD (ctLead s n) then ctCopy s n j else s

/-- R302: a software write to shadow `j` of slice `n`, by `w`, lands, or is lost to a SHADOW request of the same tick. -/
def ctSoftShadow (s : State) (n j : Nat) (w : State → State) : State :=
  if s.rd F.CT_SHADOW_TICK n j == s.tick + 1 then s.bump F.CT_TALLY_SH_COLL n
  else ctShadowWritten ((w s).wr F.CT_SW_TICK (s.tick + 1) n j) n j

/-- R157, R302, R356: a SHADOW request lands on shadow `j` of slice `n`; a software write of the same tick is lost. -/
def ctHardShadow (s : State) (n j v : Nat) : State :=
  let s := if s.rd F.CT_SW_TICK n j == s.tick + 1 then s.bump F.CT_TALLY_SH_COLL n else s
  let s := s.wr F.CT_SHADOW_TICK (s.tick + 1) n j
  let s := if j = 4 then s.wr F.CT_PERIOD_PERIOD v n
    else (s.wr F.CT_CMP_SH_VALUE v n j).wr F.CT_CMP_SH_FINE (bits v 26 24) n j
  ctShadowWritten s n j

/-! Legs. -/

/-- The group of leg `k`; 7 means none (R122). -/
def legGroup (s : State) (k : Nat) : Nat := s.rd F.LG_TRIPCFG_GROUP k

/-- Leg `k` belongs to a group. -/
def legGrouped (s : State) (k : Nat) : Bool := decide (legGroup s k < 6)

/-- The legs of group `g`, lowest first. -/
def groupLegs (s : State) (g : Nat) : List Nat := (List.range 16).filter fun k => legGroup s k == g

/-- Leg `k` has a cause bit set (LG_STAT.TRIPPED). -/
def legTripped (s : State) (k : Nat) : Bool :=
  s.on F.LG_STAT_OC k || s.on F.LG_STAT_HS k || s.on F.LG_STAT_EXT k || s.on F.LG_STAT_SW k

/-- A cause bit of any leg is set. -/
def anyTripped (s : State) : Bool := (List.range 16).any (legTripped s)

/-- The sides (high, low) that REF asks of leg `k` under its REF_MODE and LMODE (R313). -/
def legWant (s : State) (k : Nat) : Bool × Bool :=
  let n := ctLead s (s.rd F.LG_CFG_SLICE k)
  let a := s.rd F.LG_CFG_UA k
  let b := s.rd F.LG_CFG_UB k
  let ref := match s.rd F.LG_CFG_REF_MODE k with
    | 0 => ctBelow s n a
    | 1 => ctWindow s n a b
    | 2 => false
    | _ => true
  match s.rd F.LG_CFG_LMODE k with
  | 0 => (ref, !ref)
  | 1 => (ref, false)
  | 2 => (false, !ref)
  | _ => (ctBelow s n a, ctBelow s n b)

/-- Turn side `j` of leg `k` (0 high, 1 low) on or off; each edge at a ball opens or restarts the blanking window
(R320). -/
def setSide (s : State) (k j : Nat) (b : Bool) : State :=
  if s.on F.LG_SIDE k j == b then s
  else
    let s := s.wrb F.LG_SIDE b k j
    if s.on F.LG_BLANK_BLANK k then s.up F.LG_BLANKING k else s

/-- The dead time of side `j` is not zero. -/
def hasDeadTime (s : State) (k j : Nat) : Bool :=
  if j = 0 then s.on F.LG_DT_DT_RISE k || s.on F.LG_DT_FINE_RISE k
  else s.on F.LG_DT_DT_FALL k || s.on F.LG_DT_FINE_FALL k

/-- Bring side `j` of leg `k` to `want`: off at once, on after its dead time (R313, R324). A dead time that the change
ends is dropped, and counted as a swallowed pulse where `count` says so (R314). -/
def driveSide (s : State) (k j : Nat) (want count : Bool) : State :=
  if want then
    if s.on F.LG_SIDE k j || s.on F.LG_DTRUN k j then s
    else if hasDeadTime s k j then s.up F.LG_DTRUN k j else setSide s k j true
  else
    let s := if s.on F.LG_DTRUN k j then (s.down F.LG_DTRUN k j).when count (·.bump F.LG_TALLY_SWALLOW k) else s
    setSide s k j false

/-- Bring both sides to `want`: the side that goes off first. -/
def driveLeg (s : State) (k : Nat) (want : Bool × Bool) (count : Bool) : State :=
  if want.1 then driveSide (driveSide s k 1 want.2 count) k 0 want.1 count
  else driveSide (driveSide s k 0 want.1 count) k 1 want.2 count

/-- The sides on in the safe state of leg `k`: its SAFE, or its group's GSAFE (R123, R323); all off where an HS cause is
among the causes of the leg or group (R325). -/
def legSafe (s : State) (k : Nat) : Bool × Bool :=
  let g := legGroup s k
  let code := if g < 6 then s.rd F.BG_CFG_GSAFE g else s.rd F.LG_TRIPCFG_SAFE k
  let hs := if g < 6 then (groupLegs s g).any (fun m => s.on F.LG_STAT_HS m) else s.on F.LG_STAT_HS k
  if hs then (false, false) else (code == 2, code == 1)

/-- Leg `k` goes to (or stays in) its safe state: any pending arm and orphan timer end (R318, R323, R336). -/
def legToSafe (s : State) (k : Nat) : State :=
  let s := ((s.wr F.LG_STAT_STATE 0 k).down F.ORPHAN_RUN k).down F.LG_GROUPARM k
  driveLeg s k (legSafe s k) false

/-- R318: disarm. -/
def legDisarm (s : State) (k : Nat) : State := legToSafe s k

/-- Leg `k` is armed now and follows REF. -/
def legArmNow (s : State) (k : Nat) : State :=
  let s := ((s.wr F.LG_STAT_STATE 2 k).down F.ORPHAN_RUN k).down F.LG_GROUPARM k
  let w := legWant s k
  driveLeg ((s.wrb F.LG_REF w.1 k 0).wrb F.LG_REF w.2 k 1) k w false

/-- A comparator is under a swatch test (R279, R282). -/
def underTest (s : State) (c : Nat) : Bool := s.on F.SW_STAT_BUSY && s.rd F.SW_CMP == c

/-- R203, R282: a request to arm leg `k` completes with BUSY. -/
def armBusy (s : State) (k : Nat) : Bool :=
  (s.on F.PTM_STATE_ONFRC && !s.on F.PTM_CLKSTAT_PLL) ||
    underTest s (s.rd F.LG_TRIPCFG_OC_CMP k) || underTest s (s.rd F.LG_TRIPCFG_HS_CMP k)

/-- The raw output of comparator `c` (31: none) is 1. -/
def rawOf (s : State) (c : Nat) : Bool := decide (c < 24) && (s.rd F.CM_RAW_RAW).testBit c

/-- R316, R413: the reason why leg `k` itself may not be armed: 1 a cause (or yank), 2 a raw comparator; 0 none. -/
def armBlock (s : State) (k : Nat) : Nat :=
  if legTripped s k || (s.on F.YK_STAT_YANK && (s.rd F.YK_LEGS_LEGS).testBit k) then 1
  else if rawOf s (s.rd F.LG_TRIPCFG_OC_CMP k) || rawOf s (s.rd F.LG_TRIPCFG_HS_CMP k) then 2
  else 0

/-- R75: Tier 2 firmware alone arms. What an attempt at Tier 0 or 1 meets, the spec does not say: it changes nothing (DESIGN CHOICE,
log entry 88). -/
def mayArm (s : State) : Bool := s.rd F.STK_DIESTATE_TIER == 2

/-- R75, R316, R331: a write of LG_ARM.ARM to leg `k`. ARM_ERR reads 0 once an arm is accepted (DEDUCED, log entry 10). -/
def legArm (s : State) (k : Nat) (now : Bool) : State :=
  let e := if legGrouped s k ∧ armBlock s k = 0 then 3 else armBlock s k
  if !mayArm s then s
  else if e ≠ 0 then s.wr F.LG_STAT_ARM_ERR e k
  else
    let s := s.wr F.LG_STAT_ARM_ERR 0 k
    if now || s.rd F.LG_STAT_STATE k == 3 then legArmNow s k
    else if s.rd F.LG_STAT_STATE k == 2 then s
    else s.wr F.LG_STAT_STATE 1 k

/-- R75, R317, R331: a write to BG_ARM that names group `g`. -/
def groupArm (s : State) (g : Nat) : State :=
  let legs := groupLegs s g
  if !mayArm s then s
  else if legs.any (fun k => armBlock s k != 0) then s.each legs fun s k => s.wr F.LG_STAT_ARM_ERR 4 k
  else
    let s := s.each legs fun s k => s.wr F.LG_STAT_ARM_ERR 0 k
    if legs.all (fun k => s.rd F.LG_STAT_STATE k == 3) then s.each legs legArmNow
    else s.each legs fun s k =>
      let s := (s.up F.LG_GROUPARM k).down F.ORPHAN_RUN k
      if s.rd F.LG_STAT_STATE k == 0 then s.wr F.LG_STAT_STATE 1 k else s

/-- The slice whose period start arms leg `k`: its own, or that of its group's lowest-numbered leg (R316, R317). -/
def armSlice (s : State) (k : Nat) : Nat :=
  if s.on F.LG_GROUPARM k then
    match groupLegs s (legGroup s k) with
    | m :: _ => ctLead s (s.rd F.LG_CFG_SLICE m)
    | [] => ctLead s (s.rd F.LG_CFG_SLICE k)
  else ctLead s (s.rd F.LG_CFG_SLICE k)

/-- R316, R317: pending arms take effect at the period start of slice `n`. -/
def armAtPeriodStart (s : State) (n : Nat) : State :=
  let due := (List.range 16).filter fun k =>
    (s.rd F.LG_STAT_STATE k == 1 || s.on F.LG_GROUPARM k) && armSlice s k == n
  s.each due legArmNow

/-! Trips. The kinds of a cause are 0 OC, 1 HS, 2 EXT, 3 SW. -/

/-- The cause bit of a kind (R321). -/
def causeFld (kind : Nat) : Fld :=
  match kind with
  | 0 => F.LG_STAT_OC | 1 => F.LG_STAT_HS | 2 => F.LG_STAT_EXT | _ => F.LG_STAT_SW

/-- R327: a cause recorded now belongs to the first-trip record: no cause bit is set, or the record was made on this very tick. -/
def firstTick (s : State) : Bool := !anyTripped s || (s.on F.TRIP_FIRST_VALID && s.rd F.TRIP_TICK == s.tick + 1)

/-- R327: the first-trip record, once every cause of its tick so far is set. -/
def recordFirst (s : State) : State :=
  let legs := (List.range 16).filter (legTripped s)
  match legs with
  | [] => s
  | k :: rest =>
    ((((((s.wr F.TRIP_FIRST_LEG k).wr F.TRIP_FIRST_KIND (maskOf 4 fun c => s.on (causeFld c) k)).wrb
      F.TRIP_FIRST_TIED !rest.isEmpty).up F.TRIP_FIRST_VALID).wr F.TRIP_FIRST_STAMP_STAMP s.stamp).wr
      F.TRIP_FIRST_MASK_MASK (maskOf 16 fun m => legs.contains m)).wr F.TRIP_TICK (s.tick + 1)

/-- One leg's trip: its tally, its event or its group's, and FAULT_CAUSE.TRIP (R289, R323, R328). -/
def tripOne (s : State) (k : Nat) : State :=
  let g := legGroup s k
  let s := s.bump F.LG_TALLY_TRIPS k
  let s := s.when (s.on F.LG_TRIPCFG_FAULT k || (decide (g < 6) && s.on F.BG_CFG_FAULT g)) (·.up F.FAULT_CAUSE_TRIP)
  if g < 6 then
    let s := if s.on F.BG_STAT_TRIPPED g then s else (s.up F.BG_STAT_TRIPPED g).post (48 + g)
    s.each (groupLegs s g) legToSafe
  else legToSafe (s.post 54) k

/-- R325: the fall-back of a braking group with an HS cause is recorded. -/
def brakeFallback (s : State) (g : Nat) : State :=
  if s.on F.BG_CFG_GSAFE g && (groupLegs s g).any (fun m => s.on F.LG_STAT_HS m) then s.up F.BG_STAT_BRAKE_FB g else s

/-- LEG_TRIP (R323): the causes `hits` of one tick are recorded and the legs, or their whole groups, go safe. -/
def trip (s : State) (hits : List (Nat × Nat)) : State :=
  if hits.isEmpty then s else
  let first := firstTick s
  let fresh := (List.range 16).filter fun k => hits.any (fun h => h.1 == k) && !legTripped s k
  let old := (List.range 16).filter fun k => hits.any (fun h => h.1 == k) && legTripped s k
  let s := s.each hits fun s h => s.up (causeFld h.2) h.1
  let s := s.when first recordFirst
  let s := s.each (List.range 6) fun s g =>
    if hits.any (fun h => legGroup s h.1 == g) then brakeFallback s g else s
  let s := s.each fresh tripOne
  routeFollow (s.each old fun s k => if legGrouped s k then s.each (groupLegs s (legGroup s k)) legToSafe else legToSafe s k)

/-- R329: what follows the clearing of cause bits: the first-trip record ends once no leg has one (R327), a group with
none is no longer tripped (DEDUCED, log entry 10), and safe states no longer fall back (R325). -/
def causesCleared (s : State) : State :=
  let s := if anyTripped s then s else s.down F.TRIP_FIRST_VALID
  let s := s.each (List.range 6) fun s g =>
    if (groupLegs s g).any (legTripped s) then s else (s.down F.BG_STAT_TRIPPED g).down F.BG_STAT_BRAKE_FB g
  routeFollow (s.each (List.range 16) fun s k => if s.rd F.LG_STAT_STATE k == 0 then driveLeg s k (legSafe s k) false else s)

/-- R321, R322, R326: the raw output of comparator `c` has risen. -/
def tripFromRaw (s : State) (c : Nat) : State :=
  let oc := (List.range 16).filter fun k => s.rd F.LG_TRIPCFG_OC_CMP k == c
  let hs := (List.range 16).filter fun k => s.rd F.LG_TRIPCFG_HS_CMP k == c
  let masked := oc.filter fun k => s.on F.LG_BLANKING k
  let s := s.each masked fun s k => s.up F.LG_OCREC k
  trip s ((oc.filter fun k => !s.on F.LG_BLANKING k).map (fun k => (k, 0)) ++ hs.map fun k => (k, 1))

/-- R326: a comparator of leg `k` whose raw output is still 1 sets its cause bit again once that is clear; a blanked OC is recorded
(R322). -/
def tripAgain (s : State) (k : Nat) : State :=
  let oc := rawOf s (s.rd F.LG_TRIPCFG_OC_CMP k) && !s.on F.LG_STAT_OC k
  let hs := rawOf s (s.rd F.LG_TRIPCFG_HS_CMP k) && !s.on F.LG_STAT_HS k
  let s := s.when (oc && s.on F.LG_BLANKING k) (·.up F.LG_OCREC k)
  trip s ((if oc && !s.on F.LG_BLANKING k then [(k, 0)] else []) ++ if hs then [(k, 1)] else [])

/-- Every leg of a list goes safe on the spot (R213, R335). -/
def legsSafe (s : State) (l : List Nat) : State := s.each l legToSafe

/-- R41 to R43, R330: orphan behaviour at the declaration of a C-die loss. HOLD is set on every slice; an armed leg with
ORPHAN 1 that is in no tripped group holds its last values, every other leg goes safe. -/
def orphanLegs (s : State) : State :=
  let s := s.each (List.range 16) fun s n => s.up F.CT_SHCTL_HOLD n
  s.each (List.range 16) fun s k =>
    if s.rd F.LG_STAT_STATE k == 2 && s.on F.LG_TRIPCFG_ORPHAN k && s.on F.LG_TRIPCFG_T_ORPHAN k then
      (s.wr F.LG_STAT_STATE 3 k).up F.ORPHAN_RUN k
    else if s.rd F.LG_STAT_STATE k == 3 then s
    else legToSafe s k

/-! Strobes. -/

/-- R277: comparator `c` of the GATE frame asserts. -/
def gateAsserts (s : State) (c : Nat) : Bool :=
  (s.rd F.GATE_MASK).testBit c &&
    (if s.on F.CM_CFG_GATE_FILT c then (s.rd F.CM_COND_COND).testBit c else (s.rd F.CM_RAW_RAW).testBit c)

/-- R230, R334: a cause holds the strobes inactive: a rail not good, bind-off, a tier below 2 after the release, a lost
C-die, a GATE comparator or yank. -/
def strobesInhibited (s : State) : Bool :=
  !(s.rd F.PTM_SUPPLY_GOOD).testBit 5 || s.on F.BINDOFF || s.rd F.STK_DIESTATE_TIER != 2 ||
    s.rd F.STK_DIESTATE_C_STATE != 3 || s.on F.YK_STAT_YANK || (List.range 24).any (gateAsserts s)

/-- Abandonment of the line in progress, where there is one (R419). -/
def hdsAbandon (s : State) : State :=
  if !s.on F.HDS_SLOT_BUSY then s else
  let s := (((s.wr F.HDS_PHASE 0).down F.HDS_BURSTING).down F.HDS_SHIFTED).down F.HDS_SLOT_BUSY
  ((s.wr F.HDS_SLOT_FULL 0).wr F.HDS_SLOT_NEXT 0).wr F.HDS_SLOT_PLANE 0

/-- The line in slot NEXT is done (R396, R401). -/
def lineDone (s : State) : State :=
  let n := s.rd F.HDS_SLOT_NEXT
  let s := (s.wr F.HDS_SLOT_FULL (putBit (s.rd F.HDS_SLOT_FULL) n false)).wr F.HDS_SLOT_NEXT (1 - n)
  let s := (((s.wr F.HDS_PHASE 0).down F.HDS_SLOT_BUSY).wr F.HDS_SLOT_PLANE 0).bump F.HDS_LINES_COUNT
  let s := s.when (s.on F.HDS_INH) (·.bump F.HDS_TALLY1_INH_LINES)
  (routePulse s 161).postIf (s.on F.HDS_CTRL_LINE_EVT) 100

/-- A strobe belongs to the running burst. -/
def inBurst (s : State) : Bool := (List.range 8).any fun n => s.on F.ST_INBURST n

/-- Once every strobe of the streamer's burst is inactive the burst ends, and with the last one the line (R395, R396). -/
def burstOver (s : State) : State :=
  if s.on F.HDS_BURSTING && !inBurst s then
    let s := s.down F.HDS_BURSTING
    if s.rd F.HDS_PHASE == 4 then lineDone s else s
  else s

/-- R334: every active strobe goes inactive at once and the cut is recorded; a strobe that still waits for its delay is out
of the burst too. -/
def cutStrobes (s : State) : State :=
  let a := s.rd F.ST_STAT_ACTIVE
  let s := (s.wr F.ST_STAT_CUT (s.rd F.ST_STAT_CUT ||| a)).wr F.ST_STAT_ACTIVE 0
  burstOver (s.each (List.range 8) fun s n => (s.down F.ST_INBURST n).down F.ST_DELAYED n)

/-- The strobes are cut where an inhibit is in effect; a line in progress has then run while they were inhibited (R401; at any moment
of it: DEDUCED, log entry 91). -/
def applyInhibit (s : State) : State :=
  if strobesInhibited s then cutStrobes (s.when (s.on F.HDS_SLOT_BUSY) (·.up F.HDS_INH)) else s

/-- R332: a width of `t` ticks and `f` eighths clamped to ST_LIMIT. -/
def clampWidth (s : State) (t f : Nat) : Nat × Nat :=
  let l := s.rd F.ST_LIMIT_LIMIT
  if l < t ∨ (l = t ∧ 0 < f) then (l, 0) else (t, f)

/-- R332, R333: a burst starts. `width n` is the width of strobe `n` in ticks and eighths; `plane` is the plane of a
scaled burst plus 1, or 0. -/
def burstStart (s : State) (width : Nat → Nat × Nat) (plane : Nat) : State :=
  let s := s.wr F.ST_PLANE plane
  s.each (onesOf (s.rd F.ST_CTRL_EN) 8) fun s n =>
    if (s.rd F.ST_STAT_ACTIVE).testBit n then s.bump F.ST_TALLY_ST_OVERRUN
    else
      let w := width n
      let c := clampWidth s w.1 w.2
      let s := s.when (c != w) (·.bump F.ST_TALLY_CLAMP)
      (((s.wr F.ST_WTICK c.1 n).wr F.ST_WFINE c.2 n).up F.ST_DELAYED n).up F.ST_INBURST n

/-- The width strobe `n`'s own register asks for. -/
def ownWidth (s : State) (n : Nat) : Nat × Nat := (s.rd F.ST_WIDTH_TICKS n, s.rd F.ST_WIDTH_FINE n)

/-- R335: what the start of a drain of domain `d` does to the legs and strobes. -/
def legsDrain (s : State) (d : Nat) : State :=
  if 28 ≤ d ∧ d ≤ 33 then
    let ks := (List.range 16).filter fun k => d == 32 || 28 + k / 4 == d
    cutStrobes (legsSafe s ks)
  else s

/-! Captures. -/

/-- R307: the time a capture into channel `n` records. TB values above 16 name nothing: a free value (log entry 5). -/
def captureTime (s : State) (n : Nat) : Nat :=
  let tb := s.rd F.CP_CFG_TB n
  if tb < 16 then s.rd F.CT_COUNT_COUNT (ctLead s tb) else if tb = 16 then s.stamp else s.freeBits 24

/-- R306 to R309: an edge is accepted by channel `n`. -/
def capture (s : State) (n : Nat) (rise : Bool) : State :=
  let v := captureTime s n + bnat rise * 2 ^ 24
  let s1 := routePulse (if 16 < s.rd F.CP_CFG_TB n then s.drew else s) (128 + n)
  if (s.q Q.capture n).length < 4 then (s1.pushq Q.capture v n).postIf (s.on F.CP_CFG_EVT n) (32 + n)
  else s1.wr F.CP_STAT_OVF (putBit (s.rd F.CP_STAT_OVF) n true)

/-- The capture of edges EDGE selects (1 rising, 2 falling, 3 both). -/
def captureEdgeWanted (s : State) (n : Nat) (rise : Bool) : Bool :=
  s.on F.CP_CFG_EN n && (s.rd F.CP_CFG_EDGE n).testBit (if rise then 0 else 1)

/-- R309: pop the head of the queue; the word CP_DATA reads. -/
def capturePop (s : State) (n : Nat) : Nat × State :=
  match s.q Q.capture n with
  | [] => (0, s)
  | v :: r => (v + 2 ^ 25, s.setq Q.capture r n)

/-! Quadrature decoders. -/

/-- The forward step of the A and B levels, as a two-bit code A + 2 B: A leads B (PRESUMED, log entry 11). -/
def qdNext (ab : Nat) : Nat := match ab with | 0 => 1 | 1 => 3 | 3 => 2 | _ => 0

/-- R310, R311: the levels of decoder `d` become `ab`. -/
def qdStep (s : State) (d ab : Nat) : State :=
  let old := s.rd F.QD_AB d
  let s := s.wr F.QD_AB ab d
  if !s.on F.QD_CFG_EN d || old == ab then s
  else if old + ab == 3 then s.bump F.QD_ERR_COUNT d
  else
    let fwd := (qdNext old == ab) != s.on F.QD_CFG_SWAP d
    let p := s.rd F.QD_POS_POS d
    let m := s.rd F.QD_MAX_MAX d
    let p' := if fwd then (if m ≤ p then 0 else p + 1) else (if p = 0 then m else p - 1)
    routePulse ((s.wr F.QD_POS_POS p' d).wrb F.QD_POS_DIR (!fwd) d) (144 + 2 * d)

end Sys2Proof.Machine
end

