-- ==== Sys2Proof/Machine/Stack.lean ====
section
/-!
DEFINITION. Resets and what they reach, the loss of a die, bind-off, the ledger and the links between the dies
(01_stack_and_dies.md, 02_startup_and_service_tiers.md), as operations over the state.
-/
namespace Sys2Proof.Machine

/-! Blocks by number, for lock bits and ticket histories. -/

/-- The die of a block number (R745: types below 0x40 lie on the B-die, below 0x60 on the C-die). -/
def numDie (n : Nat) : Die := if n / 64 < 0x40 then .b else if n / 64 < 0x60 then .c else .m

/-- Where a queue belongs, so that the reset of its die or domain empties it. -/
def queueHome (k : Key) : Home :=
  let t := k.i / 64
  match k.f with
  | 1 =>
    if t = 2 ∨ t = 3 ∨ t = 4 then .kept
    else if t = 0x46 then .at .c 116 else if t = 0x48 then .at .c (117 + k.i % 64 / 2)
    else if t = 0x4B then .at .c 121 else if t = 0x4C then .at .c 122 else if t = 0x4D then .at .c 123
    else if t = 0x4E then .at .c 124 else if t = 0x4F then .at .c 125 else .at .m 255
  | 2 => .at .b (23 + k.i / 4)
  | 3 => .at .c 116
  | 4 => .at .c (portDomain k.i)
  | 5 => .at .c (portDomain k.i)
  | 6 => .at .c 121
  | 7 => .at .c (coreDomain k.i)
  | 8 => .at .c (coreDomain k.i)
  | 9 => .kept
  | 10 => .at .c 112
  | 11 => .at .m 255
  | 13 => .at .c 255
  | 15 => .at .c (portDomain k.i)
  | 17 => .at .c (117 + k.i / 16)
  | 18 => .at .m 255
  | 20 => .at .c 255
  | _ => .at .b 255

/-- The home of a register-file key. -/
def keyHome (k : Key) : Home :=
  match homeOf k.f k.i with
  | .lockOf => .at (numDie k.i) 255
  | h => h

namespace State

/-- Drop every field and queue whose home satisfies `p`: it then holds its reset value, or nothing. -/
def clearHomes (s : State) (p : Home → Bool) : State :=
  { s with
    regs := s.regs.filter fun e => !p (keyHome e.1)
    queues := s.queues.filter fun e => !p (queueHome e.1) }

/-- The reset of one power domain (R4). -/
def resetDomain (s : State) (d : Nat) : State :=
  s.clearHomes fun h => match h with | .at _ e => e == d && e != 255 | _ => false

/-- The reset of one die. -/
def resetDie (s : State) (d : Die) : State :=
  s.clearHomes fun h => match h with | .at e _ => e == d | _ => false

end State

/-- The first domain of a die and the one after its last. -/
def dieDomains : Die → Nat × Nat
  | .b => (0, 44)
  | .c => (44, 128)
  | .m => (128, 136)

/-- A PTM-only domain follows the power state alone (the domain table of 05_power_clocks_thermal.md). -/
def ptmOnly (d : Nat) : Bool := [36, 37, 38, 42, 43].contains d

/-- R182: the rails that hold domain `d` are good. -/
def domRailsGood (s : State) (d : Nat) : Bool :=
  let g := s.rd F.PTM_SUPPLY_GOOD
  if d < 15 then g.testBit 3 else if d = 39 ∨ d = 121 then g.testBit 4 else true

/-- The domains that `d` depends on (the domain table; R205). -/
def domDeps (d : Nat) : List Nat :=
  (if d ≤ 3 then [4] else if 5 ≤ d ∧ d ≤ 14 then [4] else if 15 ≤ d ∧ d ≤ 27 then [35]
  else if 28 ≤ d ∧ d ≤ 31 then [32] else if d = 33 then [32] else if d = 37 ∨ d = 38 then [36]
  else if 108 ≤ d ∧ d ≤ 111 then [116] else if d = 114 then [115] else if d = 116 then [44]
  else if d = 121 then [39] else if d = 122 then [40] else if d = 123 ∨ d = 124 then [41]
  else if d = 125 then [40, 119] else []) ++
  (if 44 ≤ d ∧ d ≤ 127 then [37] else if 128 ≤ d then [38] else [])

/-- R116: the domain is on from the release of its die: its policy is on, or switched and initially on. -/
def domWanted (s : State) (d : Nat) : Bool := ptmOnly d || (s.rd F.POLICY d).testBit 0

/-- The domains of a die are powered as their policies ask, as far as their rails are good (R116, R182). -/
def powerDie (s : State) (die : Die) : State :=
  let r := dieDomains die
  s.each (List.range (r.2 - r.1)) fun s k =>
    let d := r.1 + k
    s.wr F.DOM_STATE (if domWanted s d && domRailsGood s d then 2 else 0) d

/-- The domains of a die go off with it. -/
def unpowerDie (s : State) (die : Die) : State :=
  let r := dieDomains die
  s.each (List.range (r.2 - r.1)) fun s k => s.wr F.DOM_STATE 0 (r.1 + k)

/-- Bytes of memory that lie on the C-die: SRAM, loop-engine memory, buffers and local memories. -/
def onCDie (a : Nat) : Bool := (0x20000000 ≤ a && a < 0x50000000)

/-! Requests for the optional clocks. -/

/-- Requester number of firmware in CLK_HOLD; a domain's is its own number. -/
def fwRequester : Nat := 255

/-- A request for clock `c` is held by some requester (R190). -/
def clockHeld (s : State) (c : Nat) : Bool :=
  s.on F.CLK_HOLD c fwRequester || (List.range 136).any fun d => s.on F.CLK_HOLD c d

/-- CLOCK_REQUEST (R190): `who` is the requesting domain, or firmware. -/
def clockRequest (s : State) (c who : Nat) : State :=
  let s := s.up F.CLK_HOLD c who
  if who = fwRequester then s.wr F.PTM_CLKREQ_REQ (putBit (s.rd F.PTM_CLKREQ_REQ) c true) else s

/-- The source of clock `c` is running and stable (R186, R190, R192, R746): 0 HSXO, 1 USB PLL, 2 RMII reference, 3 FRC. -/
def clockReady (s : State) (c : Nat) : Bool :=
  match c with
  | 0 => s.on F.HSXO_ON
  | 1 => s.on F.HSXO_ON && s.on F.USB_EN && domOn s 39
  | 2 => !s.on F.RMII_OUT || s.on F.PTM_CLKSTAT_PLL
  | _ => true

/-- CLOCK_GRANT (R190). -/
def clockGrant (s : State) (c : Nat) : State :=
  if clockHeld s c && clockReady s c then
    (s.wr F.PTM_CLKSTAT_GRANT (putBit (s.rd F.PTM_CLKSTAT_GRANT) c true)).up F.CLK_RUN c
  else s

/-- The grant of clock `c` falls once no request for it is held (R191). -/
def clockStop (s : State) (c : Nat) : State :=
  if clockHeld s c then s
  else (s.wr F.PTM_CLKSTAT_GRANT (putBit (s.rd F.PTM_CLKSTAT_GRANT) c false)).down F.CLK_RUN c

/-- CLOCK_RELEASE (R191). -/
def clockRelease (s : State) (c who : Nat) : State :=
  let s := s.down F.CLK_HOLD c who
  let s := if who = fwRequester then s.wr F.PTM_CLKREQ_REQ (putBit (s.rd F.PTM_CLKREQ_REQ) c false) else s
  clockStop s c

/-- A write of PTM_CLKREQ (R190): firmware's requests are its bits. -/
def clkReqWritten (s : State) : State :=
  s.each (List.range 4) fun s c =>
    if (s.rd F.PTM_CLKREQ_REQ).testBit c then s.up F.CLK_HOLD c fwRequester
    else clockStop (s.down F.CLK_HOLD c fwRequester) c

/-- The requests of the domains of a list are withdrawn (R191, R753). -/
def withdrawClocks (s : State) (l : List Nat) : State :=
  let s := s.each l fun s d => s.each (List.range 4) fun s c => s.down F.CLK_HOLD c d
  s.each (List.range 4) clockStop

/-- The source of optional clock `c` has stopped: its grant falls; the requests stand (R190, R191). -/
def clockLost (s : State) (c : Nat) : State :=
  (s.wr F.PTM_CLKSTAT_GRANT (putBit (s.rd F.PTM_CLKSTAT_GRANT) c false)).down F.CLK_RUN c

/-- The RMII reference with RMII_OUT 1 comes from PLLT, which NAP stops: its requests are withdrawn, whoever holds them, but
firmware's bit of PTM_CLKREQ stays (R192). -/
def rmiiWithdrawn (s : State) : State :=
  clockStop ((s.each (List.range 136) fun s d => s.down F.CLK_HOLD 2 d).down F.CLK_HOLD 2 fwRequester) 2

/-! Ledger. -/

/-- LEDGER_RAISE (R93, R96): cause `b` is raised for the life of the part and a record falls due. -/
def ledgerRaise (s : State) (b : Nat) : State :=
  let l := s.rd F.LEDGER_CAUSES
  if l.testBit b then s else (s.wr F.LEDGER_CAUSES (putBit l b true)).up F.LEDGER_PENDING

/-- R93 bit 5, R563: one more compute mismatch or excursion. -/
def spCount (s : State) : State :=
  let s := (s.bump F.LEDGER_TALLY_SP_COUNT).up F.LEDGER_PENDING
  if s.rd F.SP_LIM_SP_LIM ≤ s.rd F.LEDGER_TALLY_SP_COUNT then ledgerRaise s 5 else s

/-! Start-up outcomes. -/

/-- TIER_OUTCOME (R70): the tier and its cause are recorded. -/
def outcome (s : State) (tier cause : Nat) : State := (s.wr F.STK_DIESTATE_TIER tier).wr F.SU_TIER_CAUSE cause

/-- Entry into Tier 0 or Tier 1 (R75, R85): after cast-on every leg goes to its safe state, a held one too, and the strobes stop. -/
def outputsSafe (s : State) : State := if s.on F.PRE_CAST then s else cutStrobes (legsSafe s (List.range 16))

/-- An outcome that confines the device to Tier 0 before any C-die code runs; an earlier one, or a bind-off, stands (R70, R71). -/
def confine (s : State) (cause : Nat) : State :=
  if s.on F.TIER0_ONLY || s.on F.BINDOFF then s else outcome (outputsSafe (s.wr F.TIER0_ONLY cause)) 0 cause

/-! Live re-pattern, as far as losses end it. -/

/-- Record a rejection of R134 (SOURCE 1: live). -/
def reject (s : State) (code type off source : Nat) : State :=
  ((((s.wr F.PAT_REJECT_CODE code).wr F.PAT_REJECT_TYPE type).wr F.PAT_REJECT_SOURCE source).wr
    F.PAT_REJECT_OFF_OFFSET off)

/-- A delta is pending: CHECKING, LOADING or ARMED (R141). -/
def livePending (s : State) : Bool := let st := s.rd F.PAT_LIVE_STAT_STATE; 1 ≤ st && st ≤ 3

/-- A pending delta is discarded with a code of R134 (R44, R135, R141, R143 to R145). -/
def liveDiscard (s : State) (code : Nat) : State :=
  if livePending s then
    ((reject (s.setq Q.delta []) code 0 0 1).wr F.PAT_LIVE_STAT_STATE 5).wr F.PAT_LIVE_STAT_RESULT 9
  else s

/-- Memory lists nothing from `lo` up to `hi` any more. -/
def dropRange (s : State) (lo hi : Nat) : State :=
  { s with
    mem := s.mem.filter (fun c => decide (c.1 < lo) || decide (hi ≤ c.1))
    bad := s.bad.filter (fun w => decide (w < lo) || decide (hi ≤ w)) }

/-! Losses. -/

/-- R711: the lock state follows the debug fuses. -/
def lockFollows (s : State) : State :=
  s.wr F.TST_LOCK_STATE (match s.rd F.FUSE_DBG with | 0 => 0 | 1 => 1 | _ => 3)

/-- R717, R757: an open request of the debug access port to an address that satisfies `p` completes with ABSENT. -/
def debugAbsent (s : State) (p : Nat → Bool) : State :=
  if s.on F.ACC_BUSY && p (s.rd F.ACC_ADDR) then ((s.down F.ACC_BUSY).wr F.ACC_RCODE 1).wr F.ACC_RDATA 0 else s

/-- R717: a verification of DBG_AUTH ends refused, without a count. -/
def authEnds (s : State) : State := if s.rd F.AUTH_STATUS = 1 then s.wr F.AUTH_STATUS 3 else s

/-- Bytes and registers that lie on the C-die, and on the M-die (R146). -/
def cSide (a : Nat) : Bool := a < 0x10000 || onCDie a
def mSide (a : Nat) : Bool := (0x10000000 ≤ a && a < 0x12000000) || (0x60000000 ≤ a && a < 0x60003000)

/-- The target of a request lies on the C-die. -/
def toC (r : Held) : Bool := cSide r.addr || decide (0xE0000000 ≤ r.addr)

/-- Of a list of held requests, those that have entered the fabric: of each master the oldest, as many as its limit leaves room for
(R151, R750). -/
def entered (s : State) (l : List Held) : List Held :=
  (l.foldl (fun (k : List Held) r =>
    if ((k.filter fun x => x.who == r.who).length + (masterTags s r.who).length) < masterLimit r.who then k ++ [r] else k) [])

/-- What the loss of the C-die leaves of the requests that stand in the fabric (R40, R750 and the table of C-die loss): those from the
B-die to it complete with ABSENT; those of its own masters that have left it stay, their answers to be absorbed; the others go with it. -/
def fabricLosesC (s : State) : State :=
  let s := answerHeldBy (answerTags s cSide .absent true) (fun r => isBMaster r.who && toC r) .absent true
  let s := { s with held := (entered s s.held).filter fun r => !toC r }
  let s := s.each ((busyTags s).filter fun t => !isBMaster (masterAt (s.rd F.TAG_MID t))) fun s t => s.wr F.TAG_MID lostCode t
  s.setq Q.headers ((s.q Q.headers).map fun h => if isBMaster (masterAt (h % 256)) then h else h / 256 * 256 + lostCode)

/-- C_DIE_LOSS (R40 to R44, R91, R330, R383): the loss of the C-die is declared for cause `cause` of LAST_C_CAUSE. A die that
was in training has failed a start; the third failure in succession makes it absent (R49, R93 bit 6). -/
def cDieLoss (s : State) (cause : Nat) : State :=
  if s.rd F.STK_DIESTATE_C_STATE == 0 then s
  else
    let failed := s.rd F.STK_DIESTATE_C_STATE == 2
    let s := orphanLegs s
    let s := cutStrobes (((hdsAbandon s).down F.HDS_CTRL_EN).wr F.DK_STAT_ACTIVE 0)
    let s := liveDiscard s 0x45
    let s := lockFollows (authEnds (debugAbsent (fabricLosesC s) cSide))
    let s := dropRange (withdrawClocks (unpowerDie (s.resetDie .c) .c) ((List.range 84).map (44 + ·))) 0x30000000 0x30018000
    let s := { s with events := [], stores := [], shadows := [], results := [] }
    let s := ((s.wr F.STK_DIESTATE_C_STATE 1).up F.STK_EVT_C_LOST).wr F.STK_DIESTATE_LAST_C_CAUSE cause
    let s := ((s.up F.RST_CAUSE_CLOSS).up F.FAULT_CAUSE_C_LOST).up F.FAULT_CAUSE_BOOT
    if failed then
      let s := s.wr F.C_FAILS (s.rd F.C_FAILS + 1)
      if s.rd F.C_FAILS = 3 then
        confine (ledgerRaise (((s.up F.C_ABSENT).wr F.STK_DIESTATE_C_STATE 0).wr F.STK_DIESTATE_LAST_C_CAUSE 7) 6) 4
      else s
    else s

/-! Programming of the nonvolatile array, and programming that a loss cuts off. -/

/-- Copy `c` of owner key slot `k`. -/
def keyCopyAddr (k c : Nat) : Nat := 0x11FC0000 + 0x100 * k + 0x80 * c
/-- Copy `c` of counter `n`. -/
def ctrAddr (n c : Nat) : Nat := counterWordBase + 0x10 * n + 8 * c
/-- The controller programs the 8 bytes `v` at `a`, a whole word. -/
def programWord (s : State) (a v : Nat) : State := (s.mset a 8 v).heal a

/-- Copy `c` of slot `k` is valid. -/
def keyCopyValid (s : State) (k c : Nat) : Bool :=
  let a := keyCopyAddr k c
  let w0 := s.mget a 8
  let st := bits w0 49 48
  !s.anyBad a 80 && s.mget (a + 0x4C) 4 == 0x4B524543 && s.mget (a + 0x48) 4 == crc32c (s.bytes a 0x48) &&
    bits w0 51 50 == k && (st == 1 || st == 2)

/-- The winning copy of slot `k`. -/
def keyWinner (s : State) (k : Nat) : Option Nat :=
  let v0 := keyCopyValid s k 0
  let v1 := keyCopyValid s k 1
  if v0 && v1 then (if s.mget (keyCopyAddr k 0) 4 < s.mget (keyCopyAddr k 1) 4 then some 1 else some 0)
  else if v0 then some 0 else if v1 then some 1 else none

/-- The ten words of the record that the commit in progress writes, in ascending order, and where: the copy that does not win
(R679, R681). -/
def commitWords (s : State) : List (Nat × Nat) :=
  let k := s.rd F.KC_SLOT
  let words := s.q Q.keyRec
  let c := match keyWinner s k with | some 0 => 1 | _ => 0
  let crc := crc32c (words.flatMap (toBytes 8))
  (words ++ [crc + 0x4B524543 * 2 ^ 32]).zipIdx.map fun (w : Nat × Nat) => (keyCopyAddr k c + 8 * w.2, w.1)

/-- The words that a raise of counter `n` writes: copy 0, then copy 1 (R686, R687). -/
def raiseWords (s : State) (n : Nat) : List (Nat × Nat) :=
  let v := s.rd F.CTR_V n
  (List.range 2).map fun c => (ctrAddr n c, v + (2 ^ 32 - 1 - v) * 2 ^ 32)

/-- The word at `a` was being programmed with `v` at the loss (R45): it keeps its old value, holds the new one where it `may`,
or is uncorrectable. Which of these, the spec leaves open: a free value (log entry 5). -/
def cutWord (s : State) (a v : Nat) (may : Bool) : State :=
  let x := s.freeBits 2
  let s := s.drew
  if x = 0 then s else if x = 1 ∧ may = true then programWord s a v else s.spoil a

/-- Writes of `ws`, in this order, that a loss cuts off (R45): a number of words the spec leaves open is done, one was being
programmed, the rest keep their values. `may`: the last word may have been programmed whole. -/
def cutWrites (s : State) (ws : List (Nat × Nat)) (may : Bool) : State :=
  let n := Config.freeValue s.free % ws.length
  let s := s.drew.each (ws.take n) fun s w => programWord s w.1 w.2
  match ws.drop n with
  | [] => s
  | w :: rest => cutWord s w.1 w.2 (may || !rest.isEmpty)

/-- The words that a write of `n` bytes `v` at `a` of the array programs, with what they then hold, in ascending order (R674). -/
def requestWords (s : State) (a n v : Nat) : List (Nat × Nat) :=
  let part := s.mset a n v
  (List.range ((n + 7) / 8)).map fun k => (a / 8 * 8 + 8 * k, part.mget (a / 8 * 8 + 8 * k) 8)

/-- A tag's request is a write of the array outside its protected region that the controller has accepted. -/
def tagWrites (s : State) (t : Nat) : Bool :=
  s.rd F.TAG_OP t == 1 && decide (0x10000000 ≤ s.rd F.TAG_ADDR t) && decide (s.rd F.TAG_ADDR t < 0x11FC0000)

/-- The words that the request of tag `t` writes. -/
def tagWords (s : State) (t : Nat) : List (Nat × Nat) :=
  requestWords s (s.rd F.TAG_ADDR t) (2 ^ s.rd F.TAG_SIZE t) (s.rd F.TAG_DATA t)

/-- The controller of the nonvolatile array loses its power or is reset: the write requests it has accepted and not answered, the commit
and the counter raises that are writing are cut off (R45, R685, R687). A commit's copy is left invalid or unchanged. -/
def cutNvm (s : State) : State :=
  let s := s.each ((busyTags s).filter (tagWrites s)) fun s t => cutWrites s (tagWords s t) true
  let s := s.when (s.rd F.KEY_STAT_STATE == 3) fun s => cutWrites s (commitWords s) false
  s.each (List.range 8) fun s n => s.when (s.on F.CTR_RAISING n) fun s => cutWrites s (raiseWords s n) true

/-- M_DIE_LOSS (R45, R46, R49, R97): the loss of the M-die is declared for cause `cause` of LAST_M_CAUSE. -/
def mDieLoss (s : State) (cause : Nat) : State :=
  if s.rd F.STK_DIESTATE_M_STATE == 0 then s
  else
    let failed := s.rd F.STK_DIESTATE_M_STATE == 2
    let committing := s.on F.KEY_STAT_STATE
    let searching := s.rd F.ROM_STAGE == 2 && mUp s
    let owed := (s.q Q.log).any (· % 256 == 1)
    let s := answerHeldBy (answerTags (cutNvm s) mSide .absent true) (fun r => mSide r.addr) .absent true
    let s := debugAbsent s mSide
    let s := withdrawClocks (unpowerDie (s.resetDie .m) .m) ((List.range 8).map (128 + ·))
    let s := s.when committing (·.wr F.KEY_STAT_RESULT 5)
    let s := ((s.wr F.STK_DIESTATE_M_STATE 1).up F.STK_EVT_M_LOST).wr F.STK_DIESTATE_LAST_M_CAUSE cause
    let s := ((s.up F.RST_CAUSE_MLOSS).up F.M_RETURN).post 6
    let s := (s.when searching (·.up F.ROM_MLOST)).when owed (·.up F.LEDGER_PENDING)
    if failed then
      let s := s.wr F.M_FAILS (s.rd F.M_FAILS + 1)
      if s.rd F.M_FAILS = 3 then
        ledgerRaise (((s.up F.M_ABSENT).wr F.STK_DIESTATE_M_STATE 0).wr F.STK_DIESTATE_LAST_M_CAUSE 7) 6
      else s
    else s

/-- BIND_OFF (R71, R213): every leg safe, the strobes inactive, both upper dies held in reset, Tier 0. -/
def bindOff (s : State) (src : Nat) : State :=
  if s.on F.BINDOFF then s
  else
    let s := s.up F.BINDOFF
    let s := cutStrobes (legsSafe s (List.range 16))
    let s := liveDiscard s 0x45
    let s := s.up F.FAULT_CAUSE_BINDOFF
    let s := mDieLoss (cDieLoss s 2) 2
    (outcome s 0 0xE).wr F.SU_TIER_BO_SRC src

/-- The memory that outlives the B-die's reset is the nonvolatile array; SRAM lists nothing once its supply has gone
(log entry 3). -/
def dropVolatile (s : State) : State :=
  { s with mem := s.mem.filter (fun c => decide (c.1 < 0x12000000)), bad := s.bad.filter (fun w => decide (w < 0x12000000)) }

/-- A reset whose reach includes the B-die outside AO (R47, R52, R54, R55): every field outside the kept ones takes its
reset value, and the B-die's domains are powered again once its rails are good. -/
def bReset (s : State) (cause : Fld) : State :=
  let bo := s.on F.BINDOFF
  let s := answerHeldBy (cutNvm s) (fun r => isBMaster r.who && (toC r || mSide r.addr)) .absent true
  let s := answerHeldBy s (fun r => isBMaster r.who) .abort false
  let s := lockFollows (authEnds (debugAbsent (s.up cause) fun a => cSide a || mSide a))
  let s := s.when bo (·.up F.RST_CAUSE_BINDOFF)
  let s := dropRange (s.clearHomes fun h => match h with | .at _ _ => true | _ => false) 0x50032800 0x50032C00
  let s := dropRange (s.down F.FUSE_VALID) 0x30000000 0x30018000
  let s := { s with events := [], stores := [], shadows := [], results := [], held := [] }
  let s := if bUp s then powerDie s .b else s
  if s.on F.TST_STAT_TESTMODE then confine s 0xD else s

/-- The power-on reset (R52): everything but what lies in fuses and in the nonvolatile array, and the levels the outside
drives. The lock state follows the fuses (R711). -/
def powerOff (s : State) : State :=
  let keepFld := fun id => (F.FUSE_VALID.id ≤ id && id ≤ F.FUSE_SP_LIM.id) || id == F.PTM_SUPPLY_GOOD.id || id == F.TALLY_SEQ.id
  let s := cutNvm s
  let s := lockFollows (dropVolatile { s with regs := s.regs.filter (fun e => keepFld e.1.f), queues := [] })
  { s with time := 0, events := [], stores := [], shadows := [], results := [], held := [], resp := ⟨.ok, false, 0⟩ }

/-! Links. -/

/-- Lane-map entry `k` of bundle `b` is in use. -/
def spareUsed (s : State) (b k : Nat) : Bool :=
  match k with
  | 0 => s.on F.LANE_MAP_VALID_0 b | 1 => s.on F.LANE_MAP_VALID_1 b
  | 2 => s.on F.LANE_MAP_VALID_2 b | _ => s.on F.LANE_MAP_VALID_3 b

/-- The data lane that spare `k` of bundle `b` replaces. -/
def sparePhys (s : State) (b k : Nat) : Nat :=
  match k with
  | 0 => s.rd F.LANE_MAP_PHYS_0 b | 1 => s.rd F.LANE_MAP_PHYS_1 b
  | 2 => s.rd F.LANE_MAP_PHYS_2 b | _ => s.rd F.LANE_MAP_PHYS_3 b

/-- Enter spare `k` of bundle `b` in the lane map for data lane `lane`; `fused`: the entry comes from fuses. -/
def setSpare (s : State) (b k lane : Nat) (fused : Bool) : State :=
  let s := match k with
    | 0 => (s.wr F.LANE_MAP_PHYS_0 lane b).up F.LANE_MAP_VALID_0 b
    | 1 => (s.wr F.LANE_MAP_PHYS_1 lane b).up F.LANE_MAP_VALID_1 b
    | 2 => (s.wr F.LANE_MAP_PHYS_2 lane b).up F.LANE_MAP_VALID_2 b
    | _ => (s.wr F.LANE_MAP_PHYS_3 lane b).up F.LANE_MAP_VALID_3 b
  s.wr F.LANE_MAP_FUSED (putBit (s.rd F.LANE_MAP_FUSED b) k fused) b

/-- Spares in use of bundle `b`. -/
def sparesOf (s : State) (b : Nat) : Nat := ((List.range 4).filter (spareUsed s b)).length

/-- The lowest free spare of bundle `b` (R27): not in use and not known to be defective. -/
def freeSpare (s : State) (b : Nat) : Option Nat :=
  (List.range 4).find? fun k => !spareUsed s b k && !s.on F.LANE_BAD b (64 + k)

/-- A lane carries traffic: a data lane no spare replaces, or a spare in use (lanes 64 to 67). -/
def laneInUse (s : State) (b lane : Nat) : Bool :=
  if lane < 64 then !(List.range 4).any (fun k => spareUsed s b k && sparePhys s b k == lane)
  else spareUsed s b (lane - 64)

/-- The data lane whose traffic a lane carries. -/
def laneData (s : State) (b lane : Nat) : Nat := if lane < 64 then lane else sparePhys s b (lane - 64)

/-- R26: the control bundles of the C-link are the two lowest-numbered ones in service, CB00 and CB01 first. -/
def assignControl (s : State) : State :=
  let live := (linkBundles 0).filter fun b => s.rd F.BUNDLE_STATE b == 2
  let ctrl := live.take 2
  s.each (linkBundles 0) fun s b => s.wrb F.BUNDLE_CTRL (ctrl.contains b) b

/-- R33: a transaction assigned to a retired bundle completes by retry if it can, and is answered ABORT if not. Which of them can, the spec
leaves open: a free value (log entry 5). -/
def stranded (s : State) (t : Nat) : State :=
  let x := s.freeBits 1
  let s := s.drew
  if x = 0 then s else answerTag s t .abort true

/-- BUNDLE_RETIRE (R33 to R35): bundle `b` takes no new transaction; the ledger cause LANE is raised. With no bundle of the link left the
die is lost. -/
def retireBundle (s : State) (b : Nat) : State :=
  if s.rd F.BUNDLE_STATE b == 3 then s
  else
    let s := (s.wr F.BUNDLE_STATE 3 b).up F.STK_EVT_BUNDLE_RET
    let l := bundleLink b
    let s := s.each ((busyTags s).filter fun t => s.rd F.TAG_BUNDLE t l == b + 1) stranded
    let s := assignControl (ledgerRaise (s.post 5) 0)
    if (linkBundles l).all (fun c => s.rd F.BUNDLE_STATE c == 3) then
      let s := s.up F.BUNDLE_LOST l
      if l = 0 then cDieLoss s 6 else mDieLoss s 6
    else s

/-- R27, R31, R35: the traffic of a lane moves to spare `k` for good. Where the lane is itself a spare in use, its entry stays VALID and goes
on counting in SPARES and EXHAUST: the spec does not say what becomes of the old entry (DESIGN CHOICE, log entry 87). -/
def repairLane (s : State) (b lane k : Nat) : State :=
  let s := setSpare (s.up F.LANE_BAD b lane) b k (laneData s b lane) false
  let s := s.wr F.BUNDLE_SPARES (sparesOf s b) b
  if sparesOf s b = 4 then ledgerRaise s 0 else s

/-- R27: a lane found defective in training gets the lowest free spare, or its bundle is retired. -/
def trainLane (s : State) (b lane : Nat) : State :=
  if laneInUse s b lane then
    match freeSpare s b with
    | some k => repairLane s b lane k
    | none => retireBundle (s.up F.LANE_BAD b lane) b
  else s.up F.LANE_BAD b lane

/-- The sequence state of both ends of bundle `b` starts afresh with training: SEQ and the expected value at 0, the last accepted SEQ at
255, nothing to resend. The spec gives no starting values (DESIGN CHOICE, log entry 87). -/
def freshBundle (s : State) (b : Nat) : State :=
  s.each [2 * b, 2 * b + 1] fun s e =>
    ((((((s.wr F.LK_TXSEQ 0 e).wr F.LK_EXPECT 0 e).down F.LK_SKIP e).wr F.LK_UNACKED 0 e).wr F.LK_LAST_ACC 255 e).setq
      Q.retry [] e)

end Sys2Proof.Machine
end

