-- ==== Sys2Proof/Machine/Power.lean ====
section
/-!
DEFINITION. Supplies, clocks, power states, power domains and heat (05_power_clocks_thermal.md), as operations over the
state, and the commands of the table that reach the machine from its supplies, clocks and sensors.
-/
namespace Sys2Proof.Machine

/-! Tasks. -/

/-- A thread has a task (R424). -/
def anyTask (s : State) : Bool := (List.range 40).any fun t => s.on F.HASTASK t

/-! Domains going off. -/

/-- The PTM_DOM_CTRL bit of domain `d`. -/
def domCtrl (s : State) (d : Nat) : Bool := (s.rd F.PTM_DOM_CTRL_CTRL (d / 32)).testBit (d % 32)

/-- The domain of the target of a request to `a`. -/
def addrDomain (a : Nat) : Nat := heldDomain ⟨.unit 47, true, 0, a, 4, 0⟩

/-- What domains of a list have accepted is answered ABORT (R175), what waits for one to power up PDOWN (R174). -/
def resetAborts (s : State) (l : List Nat) : State :=
  let waits (s : State) (r : Held) : Bool := s.rd F.DOM_STATE (heldDomain r) == 1
  let s := answerHeldBy s (fun r => l.contains (heldDomain r) && waits s r) .pdown false
  let s := answerHeldBy s (fun r => l.contains (heldDomain r)) .abort false
  answerTags s (fun a => l.contains (addrDomain a)) .abort false

/-- Domains of a list go off at once, and their contents and requests for clocks with them (R175, R753). -/
def forceOff (s : State) (l : List Nat) : State :=
  withdrawClocks ((resetAborts s l).each l fun s d => (s.resetDomain d).wr F.DOM_STATE 0 d) l

/-! Rails. -/

/-- The bit of a rail in PTM_SUPPLY.GOOD. -/
def railBit : Rail → Nat
  | .vdd33 => 0 | .vdd12 => 1 | .vcore => 2 | .vdda => 3 | .vusb33 => 4 | .vddioA => 5

/-- Rail `r` is good. -/
def railGood (s : State) (r : Rail) : Bool := (s.rd F.PTM_SUPPLY_GOOD).testBit (railBit r)

/-- Mark rail `r` good or not. -/
def setRail (s : State) (r : Rail) (b : Bool) : State :=
  s.wr F.PTM_SUPPLY_GOOD (putBit (s.rd F.PTM_SUPPLY_GOOD) (railBit r) b)

/-- Power the domains of a list as their policies and PTM_DOM_CTRL ask (R182). -/
def powerList (s : State) (l : List Nat) : State :=
  s.each l fun s d => if (ptmOnly d || (domCtrl s d && s.on F.POLICY d)) && domRailsGood s d then s.wr F.DOM_STATE 2 d else s

/-- RAIL_RISE (R182, R52, R85, R91, R218, R716): rail `r` becomes good. VDD33 releases the always-on domain with every
field at its reset value; `testEn` is the level of TEST_EN at that moment. -/
def railRise (s : State) (r : Rail) (testEn : Bool) : State :=
  if railGood s r then s
  else
    let s := match r with
      | .vdd33 =>
        let s := (setRail s r true).up F.PWR_EN
        if testEn then confine (s.up F.TST_STAT_TESTMODE) 0xD else s
      | _ => setRail s r true
    match r with
    | .vdd33 => if bUp s then powerDie s .b else s
    | .vdd12 => if bUp s then powerDie s .b else s
    | .vdda => if bUp s && s.rd F.PTM_STATE_CUR ≤ 2 then powerList s (List.range 15) else s
    | .vusb33 => if bUp s && s.rd F.PTM_STATE_CUR ≤ 2 then powerList s (39 :: (if cUp s then [121] else [])) else s
    | .vcore => s
    | .vddioA => s

/-- RAIL_FALL (R182, R183, R52): rail `r` falls below its falling threshold. -/
def railFall (s : State) (r : Rail) : State :=
  if !railGood s r then s
  else
    let s := setRail s r false
    match r with
    | .vdd33 => powerOff s
    | .vdd12 => bReset (dropVolatile s) F.RST_CAUSE_VDD12
    | .vcore => dropVolatile (cDieLoss (s.up F.RST_CAUSE_VCORE) 2)
    | .vdda => forceOff ((bindOff s 2).wr F.CM_COND_COND 0) (List.range 15)
    | .vusb33 => (forceOff s [39, 121]).post 3
    | .vddioA => cutStrobes (hdsAbandon s)

/-- BANK_DETECT (R182, R244): the bank detector decides the level of VDDIO_A. -/
def bankDetect (s : State) (v18 : Bool) : State :=
  if !railGood s .vddioA then s
  else
    let s := s.wrb F.PTM_SUPPLY_V18 v18
    if !s.on F.PRE_CAST && s.on F.BANK_A_V18 != v18 then (s.up F.BANK_HIZ).up F.BANK_A_MISMATCH else s

/-! Clocks. -/

/-- R57: what a failed HSXO does. -/
def oscFail (s : State) : State := ledgerRaise (s.up F.SU_TIER_HSXO_FAIL) 7

/-- A move of the PLL reference begins; `hsxo` is its target (R185). -/
def moveRef (s : State) (hsxo : Bool) : State := (s.up F.HSXO_SELECT 0 0).wrb F.HSXO_SELECT hsxo 0 1

/-- HSXO_STABLE (R185). -/
def hsxoStable (s : State) : State :=
  if !bUp s then s
  else
    let s := s.up F.HSXO_ON
    if s.on F.PLL_LOCKED && !s.on F.PTM_CLKSTAT_REF then moveRef s true else s

/-- HSXO_START_TIMEOUT (R57). -/
def hsxoStartTimeout (s : State) : State := if s.on F.HSXO_ON || !bUp s then s else oscFail s

/-- HSXO_STOP (R184, R187): where HSXO is the reference, the PLLs move back to FRC. The USB PLL runs from HSXO only. -/
def hsxoStop (s : State) : State :=
  let asRef := s.on F.PTM_CLKSTAT_REF || (s.on F.HSXO_SELECT 0 0 && s.on F.HSXO_SELECT 0 1)
  let s := clockLost (clockLost (s.down F.HSXO_ON) 0) 1
  if asRef then oscFail (moveRef s false) else s

/-- PLL_LOCK (R184, R203): both PLLs lock, to HSXO where it is stable. After a fast NAP wake the clocks stay on FRC until
the switch. -/
def pllLock (s : State) : State :=
  if !bUp s then s
  else
    let s := (s.up F.PLL_LOCKED).wrb F.PTM_CLKSTAT_REF (s.on F.HSXO_ON)
    if s.on F.PTM_STATE_ONFRC then s else s.up F.PTM_CLKSTAT_PLL

/-- PLL_REF_MOVE_DONE (R185). -/
def pllRefMoveDone (s : State) : State :=
  if s.on F.HSXO_SELECT 0 0 then ((s.wr F.PTM_CLKSTAT_REF (s.rd F.HSXO_SELECT 0 1)).down F.HSXO_SELECT 0 0).down F.HSXO_SELECT 0 1
  else s

/-- PLLC_LOSS_OF_LOCK (R39, R48). -/
def pllcLoss (s : State) : State :=
  if s.on F.PLL_LOCKED then mDieLoss (cDieLoss ((s.down F.PLL_LOCKED).down F.PTM_CLKSTAT_PLL) 3) 3 else s

/-- FAST_NAP_PLL_SWITCH (R203). -/
def fastNapSwitch (s : State) : State :=
  if s.on F.PTM_STATE_ONFRC && s.on F.PLL_LOCKED then (s.down F.PTM_STATE_ONFRC).up F.PTM_CLKSTAT_PLL else s

/-! Power states: 0 RUN, 1 DOZE, 2 NAP, 3 HIBERNATE, 4 SHUTDOWN. -/

/-- R200: wake source `b` can wake the device from state `st`. CM22 and CM23 need VDDA in SHUTDOWN. -/
def wakeAllowed (s : State) (st b : Nat) : Bool :=
  if st = 1 ∨ st = 2 then true
  else if st = 3 then b ≤ 7 || b == 9
  else b ≤ 2 || ((b == 3 || b == 4) && railGood s .vdda)

/-- A level-sensitive wake source is asserted now: WAKE0, WAKE1 at their polarity, CM22, CM23, MOD_IRQ, RMII CRS_DV, the drop warning
(R195 code 5, R200, R278). The levels of WAKE0, WAKE1 and MOD_IRQ are what the
outside drives (log entry 21). -/
def wakeAsserted (s : State) (b : Nat) : Bool :=
  match b with
  | 0 => ballIn s 128 == s.on F.PTM_WAKE_EN_WAKE0_POL
  | 1 => ballIn s 129 == s.on F.PTM_WAKE_EN_WAKE1_POL
  | 3 => (s.rd F.CM_COND_COND).testBit 22
  | 4 => (s.rd F.CM_COND_COND).testBit 23
  | 9 => !ballIn s 130
  | 10 => ballIn s 155
  | 11 => s.on F.PTM_SUPPLY_DROP_WARN
  | _ => false


/-- R195: the code of a condition that refuses entry to state `st` and may arise after the request too (R221); 0 for none. -/
def entryBlock (s : State) (st : Nat) : Nat :=
  if anyArmed s then 1
  else if s.on F.HDS_SLOT_BUSY || s.on F.ST_STAT_ACTIVE then 2
  else if s.on F.PTM_SUPPLY_DROP_WARN && st != 4 then 4
  else if livePending s then 6
  else 0

/-- R195: the code with which entry to state `st` is refused at the request, lowest first; 0 where it starts. -/
def entryRefusal (s : State) (st : Nat) : Nat :=
  if 4 < st then 7
  else if entryBlock s st ≠ 0 ∧ entryBlock s st < 5 then entryBlock s st
  else if (List.range 12).any (fun b => (s.rd F.PTM_WAKE_EN_EN).testBit b && wakeAllowed s st b && wakeAsserted s b) then 5
  else if livePending s then 6
  else 0

/-- Entry is refused with a code: REQ returns to RUN (R195). -/
def refuseEntry (s : State) (code : Nat) : State :=
  ((s.wr F.PTM_STATE_REFUSE code).wr F.PTM_STATE_REQ_REQ 0).wr F.ENTRY_REQ 0

/-- A write of PTM_STATE_REQ with state `st` (R193, R195, R216). NAP, HIBERNATE and SHUTDOWN are entered from RUN alone; written in
another state, they start nothing and REQ reads that state (DESIGN CHOICE, log entry 85). -/
def stateRequest (s : State) (st : Nat) : State :=
  let s := s.wr F.PTM_STATE_REQ_REQ st
  if st = 0 then s.wr F.ENTRY_REQ 0
  else if 2 ≤ st ∧ s.rd F.PTM_STATE_CUR ≠ 0 then s.wr F.PTM_STATE_REQ_REQ (s.rd F.PTM_STATE_CUR)
  else if st = 1 then (if s.on F.PTM_SUPPLY_DROP_WARN then refuseEntry s 4 else s.wr F.PTM_STATE_REFUSE 0)
  else
    let c := entryRefusal s st
    if c ≠ 0 then refuseEntry s c else (s.wr F.ENTRY_REQ st).wr F.PTM_STATE_REFUSE 0

/-- A domain drains for the entry in progress: draining has started (R221). -/
def entryDraining (s : State) : Bool := (List.range 136).any fun d => s.rd F.DOM_STATE d == 3 && domCtrl s d

/-- A refusal condition has arisen since the request and is found before draining starts (R221). -/
def entryLate (s : State) : Bool := s.on F.ENTRY_REQ && !entryDraining s && entryBlock s (s.rd F.ENTRY_REQ) != 0

/-- The refusal wins (R221). -/
def refuseLate (s : State) : State := refuseEntry s (entryBlock s (s.rd F.ENTRY_REQ))

/-- STATE_ENTRY_TASK_TIMEOUT (R195 code 3). -/
def entryTaskTimeout (s : State) : State := if s.on F.ENTRY_REQ && anyTask s then refuseEntry s 3 else s

/-- Domain `d` keeps its contents in HIBERNATE (R206). -/
def keptInHib (s : State) (d : Nat) : Bool := ((44 ≤ d && d ≤ 107) || d == 115) && s.on F.KEEP_HIB d

/-- The bytes of SRAM bank `n` list nothing any more (log entry 3). -/
def dropBank (s : State) (n : Nat) : State := dropRange s (0x20000000 + n * 0x10000) (0x20010000 + n * 0x10000)

/-- Pattern-loaded configuration takes its reset values (R4, R66, R210): the ledger's limits those of the fuses (R93). -/
def patternLost (s : State) : State :=
  let s := { s with regs := s.regs.filter fun e => !patternIds.contains e.1.f }
  (((s.wr F.ECC_LIM_ECC_LIM (s.rd F.FUSE_ECC_LIM)).wr F.WEAR_LIM_WEAR_LIM (s.rd F.FUSE_WEAR_LIM)).wr F.HOT_LIM_HOT_LIM
    (s.rd F.FUSE_HOT_LIM)).wr F.SP_LIM_SP_LIM (s.rd F.FUSE_SP_LIM)

/-- Every field but the pattern-loaded ones, the always-on ones and those of the domains `keep` names takes its reset
value (the power-state table: HIBERNATE and SHUTDOWN). -/
def loseContents (s : State) (pattern : Bool) (keep : Nat → Bool) : State :=
  let gone (k : Key) : Bool :=
    match keyHome k with
    | .at .b d => d != 255 && !keep d
    | .at .c d => !(d != 255 && keep d)
    | .at .m _ => true
    | _ => false
  let isPat (id : Nat) : Bool := pattern && patternIds.contains id
  { s with
    regs := s.regs.filter (fun e => isPat e.1.f || !gone e.1)
    queues := s.queues.filter fun e => match queueHome e.1 with
      | .at .b d => d == 255 || keep d | .at _ _ => false | _ => true
    events := [], stores := [], shadows := [], results := [], held := [] }

/-- STATE_ENTRY_COMPLETE (R191, R196, R197, R218, R231): draining has ended and the clocks stop. A retained domain that
is not reachable reads draining (log entry 12). -/
def entryComplete (s : State) : State :=
  let st := s.rd F.ENTRY_REQ
  if st = 0 || anyTask s then s
  else
    let s := (((s.wr F.PTM_STATE_CUR st).wr F.ENTRY_REQ 0).up F.HB_SUSPENDED 0).up F.HB_SUSPENDED 1
    let s := s.each (List.range 136) fun s d => s.wrb F.DOM_WAS_ON (s.rd F.DOM_STATE d == 2 || (s.rd F.DOM_STATE d == 3 && domCtrl s d)) d
    let s := (((s.down F.PLL_LOCKED).down F.PTM_CLKSTAT_PLL).down F.PTM_STATE_ONFRC).wr F.DK_STAT_ACTIVE 0
    let unkept := (List.range 136).filter fun d => !(st == 2 && s.on F.KEEP_NAP d)
    let s := withdrawClocks s unkept
    let s := if st = 2 then s.when (s.on F.RMII_OUT) rmiiWithdrawn
      else s.each (List.range 4) clockLost
    if st = 2 then
      s.each (List.range 136) fun s d =>
        if s.rd F.DOM_STATE d == 2 && !s.on F.KEEP_NAP d && !ptmOnly d then s.wr F.DOM_STATE 3 d else s
    else
      let hib := st == 3
      let s := s.each (List.range 64) fun s n => if hib && keptInHib s (44 + n) then s else dropBank s n
      let s := if hib && keptInHib s 115 then s else dropRange s 0x30000000 0x30018000
      let s := dropRange s 0x50032800 0x50032C00
      let s := loseContents s hib (fun d => hib && keptInHib s d)
      let s := s.each (List.range 136) fun s d =>
        s.wr F.DOM_STATE (if hib && keptInHib s d && s.on F.DOM_WAS_ON d then 3 else 0) d
      let s := (s.when (s.on F.STK_DIESTATE_C_STATE) (·.wr F.STK_DIESTATE_C_STATE 1)).when
        (s.on F.STK_DIESTATE_M_STATE) (·.wr F.STK_DIESTATE_M_STATE 1)
      let s := (s.down F.HSXO_ON).down F.PTM_CLKSTAT_REF
      if hib then s else ((((patternLost s).down F.PWR_EN).down F.PAT_ACTIVE_VALID).up F.PRE_CAST).up F.FAULT_CAUSE_BOOT

/-- A task is ready (R193): the dispatcher would leave DOZE for it. -/
def anyReady (s : State) : Bool := (List.range 256).any fun k => s.rd F.DSP_TSTAT_STATE k == 1

/-- DOZE_ENTER (R193, R216). -/
def dozeEnter (s : State) : State :=
  if s.rd F.PTM_STATE_REQ_REQ == 1 && s.rd F.PTM_STATE_CUR == 0 && !anyTask s && !anyReady s then
    (if s.on F.PTM_SUPPLY_DROP_WARN then refuseEntry s 4 else s.wr F.PTM_STATE_CUR 1)
  else s

/-- DOZE_EXIT (R193, R201): a task has become ready. -/
def dozeExit (s : State) : State :=
  if s.rd F.PTM_STATE_CUR == 1 then
    ((s.wr F.PTM_STATE_CUR 0).wr F.PTM_STATE_LAST 1).up F.PTM_WAKE_CAUSE_DISPATCH
  else s

/-- Record wake sources in PTM_WAKE_CAUSE (R201). -/
def recordWake (s : State) (m : Nat) : State := s.wr F.PTM_WAKE_CAUSE_SRC (s.rd F.PTM_WAKE_CAUSE_SRC ||| m)

/-- The state being entered keeps domain `d` (the power-state table; R206). NAP retains the thread cores and the pair whatever
their KEEP_NAP, so they do not drain (DEDUCED, log entry 12). -/
def entryKeeps (s : State) (d : Nat) : Bool :=
  match s.rd F.ENTRY_REQ with
  | 2 => s.on F.KEEP_NAP d || (108 ≤ d && d ≤ 113)
  | 3 => keptInHib s d
  | _ => false

/-- R196: an entry in progress is abandoned: the domains it has drained are powered again. -/
def abandonEntry (s : State) (b : Nat) : State :=
  let s := s.each (List.range 136) fun s d => if s.rd F.DOM_STATE d == 3 && domCtrl s d then s.wr F.DOM_STATE 2 d else s
  recordWake (((s.wr F.ENTRY_REQ 0).up F.PTM_STATE_ABORTED).wr F.PTM_STATE_REQ_REQ 0) (2 ^ b)

/-- WAKE_EVENT (R196, R200, R201, R218): wake source `b` asserts. -/
def wakeEvent (s : State) (b : Nat) : State :=
  let st := s.rd F.PTM_STATE_CUR
  if !(s.rd F.PTM_WAKE_EN_EN).testBit b then s
  else if s.on F.ENTRY_REQ then
    (if entryLate s then refuseLate s else if wakeAllowed s (s.rd F.ENTRY_REQ) b then abandonEntry s b else s)
  else if st = 0 || !wakeAllowed s st b then s
  else if st = 1 then recordWake ((s.wr F.PTM_STATE_CUR 0).wr F.PTM_STATE_LAST 1) (2 ^ b)
  else
    let s := (s.up F.WAKING).wr F.WAKE_PEND (s.rd F.WAKE_PEND ||| 2 ^ b)
    let s := if st = 3 then (recordWake s (2 ^ b)).each [36, 37, 38, 42, 43] fun s d => s.wr F.DOM_STATE 2 d else s
    if st = 4 then powerDie (s.up F.PWR_EN) .b else s

/-- Every domain that was on at entry is on again, and on return from HIBERNATE every domain with POLICY on, as far as its die is up and
its rails are good (R182, R202, R203). -/
def repowerAll (s : State) (hib : Bool) : State :=
  let up (d : Nat) : Bool := if d < 44 then true else if d < 128 then cUp s else mUp s
  s.each (List.range 136) fun s d =>
    if (s.on F.DOM_WAS_ON d || (hib && s.rd F.POLICY d == 1)) && up d && domRailsGood s d then s.wr F.DOM_STATE 2 d else s

/-- WAKE_RESUME from NAP or SHUTDOWN (R201 to R203). The return from HIBERNATE adds the warm path of the boot ROM and is
completed in Sys2Proof/Machine/StartupRows.lean. -/
def wakeResume (s : State) : State :=
  let st := s.rd F.PTM_STATE_CUR
  let s := recordWake ((s.wr F.PTM_STATE_CUR 0).wr F.PTM_STATE_LAST st) (s.rd F.WAKE_PEND)
  let s := ((s.wr F.WAKE_PEND 0).down F.WAKING).wr F.PTM_STATE_REQ_REQ 0
  match st with
  | 2 =>
    let s := clkReqWritten (repowerAll ((s.down F.HB_SUSPENDED 0).down F.HB_SUSPENDED 1) false)
    let s := if s.on F.PTM_STATE_REQ_FAST_NAP then s.up F.PTM_STATE_ONFRC
      else (s.up F.PLL_LOCKED).up F.PTM_CLKSTAT_PLL
    s.post 3
  | 3 => repowerAll (((s.up F.PLL_LOCKED).up F.PTM_CLKSTAT_PLL).down F.PTM_CLKSTAT_REF) true
  | _ => s.post 3

/-! Domains. -/

/-- Record a refusal or failure of a domain (R208). -/
def domErr (s : State) (d code : Nat) : State :=
  ((s.wr F.PTM_DOM_ERR_DOMAIN d).wr F.PTM_DOM_ERR_CODE code).up F.PTM_DOM_ERR_NEW

/-- Set the PTM_DOM_CTRL bit of domain `d`. -/
def setDomCtrl (s : State) (d : Nat) (b : Bool) : State :=
  s.wr F.PTM_DOM_CTRL_CTRL (putBit (s.rd F.PTM_DOM_CTRL_CTRL (d / 32)) (d % 32) b) (d / 32)

/-- The code with which a switching write is refused, or 0 (R208). -/
def domRefusal (s : State) (d : Nat) (on : Bool) : Nat :=
  if ptmOnly d || s.rd F.POLICY d < 2 then 1
  else if on then (if (domDeps d).any (fun e => s.rd F.DOM_STATE e == 0) then 2 else 0)
  else if (List.range 136).any (fun e => (domDeps e).contains d && s.rd F.DOM_STATE e == 2) then 3 else 0

/-- R207, R208: firmware's write of domain `d`'s bit. A domain that drains comes on once it has drained; one whose rails are not good
is held off until they are (R182). -/
def domSwitch (s : State) (d : Nat) (on : Bool) : State :=
  if domCtrl s d == on then s
  else
    let c := domRefusal s d on
    if c ≠ 0 then domErr s d c
    else
      let s := setDomCtrl s d on
      if on && s.rd F.DOM_STATE d == 0 && domRailsGood s d then s.wr F.DOM_STATE 1 d else s

/-- A write of PTM_DOM_CTRL `k` with value `v`: each bit that changes switches its domain. -/
def domCtrlWritten (s : State) (k v : Nat) : State :=
  s.each (List.range 32) fun s i => if 32 * k + i < 136 then domSwitch s (32 * k + i) (v.testBit i) else s

/-- Domain `d` is to drain: firmware has switched it off, or an entry, past its refusals, does not keep it (R196, R207,
R221). -/
def drainDue (s : State) (d : Nat) : Bool :=
  s.rd F.DOM_STATE d == 2 && !ptmOnly d && (!domCtrl s d || (s.on F.ENTRY_REQ && !anyTask s && !entryKeeps s d))

/-- DOMAIN_DRAIN_START (R171, R335): domain `d` drains. -/
def drainStart (s : State) (d : Nat) : State :=
  if drainDue s d then
    let s := legsDrain (s.wr F.DOM_STATE 3 d) d
    if d = 34 then hdsAbandon s else s
  else s


/-- DOMAIN_SWITCH_OFF (R173): a draining domain goes off; its contents end (R4, log entry 9). -/
def switchOff (s : State) (d : Nat) (forced : Bool) : State :=
  if s.rd F.DOM_STATE d == 3 then
    let s := withdrawClocks ((s.resetDomain d).wr F.DOM_STATE (if domCtrl s d && domRailsGood s d then 1 else 0) d) [d]
    let s := s.wrb F.DOM_FORCED forced d
    let s := if 44 ≤ d ∧ d ≤ 107 then dropBank s (d - 44)
      else if d = 115 then dropRange s 0x30000000 0x30018000
      else if d = 34 then dropRange s 0x50032800 0x50032C00 else s
    if d = 35 then routesSettled s else s
  else s

/-! Heat. -/

/-- The greater of two signed readings, 0x80 meaning none (R209, R224). -/
def hotter (a b : Nat) : Nat :=
  if a = 0x80 then b else if b = 0x80 then a else if signedOf 8 a < signedOf 8 b then b else a

/-- R210: the governing temperature `t` against the thresholds. -/
def thermal (s : State) (t : Int) : State :=
  let warn := signedOf 8 (s.rd F.PTM_THERM_T_WARN)
  let thr := signedOf 8 (s.rd F.PTM_THERM_T_THROTTLE)
  let crit := signedOf 8 (s.rd F.PTM_THERM_T_CRIT)
  let s := if s.on F.WARNED then (if t < warn - 3 then (s.down F.WARNED).post 0 else s)
    else if warn ≤ t then (s.up F.WARNED).post 0 else s
  let s := if s.on F.PTM_CLKSTAT_THROTTLE then (if t < thr - 3 then (s.down F.PTM_CLKSTAT_THROTTLE).post 1 else s)
    else if thr ≤ t then (s.up F.PTM_CLKSTAT_THROTTLE).post 1 else s
  if crit ≤ t then (if s.on F.TEMP_CRIT_ONCE then bindOff s 1 else s.up F.TEMP_CRIT_ONCE)
  else s.down F.TEMP_CRIT_ONCE

/-- TEMP_CONVERSION (R209, R210, R213): the four sensors read `b`, `m`, `c0`, `c1`; one on a die that is not up reads
0x80. -/
def tempConversion (s : State) (b m c0 c1 : Nat) : State :=
  if 2 < s.rd F.PTM_STATE_CUR || !bUp s then s
  else
    let m := if mUp s then m else 0x80
    let c0 := if cUp s then c0 else 0x80
    let c1 := if cUp s then c1 else 0x80
    let s := (((s.wr F.PTM_TEMP_TS_B b).wr F.PTM_TEMP_TS_M m).wr F.PTM_TEMP_TS_C0 c0).wr F.PTM_TEMP_TS_C1 c1
    let s := (((s.wr F.PTM_TEMP_MAX_TS_B (hotter (s.rd F.PTM_TEMP_MAX_TS_B) b)).wr F.PTM_TEMP_MAX_TS_M
      (hotter (s.rd F.PTM_TEMP_MAX_TS_M) m)).wr F.PTM_TEMP_MAX_TS_C0 (hotter (s.rd F.PTM_TEMP_MAX_TS_C0) c0)).wr
      F.PTM_TEMP_MAX_TS_C1 (hotter (s.rd F.PTM_TEMP_MAX_TS_C1) c1)
    let g := hotter (hotter b m) (hotter c0 c1)
    if g = 0x80 then s else thermal s (signedOf 8 g)

/-- HOT_TIME_MINUTE (R93, R94, R96): a minute has passed with a sensor above 115 °C, by the readings held as it ends; R94 does not say
which readings within the minute count (DESIGN CHOICE, log entry 88). -/
def hotMinute (s : State) : State :=
  let hot := [s.rd F.PTM_TEMP_TS_B, s.rd F.PTM_TEMP_TS_M, s.rd F.PTM_TEMP_TS_C0, s.rd F.PTM_TEMP_TS_C1].any fun t =>
    t != 0x80 && decide (115 < signedOf 8 t)
  if !hot then s
  else
    let s := s.bump F.HOT_TIME_MINUTES
    let s := if s.rd F.HOT_SINCE + 1 < 60 then s.wr F.HOT_SINCE (s.rd F.HOT_SINCE + 1)
      else (s.wr F.HOT_SINCE 0).up F.LEDGER_PENDING
    if s.rd F.HOT_LIM_HOT_LIM * 60 ≤ s.rd F.HOT_TIME_MINUTES then ledgerRaise s 3 else s

/-! Supply-drop warning. -/

/-- SUPPLY_DROP_WARNING (R214, R216, R220, R221): an entry to NAP that has begun to drain is abandoned; an entry to a state but SHUTDOWN
that has not is refused. -/
def dropWarn (s : State) : State :=
  if s.on F.PTM_SUPPLY_DROP_WARN then s
  else
    let s := ((s.up F.PTM_SUPPLY_DROP_WARN).bump F.PTM_DROP_COUNT_COUNT).post 2
    if s.rd F.ENTRY_REQ == 2 || s.rd F.ENTRY_REQ == 3 then (if entryDraining s || s.rd F.ENTRY_REQ == 2 then abandonEntry s 11 else refuseEntry s 4)
    else s

/-- The comparator that PTM_DROP_CFG names is asserted (R214, R217, R278). -/
def dropCmp (s : State) : Bool := decide (s.rd F.PTM_DROP_CFG_CMP < 24) && (s.rd F.CM_COND_COND).testBit (s.rd F.PTM_DROP_CFG_CMP)

/-- SUPPLY_DROP_CLEAR (R217). -/
def dropClear (s : State) : State :=
  if s.on F.PTM_SUPPLY_DROP_WARN && !dropCmp s then (s.down F.PTM_SUPPLY_DROP_WARN).post 2 else s

/-! The commands. -/

def execRailRise (rail : Rail) (testEn : Bool) (s : State) : Out := .next (railRise s rail testEn)
def execRailFall (rail : Rail) (s : State) : Out := .next (railFall s rail)
def execBankDetect (v18 : Bool) (s : State) : Out := .next (bankDetect s v18)
def execHsxoStable (s : State) : Out := .next (hsxoStable s)
def execHsxoStartTimeout (s : State) : Out := .next (hsxoStartTimeout s)
def execHsxoStop (s : State) : Out := .next (hsxoStop s)
def execPllLock (s : State) : Out := .next (pllLock s)
def execPllRefMoveDone (s : State) : Out := .next (pllRefMoveDone s)
def execPllcLossOfLock (s : State) : Out := .next (pllcLoss s)
/-- PLLT_LOSS_OF_LOCK (R188): bind-off. -/
def execPlltLossOfLock (s : State) : Out :=
  .next (if s.on F.PLL_LOCKED then bindOff ((s.down F.PTM_CLKSTAT_PLL).when (s.on F.RMII_OUT) (clockLost · 2)) 3 else s)
/-- LSXO_FAIL (R189). -/
def execLsxoFail (s : State) : Out := .next (if s.on F.LSXO_FIT then s.up F.PTM_CLKSTAT_LSXO_FAIL else s)
def execClockRequest (clk : Fin 4) (who : Option (Fin 136)) (s : State) : Out :=
  .next (clockRequest s clk.val (match who with | some d => d.val | none => fwRequester))
def execClockGrant (clk : Fin 4) (s : State) : Out := .next (clockGrant s clk.val)
def execClockRelease (clk : Fin 4) (who : Option (Fin 136)) (s : State) : Out :=
  .next (clockRelease s clk.val (match who with | some d => d.val | none => fwRequester))
def execStateEntryTaskTimeout (s : State) : Out := .next (entryTaskTimeout s)
def execDozeEnter (s : State) : Out := .next (dozeEnter s)
def execWakeEvent (src : Fin 12) (s : State) : Out := .next (wakeEvent s src.val)

def execTempConversion (tsB tsM tsC0 tsC1 : BitVec 8) (s : State) : Out :=
  .next (tempConversion s tsB.toNat tsM.toNat tsC0.toNat tsC1.toNat)
def execHotTimeMinute (s : State) : Out := .next (hotMinute s)
def execSupplyDropWarning (s : State) : Out := .next (dropWarn s)

end Sys2Proof.Machine
end

