-- ==== Sys2Proof/Machine/LoopEngine.lean ====
section
/-!
DEFINITION. The loop engine (09_loop_engine.md): slots, laws, the output stage, rows, express slots, tables and MICRO
programs. Values are integers: a word of a slot holds 16 fraction bits under FMT 0 and 31 under FMT 1 (R346).
-/
namespace Sys2Proof.Machine

/-! Engine memory (R340). -/

/-- The VALUE word `i` of table `n`. -/
def ltValue (n i : Nat) : Nat := 0x30000000 + 0x4000 * n + 4 * i
/-- The PRELOAD word. -/
def ltPreload (n i : Nat) : Nat := 0x30001000 + 0x4000 * n + 4 * i
/-- The SNAP word. -/
def ltSnap (n i : Nat) : Nat := 0x30002000 + 0x4000 * n + 4 * i
/-- Parameter word `p` of bank `b` of slot `n`. -/
def paramAddr (n b p : Nat) : Nat := 0x30010000 + 0x200 * n + 0x100 * b + 4 * p
/-- State word `w` of slot `n`. -/
def stateAddr (n w : Nat) : Nat := 0x30016000 + 0x40 * n + 4 * w

/-- Word `i` of the micro-op store. -/
def microAddr (i : Nat) : Nat := 0x30017000 + 4 * i

/-- A word of engine memory as a signed integer. -/
def leInt (s : State) (a : Nat) : Int := signedOf 32 (s.mget a 4)

/-- Store a signed integer as a word. -/
def leSet (s : State) (a : Nat) (x : Int) : State := s.mset a 4 (patternOf 32 x)

/-- The stitches of row `r`: its NSTITCH slot numbers (R120). -/
def rowN (s : State) (r : Nat) : Nat := bits (s.mget (rowAddr r) 4) 21 16

/-- Stitch `k` of row `r`. -/
def rowSlot (s : State) (r k : Nat) : Nat := (s.byte (rowAddr r + 4 + k)).toNat

/-- The active bank of slot `n`. -/
def leBank (s : State) (n : Nat) : Nat :=
  bnat (if n < 32 then (s.rd F.LE_BANK0_BANK).testBit n else (s.rd F.LE_BANK1_BANK).testBit (n - 32))

/-- Parameter word `p` of the active bank. -/
def leP (s : State) (n p : Nat) : Nat := s.mget (paramAddr n (leBank s n) p) 4

/-- The same as a signed integer. -/
def lePI (s : State) (n p : Nat) : Int := signedOf 32 (leP s n p)

/-- LEN of table `n`. -/
def ltLen (s : State) (n : Nat) : Nat := s.rd F.LE_LT_CTL_LEN n

/-! Numbers. -/

/-- Fraction bits of slot `n`'s format. -/
def fracBits (s : State) (n : Nat) : Nat := if s.on F.LE_SLOT_CFG_FMT n then 31 else 16

/-- Round `x / 2^k` to nearest, ties towards plus infinity (R346). -/
def roundShift (x : Int) (k : Nat) : Int := if k = 0 then x else (x + Int.ofNat (2 ^ (k - 1))) / Int.ofNat (2 ^ k)

/-- Round `a / b` likewise, for any nonzero `b`. -/
def roundDiv (a b : Int) : Int := let a := if b < 0 then -a else a; let b := if b < 0 then -b else b; (2 * a + b) / (2 * b)

/-- The greatest word. -/
def w32max : Int := 2147483647
/-- The least word. -/
def w32min : Int := -2147483648

/-- Saturate to 32 bits. -/
def sat32 (x : Int) : Int := clampInt w32min w32max x

/-- What one stitch carries along: the state, whether a store saturated (ARITH), other marks to set, and whether it has read an
uncorrectable word (R380). -/
structure Stitch where
  s : State
  ecc : Bool := false
  arith : Bool := false
  ffClamp : Bool := false
  noph : Bool := false
  cfgErr : Bool := false
deriving DecidableEq, Repr

/-- The stitch reads the words at `l` (R380). -/
def Stitch.reads (c : Stitch) (l : List Nat) : Stitch := { c with ecc := c.ecc || l.any fun a => c.s.anyBad a 4 }

/-- A saturating store of an exact result (R346) that carries `extra` fraction bits more than a product of two values. A
result outside the 64-bit accumulators, whose handling the spec does not state, is a free value (log entry 5). -/
def Stitch.store (c : Stitch) (k : Nat) (x : Int) (extra : Nat := 0) : Int × Stitch :=
  if x < -(2 ^ (63 + extra)) ∨ 2 ^ (63 + extra) ≤ x then (signedOf 32 (c.s.freeBits 32), { c with s := c.s.drew })
  else
    let r := roundShift x k
    (sat32 r, if sat32 r = r then c else { c with arith := true })

/-- A value between slots of different formats (R347). -/
def convert (fromFrac toFrac : Nat) (x : Int) : Int :=
  if fromFrac = toFrac then x
  else if fromFrac < toFrac then sat32 (x * Int.ofNat (2 ^ (toFrac - fromFrac)))
  else sat32 (roundShift x (fromFrac - toFrac))

/-! Inputs. -/

/-- A latch input of slot `n`, scaled (R348): ((VALUE − MOFS) / 65,536) × MGAIN, MGAIN in Q16.16. -/
def Stitch.latch (c : Stitch) (n j : Nat) : Int × Stitch :=
  let x := Int.ofNat (c.s.rd F.LE_LATCH n j) - Int.ofNat (leP c.s n 2 % 65536)
  c.store (32 - fracBits c.s n) (x * lePI c.s n 3)

/-- Output y of slot `m` in the format of slot `n` (R342, R347). -/
def slotOut (s : State) (n m : Nat) : Int := convert (fracBits s m) (fracBits s n) (signedOf 32 (s.rd F.LE_Y m))

/-- An input code is one of those R342 lists. -/
def inputCodeOk (code : Nat) : Bool := code ≤ 3 || (0x10 ≤ code && code ≤ 0x3F) || code == 0xFF

/-- The input that `code` names (R342); 0xFF reads `none`. A reserved code is taken as 0xFF and sets CFGERR (R381). -/
def Stitch.input (c : Stitch) (n code : Nat) (none : Int) : Int × Stitch :=
  if code ≤ 3 then c.latch n code
  else if 0x10 ≤ code ∧ code ≤ 0x3F then (slotOut c.s n (code - 0x10), c)
  else (none, if code = 0xFF then c else { c with cfgErr := true })

/-! Tables and phase. -/

/-- The table of slot `n`, when it has one. -/
def slotTable (s : State) (n : Nat) : Option Nat :=
  if s.on F.LE_SLOT_CFG_LT_EN n then some (s.rd F.LE_SLOT_CFG_LT n) else none

/-- Table `t` interpolated at an index of `k` fraction bits clamped to [0, LEN − 1] (R351, TABLE); the result carries
`k` more fraction bits than the table's words. -/
def tableAt (s : State) (t k : Nat) (idx : Int) : Int :=
  let top := Int.ofNat (ltLen s t - 1) * Int.ofNat (2 ^ k)
  let i := (clampInt 0 top idx).toNat
  let n := i / 2 ^ k
  let a := leInt s (ltValue t n)
  let b := if n + 1 < ltLen s t then leInt s (ltValue t (n + 1)) else a
  a * Int.ofNat (2 ^ k) + (b - a) * Int.ofNat (i % 2 ^ k)

/-- The words that this interpolation reads. -/
def tableWords (s : State) (t k : Nat) (idx : Int) : List Nat :=
  let n := (clampInt 0 (Int.ofNat (ltLen s t - 1) * Int.ofNat (2 ^ k)) idx).toNat / 2 ^ k
  if n + 1 < ltLen s t then [ltValue t n, ltValue t (n + 1)] else [ltValue t n]

/-- R366: the phase index k of slot `n`, when it is valid. POS of a PROFILE slot is its state word 0, read unsigned
(DEDUCED, log entry 14). -/
def phaseIndex (s : State) (n : Nat) : Option Nat :=
  let src := leP s n 12 % 256
  let rev := leP s n 14
  let slot := src - 0x80
  if 0x80 ≤ src ∧ src ≤ 0xAF ∧ rev ≠ 0 ∧ s.rd F.LE_SLOT_CFG_LAW slot = 7 then
    match slotTable s n with
    | some t => some ((s.mget (stateAddr slot 0) 4 % rev) * ltLen s t / rev)
    | none => none
  else none

/-! Laws. State words: PI and PID keep I, e1, D in words 0 to 2; 2P2Z and 3P3Z e1 to e3 in 0 to 2 and v1 to v3 in 3 to 5;
STATE4 x in 0 to 3; PROFILE POS, its fraction, VEL, ACC in 0 to 3 (DESIGN CHOICE, log entry 14); MICRO S0 to S7 in 0 to 7
(R375). -/

/-- State word `w` of slot `n`. -/
def sw (s : State) (n w : Nat) : Int := leInt s (stateAddr n w)

/-- Write state word `w`. -/
def Stitch.setSw (c : Stitch) (n w : Nat) (x : Int) : Stitch := { c with s := leSet c.s (stateAddr n w) x }

/-- PI and PID (R351, R352); `pid` adds the derivative term. -/
def lawPi (c : Stitch) (n fb : Nat) (e : Int) (pid : Bool) : Int × Stitch :=
  let s := c.s
  let i := sw s n 0
  let kp := lePI s n 16
  let ki := lePI s n 17
  let dc := if pid then
      let x := c.store fb (lePI s n 18 * (e - sw s n 1) - sw s n 2 * Int.ofNat (2 ^ fb))
      x.2.store fb (sw s n 2 * Int.ofNat (2 ^ fb) + lePI s n 19 * x.1)
    else (0, c)
  let v := dc.2.store fb (kp * e + (i + dc.1) * Int.ofNat (2 ^ fb) + ki * e)
  let clamped := s.rd F.LE_CLAMP n
  let hold := (clamped == 1 && decide (0 < e)) || (clamped == 2 && decide (e < 0))
  let ni := if hold then (i, v.2) else v.2.store fb (i * Int.ofNat (2 ^ fb) + ki * e)
  let c := (ni.2.setSw n 0 ni.1).setSw n 1 e
  (v.1, if pid then c.setSw n 2 dc.1 else c)

/-- 2P2Z (`k` 2) and 3P3Z (`k` 3) (R351): b0 to bk from P16, a1 to ak after them. -/
def lawZ (c : Stitch) (n fb k : Nat) (e : Int) : Int × Stitch :=
  let s := c.s
  let b (j : Nat) := lePI s n (16 + j)
  let a (j : Nat) := lePI s n (16 + k + j)
  let es := (List.range k).foldl (fun acc j => acc + b (j + 1) * sw s n j) (b 0 * e)
  let v := c.store fb ((List.range k).foldl (fun acc j => acc - a (j + 1) * sw s n (3 + j)) es)
  let e1 := sw s n 0
  let e2 := sw s n 1
  let v1 := sw s n 3
  let v2 := sw s n 4
  let vc := clampInt (lePI s n 4) (lePI s n 5) v.1
  (v.1, (((((v.2.setSw n 0 e).setSw n 1 e1).setSw n 2 e2).setSw n 3 vc).setSw n 4 v1).setSw n 5 v2)

/-- STATE4 (R351). -/
def lawState4 (c : Stitch) (n fb : Nat) (r m : Int) : Int × Stitch :=
  let s := c.s
  let p (j : Nat) := lePI s n j
  let x (j : Nat) := sw s n j
  let one := Int.ofNat (2 ^ fb)
  let v := c.store fb ((List.range 4).foldl (fun acc j => acc - p (44 + j) * x j) (p 48 * r))
  let t := v.2.store fb ((List.range 4).foldl (fun acc j => acc - p (40 + j) * x j) (m * one))
  let rows := (List.range 4).foldl (fun (acc : List Int × Stitch) i =>
      let y := acc.2.store fb ((List.range 4).foldl (fun z j => z + p (16 + 4 * i + j) * x j) (p (32 + i) * v.1 + p (36 + i) * t.1))
      (acc.1 ++ [y.1], y.2)) ([], t.2)
  (v.1, (rows.1.zipIdx).foldl (fun c y => c.setSw n y.2 y.1) rows.2)

/-- TABLE (R351): TSTEP is Q16.16. -/
def lawTable (c : Stitch) (n fb t : Nat) (m : Int) : Int × Stitch :=
  let i := (m - lePI c.s n 16) * lePI c.s n 17
  (c.reads (tableWords c.s t (fb + 16) i)).store (fb + fb + 16) (lePI c.s n 18 * tableAt c.s t (fb + 16) i) (fb + 16)

/-- The sign of an integer. -/
def sgn (x : Int) : Int := if x < 0 then -1 else if x = 0 then 0 else 1

/-- PROFILE (R353). POS has a 32-bit integer part (word 0) and a 16-bit fraction (word 1) and wraps. -/
def lawProfile (c : Stitch) (n : Nat) : Int × Stitch :=
  let s := c.s
  let vmax := lePI s n 16
  let amax := lePI s n 17
  let pos := s.mget (stateAddr n 0) 4 * 65536 + s.mget (stateAddr n 1) 4 % 65536
  let d := signedOf 48 (patternOf 48 (lePI s n 18 * 65536 - Int.ofNat pos))
  let vel := sw s n 2
  let acc := if 2 * amax * Int.ofNat d.natAbs ≤ vel * vel then -(sgn vel) * amax
    else if Int.ofNat vel.natAbs < vmax then sgn d * amax else 0
  let vel := clampInt (-vmax) vmax (vel + acc)
  let npos := patternOf 48 (Int.ofNat pos + vel)
  let there := decide (Int.ofNat d.natAbs < 65536) && decide (Int.ofNat vel.natAbs ≤ amax)
  let c' := if there then ((({ c with s := s.mset (stateAddr n 0) 4 (leP s n 18) } : Stitch).setSw n 1 0).setSw n 2 0).setSw n 3 0
    else ((({ c with s := s.mset (stateAddr n 0) 4 (npos / 65536) } : Stitch).setSw n 1 (Int.ofNat (npos % 65536))).setSw n 2
      (sat32 vel)).setSw n 3 (sat32 acc)
  (if there then 0 else sat32 vel, c')

/-! MICRO programs (R373 to R376). -/

/-- The value of operand code `o` for slot `n`, as R375's table reads it; `mre` are m, r and e. -/
def Stitch.operand (c : Stitch) (n o : Nat) (mre : Int × Int × Int) : Int × Stitch :=
  if o ≤ 3 then (signedOf 32 (c.s.rd F.LE_W n o), c)
  else if 8 ≤ o ∧ o ≤ 0xF then (sw c.s n (o - 8), c.reads [stateAddr n (o - 8)])
  else if 0x10 ≤ o ∧ o ≤ 0x13 then c.latch n (o - 0x10)
  else if o = 0x14 then (mre.1, c)
  else if o = 0x15 then (mre.2.1, c)
  else if o = 0x16 then (mre.2.2, c)
  else if o = 0x17 then
    match phaseIndex c.s n with
    | some k => (Int.ofNat k, c)
    | none => (0, { c with noph := true })
  else if o = 0x18 then (signedOf 32 (c.s.rd F.LE_W n 4), c)
  else (lePI c.s n (o - 0x40), c.reads [paramAddr n (leBank c.s n) (o - 0x40)])

/-- Write destination code `d` (R375: W or S). -/
def Stitch.dest (c : Stitch) (n d : Nat) (x : Int) : Stitch :=
  if d ≤ 3 then { c with s := c.s.wr F.LE_W (patternOf 32 x) n d } else c.setSw n (d - 8) x

/-- The accumulator ACC of a MICRO slot, 64 bits in the product format. -/
def microAcc (s : State) (n : Nat) : Int := signedOf 64 (s.rd F.LE_W n 6)

/-- Set ACC; it saturates at 64 bits (R376: results saturate). -/
def Stitch.setAcc (c : Stitch) (n : Nat) (x : Int) : Stitch :=
  let y := clampInt (-(2 ^ 63)) (2 ^ 63 - 1) x
  { c with s := c.s.wr F.LE_W (patternOf 64 y) n 6, arith := c.arith || y != x }

/-- One micro-op other than YIELD and END (R376). -/
def microOp (c : Stitch) (n fb word : Nat) (mre : Int × Int × Int) : Stitch :=
  let op := bits word 31 26
  let d := bits word 25 19
  let imm := word % 32
  let xa := c.operand n (bits word 18 12) mre
  let xb := xa.2.operand n (bits word 11 5) mre
  let a := xa.1
  let b := xb.1
  let put (c : Stitch) (k : Nat) (x : Int) : Stitch := let r := c.store k x; r.2.dest n d r.1
  let one := Int.ofNat (2 ^ fb)
  match op with
  | 0x00 => c
  | 0x01 => put xa.2 0 a
  | 0x02 => put xb.2 0 (a + b)
  | 0x03 => put xb.2 0 (a - b)
  | 0x04 => put xb.2 fb (a * b)
  | 0x05 => xb.2.setAcc n (microAcc c.s n + a * b)
  | 0x06 => xb.2.setAcc n (microAcc c.s n - a * b)
  | 0x07 => xa.2.setAcc n (a * one)
  | 0x08 => put c fb (microAcc c.s n)
  | 0x09 => put xa.2 0 (Int.ofNat a.natAbs)
  | 0x0A => put xa.2 0 (-a)
  | 0x0B => put xb.2 0 (if a < b then a else b)
  | 0x0C => put xb.2 0 (if a < b then b else a)
  | 0x0D => put xa.2 0 (a * Int.ofNat (2 ^ imm))
  | 0x0E => put xa.2 0 (a / Int.ofNat (2 ^ imm))
  | 0x0F =>
    let f := if imm = 0 then decide (b < a) else if imm = 1 then decide (b ≤ a) else a == b
    { xb.2 with s := xb.2.s.wrb F.LE_W f n 5 }
  | 0x10 => put xb.2 0 (if c.s.on F.LE_W n 5 then a else b)
  | 0x11 =>
    match slotTable c.s n with
    | some t => put (xa.2.reads (tableWords c.s t fb a)) fb (tableAt c.s t fb a)
    | none => { xa.2 with s := xa.2.s.drew }.dest n d (signedOf 32 (xa.2.s.freeBits 32))
  | 0x12 => { xa.2 with s := xa.2.s.wr F.LE_W (patternOf 32 a) n 4 }
  | 0x13 => { c with s := c.s.post (128 + n) }
  | _ => c

/-- How a MICRO stitch ended. -/
inductive MicroEnd where
  | done | yielded
deriving DecidableEq, Repr

/-- Run micro-ops from the slot's position until END, YIELD, the cycle limit or the end of the program (R373). -/
def microRun (fuel : Nat) (c : Stitch) (n fb limit cycles : Nat) (mre : Int × Int × Int) : MicroEnd × Stitch :=
  match fuel with
  | 0 => (.yielded, c)
  | fuel + 1 =>
    let pc := c.s.rd F.LE_UPC n
    if c.s.rd F.LE_MICRO_LEN n ≤ pc then (.done, c)
    else if limit ≤ cycles then (.yielded, c)
    else
      let at' := microAddr (c.s.rd F.LE_MICRO_BASE n + pc)
      let word := c.s.mget at' 4
      let op := bits word 31 26
      let c := { c.reads [at'] with s := c.s.wr F.LE_UPC (pc + 1) n }
      if op = 0x15 then (.done, c)
      else if op = 0x14 then (.yielded, c)
      else microRun fuel (microOp c n fb word mre) n fb limit (cycles + if op = 0x11 then 2 else 1) mre

/-! The output stage (R354 to R356). -/

/-- The cycle cost of the features CTL enables (R354, R373). -/
def featureCost (ctl : Nat) : Nat :=
  2 * bnat (ctl.testBit 10) + bnat (ctl.testBit 9) + 2 * bnat (ctl.testBit 8)

/-- Step 1 and the learning update (R354, R366, R367, R369, R370). -/
def stageRc (c : Stitch) (n _fb : Nat) (e v : Int) : Int × Stitch :=
  match phaseIndex c.s n, slotTable c.s n with
  | some k, some t =>
    let s := c.s
    let len := ltLen s t
    let i := (k + bits (leP s n 12) 12 8) % max 1 len
    let src := if s.on F.LE_COPY t && s.on F.LE_TBUSY_PRE t then ltPreload t i else ltValue t i
    let learns := !s.on F.LE_LT_CTL_FREEZE t && !s.on F.LE_LT_CTL_BUSY t
    let r := (c.reads (if learns then [src, ltValue t k] else [src])).store 0 (v + leInt s src)
    if s.on F.LE_LT_CTL_FREEZE t then r
    else if s.on F.LE_LT_CTL_BUSY t then (r.1, { r.2 with s := r.2.s.bump F.LE_TALLY1_LT_SKIP })
    else
      let gain := signedOf 16 (leP s n 13 % 65536)
      let forget := signedOf 16 (leP s n 13 / 65536)
      let y := r.2.store 15 (forget * leInt r.2.s (ltValue t k) + gain * e)
      (r.1, { y.2 with s := leSet y.2.s (ltValue t k) y.1 })
  | _, _ => (v, { c with noph := true })

/-- Step 2: acceleration feed-forward from PROFILE slot ASRC; a number that names none turns it off (R381). -/
def stageFf2 (c : Stitch) (n fb : Nat) (v : Int) : Int × Stitch :=
  let a := leP c.s n 10 % 64
  if a < 48 ∧ c.s.rd F.LE_SLOT_CFG_LAW a = 7 then
    c.store fb (v * Int.ofNat (2 ^ fb) + lePI c.s n 11 * convert 16 fb (sw c.s a 3))
  else (v, { c with cfgErr := true })

/-- Step 3: supply feed-forward (R354, R355). A division by 0 outside the clamp is a free value (log entry 5). -/
def stageFf1 (c : Stitch) (n : Nat) (v : Int) : Int × Stitch :=
  let x := c.input n (leP c.s n 8 % 256) 0
  let vin := x.1
  let c := x.2
  let vnom := lePI c.s n 9
  let sq := (leP c.s n 1).testBit 14
  let clamp (c : Stitch) : Int × Stitch := ({ c with ffClamp := true } : Stitch).store 0 (16 * v)
  if 16 * vin ≤ vnom then clamp c
  else if vin = 0 then (signedOf 32 (c.s.freeBits 32), { c with s := c.s.drew })
  else if sq then
    if 16 * vin * vin < vnom * vnom then clamp c else c.store 0 (roundDiv (v * vnom * vnom) (vin * vin))
  else c.store 0 (roundDiv (v * vnom) vin)

/-- Step 6: the SHADOW that carries `out` to the OUT target (R343, R356), in eighths of a tick under OFINE. -/
def shadowOf (code : Nat) (ofine : Bool) (out : Int) : Option Shadow :=
  let lim (w : Nat) : Nat := (clampInt 0 (Int.ofNat (2 ^ (if ofine then w + 3 else w) - 1)) out).toNat
  let split (w : Nat) : Nat := if ofine then lim w / 8 + (lim w % 8) * 2 ^ (if w = 24 then 24 else 16) else lim w
  if code ≤ 0x3F then some ⟨0x50010120 + 0x1000 * (code / 4) + 4 * (code % 4), split 24⟩
  else if code ≤ 0x4F then some ⟨0x5001010C + 0x1000 * (code - 0x40), (clampInt 0 (Int.ofNat (2 ^ 24 - 1)) out).toNat⟩
  else if 0x50 ≤ code ∧ code ≤ 0x57 then some ⟨0x50031100 + 4 * (code - 0x50), split 16⟩
  else none

/-- Output-saturation supervision (R371, R372); the answer names the leg that SAT_ACTION 2 trips. -/
def satSupervise (s : State) (n : Nat) (clamped : Bool) : State × Option Nat :=
  if !clamped then ((s.wr F.LE_SLOT_STAT_SAT_RUN 0 n).down F.LE_SATDONE n, none)
  else
    let s := (s.bump F.LE_SLOT_STAT_SAT_RUN n).bump F.LE_SAT_TOTAL_COUNT n
    let lim := leP s n 15 % 65536
    if lim ≠ 0 ∧ lim ≤ s.rd F.LE_SLOT_STAT_SAT_RUN n ∧ !s.on F.LE_SATDONE n then
      let s := ((s.up F.LE_SLOT_STAT_SAT_HIT n).up F.LE_EVT_SAT).up F.LE_SATDONE n
      match bits (leP s n 1) 13 12 with
      | 0 => (s, none)
      | 1 => (s.post (128 + n), none)
      | 2 => (s.post (128 + n), some (bits (leP s n 15) 19 16))
      | _ => (s.up F.LE_SLOT_STAT_CFGERR n, none)
    else (s, none)

/-- The whole output stage on `v` (R354). -/
def outputStage (c : Stitch) (n fb : Nat) (e v : Int) : Stitch × Option Nat :=
  let ctl := leP c.s n 1
  let x := if ctl.testBit 10 then stageRc c n fb e v else (v, c)
  let x := if ctl.testBit 9 then stageFf2 x.2 n fb x.1 else x
  let x := if ctl.testBit 8 then stageFf1 x.2 n x.1 else x
  let c := x.2
  let lo := lePI c.s n 4
  let hi := lePI c.s n 5
  let y := clampInt lo hi x.1
  let cl := if y < x.1 then 1 else if x.1 < y then 2 else 0
  let out := roundShift (y * lePI c.s n 6) (fb + 16) + lePI c.s n 7
  let s := (c.s.wr F.LE_Y (patternOf 32 y) n).wr F.LE_CLAMP cl n
  let s := match shadowOf (s.rd F.LE_SLOT_CFG1_OUT n) (ctl.testBit 11) out with
    | some sh => sendShadow s sh
    | none => s
  let r := satSupervise s n (cl != 0)
  ({ c with s := r.1 }, r.2)

/-! Stitches. -/

/-- Clear requests of slot `n` (R379). -/
def leClear (s : State) (n : Nat) : State :=
  let s := (List.range 16).foldl (fun s w => s.mset (stateAddr n w) 4 0) s
  let s := ((s.wr F.LE_SLOT_STAT_SAT_RUN 0 n).down F.LE_SATDONE n).down F.LE_MID n
  ((s.wr F.LE_UPC 0 n).down F.LE_SLOT_STAT_ECC_OFF n).down F.LE_SLOT_STAT_CFGERR n

/-- A requested clear takes effect at the start of the slot's stitch (R379). -/
def leTakeClear (s : State) (n : Nat) : State :=
  if n < 32 then
    if (s.rd F.LE_CLR0_CLR).testBit n then leClear (s.wr F.LE_CLR0_CLR (putBit (s.rd F.LE_CLR0_CLR) n false)) n else s
  else
    if (s.rd F.LE_CLR1_CLR).testBit (n - 32) then
      leClear (s.wr F.LE_CLR1_CLR (putBit (s.rd F.LE_CLR1_CLR) (n - 32) false)) n else s

/-- Swap the bank of slot `n` where a swap is pending (R377). -/
def leSwapSlot (s : State) (n : Nat) : State :=
  let s := s.down F.LE_SWAP_DUE n
  if n < 32 then
    if (s.rd F.LE_SWAP0_SWAP).testBit n then
      let s := s.wr F.LE_SWAP0_SWAP (putBit (s.rd F.LE_SWAP0_SWAP) n false)
      s.wr F.LE_BANK0_BANK (putBit (s.rd F.LE_BANK0_BANK) n !(s.rd F.LE_BANK0_BANK).testBit n)
    else s
  else
    if (s.rd F.LE_SWAP1_SWAP).testBit (n - 32) then
      let s := s.wr F.LE_SWAP1_SWAP (putBit (s.rd F.LE_SWAP1_SWAP) (n - 32) false)
      s.wr F.LE_BANK1_BANK (putBit (s.rd F.LE_BANK1_BANK) (n - 32) !(s.rd F.LE_BANK1_BANK).testBit (n - 32))
    else s

/-- A swap of slot `n` is pending. -/
def leSwapAsked (s : State) (n : Nat) : Bool :=
  if n < 32 then (s.rd F.LE_SWAP0_SWAP).testBit n else (s.rd F.LE_SWAP1_SWAP).testBit (n - 32)

/-- Every pending swap falls due; that of a slot part-way through a sample waits for its END (R377). -/
def leSwapAll (s : State) : State :=
  s.each (List.range 48) fun s n => if s.on F.LE_MID n then s.wrb F.LE_SWAP_DUE (leSwapAsked s n) n else leSwapSlot s n

/-- An uncorrectable word was met (R380). -/
def leEccOff (s : State) (n : Nat) : State := ((s.up F.LE_SLOT_STAT_ECC_OFF n).up F.LE_EVT_ECC).post 176

/-- The parameter words and the state words a stitch of law `l` reads: the header whole, and those of the law (DEDUCED, log entry 14).
The words a micro-op names, the micro-ops and the table words count as they are read (`Stitch.reads`). -/
def leWords (l : Nat) : Nat × Nat :=
  match l with
  | 1 => (18, 2)
  | 2 => (20, 3)
  | 3 => (21, 6)
  | 4 => (23, 6)
  | 5 => (49, 4)
  | 6 => (19, 0)
  | 7 => (19, 4)
  | _ => (16, 0)

/-- The parameter and state words that a stitch of slot `n` reads in any case hold an uncorrectable one (R380). -/
def leBad (s : State) (n : Nat) : Bool :=
  let l := s.rd F.LE_SLOT_CFG_LAW n
  s.anyBad (paramAddr n (leBank s n) 0) (4 * (leWords l).1) || s.anyBad (stateAddr n 0) (4 * (leWords l).2)

/-- Copy the marks a stitch has gathered into LE_SLOT_STAT. -/
def Stitch.finish (c : Stitch) (n : Nat) : State :=
  ((((c.s.when c.arith (·.up F.LE_SLOT_STAT_ARITH n)).when c.ffClamp (·.up F.LE_SLOT_STAT_FF_CLAMP n)).when c.noph
    (·.up F.LE_SLOT_STAT_NOPH n)).when c.cfgErr (·.up F.LE_SLOT_STAT_CFGERR n))

/-- STALE of R349. A stitch that goes on with a MICRO sample belongs to the same execution (DEDUCED, log entry 14). -/
def leStale (s : State) (n : Nat) : State :=
  let m := s.rd F.LE_SLOT_CFG1_MEAS n
  if s.on F.LE_MID n then s else
  let s := if m ≤ 3 ∧ !s.on F.LE_NEWRES n m then
      ((s.up F.LE_SLOT_STAT_STALE n).up F.LE_EVT_STALE).bump F.LE_TALLY1_STALE
    else s
  s.each (List.range 4) fun s j => s.down F.LE_NEWRES n j

/-- A MICRO stitch (R373, R374). A swap that fell due while the slot was part-way through its sample follows END (R377). -/
def microStitch (c : Stitch) (n fb : Nat) (mre : Int × Int × Int) : Stitch × Option Nat :=
  let c := if c.s.on F.LE_MID n then c
    else { c with s := (c.s.each (List.range 6) fun s j => s.wr F.LE_W 0 n j).wr F.LE_UPC 0 n }
  let r := microRun 64 c n fb (20 - featureCost (leP c.s n 1)) 0 mre
  match r.1 with
  | .done =>
    let o := outputStage r.2 n fb mre.2.2 (signedOf 32 (r.2.s.rd F.LE_W n 4))
    ({ o.1 with s := (o.1.s.down F.LE_MID n).when (o.1.s.on F.LE_SWAP_DUE n) (leSwapSlot · n) }, o.2)
  | .yielded =>
    if c.s.on F.LE_SLOT_CFG_EXPRESS n then ({ r.2 with s := (r.2.s.down F.LE_MID n), cfgErr := true }, none)
    else ({ r.2 with s := r.2.s.up F.LE_MID n }, none)

/-- What a stitch leaves of its slot: one that has read an uncorrectable word writes nothing (R380). -/
def stitchEnd (s : State) (n : Nat) (o : Stitch × Option Nat) : State × Option Nat :=
  if o.1.ecc then (leEccOff s n, none) else (o.1.finish n, o.2)

/-- One stitch of slot `n` (R351 to R356, R371 to R381); the answer names the leg that SAT_ACTION 2 trips. -/
def stitch (s : State) (n : Nat) : State × Option Nat :=
  let s := leTakeClear s n
  let law := s.rd F.LE_SLOT_CFG_LAW n
  if law = 0 ∨ 8 < law ∨ s.on F.LE_SLOT_STAT_ECC_OFF n then (s, none)
  else if leBad s n then (leEccOff s n, none)
  else
    let s := leStale s n
    let fb := fracBits s n
    let m := ({ s := s } : Stitch).input n (s.rd F.LE_SLOT_CFG1_MEAS n) 0
    let r := m.2.input n (leP s n 1 % 256) (lePI s n 0)
    let e := r.2.store 0 (r.1 - m.1)
    if law = 8 then stitchEnd s n (microStitch e.2 n fb (m.1, r.1, e.1))
    else
      let v := match law with
        | 1 => lawPi e.2 n fb e.1 false
        | 2 => lawPi e.2 n fb e.1 true
        | 3 => lawZ e.2 n fb 2 e.1
        | 4 => lawZ e.2 n fb 3 e.1
        | 5 => lawState4 e.2 n fb r.1 m.1
        | 6 =>
          match slotTable s n with
          | some t => lawTable e.2 n fb t m.1
          | none => (0, { e.2 with cfgErr := true })
        | _ => lawProfile e.2 n
      stitchEnd s n (outputStage v.2 n fb e.1 v.1)

/-! Rows, latches, express slots. -/

/-- The engine runs: EN, its domains on (R339, R382). -/
def leLive (s : State) : Bool := s.on F.LE_CTRL_EN && domOn s 114 && domOn s 115

/-- Table copies requested fall due (R370). -/
def leStartCopies (s : State) : State :=
  s.each (List.range 4) fun s t => if s.on F.LE_TBUSY_PRE t || s.on F.LE_TBUSY_SNAP t then s.up F.LE_COPY t else s

/-- A row boundary, but for a live switch (R359, R370, R377). -/
def rowBoundary (s : State) : State := leStartCopies (leSwapAll s)

/-- No row is running or pending. -/
def rowsIdle (s : State) : Bool := !s.on F.LE_ROWSTAT_ACTIVE && !s.on F.LE_ROWSTAT_PENDING

/-- The lowest ready express slot. -/
def readyExpress (s : State) : Option Nat := (List.range 48).find? fun n => s.on F.LE_READY n

/-- ROW_TRIGGER (R203, R357, R358, R382): the trigger of row `r` is relayed, or after a fast NAP wake held until the PLLs run. The flag
says that the row, having no stitch, makes a row boundary (R359). -/
def rowTrigger (s : State) (r : Nat) : State × Bool :=
  if !cUp s || !(s.rd F.LE_ROWEN_EN).testBit r || !domOn s 35 then (s, false)
  else if s.on F.PTM_STATE_ONFRC && !s.on F.PTM_CLKSTAT_PLL then (s.wr F.ROW_HELD (putBit (s.rd F.ROW_HELD) r true), false)
  else
    let s := s.post (240 + r)
    if !leLive s then (s, false)
    else if (s.on F.LE_ROWSTAT_ACTIVE && s.rd F.LE_ROWSTAT_ROW == r) || (s.rd F.LE_ROWSTAT_PENDING).testBit r then
      (((s.up F.LE_EVT_ROW_OVR).bump F.LE_TALLY0_ROW_OVR).post 176, false)
    else if rowN s r = 0 then (s, true)
    else (s.wr F.LE_ROWSTAT_PENDING (putBit (s.rd F.LE_ROWSTAT_PENDING) r true), false)

/-- A trigger of row `r` is there to be relayed (R357): a pulse of its source, or one that comes with the command itself, of a level or
a pin (log entry 82). -/
def rowMay (s : State) (r : Nat) : Bool :=
  let n := rowSource s r
  s.on F.ROW_DUE r || (64 ≤ n && n < 88) || (148 ≤ n && n ≤ 154) || n == 163 || srcPin n

/-- The row to run: the one running, or the lowest pending one, which starts (R358). -/
def startRow (s : State) : Option State :=
  if s.on F.LE_ROWSTAT_ACTIVE then some s
  else
    match onesOf (s.rd F.LE_ROWSTAT_PENDING) 16 with
    | [] => none
    | r :: _ => some ((((s.wr F.LE_ROWSTAT_PENDING (putBit (s.rd F.LE_ROWSTAT_PENDING) r false)).wr F.LE_ROWSTAT_ROW r).up
        F.LE_ROWSTAT_ACTIVE).wr F.LE_POS 0)

/-- RESULT_RECEIVE (R361, R363): the oldest RESULT reaches the engine. -/
def resultReceive (s : State) : State :=
  match s.results with
  | [] => s
  | r :: rest =>
    if !resultDue s then s
    else
    let s := { s with results := rest }
    match r.slot with
    | none => s
    | some n =>
      if 48 ≤ n || !domOn s 114 then s
      else
        let s := if s.on F.LE_FRESH n r.ad && s.on F.LE_READY n then (s.bump F.LE_TALLY0_XOVR).up F.LE_EVT_XOVR else s
        let s := ((s.wr F.LE_LATCH r.value n r.ad).up F.LE_FRESH n r.ad).up F.LE_NEWRES n r.ad
        let mask := s.rd F.LE_SLOT_CFG1_XTRIG n % 16
        if s.on F.LE_SLOT_CFG_EXPRESS n && mask != 0 && !s.on F.LE_READY n &&
            (List.range 4).all (fun j => !mask.testBit j || s.on F.LE_FRESH n j) then
          (s.up F.LE_READY n).wr F.LE_READY_AT s.time n
        else s

/-- The start of express slot `n`'s stitch: its fresh marks clear and its wait is recorded (R361, R363). -/
def startExpress (s : State) (n : Nat) : State :=
  let wait := min 255 ((s.time - s.rd F.LE_READY_AT n) / 5)
  let s := (s.down F.LE_READY n).peak F.LE_TALLY2_XWAIT_MAX wait
  s.each (onesOf (s.rd F.LE_SLOT_CFG1_XTRIG n % 16) 4) fun s j => s.down F.LE_FRESH n j

/-- Copy `n` words. -/
def copyWords (s : State) (src dst n : Nat) : State :=
  (List.range n).foldl (fun s i => s.mset (dst + 4 * i) 4 (s.mget (src + 4 * i) 4)) s

/-- LT_COPY_DONE (R370): the copy of table `t` ends; SNAP runs before PRELOAD. -/
def ltCopyDone (s : State) (t : Nat) : State :=
  if !s.on F.LE_COPY t then s
  else
    let n := ltLen s t
    let s := if s.on F.LE_TBUSY_SNAP t then copyWords s (ltValue t 0) (ltSnap t 0) n else s
    let s := if s.on F.LE_TBUSY_PRE t then copyWords s (ltPreload t 0) (ltValue t 0) n else s
    ((((s.down F.LE_COPY t).down F.LE_TBUSY_PRE t).down F.LE_TBUSY_SNAP t).down F.LE_LT_CTL_BUSY t).post 177

/-- A write of 1 to PRELOAD or SNAP of table `t` (R370); ignored while BUSY. -/
def ltRequest (s : State) (t : Nat) (pre snap : Bool) : State :=
  if s.on F.LE_LT_CTL_BUSY t || (!pre && !snap) then s
  else ((s.wrb F.LE_TBUSY_PRE pre t).wrb F.LE_TBUSY_SNAP snap t).up F.LE_LT_CTL_BUSY t

/-- A write to LE_SWAP0 (`hi` false) or LE_SWAP1 (R377): with no row running or pending the swap falls at once. -/
def leSwapWritten (s : State) (hi : Bool) (v : Nat) : State :=
  let f := if hi then F.LE_SWAP1_SWAP else F.LE_SWAP0_SWAP
  let s := s.wr f (s.rd f ||| v)
  if rowsIdle s then leSwapAll s else s

/-- A write to LE_CLR0 or LE_CLR1 (R379). -/
def leClrWritten (s : State) (hi : Bool) (v : Nat) : State :=
  let f := if hi then F.LE_CLR1_CLR else F.LE_CLR0_CLR
  s.wr f (s.rd f ||| v)

end Sys2Proof.Machine
end

