-- ==== Sys2Proof/Machine/Nvm.lean ====
section
/-!
DEFINITION. The nonvolatile memory, the owner keys, the counters, the event log and the crypto engine
(19_nvm_and_keys.md), as operations over the state.
-/
namespace Sys2Proof.Machine

/-! Places in the array (R672). -/

/-- Copy `c` of the page tallies. -/
def tallyAddr (c : Nat) : Nat := 0x11FD0000 + 0x8000 * c
/-- Entry `i` of the event log. -/
def logAddr (i : Nat) : Nat := 0x11FE0000 + 32 * i

/-! Event log. -/

/-- An entry waits to be written (R694): its kind, its word 2 and the data of its word 3. Without the controller nothing
is kept. -/
def logPush (s : State) (kind : Nat) (w2 : Nat := 0) (w3 : Nat := 0) : State :=
  if mUp s then s.pushq Q.log (kind + (w3 % 2 ^ 32) * 2 ^ 8 + (w2 % 2 ^ 64) * 2 ^ 40) else s

/-! Wear (R677). -/

/-- The governing temperature is above 105 °C (R209, R677). -/
def hotPart (s : State) : Bool :=
  let g := hotter (hotter (s.rd F.PTM_TEMP_TS_B) (s.rd F.PTM_TEMP_TS_M)) (hotter (s.rd F.PTM_TEMP_TS_C0) (s.rd F.PTM_TEMP_TS_C1))
  g != 0x80 && decide (105 < signedOf 8 g)

/-- The pages that have a tally. -/
def tallied (s : State) : List (Nat × Nat) :=
  s.regs.filterMap fun e => if e.1.f = F.PAGE_TALLY.id then some (e.1.i, e.2) else none

/-- The highest page tally and the lowest page that has it. -/
def tallyMax (s : State) : Nat × Nat := (tallied s).foldl (fun m e => if m.1 < e.2 then (e.2, e.1) else m) (0, 0)

/-- A request has programmed words of `n` bytes from `a` (R677, R93 bit 2). -/
def wear (s : State) (a n : Nat) : State :=
  let k := if hotPart s then 4 else 1
  let p0 := (a - 0x10000000) / 4096
  let p1 := (a + n - 1 - 0x10000000) / 4096
  let s := s.each (List.range (p1 + 1 - p0)) fun s i => s.bumpBy F.PAGE_TALLY k (p0 + i)
  if s.rd F.WEAR_LIM_WEAR_LIM ≤ (tallyMax s).1 then ledgerRaise s 2 else s

/-! Words. -/

/-- The controller, or a master, meets an uncorrectable word at `a` (R676). -/
def nvmFailed (s : State) (a : Nat) : State :=
  logPush (((s.bump F.NVM_ECC_UNC_COUNT).wr F.NVM_ERR_ADDR_ADDR (a / 8 * 8)).post 97) 5

/-- The controller itself reads the words of `n` bytes from `a`, and meets the uncorrectable ones (R676). -/
def nvmReads (s : State) (a n : Nat) : State := s.each (s.bad.filter fun w => decide (a ≤ w) && decide (w < a + n)) nvmFailed

/-- A corrected error of the word at `a` (R675, R93 bit 1). The ledger compares the sum of the 24 buckets. -/
def nvmCorrected (s : State) (a : Nat) : State :=
  let s := ((s.bump F.NVM_ECC_CORR_COUNT).wr F.NVM_CORR_ADDR_ADDR (a / 8 * 8)).bump F.ECC_BUCKET (s.rd F.ECC_BNOW)
  let day := (List.range 24).foldl (fun n i => n + s.rd F.ECC_BUCKET i) 0
  if s.rd F.ECC_LIM_ECC_LIM ≤ day then ledgerRaise s 1 else s

/-- The 24-hour count (R675). -/
def eccDay (s : State) : Nat := (List.range 24).foldl (fun n i => n + s.rd F.ECC_BUCKET i) 0

/-- A word at `a` fails its verify three times (R674): it is counted, and what it holds is left open: a later read may return
any value, or ECC. Both are drawn as one free value (log entry 5). -/
def programFailed (s : State) (a : Nat) : State :=
  let s := s.bump F.NVM_ECC_UNC_COUNT
  let t := s.mset a 8 (s.freeBits 64)
  (if (s.freeBits 65).testBit 64 then t.spoil a else t.heal a).drew

/-! Owner keys (R679, R680). -/

/-- The winner of slot `k` is elected. -/
def electKey (s : State) (k : Nat) : State :=
  let s := nvmReads (nvmReads s (keyCopyAddr k 0) 80) (keyCopyAddr k 1) 80
  match keyWinner s k with
  | none => (((s.wr F.KEY_SLOT_SEQ 0 k).wr F.KEY_SLOT_EPOCH 0 k).wr F.KEY_SLOT_STATE 0 k).wr F.KEY_SLOT_COPY 0 k
  | some c =>
    let w := s.mget (keyCopyAddr k c) 8
    (((s.wr F.KEY_SLOT_SEQ (bits w 31 0) k).wr F.KEY_SLOT_EPOCH (bits w 47 32) k).wr F.KEY_SLOT_STATE (bits w 49 48) k).wr
      F.KEY_SLOT_COPY c k

/-! Counters (R686). -/

/-- The value of copy `c` of counter `n`, when it is valid. -/
def ctrCopy (s : State) (n c : Nat) : Option Nat :=
  let a := ctrAddr n c
  let v := s.mget a 4
  if s.isBad a || s.mget (a + 4) 4 != 2 ^ 32 - 1 - v then none else some v

/-- Counter `n` is elected from its copies. -/
def electCtr (s : State) (n : Nat) : State :=
  let s := nvmReads s (ctrAddr n 0) 16
  let bad := s.rd F.KEY_STAT_CTRBAD
  match ctrCopy s n 0, ctrCopy s n 1 with
  | none, none => logPush ((s.wr F.CTR_VALUE 0 n).wr F.KEY_STAT_CTRBAD (putBit bad n true)) 7
  | some a, none => (s.wr F.CTR_VALUE a n).wr F.KEY_STAT_CTRBAD (putBit bad n false)
  | none, some b => (s.wr F.CTR_VALUE b n).wr F.KEY_STAT_CTRBAD (putBit bad n false)
  | some a, some b => (s.wr F.CTR_VALUE (max a b) n).wr F.KEY_STAT_CTRBAD (putBit bad n false)

/-! Page tallies (R678). Where the copies keep their save sequence and CRC the spec does not say: the sequence of each copy
stands in `TALLY_SEQ`, 0 while the copy is not valid (DESIGN CHOICE, log entry 15). -/

/-- The latest valid copy of the page tallies. -/
def latestTally (s : State) : Option Nat :=
  let v (c : Nat) : Bool := s.on F.TALLY_SEQ c && !s.anyBad (tallyAddr c) 0x8000
  if v 0 && v 1 then (if s.rd F.TALLY_SEQ 0 < s.rd F.TALLY_SEQ 1 then some 1 else some 0)
  else if v 0 then some 0 else if v 1 then some 1 else none

/-- The tallies are loaded from the latest valid copy, or start at 0. -/
def loadTallies (s : State) : State :=
  let s := nvmReads { s with regs := s.regs.filter fun e => e.1.f != F.PAGE_TALLY.id } (tallyAddr 0) 0x10000
  match latestTally s with
  | none => s
  | some c =>
    let a := tallyAddr c
    s.each (List.range 8192) fun s p => s.wr F.PAGE_TALLY (s.mget (a + 4 * p) 4) p

/-- A save of the tallies begins, to the copy that is not the latest (R678). -/
def tallySaveStart (s : State) : State :=
  if !mUp s || s.on F.NVM_STAT_TALLY_SAVING then s
  else
    let c := match latestTally s with | some 0 => 1 | _ => 0
    (s.wr F.TALLY_SEQ 0 c).up F.NVM_STAT_TALLY_SAVING

/-- The save ends: the copy holds the tallies and the next sequence (R678). -/
def tallySaveDone (s : State) : State :=
  if !s.on F.NVM_STAT_TALLY_SAVING then s
  else
    let old := latestTally s
    let c := match old with | some 0 => 1 | _ => 0
    let seq := match old with | some k => s.rd F.TALLY_SEQ k | none => 0
    let s := (dropRange s (tallyAddr c) (tallyAddr c + 0x8000)).down F.NVM_STAT_TALLY_SAVING
    let s := s.each (tallied s) fun s e => s.mset (tallyAddr c + 4 * e.1) 4 e.2
    wear (s.wr F.TALLY_SEQ (seq + 1) c) (tallyAddr c) 0x8000

/-! The M-die comes up (R680, R678, R686, R759). -/

/-- Elections, tallies; the log search has still to end. -/
def mElect (s : State) : State :=
  let s := s.each (List.range 4) electKey
  loadTallies (s.each (List.range 8) electCtr)

/-- Entry `i` of the log is valid (R759). -/
def logEntryValid (s : State) (i : Nat) : Bool :=
  let a := logAddr i
  let k := s.byte (a + 4)
  decide (1 ≤ k.toNat) && decide (k.toNat ≤ 7) && !s.anyBad a 32 && s.mget (a + 28) 4 == crc32c (s.bytes a 28)

/-- `b` follows `a` modulo 2^32 (R759). -/
def seqFollows (a b : Nat) : Bool := let d := (b + 2 ^ 32 - a) % 2 ^ 32; decide (1 ≤ d) && decide (d < 2 ^ 31)

/-- The entry of a list that no other follows. -/
def latestEntry (s : State) (l : List Nat) : Option Nat :=
  l.find? fun i => l.all fun j => !seqFollows (s.mget (logAddr i) 4) (s.mget (logAddr j) 4)

/-- LOG_SEARCH_DONE (R759, R96): the search ends and the ledger is merged; where that changes LEDGER or SP_COUNT, a record falls due. -/
def logSearchDone (s : State) : State :=
  if !mUp s || s.on F.LOG_FOUND then s
  else
    let valid := (List.range 4096).filter (logEntryValid s)
    let s := nvmReads (s.up F.LOG_FOUND) (logAddr 0) 0x20000
    let s0 := s
    let s := match latestEntry s valid with
      | none => (s.wr F.LOG_WR_WR 0).wr F.LOG_SEQ_SEQ 0
      | some i => (s.wr F.LOG_WR_WR (i + 1)).wr F.LOG_SEQ_SEQ (s.mget (logAddr i) 4)
    let s := match latestEntry s (valid.filter fun i => s.byte (logAddr i + 4) == 1#8) with
      | none => s
      | some i =>
        let a := logAddr i
        ((s.wr F.LEDGER_CAUSES (s.rd F.LEDGER_CAUSES ||| (s.byte (a + 16)).toNat)).peak F.HOT_TIME_MINUTES
          (s.mget (a + 20) 4)).peak F.LEDGER_TALLY_SP_COUNT (s.mget (a + 24) 2)
    let changed := s.rd F.LEDGER_CAUSES != s0.rd F.LEDGER_CAUSES || s.rd F.LEDGER_TALLY_SP_COUNT != s0.rd F.LEDGER_TALLY_SP_COUNT
    (s.up F.SU_TIER_LEDGER_SRC).when changed (·.up F.LEDGER_PENDING)

/-- The oldest waiting entry is a ledger record, which a supply-drop warning holds back (R99). -/
def logHeld (s : State) : Bool := s.on F.PTM_SUPPLY_DROP_WARN && (s.q Q.log).head?.any (· % 256 == 1)

/-- EVENT_LOG_WRITE (R99, R694): the oldest waiting entry is written at LOG_WR with the next SEQ. -/
def logWrite (s : State) : State :=
  if !mUp s || !s.on F.LOG_FOUND || logHeld s then s
  else
    match s.q Q.log with
    | [] => s
    | e :: rest =>
      let a := logAddr (s.rd F.LOG_WR_WR)
      let seq := (s.rd F.LOG_SEQ_SEQ + 1) % 2 ^ 32
      let body := toBytes 8 (seq + (e % 256) * 2 ^ 32) ++ toBytes 8 (s.secNow % 2 ^ 32) ++ toBytes 8 (e / 2 ^ 40) ++
        toBytes 4 (e / 2 ^ 8)
      let s := (s.setq Q.log rest).setBytes a (body ++ toBytes 4 (crc32c body))
      let s := ((s.healRange a 32).wr F.LOG_WR_WR (s.rd F.LOG_WR_WR + 1)).wr F.LOG_SEQ_SEQ seq
      wear s a 32

/-- LEDGER_RECORD_WRITE (R96, R99): the record waiting in the mirror goes to the controller. -/
def ledgerRecord (s : State) : State :=
  if s.on F.LEDGER_PENDING && mUp s && !s.on F.PTM_SUPPLY_DROP_WARN then
    logPush (s.down F.LEDGER_PENDING) 1 (s.rd F.LEDGER_CAUSES + s.rd F.HOT_TIME_MINUTES * 2 ^ 32) (s.rd F.LEDGER_TALLY_SP_COUNT)
  else s

/-- An hour of powered time ends (R675). -/
def bucketRoll (s : State) : State :=
  let n := (s.rd F.ECC_BNOW + 1) % 24
  (s.wr F.ECC_BNOW n).wr F.ECC_BUCKET 0 n

/-! Signatures (R688 to R690). -/

/-- STACK_ID of the B-die as eight bytes, lowest first. -/
def stackIdBytes (s : State) : List Byte := toBytes 8 (s.rd F.FUSE_STACK_ID)

/-- The epoch of a valid signature (r, s) over the digest `e` by the slot that `desc` names (R688, R84). -/
def sigEpoch (s : State) (desc e r sg : Nat) : Option Nat :=
  if desc ≤ 1 then
    if !s.on F.FUSE_ROOT_REVOKE desc && rootSigValid (s.rd F.FUSE_ROOT_HASH desc) e r sg then some (s.rd F.FUSE_ROOT_EPOCH desc)
    else none
  else if 0x10 ≤ desc ∧ desc ≤ 0x13 then
    let k := desc - 0x10
    match mUp s, keyWinner s k with
    | true, some c =>
      let a := keyCopyAddr k c
      if s.rd F.KEY_SLOT_STATE k == 1 && ecdsaVerify (ofBytesBE (s.bytes (a + 8) 32)) (ofBytesBE (s.bytes (a + 0x28) 32)) e r sg then
        some (s.rd F.KEY_SLOT_EPOCH k)
      else none
    | _, _ => none
  else none

/-- MIN of R689, R690. -/
def minEpoch (s : State) : Nat := if mUp s then s.rd F.CTR_VALUE 2 else 0

/-- DUAL_STRICT (R686, R690). -/
def dualStrict (s : State) : Bool := !mUp s || s.on F.CTR_VALUE 3

/-- The outcome of a check of an image: the code of R63, PARTIAL and EPOCH_NEW. -/
structure ImgRes where
  code : Nat
  part : Bool := false
  epoch : Nat := 0
deriving DecidableEq, Repr

/-- The signature block at `a` over the digest `e` counts (R127, R689): its epoch when it does. -/
def blockCounts (s : State) (a e : Nat) : Option Nat :=
  if s.mget (a + 65) 3 ≠ 0 then none
  else
    match sigEpoch s (s.byte (a + 64)).toNat e (ofBytesBE (s.bytes a 32)) (ofBytesBE (s.bytes (a + 32) 32)) with
    | some ep => if minEpoch s ≤ ep then some ep else none
    | none => none

/-- The signature outcome of the `nsig` blocks from `a` (R689). -/
def sigOutcome (s : State) (a nsig e : Nat) : ImgRes :=
  let b0 := blockCounts s a e
  if nsig = 1 then (if b0.isSome then ⟨1, false, 0⟩ else ⟨8, false, 0⟩)
  else
    match b0, blockCounts s (a + 68) e with
    | some x, some y => ⟨1, false, if minEpoch s < max x y then max x y else 0⟩
    | none, none => ⟨8, false, 0⟩
    | _, _ => if dualStrict s then ⟨8, false, 0⟩ else ⟨1, true, 0⟩

/-- A descriptor names a key slot (R128). -/
def namesSlot (d : Nat) : Bool := d ≤ 1 || (0x10 ≤ d && d ≤ 0x13)

/-! Images (R63, R102, R103, R61). -/

/-- What is checked. -/
inductive ImgKind where
  | pattern | delta | firmware | recovery
deriving DecidableEq, Repr

/-- The number of CR_CMD.KIND (the crypto engine's register table). -/
def imgKindOf : Nat → Option ImgKind
  | 0 => some .pattern | 1 => some .delta | 2 => some .firmware | 3 => some .recovery | _ => none

/-- A Pattern or delta header. -/
def imgIsPattern : ImgKind → Bool
  | .pattern => true | .delta => true | _ => false

/-- The number of hashed bytes of the image at `a`: the signature blocks follow them. -/
def imgLen (s : State) (k : ImgKind) (a : Nat) : Nat :=
  if imgIsPattern k then s.mget (a + 8) 4 else 64 + s.mget (a + 8) 4 + 4

/-- NSIG of the header. -/
def imgNsig (s : State) (a : Nat) : Nat := bits (s.mget (a + 6) 2) 9 8

/-- Step 2 of R63 (R61, R78, R103, R129). A recovery image without FLAGS.RECOVERY or with another LOAD_ADDR fails here, with code 0x2:
R63 and R78 name no code for it (DESIGN CHOICE, log entry 88). -/
def imgStep2 (s : State) (k : ImgKind) (a : Nat) : Bool :=
  let fl := s.mget (a + 6) 2
  let magic := s.mget a 4
  s.mget (a + 4) 2 == 1 &&
    match k with
    | .pattern => magic == 0x54504E50 && fl &&& 0xFCFF == 0
    | .delta => magic == 0x54504E50 && fl &&& 0xFCFF == 1
    | .firmware => magic == 0x57464E50 && fl &&& 0xFCFC == 0
    | .recovery => magic == 0x57464E50 && fl &&& 0xFCFC == 0 && fl.testBit 1 && s.mget (a + 0x18) 4 == 0x20002000

/-- Step 4 of R63: `room` is the size of the slot; a delta lies wholly within SRAM (R102, R78, R128). -/
def imgStep4 (s : State) (k : ImgKind) (a room : Nat) : Bool :=
  let n := imgLen s k a
  let nsig := imgNsig s a
  let all := n + 68 * nsig
  let shape := if imgIsPattern k then n % 4 == 0 && decide (0x54 ≤ n) && decide (all ≤ 0x40000)
    else s.mget (a + 8) 4 % 8 == 0 && decide (all ≤ room)
  let fits := if k = .delta then decide (0x20000000 ≤ a) && decide (a + all ≤ 0x20400000) else decide (all ≤ room)
  let d0 := (s.byte (a + n + 64)).toNat
  let d1 := (s.byte (a + n + 132)).toNat
  (nsig == 1 || nsig == 2) && shape && fits && !(nsig == 2 && d0 == d1 && namesSlot d0)

/-- Steps 2 to 8 of R63 on the image at `a`; `skip`: step 6 is skipped (R84). -/
def imgCheck (s : State) (k : ImgKind) (a room : Nat) (skip : Bool) : ImgRes :=
  let n := imgLen s k a
  let bind := s.mget (a + (if imgIsPattern k then 0x18 else 0x20)) 8
  let ctr := s.rd F.CTR_VALUE (if imgIsPattern k then 0 else 1)
  if !imgStep2 s k a then ⟨2, false, 0⟩
  else if s.mget (a + 0x3C) 4 != crc32c (s.bytes a 0x3C) then ⟨3, false, 0⟩
  else if !imgStep4 s k a room then ⟨4, false, 0⟩
  else if bind != 0 && bind != s.rd F.FUSE_STACK_ID then ⟨5, false, 0⟩
  else if !skip && decide (s.mget (a + 0x10) 4 < ctr) then ⟨6, false, 0⟩
  else if s.anyBad a (n + 68 * imgNsig s a) || s.mget (a + n - 4) 4 != crc32c (s.bytes a (n - 4)) then ⟨7, false, 0⟩
  else sigOutcome s (a + n) (imgNsig s a) (sha256 (s.bytes a n))

/-! The crypto engine's users (R693): 1 firmware, 2 a key commit, 3 the live loader. -/

/-- The engine is up. -/
def crAlive (s : State) : Bool := cUp s && domOn s 120

/-- User `u` joins the engine. -/
def crEnter (s : State) (u : Nat) : State :=
  let q := s.rd F.CR_USER
  let n := if q = 0 then 0 else if q < 4 then 1 else if q < 16 then 2 else 3
  (s.wr F.CR_USER (q + u * 4 ^ n)).up F.CR_STAT_BUSY

/-- The user being served. -/
def crServing (s : State) (u : Nat) : Bool := s.rd F.CR_USER % 4 == u

/-- The user being served leaves. -/
def crLeave (s : State) : State :=
  let q := s.rd F.CR_USER / 4
  (s.wr F.CR_USER q).wrb F.CR_STAT_BUSY (q != 0)

end Sys2Proof.Machine
end

