-- ==== Sys2Proof/Machine/Pattern.lean ====
section
/-!
DEFINITION. The Pattern image (03_pattern_image.md): sections and frames, the check pass, the load pass, and the frames of
a delta as the Pattern control block holds them.
-/
namespace Sys2Proof.Machine

/-- A frame of a section (R108): `off` is its offset in the image, or 2^18 for an instance of the active configuration. -/
structure Frame where
  type : Nat
  kind : Nat
  index : Nat
  words : List Nat
  off : Nat
deriving DecidableEq, Repr

/-- Payload word `i`. -/
def Frame.w (f : Frame) (i : Nat) : Nat := f.words.getD i 0

/-- A rejection (R134): code, section type, offset. -/
structure Fail where
  code : Nat
  type : Nat
  off : Nat
deriving DecidableEq, Repr

/-- The rejection recorded first: least code, then type, then offset (R747 step 5). -/
def firstFail (l : List Fail) : Option Fail :=
  l.foldl (fun m f => match m with
    | none => some f
    | some g => if f.code < g.code || (f.code == g.code && (f.type < g.type || (f.type == g.type && decide (f.off < g.off))))
      then some f else some g) none

/-! Section types (R107). -/

/-- The types a full image must contain. -/
def requiredTypes : List Nat := [1, 2, 3, 8, 12]

/-- The types that may carry LIVE. -/
def liveTypes : List Nat := [4, 6, 7, 10]

/-! Frame kinds (R111 to R124). -/

/-- The KINDs of a section. -/
def kindsOf (t : Nat) : Nat := match t with
  | 1 => 2 | 2 => 3 | 3 => 1 | 4 => 1 | 5 => 1 | 6 => 1 | 7 => 4 | 8 => 3 | 9 => 1 | 10 => 2 | 11 => 4 | 12 => 2 | _ => 0

/-- INDEX `i` is in the range of its KIND, and the frame's instances end within it (R117). -/
def indexOk (t k i nw : Nat) : Bool :=
  match t, k with
  | 1, 1 => i < 24 || (32 ≤ i && i < 48) || (64 ≤ i && i < 108)
  | 2, 1 => i < 136
  | 4, 1 => i < 512 && i + 2 * nw ≤ 512
  | 5, 1 => i < 16
  | 6, 1 => i < 16
  | 7, 4 => i < 4
  | 7, _ => i < 48
  | 8, 1 => i < 16
  | 8, 2 => i < 6
  | 9, 1 => i < 128
  | 10, _ => i < 256
  | 12, 1 => true
  | _, _ => i == 0

/-- NWORDS `n` is what the KIND requires; `w0` is payload word 0. In a delta a MICRO frame keeps its slot's length `mic`
(R373). -/
def nwordsOk (t k n w0 : Nat) (mic : Option Nat) : Bool :=
  match t, k with
  | 4, 1 => 1 ≤ n && n ≤ 256
  | 5, 1 => n == 2
  | 6, 1 => 1 ≤ n && n == 1 + (bits w0 21 16 + 3) / 4
  | 7, 1 => n == 2
  | 7, 2 => 1 ≤ n && n ≤ 128
  | 7, 3 => 1 ≤ n && n ≤ 64 && (match mic with | none => true | some m => m == n)
  | 7, 4 => 1 ≤ n && (n == 1 || n == 1 + bits w0 10 0)
  | 8, 1 => n == 3
  | 9, 1 => n == 6
  | 10, 1 => n == 8
  | 11, 1 => n == 4
  | 11, 3 => n == 3
  | 12, 1 => n == 2
  | _, _ => n == 1

/-- The bits a payload word may set (R109). -/
def payloadMask (t k i : Nat) : Nat :=
  match t, k, i with
  | 1, 1, _ => 0x37FF
  | 1, _, _ => 1
  | 2, 1, _ => 0x703
  | 2, 2, _ => 0x30FFF
  | 2, _, _ => 0xFFFFFF
  | 3, _, _ => 0xF
  | 4, _, _ => 0x0FFF0FFF
  | 5, _, 0 => 0x1FF1F
  | 5, _, _ => 0xFFFFFF
  | 6, _, 0 => 0x3F01FF
  | 7, 1, 0 => 0x1FF
  | 7, 1, _ => 0xFFFFFF
  | 7, 4, 0 => 0x107FF
  | 8, 1, 0 => 0x1FFFFFF
  | 8, 1, 1 => 0x3FF07FF
  | 8, 1, _ => 0x3FF
  | 8, 2, _ => 0x103
  | 8, 3, _ => 0xFFFFFF
  | 9, _, 0 => 0xFFFFFFE0
  | 10, 1, 0 => 0x3FFF
  | 10, 1, 1 => 0xFFFFFFFC
  | 10, 1, 4 => 0xFFFF
  | 10, 1, 5 => 0xFFFFFFF8
  | 10, 1, 6 => 0xFFFF
  | 10, 1, 7 => 0
  | 10, 2, _ => 0x1FF
  | 11, 1, 0 => 0xFFFF
  | 11, 1, 2 => 0xFFFF
  | 11, 1, 3 => 0xFF
  | 11, 2, _ => 0xFFFF
  | 11, 3, 0 => 0x301FFFF
  | 11, 3, _ => 0xFFFF
  | 11, 4, _ => 1
  | 12, 1, 1 => 3
  | 12, 2, _ => 3
  | _, _, _ => 0xFFFFFFFF

/-! MICRO programs (R375, R376). -/

/-- The fields an op uses: d, a, b, imm; none for a reserved op. -/
def microUses (op : Nat) : Option (Bool × Bool × Bool × Bool) :=
  match op with
  | 0x00 => some (false, false, false, false)
  | 0x01 => some (true, true, false, false)
  | 0x02 => some (true, true, true, false)
  | 0x03 => some (true, true, true, false)
  | 0x04 => some (true, true, true, false)
  | 0x05 => some (false, true, true, false)
  | 0x06 => some (false, true, true, false)
  | 0x07 => some (false, true, false, false)
  | 0x08 => some (true, false, false, false)
  | 0x09 => some (true, true, false, false)
  | 0x0A => some (true, true, false, false)
  | 0x0B => some (true, true, true, false)
  | 0x0C => some (true, true, true, false)
  | 0x0D => some (true, true, false, true)
  | 0x0E => some (true, true, false, true)
  | 0x0F => some (false, true, true, true)
  | 0x10 => some (true, true, true, false)
  | 0x11 => some (true, true, false, false)
  | 0x12 => some (false, true, false, false)
  | 0x13 => some (false, false, false, false)
  | 0x14 => some (false, false, false, false)
  | 0x15 => some (false, false, false, false)
  | _ => none

/-- An operand code of R375's table. -/
def microOperandOk (c : Nat) : Bool := c ≤ 3 || (8 ≤ c && c ≤ 0x18) || 0x40 ≤ c

/-- A destination: W or S. -/
def microDestOk (c : Nat) : Bool := c ≤ 3 || (8 ≤ c && c ≤ 0xF)

/-- One micro-op breaks no rule of R375. -/
def microOk (x : Nat) : Bool :=
  let d := bits x 25 19
  let a := bits x 18 12
  let b := bits x 11 5
  let imm := x % 32
  match microUses (bits x 31 26) with
  | none => false
  | some u =>
    (if u.1 then microDestOk d else d == 0) && (if u.2.1 then microOperandOk a else a == 0) &&
      (if u.2.2.1 then microOperandOk b else b == 0) && (if u.2.2.2 then true else imm == 0) &&
      !(bits x 31 26 == 0x0F && decide (2 < imm))

/-- Cycles up to and including the first END, and whether a YIELD stands before it (R374). -/
def microCount : List Nat → Nat × Bool
  | [] => (0, false)
  | x :: r =>
    let op := bits x 31 26
    if op = 0x15 then (1, false)
    else
      let n := microCount r
      ((if op = 0x11 then 2 else 1) + n.1, op == 0x14 || n.2)

/-! A frame's own fields (code 0x24 of R747 step 4). -/

/-- ENTRY lies where instructions may be fetched (R495). -/
def entryOk (a : Nat) : Bool :=
  a < 0x10000 || (0x10000000 ≤ a && a < 0x12000000) || (0x20000000 ≤ a && a < 0x20400000) || (0xE0000000 ≤ a && a < 0xE0010000)

/-- A frame's own fields are in range (R112 to R124, R232, R236, R344, R353, R375, R495, R550). -/
def ownOk (t k i : Nat) (ws : List Nat) : Bool :=
  let w (j : Nat) := ws.getD j 0
  let cmpOk (c : Nat) : Bool := c ≤ 23 || c == 31
  (ws.zipIdx.all fun x => x.1 &&& payloadMask t k x.2 == x.1) &&
  match t, k with
  | 1, 1 =>
    let fn := w 0 % 64
    bits (w 0) 9 8 != 3 && bits (w 0) 13 12 != 3 &&
      (if 32 ≤ i then fn == 0
       else fn ≤ 3 || (fn == 4 && 20 ≤ i && i ≤ 23) || (fn == 5 && (i == 16 || i == 17)))
  | 6, 1 =>
    let n := bits (w 0) 21 16
    n ≤ 32 && (List.range (4 * (ws.length - 1))).all fun j => j < n || (w (1 + j / 4) / 2 ^ (8 * (j % 4))) % 256 == 0xFF
  | 7, 1 =>
    let law := w 0 % 16
    let ex := (w 0).testBit 4
    law ≤ 8 && bits (w 1) 23 20 == 0 && !(ex && bits (w 1) 19 16 == 0) && !(law == 7 && (w 0).testBit 5)
  | 7, 3 => ws.all microOk
  | 7, 4 => let n := bits (w 0) 10 0; 1 ≤ n && n ≤ 1024
  | 8, 1 =>
    let g := bits (w 0) 12 10
    cmpOk (w 0 % 32) && cmpOk (bits (w 0) 9 5) && g != 6 && bits (w 0) 14 13 != 3
  | 8, 2 => w 0 % 4 != 3
  | 9, 1 => w 1 % 32 == 31
  | 10, 1 =>
    let aff := bits (w 0) 12 8
    aff != 0 && aff ≤ 16 && entryOk (w 1)
  | 11, 3 =>
    let n := w 0 % 2 ^ 17
    64 ≤ n && n ≤ 65536 && bits (w 0) 25 24 != 3
  | _, _ => true

/-- A frame names again what an earlier frame of its section names (R109, R117). -/
def repeats (seen : List Frame) (f : Frame) : Bool :=
  seen.any fun g => (g.kind == f.kind && g.index == f.index) ||
    (f.type == 4 && decide (g.index < f.index + 2 * f.words.length) && decide (f.index < g.index + 2 * g.words.length)) ||
    (f.type == 12 && f.kind == 1 && g.kind == 1 && g.w 0 == f.w 0)

/-- The frames of a section of type `t` from `off` to `stop`, in image order, with the first failure (R747 step 4).
`rd` reads the image's words; `mic` gives a slot's length of micro-ops in a delta. A frame beyond the `nf` that the table
entry counts fails with 0x20 at its header; where the section ends before, the failure is at its last frame's header
(DEDUCED, log entry 84). -/
def parseFrames (fuel : Nat) (rd : Nat → Nat) (mic : Nat → Option Nat) (t nf off stop : Nat) (seen : List Frame) :
    List Frame × Option Fail :=
  match fuel with
  | 0 => (seen, none)
  | fuel + 1 =>
    if stop ≤ off then
      (seen, if seen.length = nf then none else (seen.getLast?.map fun f => ⟨0x20, t, f.off⟩).or (some ⟨0x20, t, off⟩))
    else
      let h := rd off
      let i := h % 1024
      let k := bits h 15 10
      let n := h / 2 ^ 16
      if stop < off + 4 + 4 * n ∨ nf ≤ seen.length then (seen, some ⟨0x20, t, off⟩)
      else
        let ws := (List.range n).map fun j => rd (off + 4 + 4 * j)
        let f : Frame := ⟨t, k, i, ws, off⟩
        let code :=
          if k = 0 ∨ kindsOf t < k then 0x21
          else if !indexOk t k i n then 0x22
          else if !nwordsOk t k n (ws.getD 0 0) (mic i) then 0x25
          else if repeats seen f then 0x23
          else if !ownOk t k i ws then 0x24
          else 0
        if code ≠ 0 then (seen, some ⟨code, t, off⟩)
        else parseFrames fuel rd mic t nf (off + 4 + 4 * n) stop (seen ++ [f])

/-! Sections (R105, R106). -/

/-- A section-table entry; `at` is its offset. -/
structure SectE where
  type : Nat
  flags : Nat
  sver : Nat
  off : Nat
  len : Nat
  frames : Nat
  pos : Nat
deriving DecidableEq, Repr

/-- Entry `i` of the table. -/
def sectEntry (rd : Nat → Nat) (i : Nat) : SectE :=
  let a := 0x40 + 16 * i
  ⟨rd a % 256, bits (rd a) 15 8, rd a / 2 ^ 16, rd (a + 4), rd (a + 8), rd (a + 12), a⟩

/-- The failure of one entry, given those before it (R747 step 2): codes 0x11, 0x12, 0x13, 0x15, then 0x42 for a delta,
whose section must be LIVE in the active Pattern too. -/
def entryFail (total nsect : Nat) (liveNow : Option (Nat → Bool)) (before : List SectE) (e : SectE) : Option Fail :=
  let overlap := before.any fun g => decide (g.off < e.off + e.len) && decide (e.off < g.off + g.len)
  if e.off % 8 ≠ 0 ∨ e.len % 4 ≠ 0 ∨ e.len < 4 ∨ e.off < 0x40 + 16 * nsect ∨ total - 4 < e.off + e.len ∨ overlap then
    some ⟨0x11, e.type, e.pos⟩
  else if e.type = 0 ∨ 12 < e.type ∨ before.any (fun g => g.type == e.type) then some ⟨0x12, e.type, e.pos⟩
  else if e.sver ≠ 1 then some ⟨0x13, e.type, e.pos⟩
  else if 1 < e.flags ∨ (e.flags = 1 ∧ !liveTypes.contains e.type) then some ⟨0x15, e.type, e.pos⟩
  else
    match liveNow with
    | none => none
    | some live => if e.flags = 1 ∧ live e.type then none else some ⟨0x42, e.type, e.pos⟩

/-- The first failure among the entries, in table order. -/
def tableFail (total nsect : Nat) (liveNow : Option (Nat → Bool)) (before : List SectE) : List SectE → Option Fail
  | [] => none
  | e :: r =>
    match entryFail total nsect liveNow before e with
    | some f => some f
    | none => tableFail total nsect liveNow (before ++ [e]) r

/-! Rules that relate frames (R747 step 5). -/

/-- The range a firewall guards (R537). -/
def fwRange (f : Nat) : Nat × Nat :=
  match f with
  | 4 => (0x10000000, 0x10FFFFFF)
  | 5 => (0x11000000, 0x11FFFFFF)
  | 6 => (0x60000000, 0x60002FFF)
  | 7 => (0x30000000, 0x30017FFF)
  | 8 => (0x40000000, 0x4003FFFF)
  | 9 => (0x40040000, 0x4009FFFF)
  | 10 => (0x400A0000, 0x400FFFFF)
  | 11 => (0x50000000, 0x5000FFFF)
  | 12 => (0x50010000, 0x5004FFFF)
  | 13 => (0x50050000, 0x500FFFFF)
  | 14 => (0x40100000, 0x4013FFFF)
  | 15 => (0x00000000, 0x0000FFFF)
  | f => (0x20000000 + f * 0x100000, 0x200FFFFF + f * 0x100000)

/-- A firewall checked at the crossroads (R537). -/
def fwAtCrossroads (f : Nat) : Bool := f == 4 || f == 5 || f == 6 || f == 11 || f == 12 || f == 13

/-- The block at base address `a`, as its number: every block of R745; a core-local base is that of core 0's block. -/
def blkAt (a : Nat) : Option (Blk × Nat) :=
  firstSome (allBlks.map fun b =>
    let x := blkInfo b
    if x.stride = 0 then (if a = x.base then some (b, 0) else none)
    else if x.base ≤ a ∧ (a - x.base) % x.stride = 0 ∧ (a - x.base) / x.stride < x.n then some (b, (a - x.base) / x.stride)
    else none)

/-- A LOCKS BLOCK base is that of a block of the C-die or the B-die (R125). -/
def lockBaseOk (a : Nat) : Bool := match blkAt a with | some x => (blkInfo x.1).die != .m | none => false

/-- The failures of the rules that relate frames of the configuration `fs` to one another, each at the later of the frames in image
order (R747). -/
def crossFails (s : State) (fs : List Frame) : List Fail :=
  let each (t k : Nat) : List Frame := fs.filter fun f => f.type == t && f.kind == k
  let bad (c : Nat) (f : Frame) : Fail := ⟨c, f.type, f.off⟩
  let slots := each 7 1
  let params := each 7 2
  let ltabs := (each 7 4).map (·.index)
  let slotOf (n : Nat) : Option Frame := slots.find? fun f => f.index == n
  let ctl (n : Nat) : List Nat := match params.find? fun f => f.index == n with | some f => [f.w 1, f.w 65] | none => [0, 0]
  let out (f : Frame) : Nat := bits (f.w 1) 15 8
  let before (l : List Frame) (f : Frame) (p : Frame → Bool) : Bool := (l.takeWhile fun g => !decide (g = f)).any p
  let dk := fun (pins : List Nat) => ((each 1 1).filter fun f => pins.contains f.index && f.w 0 % 64 == 4).drop 1 |>.map (bad 0x24)
  let wins := (each 9 1).filter (fun f => let r := fwRange (f.index / 8); decide (f.w 1 < f.w 0) || decide (f.w 0 < r.1) || decide (r.2 < f.w 1))
  let binds := (each 10 2).filter fun f => !(each 10 1).any (fun g => g.index == f.w 0 % 256) && !s.on F.TASK_DEF (f.w 0 % 256)
  let bases := (each 12 1).filter fun f => !lockBaseOk (f.w 0)
  let codes := slots.filter fun f => !inputCodeOk (f.w 1 % 256) || (0x57 < out f && out f != 0xFF)
  let pcodes := params.filter fun f => [1, 8, 65, 72].any fun j => j < f.words.length && !inputCodeOk (f.w j % 256)
  let outs := slots.filter fun f => out f != 0xFF && before slots f (fun g => out g == out f)
  let ofine := params.filter fun f => match slotOf f.index with
    | some g => 0x40 ≤ out g && out g ≤ 0x4F && (ctl f.index).any (·.testBit 11) | none => false
  let lten (n : Nat) : Bool := match slotOf n with | some g => (g.w 0).testBit 8 | none => false
  let table0 := slots.filter fun f => f.w 0 % 16 == 6 && !(f.w 0).testBit 8
  let rc0 := params.filter fun f => !lten f.index && (ctl f.index).any (·.testBit 10)
  let lts := slots.filter fun f => (f.w 0).testBit 8 &&
    (!ltabs.contains (bits (f.w 0) 7 6) || before slots f (fun g => (g.w 0).testBit 8 && bits (g.w 0) 7 6 == bits (f.w 0) 7 6))
  let micros := each 7 3
  let total (f : Frame) : Nat := (micros.takeWhile fun g => !decide (g = f)).foldl (fun n g => n + g.words.length) f.words.length
  let mlaw := micros.filter fun f => decide (1024 < total f) || (match slotOf f.index with | some g => g.w 0 % 16 != 8 | none => true)
  let mex := micros.filter fun f => match slotOf f.index with
    | some g => (g.w 0).testBit 4 &&
        (let n := microCount f.words
         n.2 || decide (20 - (ctl f.index).foldl (fun m c => max m (featureCost c)) 0 < n.1))
    | none => false
  let express := slots.filter fun f => (f.w 0).testBit 4
  let rows := (each 6 1).filter fun f => (List.range (bits (f.w 0) 21 16)).any fun j =>
    let n := (f.w (1 + j / 4) / 2 ^ (8 * (j % 4))) % 256
    decide (47 < n) || express.any fun g => g.index == n
  let slices := each 5 1
  let chain := slices.filter fun f => (f.w 0).testBit 2 &&
    (f.index % 2 == 0 || (match slices.find? fun g => g.index + 1 == f.index with | some g => g.w 0 % 4 | none => 0) != f.w 0 % 4)
  let legs := each 8 1
  let oc (f : Frame) := f.w 0 % 32
  let hs (f : Frame) := bits (f.w 0) 9 5
  let ocd (f : Frame) := bits (f.w 1) 25 16
  let hsd (f : Frame) := f.w 2 % 1024
  let order := legs.filter fun f => oc f != 31 && hs f != 31 && decide (hsd f ≤ ocd f)
  let dacs (f : Frame) : List (Nat × Nat) := [(oc f, ocd f), (hs f, hsd f)].filter fun x => x.1 != 31
  let twice := legs.filter fun f => (dacs f).any fun x =>
    (dacs f).any (fun y => y.1 == x.1 && y.2 != x.2) || before legs f (fun g => (dacs g).any fun y => y.1 == x.1 && y.2 != x.2)
  let ledger := (each 11 1).filter fun f => decide (s.rd F.FUSE_ECC_LIM < f.w 0) || decide (s.rd F.FUSE_WEAR_LIM < f.w 1) ||
    decide (s.rd F.FUSE_HOT_LIM < f.w 2) || decide (s.rd F.FUSE_SP_LIM < f.w 3)
  let therm := (each 2 3).filter fun f =>
    let a := signedOf 8 (f.w 0)
    let b := signedOf 8 (f.w 0 / 256)
    let c := signedOf 8 (f.w 0 / 65536)
    !(decide (a < b) && decide (b < c) && decide (c ≤ 122))
  let doms := each 2 1
  let pol (d : Nat) : Nat := if ptmOnly d then 1 else match doms.find? fun f => f.index == d with | some f => f.w 0 % 4 | none => 3
  let breaks (d : Nat) : Bool :=
    let p := pol d
    ((d == 44 || d == 108) && p % 2 == 0) ||
      (domDeps d).any fun e => (p % 2 == 1 && pol e % 2 == 0) || (p == 2 && pol e == 0)
  let policy := ((List.range 136).filter breaks).filterMap fun d =>
    firstSome ((d :: domDeps d).map fun e => doms.find? fun f => f.index == e)
  dk [20, 22] ++ dk [21, 23] ++ (wins ++ binds ++ bases ++ codes ++ pcodes ++ outs ++ ofine ++ table0 ++ rc0 ++ lts ++ mlaw ++ mex).map (bad 0x24) ++
    (express.drop 8).map (bad 0x31) ++ rows.map (bad 0x32) ++ chain.map (bad 0x33) ++ order.map (bad 0x34) ++
    ledger.map (bad 0x35) ++ twice.map (bad 0x37) ++ therm.map (bad 0x38) ++ policy.map (bad 0x39)

/-! The check pass. -/

/-- The instances of the live-capable sections as they now are: what a delta is merged onto (R110, R135). -/
def activeFrames (s : State) : List Frame :=
  let old : Nat := 2 ^ 18
  let slot (n : Nat) : Frame := ⟨7, 1, n, [s.rd F.LE_SLOT_CFG_LAW n + s.rd F.LE_SLOT_CFG_EXPRESS n * 2 ^ 4 + s.rd F.LE_SLOT_CFG_FMT n * 2 ^ 5 +
      s.rd F.LE_SLOT_CFG_LT n * 2 ^ 6 + s.rd F.LE_SLOT_CFG_LT_EN n * 2 ^ 8,
    s.rd F.LE_SLOT_CFG1_MEAS n + s.rd F.LE_SLOT_CFG1_OUT n * 2 ^ 8 + s.rd F.LE_SLOT_CFG1_XTRIG n * 2 ^ 16], old⟩
  let param (n : Nat) : Frame := ⟨7, 2, n, (List.range 128).map fun j => s.mget (paramAddr n 0 0 + 4 * j) 4, old⟩
  let micro (n : Nat) : Frame := ⟨7, 3, n, (List.range (s.rd F.LE_MICRO_LEN n)).map fun j => s.mget (microAddr (s.rd F.LE_MICRO_BASE n + j)) 4, old⟩
  let row (r : Nat) : Frame := ⟨6, 1, r, (List.range 9).map fun j => s.mget (rowAddr r + 4 * j) 4, old⟩
  let ltab (t : Nat) : Frame := ⟨7, 4, t, [ltLen s t], old⟩
  (List.range 16).map row ++ (List.range 48).map slot ++ (List.range 48).map param ++
    ((List.range 48).filter fun n => s.on F.LE_MICRO_LEN n).map micro ++ ((List.range 4).filter fun t => s.on F.LE_LT_CTL_LEN t).map ltab

/-- The delta's frames over those of the active configuration (R110). -/
def mergeFrames (active delta : List Frame) : List Frame :=
  (active.filter fun f => !delta.any fun g => g.type == f.type && g.kind == f.kind && g.index == f.index) ++ delta

/-- What the check pass finds: the frames of the image, or its first failure. -/
inductive Checked where
  | ok (frames : List Frame) (live : Nat)
  | bad (f : Fail)
deriving DecidableEq, Repr

/-- The check pass over the image at `a` (R747). -/
def checkPass (s : State) (a : Nat) (delta : Bool) : Checked :=
  let rd (off : Nat) : Nat := s.mget (a + off) 4
  let total := rd 8
  let nsect := rd 0x28 % 2 ^ 16
  let zeros := (List.range 16).all fun j => s.byte (a + 0x2C + j) == 0#8
  if nsect = 0 ∨ 32 < nsect ∨ total < 0x40 + 16 * nsect ∨ !zeros ∨ (!delta ∧ (rd 0x20 ≠ 0 ∨ rd 0x24 ≠ 0)) ∨ (delta ∧ rd 0x0C ≠ 0) then
    .bad ⟨0x10, 0, 0⟩
  else
    let es := (List.range nsect).map (sectEntry rd)
    let liveNow := if delta then some (fun t => s.on F.LIVE_SECT t) else none
    match tableFail total nsect liveNow [] es with
    | some f => .bad f
    | none =>
      let missing := if delta then none else requiredTypes.find? fun t => !es.any fun e => e.type == t
      match missing with
      | some t => .bad ⟨0x14, t, 0x40⟩
      | none =>
        let mic (n : Nat) : Option Nat := if delta then some (s.rd F.LE_MICRO_LEN n) else none
        let secs := (List.range 13).flatMap fun t => es.filter fun e => e.type == t
        let r := secs.foldl (fun (acc : List Frame × Option Fail) e =>
          match acc.2 with
          | some _ => acc
          | none =>
            let p := parseFrames (e.len / 4 + 1) rd mic e.type e.frames e.off (e.off + e.len) []
            (acc.1 ++ p.1, p.2)) ([], none)
        match r.2 with
        | some f => .bad f
        | none =>
          match firstFail (crossFails s (if delta then mergeFrames (activeFrames s) r.1 else r.1)) with
          | some f => .bad f
          | none => .ok r.1 (maskOf 13 fun t => es.any fun e => e.type == t && e.flags == 1)

/-! The load pass (R131). -/

/-- The frame configures the C-die (R76, R107, R545). -/
def onC (f : Frame) : Bool :=
  match f.type with
  | 6 => true | 7 => true | 10 => true
  | 9 => !fwAtCrossroads (f.index / 8)
  | 11 => f.kind == 3
  | 12 => f.kind == 1 && (match blkAt (f.w 0) with | some x => (blkInfo x.1).die == .c | none => false)
  | _ => false

/-- Route destination `d` takes a halfword of a DEST frame (R117); its level settles without an edge (R748). -/
def loadDest (s : State) (d h : Nat) : State :=
  (((s.wr F.RT_SRC (h % 256) d).wr F.RT_EN (bits h 8 8) d).wr F.RT_INV (bits h 9 9) d).wr F.RT_SYNC (bits h 11 10) d

/-- The PULL of PINMAP index `n` in reset (R227): general, pulse and strobe pins are pulled down. The field PIN_CFG_PULL holds what
differs from it, bit by bit. -/
def pullReset (n : Nat) : Nat := if n < 24 ∨ (64 ≤ n ∧ n < 104) then 1 else 0

/-- PULL of pin `n`. -/
def pinPull (s : State) (n : Nat) : Nat := s.rd F.PIN_CFG_PULL n ^^^ pullReset n

/-- Write words from `a` on. -/
def loadWords (s : State) (a : Nat) (ws : List Nat) : State :=
  match ws with
  | [] => s
  | w :: r => loadWords (s.mset a 4 w) (a + 4) r

/-- `ws` followed by zeros, `n` words in all. -/
def padded (n : Nat) (ws : List Nat) : List Nat := (List.range n).map fun i => ws.getD i 0

/-- The state words of slot `n` and what goes with them are cleared (R139, R379). -/
def freshSlot (s : State) (n : Nat) : State :=
  let s := loadWords s (stateAddr n 0) (List.replicate 16 0)
  ((((s.wr F.LE_SLOT_STAT_SAT_RUN 0 n).down F.LE_SATDONE n).down F.LE_MID n).wr F.LE_UPC 0 n).wr F.LE_CLAMP 0 n

/-- One frame of the image is written to its block. A ledger limit that comes to lie at or below its count raises no cause by that: the
count is compared when it next rises, as also where the merge of R96 raises it; R93 does not say (DESIGN CHOICE, log entry 88). -/
def loadFrame (s : State) (f : Frame) : State :=
  let i := f.index
  let w := f.w
  match f.type, f.kind with
  | 1, 1 =>
    ((((s.wr F.PIN_CFG_FUNC (w 0 % 64) i).wr F.PIN_CFG_DRIVE (bits (w 0) 7 6) i).wr F.PIN_CFG_PULL (bits (w 0) 9 8 ^^^ pullReset i) i).wr
      F.PIN_CFG_INVERT (bits (w 0) 10 10) i).wr F.PIN_CFG_SAFE (bits (w 0) 13 12) i
  | 1, _ => s.wr F.BANK_A_V18 (w 0 % 2)
  | 2, 1 =>
    (((s.wr F.POLICY (w 0 % 4) i).wr F.KEEP_DOZE (bits (w 0) 8 8) i).wr F.KEEP_NAP (bits (w 0) 9 9) i).wr F.KEEP_HIB (bits (w 0) 10 10) i
  | 2, 2 => ((s.wr F.PTM_WAKE_EN_EN (w 0)).wr F.PTM_WAKE_EN_WAKE0_POL (bits (w 0) 16 16)).wr F.PTM_WAKE_EN_WAKE1_POL (bits (w 0) 17 17)
  | 2, _ => ((s.wr F.PTM_THERM_T_WARN (w 0)).wr F.PTM_THERM_T_THROTTLE (w 0 / 2 ^ 8)).wr F.PTM_THERM_T_CRIT (w 0 / 2 ^ 16)
  | 3, _ =>
    let s := (((s.wr F.LSXO_FIT (w 0)).wr F.RMII_OUT (w 0 / 2)).wr F.USB_EN (w 0 / 4)).wr F.HSXO_EXT (w 0 / 8)
    s.when (!s.on F.USB_EN) (clockLost · 1)
  | 4, _ => s.each (List.range (2 * f.words.length)) fun s k => loadDest s (i + k) (w (k / 2) / 2 ^ (16 * (k % 2)))
  | 5, _ =>
    let s := (((s.wr F.CT_CFG_MODE (w 0 % 4) i).wr F.CT_CFG_CHAIN (bits (w 0) 2 2) i).wr F.CT_CFG_LOAD (bits (w 0) 4 3) i).wr
      F.CT_CFG_PRESCALE (bits (w 0) 15 8) i
    (((s.wr F.SLICE_START (bits (w 0) 16 16) i).wr F.CT_PERIOD_PERIOD (w 1) i).wr F.CT_PERIOD_ACT_PERIOD (w 1) i).down F.CT_CTRL_RUN i
  | 6, _ =>
    let s := s.mset (rowAddr i) 4 (w 0)
    let s := loadWords s (rowAddr i + 4) ((List.range 8).map fun j => if j + 1 < f.words.length then w (j + 1) else 0xFFFFFFFF)
    s.wr F.LE_ROWEN_EN (putBit (s.rd F.LE_ROWEN_EN) i ((w 0).testBit 8))
  | 7, 1 =>
    let s := ((((s.wr F.LE_SLOT_CFG_LAW (w 0 % 16) i).wr F.LE_SLOT_CFG_EXPRESS (bits (w 0) 4 4) i).wr F.LE_SLOT_CFG_FMT (bits (w 0) 5 5) i).wr
      F.LE_SLOT_CFG_LT (bits (w 0) 7 6) i).wr F.LE_SLOT_CFG_LT_EN (bits (w 0) 8 8) i
    ((s.wr F.LE_SLOT_CFG1_MEAS (w 1) i).wr F.LE_SLOT_CFG1_OUT (w 1 / 2 ^ 8) i).wr F.LE_SLOT_CFG1_XTRIG (w 1 / 2 ^ 16) i
  | 7, 2 =>
    let s := loadWords s (paramAddr i 0 0) (padded 128 f.words)
    if i < 32 then s.wr F.LE_BANK0_BANK (putBit (s.rd F.LE_BANK0_BANK) i false)
    else s.wr F.LE_BANK1_BANK (putBit (s.rd F.LE_BANK1_BANK) (i - 32) false)
  | 7, 3 =>
    let base := if s.on F.LE_MICRO_LEN i then s.rd F.LE_MICRO_BASE i else s.rd F.MS_USED
    let s := if s.on F.LE_MICRO_LEN i then s else s.wr F.MS_USED (base + f.words.length)
    loadWords ((s.wr F.LE_MICRO_BASE base i).wr F.LE_MICRO_LEN f.words.length i) (microAddr base) f.words
  | 7, _ =>
    let n := bits (w 0) 10 0
    let vals := padded 1024 (f.words.drop 1)
    loadWords (loadWords ((s.wr F.LE_LT_CTL_LEN n i).wr F.LE_LT_CTL_FREEZE (bits (w 0) 16 16) i) (ltPreload i 0) vals) (ltValue i 0) vals
  | 8, 1 =>
    let s := ((((((s.wr F.LG_TRIPCFG_OC_CMP (w 0 % 32) i).wr F.LG_TRIPCFG_HS_CMP (bits (w 0) 9 5) i).wr F.LG_TRIPCFG_GROUP (bits (w 0) 12 10) i).wr
      F.LG_TRIPCFG_SAFE (bits (w 0) 14 13) i).wr F.LG_TRIPCFG_ORPHAN (bits (w 0) 15 15) i).wr F.LG_TRIPCFG_T_ORPHAN (bits (w 0) 23 16) i).wr
      F.LG_TRIPCFG_FAULT (bits (w 0) 24 24) i
    let s := ((s.wr F.LG_BLANK_BLANK (w 1) i).wr F.OC_DAC (bits (w 1) 25 16) i).wr F.HS_DAC (w 2) i
    let use (s : State) (c dac : Nat) : State :=
      if c < 24 then (s.wr F.CM_DAC_CODE dac c).wr F.CM_LEGUSE_USE (putBit (s.rd F.CM_LEGUSE_USE) c true) else s
    let s := use (use s (w 0 % 32) (bits (w 1) 25 16)) (bits (w 0) 9 5) (w 2 % 1024)
    let g := bits (w 0) 12 10
    if g < 6 then s.wr F.BG_CFG_LEGS (putBit (s.rd F.BG_CFG_LEGS g) i true) g else s
  | 8, 2 => (s.wr F.BG_CFG_GSAFE (w 0 % 4) i).wr F.BG_CFG_FAULT (bits (w 0) 8 8) i
  | 8, _ => s.wr F.GATE_MASK (w 0)
  | 9, _ =>
    let x := i / 8
    let y := i % 8
    let s := (((s.wr F.FW_BASE_BASE (w 0 / 32) x y).wr F.FW_LAST_LAST (w 1) x y).wr F.FW_RD_MASK (w 2 + w 3 * 2 ^ 32) x y).wr
      F.FW_WR_MASK (w 4 + w 5 * 2 ^ 32) x y
    s.wr F.FW_VALID_VALID (putBit (s.rd F.FW_VALID_VALID x) y true) x
  | 10, 1 =>
    let s := (((((s.wr F.TASK_W0_PRIO (w 0 % 32) i).wr F.TASK_W0_PREEMPT (bits (w 0) 5 5) i).wr F.TASK_W0_EN (bits (w 0) 6 6) i).wr
      F.TASK_W0_USER (bits (w 0) 7 7) i).wr F.TASK_W0_AFF (bits (w 0) 12 8) i).wr F.TASK_W0_RERUN (bits (w 0) 13 13) i
    let s := (((((s.wr F.TASK_W1_ENTRY (w 1 / 4) i).wr F.TASK_W2_SP (w 2) i).wr F.TASK_W3_ARG (w 3) i).wr F.TASK_W4_TRMASK (w 4) i).wr
      F.TASK_W5_STK_LIM (w 5 / 8) i).wr F.TASK_W6_WAIT_LIM (w 6) i
    (s.up F.TASK_DEF i).wr F.DSP_TASKEN_EN (putBit (s.rd F.DSP_TASKEN_EN (i / 32)) (i % 32) ((w 0).testBit 6)) (i / 32)
  | 10, _ => (s.wr F.BIND_TASK (w 0 % 256) i).wr F.BIND_EN (bits (w 0) 8 8) i
  | 11, 1 =>
    let lim (s : State) (f : Fld) (v : Nat) : State := if v = 0 then s else s.wr f v
    lim (lim (lim (lim s F.ECC_LIM_ECC_LIM (w 0)) F.WEAR_LIM_WEAR_LIM (w 1)) F.HOT_LIM_HOT_LIM (w 2)) F.SP_LIM_SP_LIM (w 3)
  | 11, 2 => s.wr F.PWD_CFG_PERIOD (w 0)
  | 11, 3 =>
    (((s.wr F.SP_CFG_WINDOW (w 0 % 2 ^ 17)).wr F.SP_CFG_REACT (bits (w 0) 25 24)).wr F.SP_DIVCFG_DIV_LIM (w 1)).wr F.SP_DIVCFG_RATE_MS (w 2)
  | 11, _ => s.wr F.TS_CFG_T2_EN (w 0)
  | 12, 1 =>
    match blkAt (w 0) with
    | none => s
    | some x =>
      let y := blkInfo x.1
      let is := if y.stride = 0 then List.range y.n else [x.2]
      s.each is fun s j => (s.wr F.BAS_LOCK (w 1) (blkNum y.type j)).wr F.EXP_LOCK (w 1 / 2) (blkNum y.type j)
  | 12, _ => (s.wr F.LIVE_EN (w 0)).wr F.MPU_LOCK_POL (w 0 / 2)
  | _, _ => s

/-- The frames of one section, in image order; MICRO frames in ascending slot order (R373). -/
def loadSection (s : State) (fs : List Frame) (t : Nat) (p : Frame → Bool) : State :=
  let l := fs.filter fun f => f.type == t && p f
  let s := s.each (l.filter fun f => !(t == 7 && f.kind == 3)) loadFrame
  s.each (List.range 48) fun s n => s.each (l.filter fun f => t == 7 && f.kind == 3 && f.index == n) loadFrame

/-- Step 3: the domains of the dies that are up follow their policies; `fail` is a domain that does not come up. A wanted
domain whose rails are not good fails too (DEDUCED, log entry 16). -/
def loadPower (s : State) (fail : Option Nat) : State × Option Nat :=
  let here (d : Nat) : Bool := if d < 44 then true else if d < 128 then cUp s else mUp s
  let ds := (List.range 136).filter here
  let off := ds.filter fun d => !domWanted s d
  let s := s.each off fun s d => if 44 ≤ d ∧ d ≤ 107 then dropBank s (d - 44) else if d = 115 then dropRange s 0x30000000 0x30018000 else s
  let s := forceOff s off
  let bad := ds.find? fun d => domWanted s d && (fail == some d || !domRailsGood s d)
  let s := s.each (List.range 136) fun s d => setDomCtrl s d (domWanted s d)
  let s := s.each (ds.filter fun d => domWanted s d && bad != some d) fun s d => s.wr F.DOM_STATE 2 d
  (match bad with | some d => domErr s d 4 | none => s, bad)

/-- The offset of the POWER frame of domain `d`, or of the section's table entry where none names it. -/
def domOffset (s : State) (a : Nat) (fs : List Frame) (d : Nat) : Nat :=
  match fs.find? fun f => f.type == 2 && f.kind == 1 && f.index == d with
  | some f => f.off
  | none =>
    let rd (off : Nat) : Nat := s.mget (a + off) 4
    match ((List.range 32).map (sectEntry rd)).find? fun e => e.type == 2 with
    | some e => e.pos
    | none => 0x40

/-- Steps 4 to 13 for the frames that satisfy `p` (R131, R132, R382, R522). -/
def loadRest (s : State) (fs : List Frame) (p : Frame → Bool) : State :=
  let s := loadSection s fs 11 p
  let s := loadSection s fs 9 p
  let s := loadSection s fs 8 p
  let s := loadSection s fs 5 p
  let s := (loadSection s fs 4 p).when (fs.any fun f => f.type == 4 && p f) routesSettled
  let s := loadSection s fs 7 p
  let s := (loadSection s fs 6 p).up F.LE_CTRL_EN
  (loadSection s fs 10 p).up F.DSP_CTRL_EN

/-- The level a GP output takes with its safe state at step 12 (R754). -/
def gpLoad (s : State) : State :=
  s.wr F.GP_OUT_VALUE (maskOf 24 fun n => s.rd F.PIN_CFG_FUNC n == 1 && s.rd F.PIN_CFG_SAFE n == 1)

/-- Undo of a failed cast-on (R66): every block is at its reset configuration again. -/
def castUndo (s : State) : State :=
  let s := patternLost s
  let s := s.each (List.range 5) fun s k => s.wr F.PTM_DOM_CTRL_CTRL F.PTM_DOM_CTRL_CTRL.rst k
  let s := ((s.wr F.PTM_WAKE_EN_EN 0).wr F.PTM_WAKE_EN_WAKE0_POL F.PTM_WAKE_EN_WAKE0_POL.rst).wr F.PTM_WAKE_EN_WAKE1_POL
    F.PTM_WAKE_EN_WAKE1_POL.rst
  let s := powerDie s .b
  let s := if cUp s then s.each (List.range 84) fun s k => if domRailsGood s (44 + k) then s.wr F.DOM_STATE 2 (44 + k) else s else s
  if mUp s then s.each (List.range 8) fun s k => s.wr F.DOM_STATE 2 (128 + k) else s

/-- Record a failure of R134; an offset of the active configuration names no byte of the image: a free value. -/
def rejectWith (s : State) (f : Fail) (source : Nat) : State :=
  if f.off < 2 ^ 18 then reject s f.code f.type f.off source
  else (reject s f.code f.type (s.freeBits 18) source).drew

/-- The digest of the image at `a`, as the big-endian number of its bytes (R104). -/
def imgDigest (s : State) (a : Nat) : Nat := sha256 (s.bytes a (s.mget (a + 8) 4))

/-- PAT_DIGEST holds the digest, bytes 0 to 3 in word 0, little-endian. -/
def setDigest (s : State) (d : Nat) : State :=
  s.each (List.range 8) fun s k => s.wr F.PAT_DIGEST_WORD (ofBytes (((be32 d).drop (4 * k)).take 4)) k

/-- Cast-on of the full image at `a` of slot `slot` (R131 to R134, R66): `fail` is a domain that does not power up. -/
def castFull (s : State) (a slot : Nat) (fail : Option Nat) : State :=
  match checkPass s a false with
  | .bad f => (castUndo (rejectWith s f 0)).up F.CAST_FAILED
  | .ok fs live =>
    let s := patternLost s
    let bank := fs.find? fun f => f.type == 1 && f.kind == 2
    let s1 := s.each (fs.filter fun f => f.type == 1 && f.kind == 2) loadFrame
    let wrong := match bank with
      | some f => (s.rd F.PTM_SUPPLY_GOOD).testBit 5 && decide (f.w 0 % 2 ≠ s.rd F.PTM_SUPPLY_V18)
      | none => false
    if wrong then (castUndo (rejectWith s ⟨0x30, 1, match bank with | some f => f.off | none => 0⟩ 0)).up F.CAST_FAILED
    else
      let s2 := loadSection (loadSection s1 fs 3 fun _ => true) fs 2 fun _ => true
      let r := loadPower s2 fail
      match r.2 with
      | some d => (castUndo (rejectWith r.1 ⟨0x3A, 2, domOffset s a fs d⟩ 0)).up F.CAST_FAILED
      | none =>
        let s := loadRest r.1 fs fun _ => true
        let s := loadSection s fs 1 fun f => f.kind == 1
        let s := gpLoad (s.down F.PRE_CAST)
        let s := s.each (List.range 16) fun s k => driveLeg s k (legSafe s k) false
        let s := loadSection s fs 12 fun _ => true
        let s := s.each (List.range 16) fun s n => if s.on F.SLICE_START n then s.up F.CT_CTRL_RUN n else s
        let s := (s.up F.FW_LIVE).up F.FW_C_LIVE
        let s := s.each (List.range 13) fun s t => s.wrb F.LIVE_SECT (live.testBit t) t
        let s := ((s.wr F.PAT_ACTIVE_SLOT slot).down F.PAT_ACTIVE_DELTA).up F.PAT_ACTIVE_VALID
        let s := ((s.wr F.PAT_VERSION_VERSION (s.mget (a + 0x10) 4)).wr F.PAT_FAMILY_FAMILY (s.mget (a + 0x14) 4)).wr F.SU_TIER_PAT_SLOT slot
        let d := imgDigest s a
        let s := ((setDigest s d).wr F.KEPT_SLOT slot).wr F.KEPT_DIGEST d
        let s := (s.wrb F.PWD_RUN (s.on F.PWD_CFG_PERIOD)).wr F.RATE_AGE 0
        s.wr F.PWD_LEFT (s.rd F.PWD_CFG_PERIOD)

/-- The C-die frames of the slot Pattern are cast on again, and the B-die live sections where a delta had been switched in
(R76, R142, R545). -/
def castC (s : State) (a : Nat) : State :=
  match checkPass s a false with
  | .bad f => rejectWith s f 0
  | .ok fs _ =>
    let s := if s.on F.PAT_ACTIVE_DELTA then
        routesSettled (loadSection (s.each (List.range 512) fun s d => loadDest s d 0) fs 4 fun _ => true)
      else s
    let s := loadRest s fs onC
    (((loadSection s fs 12 onC).up F.FW_C_LIVE).down F.PAT_ACTIVE_DELTA)

/-! The delta as the block holds it. -/

/-- A frame as numbers: its head (type, kind, index, length), then its words. -/
def frameNums (f : Frame) : List Nat :=
  (f.words.length + f.index * 2 ^ 16 + f.kind * 2 ^ 32 + f.type * 2 ^ 40) :: f.words

/-- Frames as numbers. -/
def packFrames (fs : List Frame) : List Nat := fs.flatMap frameNums

/-- The frames that numbers spell. -/
def unpackFrames (fuel : Nat) (l : List Nat) : List Frame :=
  match fuel, l with
  | fuel + 1, h :: r =>
    let n := h % 2 ^ 16
    ⟨h / 2 ^ 40, (h / 2 ^ 32) % 256, (h / 2 ^ 16) % 2 ^ 16, r.take n, 0⟩ :: unpackFrames fuel (r.drop n)
  | _, _ => []

/-- The pending delta's frames. -/
def deltaFrames (s : State) : List Frame := let l := s.q Q.delta; unpackFrames l.length l

end Sys2Proof.Machine
end

