-- ==== Sys2Proof/Machine/Fabric.lean ====
section
/-!
DEFINITION. Requests of the fabric as far as they meet no register: who may issue one, the firewalls and the memories
(04_fabric_and_address_map.md, 14_protection.md). The registers follow in Sys2Proof/Machine/Bus.lean.
-/
namespace Sys2Proof.Machine

/-! Firewalls (R537 to R545). -/

/-- The first and last address each firewall guards (R537). -/
def fwRanges : List (Nat × Nat) := [
  (0x20000000, 0x200FFFFF), (0x20100000, 0x201FFFFF), (0x20200000, 0x202FFFFF), (0x20300000, 0x203FFFFF),
  (0x10000000, 0x10FFFFFF), (0x11000000, 0x11FFFFFF), (0x60000000, 0x60002FFF), (0x30000000, 0x30017FFF),
  (0x40000000, 0x4003FFFF), (0x40040000, 0x4009FFFF), (0x400A0000, 0x400FFFFF), (0x50000000, 0x5000FFFF),
  (0x50010000, 0x5004FFFF), (0x50050000, 0x500FFFFF), (0x40100000, 0x4013FFFF), (0x00000000, 0x0000FFFF)]

/-- The firewall that guards `a`. -/
def fwOf (a : Nat) : Option Nat :=
  (List.range 16).find? fun f =>
    match fwRanges[f]? with | some r => decide (r.1 ≤ a) && decide (a ≤ r.2) | none => false

/-- The windows of firewall `f` are in force (R541, R545). -/
def fwInForce (s : State) (f : Nat) : Bool := if fwAtCrossroads f then s.on F.FW_LIVE else s.on F.FW_C_LIVE

/-- The lowest valid window of firewall `f` that holds `a` (R538). -/
def fwWindow (s : State) (f a : Nat) : Option Nat :=
  (List.range 8).find? fun w =>
    (s.rd F.FW_VALID_VALID f).testBit w && decide (32 * s.rd F.FW_BASE_BASE f w ≤ a) && decide (a ≤ s.rd F.FW_LAST_LAST f w)

/-- R538: the firewall lets a request of master `mid` pass: operation 0 a read, 1 a write, any other needs both. -/
def fwPass (s : State) (f mid op a : Nat) : Bool :=
  match fwWindow s f a with
  | none => true
  | some w =>
    let r := (s.rd F.FW_RD_MASK f w).testBit mid
    let p := (s.rd F.FW_WR_MASK f w).testBit mid
    if op = 0 then r else if op = 1 then p else r && p

/-- FIREWALL_REFUSAL (R543): the refusal is counted, and the first one recorded. -/
def fwRefuse (s : State) (f mid op a : Nat) : State :=
  let s := s.bump F.FW_DENY_COUNT_COUNT f
  if s.on F.FW_STAT_NEW f then s
  else ((((s.wr F.FW_STAT_MID mid f).wrb F.FW_STAT_WRITE (op != 0) f).up F.FW_STAT_NEW f).wr F.FW_DENY_ADDR_ADDR a f).post 8

/-- A request of `who` at `a` meets a firewall that refuses it (R539). -/
def fwRefuses (s : State) (who : Master) (op a : Nat) : Option Nat :=
  match fwOf a with
  | none => none
  | some f => if fwInForce s f && !fwPass s f (midOf s who) op a then some f else none

/-- The target's die answers a request of `who` (R11, R165 ABSENT): it is up and, where the request crosses a link to an upper die, that
die is clocked (05, Clocks: CLK_C and CLK_M are stopped from NAP on). -/
def dieAnswers (s : State) (who : Master) (a : Nat) : Bool :=
  (s.rd F.PTM_STATE_CUR ≤ 1 || !crosses who a || dieOf a == some .b) &&
  match targetOf a with
  | .nvm _ => mUp s
  | .block => if a < 0x50000000 then cUp s else if a < 0x60000000 then true else mUp s
  | .unmapped => true
  | _ => cUp s

/-- The crossroads answers the request itself: its die does not, or a firewall there refuses it (R11, R537). -/
def atCrossroads (s : State) (r : Held) : Bool :=
  !dieAnswers s r.who r.addr || match fwRefuses s r.who r.op r.addr with | some f => fwAtCrossroads f | none => false

/-- The tag a request that is served in one command holds meanwhile. -/
def tagNow (s : State) : Nat := (freeTagOf s).getD 0

/-- The answer `p` to a request. -/
def respond (s : State) (r : Held) (p : Resp) : State := reply s r.who r.addr ⟨p, r.size, tagNow s, atCrossroads s r⟩

/-- The answer is a code without data. -/
def respondCode (s : State) (r : Held) (c : Code) : State := respond s r ⟨c, false, 0⟩

/-- The answer carries data. -/
def respondData (s : State) (r : Held) (v : Nat) : State := respond s r ⟨.ok, false, v⟩

/-- The request sets out: its flits leave for the target (R155, R156). -/
def setsOut (s : State) (r : Held) : State := sendRequest s r (atCrossroads s r) (tagNow s)

/-- The links a request of `who` to `a` takes: 0 the C-link, 1 the M-link. -/
def linksOf (who : Master) (a : Nat) : List Nat :=
  if crosses who a then (if isBMaster who then [] else [0]) ++ (match dieOf a with | some .c => [0] | some .m => [1] | _ => []) else []

/-- Requests that the master placed under another number of general bundles of a link are still open (R164). -/
def placedOld (s : State) (who : Master) (a : Nat) : Bool :=
  (linksOf who a).any fun l => (masterTags s who).any fun t =>
    s.on F.TAG_BUNDLE t l && s.rd F.TAG_N t l != (generalBundles s l).length

/-- A request that would cross a link cannot set out: a link end has no room (R24), the links have no clock (NAP), or requests placed
under another number of bundles are open (R164). -/
def linkHolds (s : State) (r : Held) : Bool :=
  crosses r.who r.addr &&
    (placedOld s r.who r.addr || (decide (2 ≤ s.rd F.PTM_STATE_CUR) && !isBMaster r.who) || !linkRoom s r (atCrossroads s r))

/-! Tickets (R168, R169, R170). A block is named by its number (`blkNum`). -/

/-- The ticket is among the last 16 that took effect for this block and master; 0 never is. -/
def ticketSeen (s : State) (b mid t : Nat) : Bool := t != 0 && (s.q Q.tickets b mid).contains t

/-- The ticket's write has taken effect. -/
def ticketTake (s : State) (b mid t : Nat) : State :=
  if t = 0 then s else let l := s.q Q.tickets b mid ++ [t]; s.setq Q.tickets (l.drop (l.length - 16)) b mid

/-- R149: a request is aligned to its size, a power of two up to 32. -/
def alignedReq (a n : Nat) : Bool := [1, 2, 4, 8, 16, 32].contains n && a % n == 0

/-- R340: what a fabric access to engine memory may do at `a`: nothing, read, or read and write. -/
def engineAccess (a : Nat) : Bool × Bool :=
  let o := a - 0x30000000
  if o < 0x10000 then
    let p := o % 0x4000 / 0x1000
    if p < 2 then (true, true) else if p = 2 then (true, false) else (false, false)
  else if o < 0x16000 then (true, true)
  else if o < 0x16C00 then (true, true)
  else if o < 0x17000 then (true, false)
  else (true, false)

/-- The protected region of array 7 (R672). -/
def nvmProtected (a : Nat) : Bool := 0x11FC0000 ≤ a && a < 0x12000000

/-- The code, other than OK, that a read of memory meets, in the order of R166; none where it is served. -/
def memReadFault (s : State) (t : Target) (a n : Nat) : Option Code :=
  if targetDomain t ≠ 255 ∧ !domOn s (targetDomain t) then some .pdown
  else if !alignedReq a n then some .decode
  else if t == .engine && (n != 4 || !(engineAccess a).1) then some .decode
  else if t == .unmapped then some .decode
  else if t != .rom && s.anyBad a n then some .ecc
  else none

/-- The bytes of a served read. -/
def memValue (s : State) (t : Target) (a n : Nat) : Nat :=
  match t with
  | .rom => ofBytes ((List.range n).map fun k => Config.romByte (a + k))
  | _ => s.mget a n

/-- A write of `n` bytes at `a` covers only part of a word with check bits, and that word is uncorrectable (R165, R438,
R676). -/
def partOfBad (s : State) (a n : Nat) : Bool := n < wordSize a && s.isBad a

/-- The same for a write or an atomic operation. -/
def memWriteFault (s : State) (t : Target) (a n : Nat) : Option Code :=
  match t with
  | .nvm _ => if nvmProtected a then some .firewall
      else if targetDomain t ≠ 255 ∧ !domOn s (targetDomain t) then some .pdown
      else if !alignedReq a n then some .decode
      else if partOfBad s a n then some .ecc else none
  | .rom => some .decode
  | .unmapped => some .decode
  | _ =>
    if targetDomain t ≠ 255 ∧ !domOn s (targetDomain t) then some .pdown
    else if !alignedReq a n then some .decode
    else if t == .engine && (n != 4 || !(engineAccess a).2) then some .decode
    else if partOfBad s a n then some .ecc
    else none

/-- The words of an NVM write are programmed in ascending order; the word at `fail`, if any, fails its verify, and the
later ones are not programmed (R674, R677). Answers whether all went well. -/
def nvmProgram (s : State) (a n v : Nat) (fail : Option Nat) : State × Bool :=
  let words := (List.range ((n + 7) / 8)).map fun k => a / 8 * 8 + 8 * k
  let good := words.takeWhile fun w => fail != some w
  let part := s.mset a n v
  let s1 := s.each good fun s w => programWord s w (part.mget w 8)
  let s1 := wear s1 a n
  if good.length = words.length then (s1, true) else (programFailed s1 (a / 8 * 8 + 8 * good.length), false)

/-- A memory takes a write (R161, R438). -/
def memStore (s : State) (t : Target) (a n v : Nat) : State :=
  match t with
  | .nvm _ => (nvmProgram s a n v none).1
  | _ => (s.mset a n v).healRange a n

/-- R676: an uncorrectable word of NVM that a read or a part-word write met is reported. -/
def eccSeen (s : State) (t : Target) (a : Nat) (c : Code) : State :=
  match t, c with
  | .nvm _, .ecc => nvmFailed s ((s.bad.find? fun w => decide (a / 8 * 8 ≤ w)).getD a)
  | _, _ => s

/-- A read of memory, past its die and firewall. -/
def memRead (s : State) (r : Held) (t : Target) : State :=
  match memReadFault s t r.addr r.size with
  | some c => respondCode (eccSeen s t r.addr c) r c
  | none => respondData s r (memValue s t r.addr r.size)

/-- A write of memory, past its die and firewall. -/
def memWrite (s : State) (r : Held) (t : Target) : State :=
  match memWriteFault s t r.addr r.size with
  | some c => respondCode (eccSeen s t r.addr c) r c
  | none => respondCode (memStore s t r.addr r.size r.data) r .ok

/-- The code, other than OK, that an atomic operation meets: it is served by SRAM and local memory alone, 4 or 8 bytes wide
(R158, R476, R478). -/
def memAtomicFault (s : State) (t : Target) (a n : Nat) : Option Code :=
  let served := match t with | .sram _ => true | .localMem _ => true | _ => false
  if !served then some (if targetDomain t ≠ 255 ∧ !domOn s (targetDomain t) then .pdown else .decode)
  else (memWriteFault s t a n).or
    (if n ≠ 4 ∧ n ≠ 8 then some .decode else if s.anyBad a n then some .ecc else none)

/-- SWAP (3) or ADD (4) of `v` on the `n` bytes at `a`. -/
def atomicStore (s : State) (t : Target) (op a n v : Nat) : State :=
  memStore s t a n ((if op = 3 then v else s.mget a n + v) % 2 ^ (8 * n))

/-- A SWAP or ADD, past its die and firewall; it returns the old value. -/
def memAtomic (s : State) (r : Held) (t : Target) : State :=
  match memAtomicFault s t r.addr r.size with
  | some c => respondCode s r c
  | none => respondData (atomicStore s t r.op r.addr r.size r.data) r (s.mget r.addr r.size)

/-- A memory whose domain is powering up holds the request (R174). -/
def poweringUp (s : State) (a : Nat) : Bool :=
  let d := targetDomain (targetOf a)
  d != 255 && s.rd F.DOM_STATE d == 1

/-- A request to memory has set out: its die, its firewall, then its target (R166). A request with a reserved operation answers
DECODE where nothing before it applies (R178). -/
def memServe (s : State) (r : Held) : State :=
  let t := targetOf r.addr
  if !dieAnswers s r.who r.addr then respondCode s r .absent
  else
    match fwRefuses s r.who r.op r.addr with
    | some f => respondCode (fwRefuse s f (midOf s r.who) r.op r.addr) r .firewall
    | none =>
      match r.op with
      | 0 => memRead s r t
      | 1 => memWrite s r t
      | 3 => memAtomic s r t
      | 4 => memAtomic s r t
      | _ => respondCode s r .decode

/-- A request to memory that nothing holds. -/
def memRequest (s : State) (r : Held) : State := memServe (setsOut s r) r

/-- A request to memory waits: its bank or array powers up (R174), or a link holds it. -/
def memWaits (s : State) (r : Held) : Bool := (dieAnswers s r.who r.addr && poweringUp s r.addr) || linkHolds s r

/-- A request of master `m` (at supervisor level) that meets no register; the state then holds the answer. -/
def memAccess (s : State) (m : Nat) (op a n v : Nat) : State :=
  memRequest s ⟨.unit (Fin.ofNat 64 m), true, op, a, n, v⟩

/-- Whether the latest answer is OK. -/
def okay (s : State) : Bool := s.resp.code == .ok

end Sys2Proof.Machine
end

