-- ==== Sys2Proof/Machine/Isa.lean ====
section
/-!
DEFINITION. The instruction words of the thread cores (12_instruction_set.md): the five formats as encoders, which words
are legal (R487), and the registers an instruction reads or writes (R464).
-/
namespace Sys2Proof.Machine

/-! Formats (the format table; R463). -/

/-- Format A: `op`, `rd`, `ra`, `rb`, the auxiliary field `x` and the function `f`. -/
def encA (op rd ra rb x f : Nat) : Nat := op * 2 ^ 26 + rd * 2 ^ 22 + ra * 2 ^ 18 + rb * 2 ^ 14 + x * 2 ^ 4 + f

/-- Format I: `op`, `rd`, `ra` and an 18-bit immediate. -/
def encI (op rd ra imm : Nat) : Nat := op * 2 ^ 26 + rd * 2 ^ 22 + ra * 2 ^ 18 + imm

/-- Format B: `op`, the condition, `ra`, `rb` and a 14-bit displacement in words. -/
def encB (op cond ra rb disp : Nat) : Nat := op * 2 ^ 26 + cond * 2 ^ 22 + ra * 2 ^ 18 + rb * 2 ^ 14 + disp

/-- Format L: `op`, `rd` and a 22-bit immediate. -/
def encL (op rd imm : Nat) : Nat := op * 2 ^ 26 + rd * 2 ^ 22 + imm

/-- Format S: `sub`, `num`, `ra` and `rd` under op 0x3F. -/
def encS (sub num ra rd : Nat) : Nat := 0x3F * 2 ^ 26 + sub * 2 ^ 20 + num * 2 ^ 10 + ra * 2 ^ 6 + rd * 2 ^ 2

/-! Fields. -/

/-- The major opcode. -/
def opOf (w : Nat) : Nat := bits w 31 26
/-- The field `rd`, or the condition of format B. -/
def rdOf (w : Nat) : Nat := bits w 25 22
/-- The field `ra`. -/
def raOf (w : Nat) : Nat := bits w 21 18
/-- The field `rb`. -/
def rbOf (w : Nat) : Nat := bits w 17 14
/-- The auxiliary field `X` (R463). -/
def auxOf (w : Nat) : Nat := bits w 13 4
/-- The function code `F` (R463). -/
def fnOf (w : Nat) : Nat := bits w 3 0
/-- `imm18`. -/
def imm18Of (w : Nat) : Nat := bits w 17 0
/-- `sub` of format S. -/
def subOf (w : Nat) : Nat := bits w 25 20
/-- `num` of format S. -/
def numOf (w : Nat) : Nat := bits w 19 10
/-- `ra` of format S. -/
def saOf (w : Nat) : Nat := bits w 9 6
/-- `rd` of format S. -/
def sdOf (w : Nat) : Nat := bits w 5 2

/-! Legal words (R463 to R465, R468 to R470, R473, R476, R480, R482, R487). -/

/-- R491: the system registers. -/
def sysReg (num : Nat) : Bool := num ≤ 9 || (0x10 ≤ num && num ≤ 0x13)

/-- A format-A word is legal: its function, its `X` and its unused fields. -/
def legalA (w : Nat) : Bool :=
  let f := fnOf w
  let x := auxOf w
  match opOf w with
  | 1 => x == 0
  | 2 => x == 0 && (f ≤ 4 || (8 ≤ f && f ≤ 11))
  | 3 => if f = 6 ∨ f = 7 then x < 32 && rbOf w == 0 else f ≤ 8 && x == 0 && (rbOf w == 0 || !(f == 4 || f == 5))
  | 4 => if f ≤ 2 then x / 32 + x % 32 + 1 ≤ 32 && rbOf w == 0 else f ≤ 5 && x == 0 && rbOf w == 0
  | 5 => x == 0 && f ≤ 3 && (f < 2 || (rdOf w % 2 == 0 && rbOf w % 2 == 0))
  | _ => false

/-- A format-S word is legal: its sub code, its unused fields and a system register of the map. -/
def legalS (w : Nat) : Bool :=
  w % 4 == 0 &&
  match subOf w with
  | 0 => saOf w == 0 && sysReg (numOf w)
  | 1 => sdOf w == 0 && sysReg (numOf w)
  | 2 => saOf w == 0 && sdOf w == 0
  | 7 => saOf w == 0 && sdOf w == 0
  | n => n ≤ 9 && numOf w == 0 && saOf w == 0 && sdOf w == 0

/-- R487: the word is a legal encoding. -/
def legalWord (w : Nat) : Bool :=
  let op := opOf w
  if op = 0x3F then legalS w
  else if 1 ≤ op ∧ op ≤ 5 then legalA w
  else if op = 0x0E then imm18Of w < 128
  else if op = 0x14 then rdOf w < 8
  else if op = 0x15 then rdOf w < 8 && rbOf w == 0
  else if op = 0x1D ∨ op = 0x23 then rdOf w % 2 == 0
  else (0x08 ≤ op && op ≤ 0x0D) || (0x10 ≤ op && op ≤ 0x13) || (0x18 ≤ op && op ≤ 0x1C) || (0x20 ≤ op && op ≤ 0x22)

/-! Registers (R424, R464). -/

/-- The registers an instruction reads or writes. -/
def regsUsed (w : Nat) : List Nat :=
  let op := opOf w
  if op = 5 then
    let wide := 2 ≤ fnOf w
    [rdOf w, raOf w, rbOf w] ++ (if wide then [rdOf w + 1, rbOf w + 1] else [])
  else if op = 3 ∧ 4 ≤ fnOf w ∧ fnOf w ≤ 7 then [rdOf w, raOf w]
  else if op = 4 then [rdOf w, raOf w]
  else if 1 ≤ op ∧ op ≤ 3 then [rdOf w, raOf w, rbOf w]
  else if op = 0x10 ∨ op = 0x11 ∨ op = 0x13 then [rdOf w]
  else if op = 0x14 then [raOf w, rbOf w]
  else if op = 0x15 then [raOf w]
  else if op = 0x1D ∨ op = 0x23 then [rdOf w, rdOf w + 1, raOf w]
  else if op = 0x3F then (if subOf w = 0 then [sdOf w] else if subOf w = 1 then [saOf w] else [])
  else [rdOf w, raOf w]

/-- A store to which the store buffer may be needed. -/
def isStore (w : Nat) : Bool := 0x20 ≤ opOf w && opOf w ≤ 0x23

/-- A divide. -/
def isDivide (w : Nat) : Bool := opOf w == 2 && 8 ≤ fnOf w && fnOf w ≤ 11

end Sys2Proof.Machine
end

