-- ==== Sys2Proof/Machine/Mpu.lean ====
section
/-!
DEFINITION. The memory protection units of the cores (14_protection.md).
-/
namespace Sys2Proof.Machine

/-- Kinds of access (R528). -/
inductive Access where
  | fetch | load | store | atomic
deriving DecidableEq, Repr

/-- The attributes an access needs, as a mask over SR, SW, SX, UR, UW, UX (R528). -/
def needOf (k : Access) (user : Bool) : Nat :=
  (match k with | .fetch => 4 | .load => 1 | .store => 2 | .atomic => 3) * (if user then 8 else 1)

/-- Region `r` of MPU `c` applies and holds `a` (R525, R526). -/
def regionHolds (s : State) (c trmask r a : Nat) : Bool :=
  s.on F.MPU_ATTR_EN c r && trmask.testBit r && decide (32 * s.rd F.MPU_START_START c r ≤ a) &&
    decide (a < 32 * s.rd F.MPU_END_END c r + 32)

/-- The lowest region that applies and holds `a` (R527). -/
def regionOf (s : State) (c trmask a : Nat) : Option Nat := (List.range 16).find? fun r => regionHolds s c trmask r a

/-- The default map (R532), as a mask over read, write, execute. -/
def defaultRights (a : Nat) : Nat :=
  match a / 2 ^ 28 with
  | 0 => 5 | 1 => 7 | 2 => 7 | 3 => 3 | 4 => 3 | 5 => 3 | 6 => 3 | 0xE => 7 | _ => 0

/-- R527 to R532: none where the access is allowed, else the region that denies it or 0xFF for none. -/
def mpuDenies (s : State) (c trmask : Nat) (user : Bool) (k : Access) (a : Nat) : Option Nat :=
  match regionOf s c trmask a with
  | some r => let n := needOf k user; if n &&& s.rd F.MPU_ATTR_RIGHTS c r = n then none else some r
  | none =>
    let n := needOf k false
    if !user && s.on F.MPU_CTRL_DEF_EN c && (n &&& defaultRights a) == n then none else some 0xFF

end Sys2Proof.Machine
end

