-- ==== Sys2Proof/Machine/Operands.lean ====
section
/-!
DEFINITION. What the register instructions of the thread cores compute (R466 to R471, R480): operands and results are
32-bit values held as natural numbers.
-/
namespace Sys2Proof.Machine

/-- `s(x)`. -/
def s32 (x : Nat) : Int := signedOf 32 x

/-- The 32-bit pattern of an integer. -/
def w32 (x : Int) : Nat := patternOf 32 x

/-- `sext` of an `n`-bit field. -/
def sextTo (n x : Nat) : Nat := w32 (signedOf n x)

/-- `sat32`. -/
def satWord (x : Int) : Nat := w32 (clampInt (-(2 ^ 31)) (2 ^ 31 - 1) x)

/-- Shift left. -/
def shl32 (a n : Nat) : Nat := a * 2 ^ n % 2 ^ 32

/-- Shift right logical. -/
def shr32 (a n : Nat) : Nat := a % 2 ^ 32 / 2 ^ n

/-- Shift right arithmetic. -/
def sar32 (a n : Nat) : Nat := w32 (s32 a / Int.ofNat (2 ^ n))

/-- Rotate right. -/
def ror32 (a n : Nat) : Nat := if n = 0 then a % 2 ^ 32 else shr32 a n + shl32 a (32 - n)

/-- The shift kinds of SHI (R470). -/
def shift32 (kind a n : Nat) : Nat :=
  match kind with
  | 0 => shl32 a n | 1 => shr32 a n | 2 => sar32 a n | _ => ror32 a n

/-- The integer group (R466), by its function code. -/
def intResult (f a b : Nat) : Nat :=
  match f with
  | 0 => (a + b) % 2 ^ 32
  | 1 => (a + 2 ^ 32 - b % 2 ^ 32) % 2 ^ 32
  | 2 => a &&& b
  | 3 => a ||| b
  | 4 => a ^^^ b
  | 5 => clearBits a b
  | 6 => shl32 a (b % 32)
  | 7 => shr32 a (b % 32)
  | 8 => sar32 a (b % 32)
  | 9 => ror32 a (b % 32)
  | 10 => bnat (decide (s32 a < s32 b))
  | 11 => bnat (decide (a < b))
  | 12 => if s32 a ≤ s32 b then a else b
  | 13 => if s32 a ≤ s32 b then b else a
  | 14 => min a b
  | _ => max a b

/-- The multiply functions (R467), by their function code. -/
def mulResult (f a b : Nat) : Nat :=
  match f with
  | 0 => a * b % 2 ^ 32
  | 1 => w32 (s32 a * s32 b / 2 ^ 32)
  | 2 => a * b / 2 ^ 32 % 2 ^ 32
  | 3 => satWord ((s32 a * s32 b + 2 ^ 30) / 2 ^ 31)
  | _ => satWord ((s32 a * s32 b + 2 ^ 15) / 2 ^ 16)

/-- The divide functions (R467) for a divisor other than zero: the quotient is truncated towards zero, the remainder has
the sign of the dividend. -/
def divResult (f a b : Nat) : Nat :=
  match f with
  | 8 => w32 (Int.tdiv (s32 a) (s32 b))
  | 9 => a / b
  | 10 => w32 (s32 a - Int.tdiv (s32 a) (s32 b) * s32 b)
  | _ => a % b

/-- The saturating group (R468), by its function code; `n` is the width of SATS and SATU. -/
def satResult (f n a b : Nat) : Nat :=
  match f with
  | 0 => satWord (s32 a + s32 b)
  | 1 => satWord (s32 a - s32 b)
  | 2 => min (a + b) (2 ^ 32 - 1)
  | 3 => a - b
  | 4 => satWord (-(s32 a))
  | 5 => satWord (if s32 a < 0 then -(s32 a) else s32 a)
  | 6 => w32 (clampInt (-(2 ^ (n - 1))) (2 ^ (n - 1) - 1) (s32 a))
  | 7 => w32 (clampInt 0 (2 ^ n - 1) (s32 a))
  | _ => satWord (s32 a * Int.ofNat (2 ^ (b % 32)))

/-- Number of leading zeros of a 32-bit value. -/
def clz32 (a : Nat) : Nat := ((List.range 32).takeWhile fun k => !a.testBit (31 - k)).length

/-- The bit-field group (R469), by its function code: `p` the place, `w` the width, `d` the old `rd`. -/
def fieldResult (f p w a d : Nat) : Nat :=
  match f with
  | 0 => a / 2 ^ p % 2 ^ w
  | 1 => sextTo w (a / 2 ^ p % 2 ^ w)
  | 2 => putField d (p + w - 1) p a
  | 3 => clz32 a
  | 4 => popCount 32 a
  | _ => ofBytes (toBytes 4 a).reverse

/-- The conditions of BR and BRZ (R480). -/
def condHolds (c a b : Nat) : Bool :=
  match c with
  | 0 => a == b
  | 1 => a != b
  | 2 => s32 a < s32 b
  | 3 => s32 b ≤ s32 a
  | 4 => a < b
  | 5 => b ≤ a
  | 6 => (a &&& b) != 0
  | _ => (a &&& b) == 0

/-- `ra + sext(imm18)` (R471). -/
def addrOf (a imm : Nat) : Nat := (a + sextTo 18 imm) % 2 ^ 32

end Sys2Proof.Machine
end

