-- ==== Sys2Proof/Machine/Threads.lean ====
section
/-!
DEFINITION. The hardware threads (11_thread_cores.md, 12_instruction_set.md): their state, issue, exceptions, loads, stores
and caches. A thread is named by a copy number: 0 to 39 the global thread numbers, 40 to 47 what SP-C holds of threads 32
to 39 (15_supervisor_pair.md).
-/
namespace Sys2Proof.Machine

/-! Names of a copy. -/

/-- The global thread number. -/
def globOf (u : Nat) : Nat := if u < 40 then u else u - 8

/-- The core, 4 being the supervisor pair. -/
def coreOf (u : Nat) : Nat := globOf u / 8

/-- The thread's number on its core. -/
def laneOf (u : Nat) : Nat := globOf u % 8

/-- The core whose own parts (caches, XVEC, CYC, divider) the copy uses; 5 is SP-C. -/
def cacheOf (u : Nat) : Nat := if u < 40 then u / 8 else 5

/-- The mode of the pair, as it was when a hinge was asked for (R565): 0 lock-step, 1 split, 2 degraded. -/
def pairMode (s : State) : Nat := if s.rd F.SP_STAT_MODE = 3 then s.rd F.HINGE_FROM else s.rd F.SP_STAT_MODE

/-- The copies of global thread `t` that run it. -/
def copiesOf (s : State) (t : Nat) : List Nat :=
  if t < 32 then [t]
  else match pairMode s with
    | 0 => [t, t + 8]
    | 1 => if t < 36 then [t] else [t + 8]
    | _ => [t]

/-- The copy that speaks for global thread `t`: SP-M's unless the pair is split and SP-C runs it. -/
def mainOf (s : State) (t : Nat) : Nat := if 36 ≤ t ∧ pairMode s = 1 then t + 8 else t

/-- The copy is SP-C's of a thread that runs in lock-step: its outputs go to its signatures alone (R150). -/
def isChecker (s : State) (u : Nat) : Bool := decide (40 ≤ u) && pairMode s == 0

/-- The copy issues under the present mode of the pair; none does between an accepted hinge request and the hinge, or
during a re-seed (R560, R565, R566, R569). -/
def copyRuns (s : State) (u : Nat) : Bool :=
  if u < 32 then true
  else if s.on F.SP_STAT_RESEEDING then false
  else match s.rd F.SP_STAT_MODE with
    | 0 => true
    | 1 => (u < 36 || 44 ≤ u)
    | 2 => u < 40
    | _ => false

/-! Signatures (R555 to R557). -/

/-- One bit of R555. -/
def sigBit (x : Nat) : Nat := if x % 2 = 1 then (x / 2) ^^^ 0x82F63B78 else x / 2

/-- One byte of R555. -/
def sigByte (x : Nat) (b : Byte) : Nat := (List.range 8).foldl (fun x _ => sigBit x) (x ^^^ b.toNat)

/-- A 64-bit item folded into a signature (R555). -/
def sigFold (sig item : Nat) : Nat := (toBytes 8 item).foldl sigByte sig

/-- `item` with bit 0 complemented. -/
def flip0 (x : Nat) : Nat := if x % 2 = 1 then x - 1 else x + 1

/-- A compute item of copy `u` (R556, R557, R576). -/
def foldCompute (s : State) (u item : Nat) : State :=
  if u < 32 ∨ s.rd F.SP_STAT_MODE ≠ 0 then s
  else if u < 40 then s.wr F.SIG_CM (sigFold (s.rd F.SIG_CM) item)
  else
    let item := if s.on F.INJ_C then flip0 item else item
    (s.wr F.SIG_CC (sigFold (s.rd F.SIG_CC) item)).down F.INJ_C

/-- An input item of copy `u`. -/
def foldInput (s : State) (u item : Nat) : State :=
  if u < 32 ∨ s.rd F.SP_STAT_MODE ≠ 0 then s
  else if u < 40 then s.wr F.SIG_IM (sigFold (s.rd F.SIG_IM) item)
  else
    let item := if s.on F.INJ_I then flip0 item else item
    (s.wr F.SIG_IC (sigFold (s.rd F.SIG_IC) item)).down F.INJ_I

/-- The item of a general register written (R556). -/
def regItem (u r v : Nat) : Nat := 2 ^ 62 + laneOf u * 2 ^ 59 + r * 2 ^ 55 + v

/-- The item of an exception entry. -/
def excItem (u cause xpc : Nat) : Nat := 3 * 2 ^ 62 + laneOf u * 2 ^ 59 + cause * 2 ^ 32 + xpc

/-- The item of a fabric request; `size` in bytes. -/
def reqItem (u op size addr : Nat) : Nat := 2 * 2 ^ 62 + laneOf u * 2 ^ 59 + op * 2 ^ 55 + Nat.log2 size * 2 ^ 52 + addr

/-- A fabric request of copy `u` is folded, with its data where it writes (R556). -/
def foldRequest (s : State) (u op size addr data : Nat) : State :=
  let s := foldCompute s u (reqItem u op size addr)
  if op = 0 then s else foldCompute s u (data % 2 ^ 64)

/-! Registers. -/

/-- General register `r`. -/
def gpr (s : State) (u r : Nat) : Nat := s.rd F.GPR u r

/-- Write a general register (R556). -/
def setGpr (s : State) (u r v : Nat) : State := foldCompute (s.wr F.GPR v u r) u (regItem u r (v % 2 ^ 32))

/-- R451: a write of `v` to register `r` would put g15 below the stack limit. -/
def stackRefused (s : State) (u r v : Nat) : Bool :=
  let lim := 8 * s.rd F.STK_LIM_LIMIT (coreOf u) (laneOf u)
  r == 15 && lim != 0 && decide (v < lim)

/-- The copy runs at user level. -/
def userLevel (s : State) (u : Nat) : Bool := (s.rd F.TSR u).testBit 0

/-- The copy is in an exception handler. -/
def exl (s : State) (u : Nat) : Bool := (s.rd F.TSR u).testBit 1

/-- The master of a copy's requests (R150). -/
def threadMaster (u : Nat) : Master := .thread (Fin.ofNat 40 (globOf u))

/-! Tasks, as far as the threads end them (R518 to R520). -/

/-- R519: a trace write has not completed OK. -/
def traceFails (s : State) (task : Nat) : State :=
  (((s.down F.TRC_CFG_EN).wr F.DSP_ERR_TASK task).wr F.DSP_ERR_CODE 4).up F.DSP_ERR_NEW

/-- TRACE_RECORD (R174, R518, R519): a happening of kind `k` for `task` on thread `t`. A record whose write is held takes its place
and is written later. -/
def trace (s : State) (k task t : Nat) : State :=
  if !s.on F.TRC_CFG_EN || !(s.rd F.TRC_CFG_KINDS).testBit k then s
  else
    let wr := s.rd F.TRC_WR_WR
    let next := if s.rd F.TRC_LEN_LEN ≤ wr + 1 then 0 else wr + 1
    if next = s.rd F.TRC_RD_RD then s.bump F.TRC_LOST_COUNT
    else
      let r : Held := ⟨.unit 41, true, 1, 8 * s.rd F.TRC_BASE_BASE + 8 * wr, 8,
        task + t * 2 ^ 8 + k * 2 ^ 16 + s.time / 5 % 2 ^ 32 * 2 ^ 32⟩
      if mustWait s r || memWaits s r then { s with held := s.held ++ [r] }.wr F.TRC_WR_WR next
      else
        let s := memRequest s r
        if okay s then s.wr F.TRC_WR_WR next else traceFails s task

/-- A task becomes FAULTED with a code of DSP_ERR (R520, R521). -/
def faultTask (s : State) (task t code : Nat) : State :=
  let s := (((s.wr F.DSP_TSTAT_STATE 4 task).down F.DSP_TSTAT_PENDING task).down F.DSP_TSTAT_SAVED task).wr F.OLD_W0 0 task
  let s := ((s.wr F.DSP_ERR_TASK task).wr F.DSP_ERR_CODE code).up F.DSP_ERR_NEW
  trace (s.post 59) 9 task t

/-! Exceptions. -/

/-- EXCEPTION_ENTRY (R447). -/
def enterHandler (s : State) (u cause info addr xpc : Nat) : State :=
  let s := (s.wr F.XPC xpc u).wr F.XSR (s.rd F.TSR u) u
  let s := (((s.wr F.TSR 2 u).wr F.XCAUSE cause u).wr F.XINFO info u).wr F.XADDR addr u
  foldCompute (s.wr F.PC (s.rd F.XVEC (cacheOf u)) u) u (excItem u cause xpc)

/-- DOUBLE_FAULT (R454, R520, R574): the thread stops, on both copies in lock-step. -/
def doubleFault (s : State) (u cause pc : Nat) : State :=
  let t := globOf u
  if isChecker s u then s.up F.DFAULTED u
  else
    let c := coreOf u
    let k := laneOf u
    let s := s.each (copiesOf s t) fun s v => s.up F.DFAULTED v
    let s := s.wr F.TC_DFAULT_THREADS (putBit (s.rd F.TC_DFAULT_THREADS c) k true) c
    let s := ((s.wr F.TC_DF_FIRST (s.rd F.XCAUSE u) c k).wr F.TC_DF_SECOND cause c k).wr F.TC_DF_PC_PC pc c k
    let s := s.post (if c < 4 then 60 + c else 13)
    faultTask (s.down F.HASTASK t) (s.rd F.TID_TASK u) t 3

/-- An exception of copy `u` at `pc`, to return to `xpc` (R447, R454). -/
def raiseAt (s : State) (u cause info addr pc xpc : Nat) : State :=
  if exl s u then doubleFault s u cause pc else enterHandler s u cause info addr xpc

/-- A precise exception at the copy's PC. -/
def raise (s : State) (u cause info addr : Nat) : State := raiseAt s u cause info addr (s.rd F.PC u) (s.rd F.PC u)

/-- ILLEGAL (R449, R487). -/
def raiseIllegal (s : State) (u w : Nat) : State := raise s u 1 w 0

/-- PRIV (R445, R488). -/
def raisePriv (s : State) (u w : Nat) : State := raise s u 2 w 0

/-- MPU_FETCH, MPU_LOAD or MPU_STORE with the deciding region (R529). -/
def raiseMpu (s : State) (u : Nat) (k : Access) (region addr : Nat) : State :=
  let s := if isChecker s u then s else s.bump F.MPU_FAULTS_COUNT (coreOf u)
  raise s u (match k with | .fetch => 5 | .load => 6 | _ => 7) region addr

/-- The MPU's answer for an access of copy `u`. -/
def mpuCheck (s : State) (u : Nat) (k : Access) (a : Nat) : Option Nat :=
  mpuDenies s (coreOf u) (s.rd F.TRMASK u) (userLevel s u) k a

/-! Issue (R424). -/

/-- The copy's core is clocked and powered. -/
def clocked (s : State) (u : Nat) : Bool :=
  cUp s && s.rd F.PTM_STATE_CUR == 0 && domOn s (threadDomain u) && (u < 32 || domOn s 112)

/-- The copy has a task, is neither halted nor stopped, and has nothing outstanding that blocks it. -/
def canAdvance (s : State) (u : Nat) : Bool :=
  let t := globOf u
  clocked s u && copyRuns s u && s.on F.HASTASK t && !s.on F.HALTED t && !s.on F.DFAULTED u && !s.on F.LD_PEND u &&
    !s.on F.SYNCING u && (isChecker s u || (!s.on F.HALT_REQ t && !s.on F.SAVE_FOR t))

/-- R452, R454: the asynchronous cause to take at the next issue, by its code; 0 for none. SP-C takes it where SP-M did
(R552). -/
def asyncDue (s : State) (u : Nat) : Nat :=
  let here := !isChecker s u || s.rd F.XPC (u - 8) == s.rd F.PC u
  if !here then 0
  else if s.on F.WDX_PEND u then 0xE
  else if exl s u then 0
  else if s.on F.NT_PEND u then 0xB
  else if s.on F.SG_PEND u then 0xA
  else 0

/-- The word at the copy's PC, where its fetch buffer holds it (R424, R432). -/
def fetched (s : State) (u : Nat) : Option Nat :=
  let pc := s.rd F.PC u
  if s.rd F.FB_LINE u = pc / 32 + 1 then some (bits (s.rd F.FB_DATA u) (pc % 32 * 8 + 31) (pc % 32 * 8)) else none

/-- A divide in progress holds a register the instruction uses, or the divider it needs (R424, R430). -/
def divideHazard (s : State) (u w : Nat) : Bool :=
  (s.on F.DIV_PEND u && (regsUsed w).contains (s.rd F.DIV_RD u)) ||
    (isDivide w && (List.range 48).any fun v => cacheOf v == cacheOf u && s.on F.DIV_PEND v)

/-- An address of a core's own local memory (R147). -/
def ownLocal (u a : Nat) : Bool := u < 32 && 0xE0000000 ≤ a && a < 0xE0010000

/-- A store buffer entry is free for copy `u` (R441). -/
def entryFree (s : State) (u : Nat) : Bool :=
  (s.stores.filter fun e => cacheOf e.thread == cacheOf u).length < 16 &&
    (s.stores.filter fun e => e.thread == u).length < 8

/-- The address of a load or store word (R471). -/
def wordAddr (s : State) (u w : Nat) : Nat := addrOf (gpr s u (raOf w)) (imm18Of w)

/-- The instruction is a store that needs an entry of a full store buffer (R424, R440). -/
def storeWaits (s : State) (u w : Nat) : Bool :=
  isStore w && !isChecker s u && !ownLocal u (wordAddr s u w) && !entryFree s u

/-- The copy can issue `w` but for a store-buffer entry. -/
def canIssue (s : State) (u w : Nat) : Bool :=
  canAdvance s u && asyncDue s u == 0 && fetched s u == some w && !divideHazard s u w

/-- R516: the wait of the task that issues its first instruction ends. -/
def waitEnds (s : State) (task : Nat) : State :=
  if !s.on F.STAMP_LIVE task then s
  else
    let w := (s.time - s.rd F.POST_STAMP task) / 20
    let s := ((s.down F.STAMP_LIVE task).wr F.WAIT_LAST_WAIT w task).peak F.WAIT_MAX_WAIT w task
    let lim := s.rd F.TASK_W6_WAIT_LIM task
    s.postIf (lim != 0 && decide (100 * lim < w)) 58

/-- A single step of thread `t` is over: it halts before its next instruction (R707). -/
def stepOver (s : State) (t : Nat) : State :=
  if s.on F.STEPPING t then ((s.down F.STEPPING t).up F.HALT_REQ t).wr F.HREASON 2 t else s

/-- What every issue does: tallies, waits and single steps (R460, R515, R516, R707). -/
def noteIssue (s : State) (u : Nat) : State :=
  if isChecker s u then s
  else
    let c := coreOf u
    let t := globOf u
    stepOver (waitEnds ((s.bump F.TC_ISSUED_COUNT c).up F.ISSUED_NOW c) (s.rd F.TID_TASK u)) t

/-- The PC of the next instruction. -/
def nextPc (s : State) (u : Nat) : Nat := (s.rd F.PC u + 4) % 2 ^ 32

/-- Go on to the next instruction. -/
def advance (s : State) (u : Nat) : State := s.wr F.PC (nextPc s u) u

/-- Copy `u` issues `w`, which acts as `f` says once the fetch is allowed and the word is legal (R424, R450, R487, R529).
Where the copy cannot issue `w` now, nothing happens, but that a store that waits for an entry is counted (R460, log entry
20). -/
def issue (s : State) (u w : Nat) (f : State → State) : State :=
  if !canIssue s u w then s
  else if storeWaits s u w then s.bump F.TC_TALLY_SB_FULL (coreOf u)
  else
    let s := noteIssue s u
    match mpuCheck s u .fetch (s.rd F.PC u) with
    | some r => raiseMpu s u .fetch r (s.rd F.PC u)
    | none => if legalWord w then f s else raiseIllegal s u w

/-- The instruction writes `v` to `rd` and goes on, or raises STACKLIM (R451). -/
def result (s : State) (u rd v : Nat) : State :=
  if stackRefused s u rd v then raise s u 0xF 0 v else advance (setGpr s u rd v) u

/-- A transfer of control to `target`, which also writes the link `rd` (R481). -/
def linkTo (s : State) (u rd target : Nat) : State :=
  let v := nextPc s u
  if stackRefused s u rd v then raise s u 0xF 0 v else (setGpr s u rd v).wr F.PC (target / 4 * 4 % 2 ^ 32) u

/-- A compare-and-branch (R480). -/
def branch (s : State) (u : Nat) (taken : Bool) (disp : Nat) : State :=
  if taken then s.wr F.PC ((s.rd F.PC u + w32 (signedOf 14 disp * 4)) % 2 ^ 32) u else advance s u

/-- A divide (R430, R467): DIVZERO at once, or the divider works until DIVIDE_DONE. -/
def divide (s : State) (u rd f a b : Nat) : State :=
  if b = 0 then raise s u 0xC 0 0
  else
    let v := divResult f a b
    if stackRefused s u rd v then raise s u 0xF 0 v
    else advance (((s.up F.DIV_PEND u).wr F.DIV_RD rd u).wr F.DIV_RES v u) u

/-- DIVIDE_DONE. -/
def divideDone (s : State) (u : Nat) : State :=
  if s.on F.DIV_PEND u then setGpr (s.down F.DIV_PEND u) u (s.rd F.DIV_RD u) (s.rd F.DIV_RES u) else s

/-! System registers (R445, R484, R485, R491). -/

/-- R491, R488: a read of `num` at user level is allowed. -/
def userReads (num : Nat) : Bool := num == 7 || num == 9

/-- What MFS returns. -/
def sysRead (s : State) (u num : Nat) : Nat :=
  match num with
  | 0 => s.rd F.TSR u | 1 => s.rd F.XSR u | 2 => s.rd F.XPC u | 3 => s.rd F.XCAUSE u | 4 => s.rd F.XINFO u
  | 5 => s.rd F.XADDR u | 6 => s.rd F.XVEC (cacheOf u) | 7 => globOf u + s.rd F.TID_TASK u * 256
  | 8 => s.rd F.TRMASK u | 9 => s.rd F.CYC (cacheOf u)
  | n => s.rd F.SCRATCH u (n - 0x10)

/-- What MTS writes (R462). -/
def sysWrite (s : State) (u num v : Nat) : State :=
  match num with
  | 0 => s.wr F.TSR v u | 1 => s.wr F.XSR v u | 2 => s.wr F.XPC (v / 4 * 4) u | 3 => s.wr F.XCAUSE v u
  | 4 => s.wr F.XINFO v u | 5 => s.wr F.XADDR v u | 6 => s.wr F.XVEC (v / 4 * 4) (cacheOf u) | 7 => s
  | 8 => s.wr F.TRMASK v u | 9 => s.wr F.CYC v (cacheOf u)
  | n => s.wr F.SCRATCH v u (n - 0x10)

/-- R488, R536: MTS to `num` is refused at this level. -/
def mtsRefused (s : State) (u num : Nat) : Bool :=
  userLevel s u || num == 7 || (num == 8 && s.on F.MPU_LOCK_POL)

/-! Loads and atomic operations (R439, R442, R471 to R479). -/

/-- An address of the nonvolatile arrays. -/
def inNvm (a : Nat) : Bool := 0x10000000 ≤ a && a < 0x12000000

/-- SP_SENSE (R554). -/
def spSenseAddr : Nat := 0x40008240

/-- A load: alignment, protection, then the request is outstanding until LOAD_RESPONSE. An LDW of SP_SENSE by a thread of
the pair is served from the copy's own synchronisers (R554, R571). -/
def load (s : State) (u rd a size : Nat) (sign : Bool) : State :=
  if a % size ≠ 0 then raise s u 3 0 a
  else
    match mpuCheck s u .load a with
    | some r => raiseMpu s u .load r a
    | none =>
      if 32 ≤ u ∧ a = spSenseAddr ∧ size = 4 then
        let v := s.rd (if u < 40 then F.SENSE_M else F.SENSE_C)
        result (foldInput s u (laneOf u * 2 ^ 59 + v)) u rd v
      else
        let s := (((s.up F.LD_PEND u).wr F.LD_RD rd u).wr F.LD_ADDR a u).wr F.LD_SIZE (Nat.log2 size) u
        let s := ((s.wrb F.LD_SIGN sign u).wr F.LD_OP 0 u).wr F.LD_PC (s.rd F.PC u) u
        let s := if 0xE0000000 ≤ a ∨ inNvm a then s else foldRequest s u 0 size a 0
        advance s u

/-- An atomic operation: `op` 3 swaps, 4 adds (R476 to R478). -/
def atomic (s : State) (u rd a size op v : Nat) : State :=
  if a % size ≠ 0 then raise s u 4 0 a
  else
    match mpuCheck s u .atomic a with
    | some r => raiseMpu s u .atomic r a
    | none =>
      let s := (((s.up F.LD_PEND u).wr F.LD_RD rd u).wr F.LD_ADDR a u).wr F.LD_SIZE (Nat.log2 size) u
      let s := (((s.down F.LD_SIGN u).wr F.LD_OP (op - 2) u).wr F.LD_DATA v u).wr F.LD_PC (s.rd F.PC u) u
      let s := if 0xE0000000 ≤ a then s else foldRequest s u op size a v
      advance s u

/-- The request of a copy's outstanding load or atomic operation. -/
def loadRequest (s : State) (u : Nat) : Held :=
  ⟨threadMaster u, !userLevel s u, (match s.rd F.LD_OP u with | 0 => 0 | n => n + 2), s.rd F.LD_ADDR u, 2 ^ s.rd F.LD_SIZE u,
    s.rd F.LD_DATA u⟩

/-- The request of a store-buffer entry. -/
def storeRequest (e : StoreEntry) : Held := ⟨threadMaster e.thread, !e.user, 1, e.addr, e.size, e.data⟩

/-- The read of the 32-byte line of `a` for copy `u`. -/
def lineRequest (s : State) (u a : Nat) : Held := ⟨threadMaster u, !userLevel s u, 0, a / 32 * 32, 32, 0⟩

/-- The read of a line waits at its thread's interface, at a link or at its target. -/
def lineWaits (s : State) (u a : Nat) : Bool := mustWait s (lineRequest s u a) || memWaits s (lineRequest s u a)

/-- R442: the load waits for an earlier store of its thread to the same block, bank, array or local memory that has not left for the
fabric (R159). -/
def loadWaits (s : State) (u : Nat) : Bool :=
  s.stores.any fun e => e.thread == u && !e.issued && orderPlace (storeRequest e) == orderPlace (loadRequest s u)

/-- The value a load of `size` bytes writes (R471). -/
def loadValue (size : Nat) (sign : Bool) (v : Nat) : Nat :=
  let v := v % 2 ^ (8 * size)
  if sign then sextTo (8 * size) v else v

/-- LOAD_RESPONSE (R439, R471, R473, R475): the answer `code` with `v` reaches copy `u`. -/
def deliver (s : State) (u : Nat) (code : Nat) (v : Nat) : State :=
  let rd := s.rd F.LD_RD u
  let size := 2 ^ s.rd F.LD_SIZE u
  let pc := s.rd F.LD_PC u
  let s := s.down F.LD_PEND u
  if code ≠ 0 then raiseAt s u 8 code (s.rd F.LD_ADDR u) pc pc
  else
    let lo := loadValue (min size 4) (s.on F.LD_SIGN u) v
    let hi := v / 2 ^ 32 % 2 ^ 32
    let last := if size = 8 then rd + 1 else rd
    let top := if size = 8 then hi else lo
    if stackRefused s u last top then raiseAt s u 0xF 0 top pc pc
    else
      let s := setGpr s u rd lo
      if size = 8 then setGpr s u (rd + 1) hi else s

/-! Stores (R440 to R444). -/

/-- A failed posted store raises a NOTICE on its thread, or is lost where one is pending (R444, R453). -/
def notice (s : State) (u : Nat) (code task addr : Nat) : State :=
  if s.on F.NT_PEND u then s.bump F.TC_TALLY_NOTICE_LOST (coreOf u)
  else (((s.up F.NT_PEND u).wr F.NT_CODE code u).wr F.NT_TASK task u).wr F.NT_ADDR addr u

/-- R434: a store to NVM drops the matching line of the core's read cache. Lines are numbers: the line address below the
data. -/
def dropLine (s : State) (c a : Nat) : State :=
  let set := a / 32 % 128
  s.setq Q.rcache ((s.q Q.rcache c set).filter fun l => l % 2 ^ 27 != a / 32) c set

/-- A store: alignment, protection, then into the core's own local memory at once (R440, R438), or into the store
buffer. SP-C in lock-step only folds it. -/
def store (s : State) (u a size v : Nat) : State :=
  if a % size ≠ 0 then raise s u 4 0 a
  else
    match mpuCheck s u .store a with
    | some r => raiseMpu s u .store r a
    | none =>
      let task := s.rd F.TID_TASK u
      if ownLocal u a then
        let al := 0x40100000 + coreOf u * 0x10000 + (a - 0xE0000000)
        let s := advance s u
        match memWriteFault s (.localMem (coreOf u)) al size with
        | some c => notice s u c.num task a
        | none => memStore s (.localMem (coreOf u)) al size v
      else
        let s := if 0xE0000000 ≤ a then s else foldRequest s u 1 size a v
        let s := if inNvm a then dropLine s (cacheOf u) a else s
        let s := if isChecker s u then s
          else { s with stores := s.stores ++ [⟨u, task, a, size, v % 2 ^ (8 * size), userLevel s u, false, none⟩] }
        advance s u

/-- SYNC (R443). SP-C in lock-step waits for the stores SP-M issued. -/
def sync (s : State) (u : Nat) : State :=
  let v := if isChecker s u then u - 8 else u
  advance (s.wrb F.SYNCING (s.stores.any fun e => e.thread == v) u) u

/-- Threads in SYNC whose stores all have their answer go on. -/
def syncEnds (s : State) (u : Nat) : State :=
  if s.stores.any fun e => e.thread == u then s
  else if u < 32 ∨ 40 ≤ u then s.down F.SYNCING u else (s.down F.SYNCING u).down F.SYNCING (u + 8)

/-- STORE_RESPONSE (R441, R444): the oldest answered store of copy `u` frees its entry. -/
def storeResponse (s : State) (u : Nat) : State :=
  match s.stores.find? fun e => e.thread == u with
  | some ⟨_, task, addr, _, _, _, true, some r⟩ =>
    let rest := s.stores.eraseP fun e => e.thread == u
    let s := { s with stores := rest }
    let s := if r.code == .ok then s else notice s u r.code.num task addr
    syncEnds s u
  | _ => s

/-! Caches (R432 to R437). A set is a list of lines, latest used first; a line is its address below its data. -/

/-- The line of address `a` in a set. -/
def lineFind (l : List Nat) (a : Nat) : Option Nat := (l.find? fun x => x % 2 ^ 27 == a / 32).map (· / 2 ^ 27)

/-- The set after a use or a fill of the line of `a`, with `ways` ways. -/
def lineUse (l : List Nat) (ways a v : Nat) : List Nat :=
  ((a / 32 + v * 2 ^ 27) :: l.filter fun x => x % 2 ^ 27 != a / 32).take ways

/-- A 32-byte line of NVM for copy `u` through a cache: `q` its queue, `sets` and `ways` its shape, `en` its enable, and its
hit and miss tallies. `parity`: the line met on a hit has a parity error and counts as a miss (R436). The answer stands in
`resp`, and FB_REQ tells whether the line took a fabric request. -/
def cachedLine (s : State) (u a q sets ways : Nat) (en hit miss : Fld) (parity : Bool) : State :=
  let c := cacheOf u
  let r := lineRequest s u a
  if !s.on en (coreOf u) then memRequest (foldRequest (s.up F.FB_REQ u) u 0 32 (a / 32 * 32) 0) r
  else
    let set := a / 32 % sets
    let s := if parity && (lineFind (s.q q c set) a).isSome then
        (s.bump F.PARITY_COUNT (coreOf u)).setq q ((s.q q c set).filter fun x => x % 2 ^ 27 != a / 32) c set
      else s
    match lineFind (s.q q c set) a with
    | some v => { (s.setq q (lineUse (s.q q c set) ways a v) c set).bump hit (coreOf u) with resp := ⟨.ok, false, v⟩ }
    | none =>
      let s := memRequest (foldRequest ((s.bump miss (coreOf u)).up F.FB_REQ u) u 0 32 (a / 32 * 32) 0) r
      if okay s then s.setq q (lineUse (s.q q c set) ways a s.resp.data) c set else s

/-- The line of `a` must be read from the array. -/
def lineNeeded (s : State) (u a q sets : Nat) (en : Fld) : Bool :=
  !s.on en (coreOf u) || (lineFind (s.q q (cacheOf u) (a / 32 % sets)) a).isNone

/-- The core's caches wait while an invalidation runs (R435). -/
def cacheBusy (s : State) (u : Nat) : Bool :=
  if 40 ≤ u then s.on F.INV_KIND 5 else s.on F.CC_INV_BUSY (coreOf u)

/-- R432: instructions are fetched from the boot ROM, NVM, SRAM and the core's local memory only. -/
def fetchable (u a : Nat) : Bool :=
  match targetOf a with
  | .rom => true | .nvm _ => true | .sram _ => true | _ => ownLocal u a

/-- The line that holds the copy's PC is read for its fetch buffer; the answer stands in `resp`. -/
def fetchLine (s : State) (u : Nat) (parity : Bool) : State :=
  let s := s.down F.FB_REQ u
  let a := s.rd F.PC u / 32 * 32
  if ownLocal u a then
    let al := 0x40100000 + coreOf u * 0x10000 + (a - 0xE0000000)
    match memReadFault s (.localMem (coreOf u)) al 32 with
    | some c => { s with resp := ⟨c, false, 0⟩ }
    | none => { s with resp := ⟨.ok, false, s.mget al 32⟩ }
  else
    match targetOf a with
    | .nvm _ => cachedLine s u a Q.icache 256 4 F.IC_CTRL_EN F.IC_HIT_COUNT F.IC_MISS_COUNT parity
    | _ => memRequest (foldRequest (s.up F.FB_REQ u) u 0 32 a 0) (lineRequest s u a)

/-- SP-C's fetch in lock-step (R552): it sees the line, or the failure, that SP-M saw. -/
def checkerRefill (s : State) (u : Nat) : State :=
  let pc := s.rd F.PC u
  let m := u - 8
  if s.rd F.FB_LINE m = pc / 32 + 1 then
    let s := if s.on F.FB_REQ m then foldRequest s u 0 32 (pc / 32 * 32) 0 else s
    (s.wr F.FB_LINE (pc / 32 + 1) u).wr F.FB_DATA (s.rd F.FB_DATA m) u
  else if s.rd F.XCAUSE m = 8 ∧ (s.rd F.XINFO m).testBit 8 ∧ s.rd F.XADDR m = pc ∧ exl s m then raise s u 8 (s.rd F.XINFO m) pc
  else s

/-- FETCH_REFILL_DONE (R432, R433, R436, R450): the refill of copy `u`'s fetch buffer ends. -/
def fetchRefill (s : State) (u : Nat) (parity : Bool) : State :=
  let pc := s.rd F.PC u
  if !canAdvance s u || asyncDue s u != 0 || s.rd F.FB_LINE u == pc / 32 + 1 then s
  else
    match mpuCheck s u .fetch pc with
    | some r => raiseMpu (stepOver s (globOf u)) u .fetch r pc
    | none =>
      if !fetchable u pc then raise (stepOver s (globOf u)) u 8 (6 + 256) pc
      else if isChecker s u then checkerRefill s u
      else if cacheBusy s u && inNvm pc then s
      else if !ownLocal u pc && (!inNvm pc || lineNeeded s u pc Q.icache 256 F.IC_CTRL_EN) && lineWaits s u pc then s
      else
        let s := fetchLine s u parity
        if okay s then (s.wr F.FB_LINE (pc / 32 + 1) u).wr F.FB_DATA s.resp.data u
        else raise (stepOver s (globOf u)) u 8 (s.resp.code.num + 256) pc

/-! Asynchronous causes (R452 to R454, R457). -/

/-- SP-C learns the cause SP-M has taken (R552). -/
def tellChecker (s : State) (u cause : Nat) : State :=
  if u < 32 ∨ 40 ≤ u ∨ s.rd F.SP_STAT_MODE ≠ 0 then s
  else match cause with
    | 0xE => s.up F.WDX_PEND (u + 8)
    | 0xB => (((s.up F.NT_PEND (u + 8)).wr F.NT_CODE (s.rd F.NT_CODE u) (u + 8)).wr F.NT_TASK (s.rd F.NT_TASK u) (u + 8)).wr
        F.NT_ADDR (s.rd F.NT_ADDR u) (u + 8)
    | _ => (s.up F.SG_PEND (u + 8)).wr F.SG_INFO (s.rd F.SG_INFO u) (u + 8)

/-- ASYNC_EXCEPTION (R452): the due cause is taken in place of the next issue. -/
def takeAsync (s : State) (u : Nat) : State :=
  if !canAdvance s u then s
  else
    let pc := s.rd F.PC u
    match asyncDue s u with
    | 0 => s
    | 0xE => raiseAt ((tellChecker s u 0xE).down F.WDX_PEND u) u 0xE 0 0 pc pc
    | 0xB => raiseAt ((tellChecker s u 0xB).down F.NT_PEND u) u 0xB (s.rd F.NT_CODE u + s.rd F.NT_TASK u * 256) (s.rd F.NT_ADDR u) pc pc
    | _ => raiseAt ((tellChecker s u 0xA).down F.SG_PEND u) u 0xA (s.rd F.SG_INFO u) 0 pc pc

/-- THREAD_WATCHDOG_EXPIRE (R456, R457): the watchdog of thread `t` expires. -/
def watchdogExpire (s : State) (t : Nat) : State :=
  let c := t / 8
  let k := t % 8
  if s.rd F.WD_PERIOD_PERIOD c k = 0 ∨ s.rd F.WD_COUNT_COUNT c k ≠ 0 ∨ !s.on F.HASTASK t ∨ s.on F.HALTED t ∨
      1 < s.rd F.PTM_STATE_CUR ∨ !domOn s (threadDomain t) then s
  else
    let s := s.wr F.WD_STAT_EXPIRED (putBit (s.rd F.WD_STAT_EXPIRED c) k true) c
    (s.wr F.WD_COUNT_COUNT (s.rd F.WD_PERIOD_PERIOD c k) c k).up F.WDX_PEND (mainOf s t)

/-- WD_KICK (R456): the watchdogs of core `c` that the mask names reload. -/
def watchdogKick (s : State) (c m : Nat) : State :=
  s.each (onesOf m 8) fun s k => s.wr F.WD_COUNT_COUNT (s.rd F.WD_PERIOD_PERIOD c k) c k

/-- TC_DFAULT_CLEAR (R454): the threads of core `c` that the mask names may take tasks again. -/
def dfaultClear (s : State) (c m : Nat) : State :=
  let s := s.wr F.TC_DFAULT_THREADS (clearBits (s.rd F.TC_DFAULT_THREADS c) m) c
  s.each (onesOf m 8) fun s k => s.each (if c < 4 then [8 * c + k] else [32 + k, 40 + k]) fun s u => s.down F.DFAULTED u

/-! Cache invalidation (R435). -/

/-- A write to CC_INV of core `c`: the kinds of mask `m` begin; while one runs, a further write is ignored. -/
def ccInvWrite (s : State) (c m : Nat) : State :=
  if m % 16 = 0 || s.on F.CC_INV_BUSY c then s else (s.wr F.INV_KIND (m % 16) c).up F.CC_INV_BUSY c

/-- The lines of a cache of core `c` that satisfy `p` go. -/
def dropLines (s : State) (q c sets : Nat) (p : Nat → Bool) : State :=
  s.each (List.range sets) fun s k => s.setq q ((s.q q c k).filter fun x => !p (x % 2 ^ 27)) c k

/-- What the kinds of mask `m` drop from the caches of `c`; the range is that of core `r`. -/
def invalidate (s : State) (c r m : Nat) : State :=
  let range (a : Nat) : Bool := decide (s.rd F.INV_BASE_BASE r ≤ a) && decide (a ≤ s.rd F.INV_LAST_LAST r)
  let s1 := if m.testBit 0 then dropLines s Q.icache c 256 fun _ => true
    else if m.testBit 2 then dropLines s Q.icache c 256 range else s
  if m.testBit 1 then dropLines s1 Q.rcache c 128 fun _ => true
  else if m.testBit 3 then dropLines s1 Q.rcache c 128 range else s1

/-- CC_INV_DONE: the invalidation of core `c` ends; 5 stands for SP-C's own at a split (R568). -/
def ccInvDone (s : State) (c : Nat) : State :=
  let k := s.rd F.INV_KIND c
  if k = 0 then s
  else if c = 5 then (invalidate s 5 4 k).down F.INV_KIND 5
  else
    let s := invalidate s c c k
    let s := if c = 4 then invalidate s 5 4 k else s
    (s.down F.INV_KIND c).down F.CC_INV_BUSY c

end Sys2Proof.Machine
end

