-- ==== Sys2Proof/Machine/Clock.lean ====
section
/-!
DEFINITION. What passes with time alone (log entry 1): one unit is 500 ps. The events that the table lists come as commands;
what stands here are the counts that no command carries: the cycle counters of the cores, the load windows, the window of the
supervisor pair, the thread watchdogs, the progress watchdog and the counts of milliseconds.
-/
namespace Sys2Proof.Machine

/-- Units in a cycle of core `c` (0 to 3 TC0 to TC3, 4 SP-M, 5 SP-C): CLK_C is 400 MHz, half that for TC0 to TC3 while
throttled (R210, R212), and FRC at 16 MHz after a fast NAP wake (R203). -/
def coreCycle (s : State) (c : Nat) : Nat :=
  (if s.on F.PTM_STATE_ONFRC then 125 else 5) * (if s.on F.PTM_CLKSTAT_THROTTLE && c < 4 then 2 else 1)

/-- Core `c` is clocked (R193, the power-state table). -/
def coreClocked (s : State) (c : Nat) : Bool := cUp s && s.rd F.PTM_STATE_CUR == 0 && domOn s (108 + c)

/-- Threads of core `c` that have a task. -/
def busyThreads (s : State) (c : Nat) : Nat := ((List.range 8).filter fun l => s.on F.HASTASK (8 * c + l)).length

/-- One cycle of core `c` ends (R425, R445, R517). -/
def coreTick (s : State) (c : Nat) : State :=
  let hit := s.on F.ISSUED_NOW c
  let s := s.wr F.CYC (s.rd F.CYC c + 1) c
  if c = 5 then s.down F.ISSUED_NOW c
  else
    let s := if hit then s else s.bump F.TC_BUBBLES_COUNT c
    let s := s.bump F.WIN_CYC c
    let s := s.wr F.WIN_ISSUE (s.rd F.WIN_ISSUE c + bnat hit) c
    let s := s.wr F.WIN_BUSY (s.rd F.WIN_BUSY c + busyThreads s c) c
    s.down F.ISSUED_NOW c

/-- The window of the supervisor pair advances with SP-M in lock-step (R555, R557, R560). -/
def windowTick (s : State) : State :=
  if s.rd F.SP_STAT_MODE == 0 && !s.on F.SP_STAT_RESEEDING then s.bump F.SP_WCYC else s

/-- A microsecond ends: the thread watchdogs count down (R198, R456). -/
def usTick (s : State) : State :=
  if 1 < s.rd F.PTM_STATE_CUR || !cUp s then s
  else s.each (List.range 40) fun s t =>
    if s.on F.HASTASK t && !s.on F.HALTED t && s.on F.WD_PERIOD_PERIOD (t / 8) (t % 8) then
      s.wr F.WD_COUNT_COUNT (s.rd F.WD_COUNT_COUNT (t / 8) (t % 8) - 1) (t / 8) (t % 8)
    else s

/-- A millisecond ends (R56, R198, R224). -/
def msTick (s : State) : State :=
  let s := (if s.on F.PTM_CLKSTAT_THROTTLE then s.bump F.PTM_THROTTLE_TIME_MS else s).bump F.RATE_AGE
  if s.on F.PWD_RUN && s.rd F.PTM_STATE_CUR ≤ 1 then s.wr F.PWD_LEFT (s.rd F.PWD_LEFT - 1) else s

/-- One unit of time, 500 ps (log entry 1). -/
def passTime (s : State) : State :=
  let s := { s with time := s.time + 1 }
  let s := s.each (List.range 6) fun s c =>
    if coreClocked s c && s.time % coreCycle s c == 0 then (if c = 4 then windowTick (coreTick s c) else coreTick s c) else s
  let s := if s.time % 2000 = 0 then usTick s else s
  if s.time % 2000000 = 0 then msTick s else s

end Sys2Proof.Machine
end

