-- ==== Sys2Proof/Machine/Analog.lean ====
section
/-!
DEFINITION. The converters, the current-sense amplifiers, the comparators and the swatch tests (07_analog_inputs.md), as
operations over the state, and the commands of the table that come from the analog side.
-/
namespace Sys2Proof.Machine

/-! Analog levels, in microvolts. The outside drives the balls and the supplies; where a command says that an input is converted
or crosses a threshold, it brings that level as an operand, which may be negative. -/

/-- VREF (R247). -/
def vref : Int := 2500000

/-- What an analog input is taken from (R248, R267): a ball or a supply that the outside drives, an amplifier's output, or a level
that the device itself makes. -/
inductive AnIn where
  | outside
  | half
  | amp (n : Nat)
  | level (uv : Int)
deriving DecidableEq, Repr

/-- The gain of amplifier `n` (R264). -/
def ampGain (s : State) (n : Nat) : Int := 5 * 2 ^ s.rd F.CA_CFG_GAIN n

/-- The output of amplifier `n` for a difference `d` between its two balls, clipped to 0 V and VREF (R264, R265). -/
def ampOut (s : State) (n : Nat) (d : Int) : Int := clampInt 0 vref (vref / 2 + ampGain s n * d)

/-- The level at an input, where the outside drives `x` (at an amplifier: the difference of its two balls; at VDDA/2: VDDA). The output
of an amplifier that is not valid (R265) is a free value up to VREF (log entry 5). -/
def anLevel (s : State) (i : AnIn) (x : Int) : Int :=
  match i with
  | .outside => x
  | .half => x / 2
  | .amp n => if s.on F.CA_OK n then ampOut s n x else Int.ofNat (s.freeBits 32 % 2500001)
  | .level v => v

/-- The reading of an input has drawn a free value. -/
def anDrew (s : State) (i : AnIn) : State :=
  match i with
  | .amp n => if s.on F.CA_OK n then s else s.drew
  | _ => s

/-- What VREF_IO puts out (R247): VREF while OUT_EN is 1 in a powered block; otherwise its buffer is off (R227). -/
def vrefIo (s : State) : Option Int := if s.on F.VREF_CFG_OUT_EN && domOn s 4 then some vref else none

/-! Converters. Sequence 0 is A, 1 is B. Its state: 0 idle, 1 running, 2 pre-empted, 3 pending. -/

/-- AD_STATUS.BUSY of sequence `j`. -/
def adBusyFld (j : Nat) : Fld := if j = 0 then F.AD_STATUS_BUSY_A else F.AD_STATUS_BUSY_B

/-- Record the state of sequence `j` of ADn. -/
def setSeq (s : State) (n j v : Nat) : State := (s.wr F.AD_SEQ v n j).wrb (adBusyFld j) (v != 0) n

/-- ADn is enabled and powered (R285). -/
def adLive (s : State) (n : Nat) : Bool := s.on F.AD_CFG_EN n && domOn s n

/-- The registers of step `k` of ADn as one number: CH, OVS, TO_LE, SLOT at the places of AD_STEP_k. -/
def adStepWord (s : State) (n k : Nat) : Nat :=
  s.rd F.AD_STEP_CH n k + s.rd F.AD_STEP_OVS n k * 2 ^ 6 + s.rd F.AD_STEP_TO_LE n k * 2 ^ 9 + s.rd F.AD_STEP_SLOT n k * 2 ^ 10

/-- Sequence `j` of ADn starts, with the LEN of ADm (R251, R256, R286). -/
def adStart (s : State) (n j m : Nat) : State :=
  let s := setSeq s n j 1
  let s := ((s.wr F.AD_STEP_NOW (4 * j) n j).wr F.AD_OVS_N 0 n j).wr F.AD_ACC 0 n j
  let s := if j = 0 then s.wr F.AD_LEN_A (s.rd F.AD_SEQ_A_LEN m) n
    else (s.wr F.AD_LEN_B (min 11 (s.rd F.AD_SEQ_B_LEN n)) n).wr F.AD_CONT (s.rd F.AD_SEQ_B_CONT n) n
  s.each (List.range 16) fun s k => if (k < 4) == (j == 0) then s.wr F.AD_STEPF (adStepWord s n k) n k else s

/-- A trigger is lost (R285). -/
def adLost (s : State) (n : Nat) : State := s.bump F.AD_TALLY_TRIG_LOST n

/-- A trigger of a sequence that is running or pending (R255). -/
def adOverrun (s : State) (n j : Nat) : State :=
  adLost (s.up (if j = 0 then F.AD_STATUS_OVR_A else F.AD_STATUS_OVR_B) n) n

/-- Sequence A takes over from a converting sequence B (R254). -/
def adPreempt (s : State) (n : Nat) : State :=
  if s.rd F.AD_SEQ n 1 == 1 then
    ((((setSeq s n 1 2).wr F.AD_OVS_N 0 n 1).wr F.AD_ACC 0 n 1).bump F.AD_TALLY_PREEMPT n)
  else s

/-- ADn is the second of a pair in use (R256). -/
def adSecond (s : State) (n : Nat) : Bool := n % 2 == 1 && s.on F.AD_CFG_PAIR (n - 1)

/-- A trigger of sequence `j` of ADn; `sw`: by AD_SWTRIG (R250, R254 to R257, R285). -/
def adTrigger (s : State) (n j : Nat) (sw : Bool) : State :=
  if j = 0 ∧ adSecond s n then s
  else if !adLive s n then adLost s n
  else if !sw && !s.on (if j = 0 then F.AD_SEQ_A_TRIG_EN else F.AD_SEQ_B_TRIG_EN) n then s
  else if j = 1 then
    if s.on F.AD_SEQ n 1 then adOverrun s n 1
    else if s.on F.AD_SEQ n 0 then setSeq s n 1 3
    else adStart s n 1 n
  else
    let pair := n % 2 == 0 && s.on F.AD_CFG_PAIR n
    let both := pair && adLive s (n + 1)
    let s := if pair && !both then adLost s (n + 1) else s
    let g := if both then [n, n + 1] else [n]
    if g.any (fun m => s.on F.AD_SEQ m 0) then s.each g fun s m => adOverrun s m 0
    else s.each g fun s m => (adStart (adPreempt s m) m 0 n).wrb F.AD_PAIRED (m != n) m

/-- A channel code of R248 for ADn. -/
def adChannelOk (n c : Nat) : Bool :=
  c ≤ 19 || (32 ≤ c && c ≤ 35) || (48 ≤ c && c ≤ 55) || (c == 63 && n == 3)

/-- The comparator whose DAC channel 63 of AD3 reads back: the one under test, else the one SW_CFG names (DEDUCED, log entry 83). -/
def dacRead (s : State) : Nat := if s.on F.SW_STAT_BUSY then s.rd F.SW_CMP else s.rd F.SW_CFG_CMP

/-- The input that channel code `c` selects in ADn; a reserved code selects VSSA (R248). -/
def adInput (s : State) (n c : Nat) : AnIn :=
  if c ≤ 19 then .outside
  else if 32 ≤ c ∧ c ≤ 35 then .amp (c - 32 + if n < 2 then 0 else 4)
  else match c with
    | 49 => .level (vref / 2)
    | 50 => .half
    | 51 => .outside
    | 52 => .outside
    | 53 => .level (vref / 5)
    | 54 => .level (vref / 2)
    | 55 => .level (vref * 4 / 5)
    | 63 => .level (if n = 3 then Int.ofNat (s.rd F.CM_DAC_CODE (dacRead s)) * vref / 1024 else 0)
    | _ => .level 0

/-- The 12-bit code of a level: 0 V to VREF is the range, and a level above VREF gives the full-scale code (R249). The ideal
transfer, each code a 4096th of VREF wide, and 0 for a level below the range, are a DESIGN CHOICE (log entry 83). -/
def adCode (v : Int) : Nat := (clampInt 0 4095 (v * 4096 / vref)).toNat

/-- The end of sequence `j` of ADn (R251, R254, R262, R263). -/
def adSeqEnd (s : State) (n j : Nat) : State :=
  let req := if j = 0 then F.AD_DMA_REQ_A else F.AD_DMA_REQ_B
  let s := if s.on req n then (if s.on F.AD_DMA_REQ n j then s.up F.AD_STATUS_DMA_OVR n else s.up F.AD_DMA_REQ n j) else s
  let s := s.postIf (s.on (if j = 0 then F.AD_DMA_EVT_A else F.AD_DMA_EVT_B) n) (88 + 2 * n + j)
  let s := setSeq (routePulse s (88 + 2 * n + j)) n j 0
  if j = 0 then
    match s.rd F.AD_SEQ n 1 with
    | 2 => setSeq s n 1 1
    | 3 => if adLive s n then adStart s n 1 n else setSeq s n 1 0
    | _ => s
  else if s.on F.AD_CONT n && adLive s n then adStart s n 1 n else s

/-- A step's last conversion has ended with the sum `acc` (R258 to R261). -/
def adStepEnd (s : State) (n j k ovs acc : Nat) : State :=
  let v := (acc / 2 ^ ovs) * 2 ^ (4 - ovs)
  let cfg := s.rd F.AD_STEPF n k
  let s := (((s.wr F.AD_RES_VALUE v n k).wr F.AD_RES_STAMP s.stamp n k).wr F.AD_LAST k n).wr F.AD_OVS_N 0 n j
  let s := s.wr F.AD_ACC 0 n j
  let s := if cfg.testBit 9 && cUp s then
      sendResult s ⟨n, cfg % 64, v, s.stamp, some (bits cfg 15 10)⟩
    else s
  let last := if j = 0 then s.rd F.AD_LEN_A n else 4 + s.rd F.AD_LEN_B n
  if k < last then s.wr F.AD_STEP_NOW (k + 1) n j else adSeqEnd s n j

/-- ADC_CONVERSION_END (R248, R249, R258, R260): the conversion in progress in ADn ends; `x` is what the outside drives at the input
its channel selects. -/
def adConversionEnd (s : State) (n : Nat) (x : Int) : State :=
  if !domOn s n then s
  else
    let j := if s.rd F.AD_SEQ n 0 == 1 then 0 else 1
    if s.rd F.AD_SEQ n j != 1 then s
    else
      let k := s.rd F.AD_STEP_NOW n j
      let cfg := s.rd F.AD_STEPF n k
      let s := if adChannelOk n (cfg % 64) then s else s.up F.AD_STATUS_CHERR n
      let ovs := min 4 (bits cfg 8 6)
      let i := adInput s n (cfg % 64)
      let acc := s.rd F.AD_ACC n j + adCode (anLevel s i x)
      let s := anDrew s i
      let c := s.rd F.AD_OVS_N n j + 1
      if c < 4 ^ ovs then (s.wr F.AD_OVS_N c n j).wr F.AD_ACC acc n j else adStepEnd s n j k ovs acc

/-- ADC_TRIGGER (R250): a rising edge of the trigger destination of sequence `j` of ADn, as seen on CLK_T. -/
def adRouteTrigger (s : State) (n j : Nat) : State :=
  if edgeAt s (2 * n + j) true && clkTRuns s n then adTrigger (edgeTaken s (2 * n + j) true) n j false else s

/-! Amplifiers (R265). -/

/-- A write of CA_CFG_n has changed EN or GAIN from `en`, `gain`: the output is not valid yet, or no more. -/
def caChanged (s : State) (n : Nat) (en gain : Nat) : State :=
  if s.rd F.CA_CFG_EN n != en || s.rd F.CA_CFG_GAIN n != gain then s.down F.CA_OK n else s

/-- CSA_READY (R265). -/
def caReady (s : State) (n : Nat) : State := if s.on F.CA_CFG_EN n && domOn s (5 + n / 2) then s.up F.CA_OK n else s

/-! Comparators. -/

/-- LATCH of CMn in force (R273, R274): 3 acts as 0, and so does every code while CLK_T is stopped. -/
def cmLatch (s : State) (c : Nat) : Nat :=
  let l := s.rd F.CM_CFG_LATCH c
  if l = 3 || !clkTRuns s (cmDomain c) then 0 else l

/-- The latched output of CMn becomes `b` (R275). -/
def setLatched (s : State) (c : Nat) (b : Bool) : State :=
  let old := (s.rd F.CM_LATCHED_LATCHED).testBit c
  let s := routeFollow (s.wr F.CM_LATCHED_LATCHED (putBit (s.rd F.CM_LATCHED_LATCHED) c b))
  s.postIf (b && !old && s.on F.CM_CFG_EVT c) (64 + c)

/-- The latch follows the conditioned output (R274). -/
def latchFollow (s : State) (c : Nat) : State :=
  let cond := (s.rd F.CM_COND_COND).testBit c
  match cmLatch s c with
  | 0 => setLatched (s.down F.CM_WAIT c) c cond
  | 1 => if cond then setLatched s c true else s
  | _ => if cond && !s.on F.CM_WAIT c then setLatched (s.up F.CM_WAIT c) c true else s

/-- The outputs of CMn are frozen by a swatch test (R279). -/
def cmFrozen (s : State) (c : Nat) : Bool := s.on F.SW_FROZEN && s.rd F.SW_CMP == c

/-- The raw output of CMn becomes `b`: trips and the strobe gate act at once (R268, R276, R277). -/
def setRaw (s : State) (c : Nat) (b : Bool) : State :=
  let old := (s.rd F.CM_RAW_RAW).testBit c
  let s := s.wr F.CM_RAW_RAW (putBit (s.rd F.CM_RAW_RAW) c b)
  applyInhibit (if b && !old then tripFromRaw s c else s)

/-- CMn compares: it is enabled and powered and VDDA is good (R284). -/
def cmLive (s : State) (c : Nat) : Bool :=
  s.on F.CM_CFG_EN c && domOn s (cmDomain c) && (s.rd F.PTM_SUPPLY_GOOD).testBit 3

/-- The input of CMc (R267): an amplifier's output under the codes 8 to 15, else a ball. CM22 and CM23 have a ball each whatever
INSEL says. -/
def cmInput (s : State) (c : Nat) : AnIn :=
  let i := s.rd F.CM_CFG_INSEL c
  if c < 22 ∧ 8 ≤ i ∧ i ≤ 15 then .amp (i - 8) else .outside

/-- The hysteresis of CMc in microvolts (R269). -/
def cmHyst (s : State) (c : Nat) : Int := match s.rd F.CM_CFG_HYST c with | 0 => 0 | 1 => 8000 | 2 => 16000 | _ => 32000

/-- The raw output of CMc at the level `v` of its input (R268, R269): hysteresis moves the threshold while the output is 1. -/
def cmCompare (s : State) (c : Nat) (v : Int) : Bool :=
  let h := if (s.rd F.CM_RAW_RAW).testBit c then cmHyst s c else 0
  let t := Int.ofNat (s.rd F.CM_DAC_CODE c) * vref
  if s.on F.CM_CFG_POL c then decide (v * 1024 < t + h * 1024) else decide (t - h * 1024 < v * 1024)

/-- COMPARATOR_CROSSING (R267 to R269, R279): the input of CMc moves past its threshold; `x` is what the outside drives there. -/
def cmCrossing (s : State) (c : Nat) (x : Int) : State :=
  if !cmLive s c then s
  else
    let i := cmInput s c
    let raw := cmCompare s c (anLevel s i x)
    let s := anDrew s i
    if cmFrozen s c then s.wrb F.SW_PENDING_RAW raw else setRaw s c raw

/-- The window of the majority filter (R271). -/
def cmWindowN (s : State) (c : Nat) : Nat := 2 * min 4 (s.rd F.CM_CFG_FILT c) + 1

/-- COMPARATOR_FILTER_SAMPLE (R214, R271, R273, R274, R284): the comparator that PTM_DROP_CFG names raises the supply-drop warning. -/
def cmSample (s : State) (c : Nat) : State :=
  if !domOn s (cmDomain c) || !(s.rd F.PTM_SUPPLY_GOOD).testBit 3 || cmFrozen s c || (!clkTRuns s (cmDomain c) && c < 22) then s
  else
    let h := (2 * s.rd F.CM_HIST c + bnat ((s.rd F.CM_RAW_RAW).testBit c)) % 512
    let s := s.wr F.CM_HIST h c
    let n := cmWindowN s c
    let cond := decide (n < 2 * popCount n h)
    let t := latchFollow (applyInhibit (s.wr F.CM_COND_COND (putBit (s.rd F.CM_COND_COND) c cond))) c
    if !dropCmp s && dropCmp t then dropWarn t else t

/-- A period of slice `n` starts: latches of LATCH 2 that wait for it take the conditioned output (R274). -/
def cmPeriodStart (s : State) (n : Nat) : State :=
  if !(s.rd F.PTM_SUPPLY_GOOD).testBit 3 then s
  else
    s.each ((List.range 24).filter fun c =>
        s.on F.CM_WAIT c && ctLead s (s.rd F.CM_CFG_LSLICE c) == n && cmLatch s c == 2 && !cmFrozen s c)
      fun s c =>
        let cond := (s.rd F.CM_COND_COND).testBit c
        setLatched (s.wrb F.CM_WAIT cond c) c cond

/-- A write of ones `m` to CM_LATCHED (R274): only a latch of LATCH 1 whose conditioned output is 0 clears. -/
def cmLatchClear (s : State) (m : Nat) : State :=
  s.each (onesOf m 24) fun s c =>
    if cmLatch s c == 1 && !(s.rd F.CM_COND_COND).testBit c then setLatched s c false else s

/-- CMn is named by a leg that is armed or holds its last values (R270). -/
def cmArmed (s : State) (c : Nat) : Bool :=
  (List.range 16).any fun k => decide (2 ≤ s.rd F.LG_STAT_STATE k) &&
    (s.rd F.LG_TRIPCFG_OC_CMP k == c || s.rd F.LG_TRIPCFG_HS_CMP k == c)

/-- CMn is named by a TRIP LEG frame. -/
def cmLegUse (s : State) (c : Nat) : Bool := (s.rd F.CM_LEGUSE_USE).testBit c

/-- A write of CMn_CFG that takes effect; `v` is the word written (R270). A comparator that is disabled outputs 0
(DEDUCED, log entry 17). -/
def cmCfgWrite (s : State) (c v : Nat) : State :=
  let s := ((((s.wr F.CM_CFG_EN v c).wr F.CM_CFG_INSEL (v / 2) c).wr F.CM_CFG_POL (v / 2 ^ 6) c).wr F.CM_CFG_HYST (v / 2 ^ 7) c).wr
    F.CM_CFG_FILT (v / 2 ^ 9) c
  let s := (((s.wr F.CM_CFG_LATCH (v / 2 ^ 12) c).wr F.CM_CFG_LSLICE (v / 2 ^ 14) c).wr F.CM_CFG_EVT (v / 2 ^ 18) c).wr
    F.CM_CFG_GATE_FILT (v / 2 ^ 19) c
  let s := if s.on F.CM_CFG_EN c || cmFrozen s c then s else setRaw s c false
  applyInhibit (if cmLatch s c == 0 then latchFollow s c else s)

/-! Swatch tests. -/

/-- What a test expects of the comparator it tests (the table of swatch tests). -/
def swExpect (s : State) : Nat :=
  match s.rd F.SW_TEST with
  | 1 => 205 | 2 => 512 | 3 => 819 | _ => 4 * s.rd F.SW_CODE

/-- The code with which SW_GO is refused, or 0 (R280). -/
def swRefusal (s : State) : Nat :=
  let c := s.rd F.SW_CFG_CMP
  if cmArmed s c then 2
  else if (s.rd F.GATE_MASK).testBit c && (s.on F.HDS_SLOT_BUSY || s.on F.ST_STAT_ACTIVE) then 3
  else if s.on F.SW_STAT_BUSY then 5 else 0

/-- SW_GO (R279, R280). A CMP or TEST that names nothing starts no test (DESIGN CHOICE, log entry 18). -/
def swGo (s : State) : State :=
  let c := s.rd F.SW_CFG_CMP
  let r := swRefusal s
  if 24 ≤ c ∨ 5 ≤ s.rd F.SW_CFG_TEST then s
  else if r ≠ 0 then s.wr F.SW_STAT_RESULT r
  else
    let s := ((s.wr F.SW_CMP c).wr F.SW_TEST (s.rd F.SW_CFG_TEST)).wr F.SW_CODE (s.rd F.CM_DAC_CODE c)
    ((s.up F.SW_STAT_BUSY).up F.SW_FROZEN).wrb F.SW_PENDING_RAW ((s.rd F.CM_RAW_RAW).testBit c)

/-- The test ends: the outputs are released, CODE is restored and EV096 is posted (R279). -/
def swRelease (s : State) : State :=
  let c := s.rd F.SW_CMP
  let raw := s.on F.SW_PENDING_RAW
  let s := ((s.down F.SW_STAT_BUSY).down F.SW_FROZEN).wr F.CM_DAC_CODE (s.rd F.SW_CODE) c
  (if cmLive s c then setRaw s c raw else s).post 96

/-- AD3 is idle. -/
def ad3Idle (s : State) : Bool := !s.on F.AD_SEQ 3 0 && !s.on F.AD_SEQ 3 1

/-- SWATCH_TEST_DONE (R279, R283): `meas` is the CODE found, the ADC code, or for the swap test the four outputs seen, the
first in bit 3. -/
def swDone (s : State) (meas : Nat) : State :=
  if !s.on F.SW_STAT_BUSY || (s.rd F.SW_TEST == 4 && !ad3Idle s) then s
  else
    let t := s.rd F.SW_TEST
    let c := s.rd F.SW_CMP
    let e := swExpect s
    let tol := if t = 4 then 12 else 6
    let ok := if t = 0 then meas % 16 == 9 else decide (meas ≤ e + tol) && decide (e ≤ meas + tol)
    let s := if t = 0 then s else (s.wr F.SW_RESULT_MEAS meas).wr F.SW_RESULT_EXPECT e
    let was := (s.rd F.SW_FAIL_FAIL t).testBit c
    let s := s.wr F.SW_FAIL_FAIL (putBit (s.rd F.SW_FAIL_FAIL t) c !ok) t
    let s := if !ok && was then ledgerRaise s 4 else s
    swRelease (s.wr F.SW_STAT_RESULT (bnat !ok))

/-- SWATCH_AD3_TIMEOUT (R281). -/
def swTimeout (s : State) : State :=
  if s.on F.SW_STAT_BUSY && s.rd F.SW_TEST == 4 && !ad3Idle s then swRelease (s.wr F.SW_STAT_RESULT 4) else s

/-! The commands. -/

def execAdcTrigger (ad : Fin 4) (seq : Fin 2) (s : State) : Out := .next (adRouteTrigger s ad.val seq.val)
def execCsaReady (amp : Fin 8) (s : State) : Out := .next (caReady s amp.val)
/-- COMPARATOR_CROSSING (R268). `uv`: microvolts, two's complement. -/
def execComparatorCrossing (cmp : Fin 24) (uv : BitVec 32) (s : State) : Out := .next (cmCrossing s cmp.val uv.toInt)
def execComparatorFilterSample (cmp : Fin 24) (s : State) : Out := .next (cmSample s cmp.val)
def execSwatchTestDone (meas : BitVec 12) (s : State) : Out := .next (swDone s meas.toNat)
def execSwatchAd3Timeout (s : State) : Out := .next (swTimeout s)

end Sys2Proof.Machine
end

