-- ==== Sys2Proof/Machine/Keys.lean ====
section
/-!
DEFINITION. Owner-key commits, counter raises and the commands of the crypto engine (19_nvm_and_keys.md, R679 to R694),
as operations over the state.
-/
namespace Sys2Proof.Machine

/-! Owner-key commits (R681 to R685). -/

/-- The bytes 0x00 to 0x47 of the staged record for slot `k` with the given SEQ. The staging words hold the record's
bytes in order, lowest address in the lowest byte. -/
def stagedRecord (s : State) (k seq : Nat) : List Byte :=
  let h := s.rd F.KEY_HDR_HDR
  toBytes 8 (seq + bits h 49 32 * 2 ^ 32 + k * 2 ^ 50) ++
    (List.range 8).flatMap fun i => toBytes 8 (s.rd F.KEY_Q_WORD i)

/-- What the authorising signature signs (R681 step 1). -/
def commitMessage (s : State) (k : Nat) : List Byte :=
  [0x50#8, 0x4B#8, 0x4B#8, 0x59#8] ++ toBytes 4 k ++ stackIdBytes s ++ stagedRecord s k 0

/-- Half `j` of the staged signature as a number: r (0) or s (1), in signature byte order. -/
def stagedAuth (s : State) (j : Nat) : Nat :=
  ofBytesBE ((List.range 4).flatMap fun i => toBytes 8 (s.rd F.KEY_AUTH_WORD (4 * j + i)))

/-- The RESULT with which a commit to slot `k` ends before anything is written, or 0 (R682). Reserved bits of the staged
word 0 and its STATE are looked at first, then the signature, the slot and the epoch (DESIGN CHOICE, log entry 25). -/
def commitRefusal (s : State) (k : Nat) : Nat :=
  let h := s.rd F.KEY_HDR_HDR
  let st := bits h 49 48
  let desc := s.rd F.KEY_AUTH_DESC_DESC
  let e := sha256 (commitMessage s k)
  if bits h 63 52 != 0 || (st != 1 && st != 2) then 7
  else if 1 < desc || (sigEpoch s desc e (stagedAuth s 0) (stagedAuth s 1)).isNone then 2
  else if s.rd F.KEY_SLOT_STATE k = 2 then 3
  else if bits h 47 32 < s.rd F.KEY_SLOT_EPOCH k then 4
  else 0

/-- A write of KEY_COMMIT that takes effect (R681, R683). -/
def keyCommit (s : State) (k : Nat) : State :=
  if s.on F.KEY_STAT_STATE then s.up F.KEY_STAT_OVERRUN
  else crEnter (((s.wr F.KC_SLOT k).wr F.KEY_STAT_STATE 2).up F.KC_VERIFY) 2

/-- The writes of a commit begin: SEQ and the nine body words are fixed (R681 steps 2 and 3). -/
def commitWrites (s : State) (k : Nat) : State :=
  let seq := match keyWinner s k with
    | some c => (s.mget (keyCopyAddr k c) 4 + 1) % 2 ^ 32
    | none => 1
  let rec9 := stagedRecord s k seq
  (s.setq Q.keyRec ((List.range 9).map fun i => ofBytes ((rec9.drop (8 * i)).take 8))).wr F.KEY_STAT_STATE 3

/-- A commit ends with a RESULT (R682). -/
def commitEnds (s : State) (result : Nat) : State :=
  ((s.wr F.KEY_STAT_RESULT result).wr F.KEY_STAT_STATE 0).setq Q.keyRec []

/-- KEY_COMMIT_VERIFIED (R681, R682, R684): the engine has verified the authorising signature. -/
def commitVerified (s : State) : State :=
  if s.rd F.KEY_STAT_STATE = 2 ∧ s.on F.KC_VERIFY ∧ crAlive s ∧ crServing s 2 then
    let k := s.rd F.KC_SLOT
    let s := crLeave (s.down F.KC_VERIFY)
    match commitRefusal s k with
    | 0 => if s.on F.PTM_SUPPLY_DROP_WARN then s.wr F.KEY_STAT_STATE 1 else commitWrites s k
    | c => commitEnds s c
  else s

/-- KEY_COMMIT_WRITTEN (R681, R682): the words of the record have been written; `fail` is the first word, 0 to 9, whose
write completed other than OK. -/
def commitWritten (s : State) (fail : Option Nat) : State :=
  if s.rd F.KEY_STAT_STATE = 3 then
    let k := s.rd F.KC_SLOT
    let ws := commitWords s
    let a := (ws.getD 0 (0, 0)).1
    let n := match fail with | some f => f | none => 10
    let s := s.each (ws.take n) fun s w => wear (programWord s w.1 w.2) w.1 8
    match fail with
    | some f => commitEnds (programFailed (wear s (a + 8 * f) 8) (a + 8 * f)) 6
    | none => logPush ((electKey (commitEnds s 1) k).post 98) 3
  else s

/-- R684: the warning clears and a waiting commit starts its writes. -/
def commitResumes (s : State) : State := if s.rd F.KEY_STAT_STATE = 1 then commitWrites s (s.rd F.KC_SLOT) else s

/-- R682, R685: entry to a power state, or a drain of PD135, ends a commit in STATE 1 or 2. -/
def commitDropped (s : State) : State :=
  let st := s.rd F.KEY_STAT_STATE
  if st = 1 ∨ st = 2 then commitEnds (s.down F.KC_VERIFY) 5 else s

/-! Counters (R687). -/

/-- A write of `v` to CTR_RAISE_n. A raise while one of the same counter is in progress has no effect (DESIGN CHOICE, log
entry 25). -/
def ctrRaise (s : State) (n v : Nat) : State :=
  if s.rd F.CTR_VALUE n < v ∧ !s.on F.CTR_RAISING n then (s.up F.CTR_RAISING n).wr F.CTR_V v n else s

/-- One copy of counter `n` is written. -/
def ctrCopyWrite (s : State) (n c v : Nat) (failed : Bool) : State :=
  let a := ctrAddr n c
  let s := wear s a 8
  if failed then programFailed s a else programWord s a (v + (2 ^ 32 - 1 - v) * 2 ^ 32)

/-- CTR_RAISE_DONE (R687, R694): both copies have been written, or their writes failed. -/
def ctrRaiseDone (s : State) (n : Nat) (fail0 fail1 : Bool) : State :=
  if s.on F.CTR_RAISING n && mUp s then
    let v := s.rd F.CTR_V n
    let s := ctrCopyWrite (ctrCopyWrite s n 0 v fail0) n 1 v fail1
    let s := electCtr ((s.down F.CTR_RAISING n).wr F.CTR_V 0 n) n
    logPush (s.post 98) 4 (n + bnat fail0 * 2 ^ 8 + bnat fail1 * 2 ^ 9 + v * 2 ^ 32) (s.rd F.CTR_VALUE n)
  else s

/-! The crypto engine's commands (R693). -/

/-- A write of CR_CMD. An OP that names no command starts none (DESIGN CHOICE, log entry 25). -/
def crCommand (s : State) (op kind : Nat) : State :=
  if s.on F.CR_STAT_BUSY then s.up F.CR_STAT_REFUSED
  else if op = 0 ∨ 4 < op then s
  else crEnter ((s.wr F.CR_OP op).wr F.CR_KIND kind) 1

/-- The engine (master 46) reads `n` bytes from `a` in lines of 32 bytes; it stops at the first answer other than OK and
gives its code (R693; the size of its requests: log entry 25). -/
def crRead (s : State) (a n : Nat) : State × Option Code :=
  let l0 := a / 32
  let lines := (a + n + 31) / 32 - l0
  (List.range (if n = 0 then 0 else lines)).foldl (fun p k =>
    match p.2 with
    | some c => (p.1, some c)
    | none =>
      let x := 32 * (l0 + k)
      let s := if targetOf x == .block then respondCode p.1 ⟨.unit 46, true, 0, x, 32, 0⟩ .decode else memAccess p.1 46 0 x 32 0
      (s, if okay s then none else some s.resp.code)) (s, none)

/-- One of those reads waits: its bank or array powers up (R174), or a link holds the first. -/
def crWaits (s : State) (a n : Nat) : Bool :=
  let r (k : Nat) : Held := ⟨.unit 46, true, 0, 32 * (a / 32 + k), 32, 0⟩
  let lines := if n = 0 then 0 else (a + n + 31) / 32 - a / 32
  (decide (0 < lines) && (mustWait s (r 0) || linkHolds s (r 0))) ||
    (List.range lines).any fun k => dieAnswers s (.unit 46) (r k).addr && poweringUp s (r k).addr

/-- The number of bytes the engine reads for an image of a kind at `a`, as far as its header spells one that is well
formed. -/
def crImageSpan (s : State) (k : ImgKind) (a : Nat) : Nat :=
  if imgStep2 s k a && imgStep4 s k a (if k == .firmware then 0x600000 else if k == .recovery then 57344 else 0x40000) then
    imgLen s k a + 68 * imgNsig s a
  else 64

/-- The size an image of a kind must fit (R60, R78, R128). -/
def imgRoom (k : ImgKind) : Nat := match k with | .firmware => 0x600000 | .recovery => 57344 | _ => 0x40000

/-- CR_DIGEST as a number, its first byte the highest. -/
def crDigest (s : State) : Nat := ofBytesBE ((List.range 8).flatMap fun i => toBytes 4 (s.rd F.CR_DIGEST_WORD i))

/-- Put a digest into CR_DIGEST0 to 7. -/
def setCrDigest (s : State) (d : Nat) : State :=
  let b := (toBytes 32 d).reverse
  s.each (List.range 8) fun s i => s.wr F.CR_DIGEST_WORD (ofBytes ((b.drop (4 * i)).take 4)) i

/-- Half `j` of CR_SIG as a number. -/
def crSig (s : State) (j : Nat) : Nat :=
  ofBytesBE ((List.range 8).flatMap fun i => toBytes 4 (s.rd F.CR_SIG_WORD (8 * j + i)))

/-- What REVOKE's signature signs (R692). -/
def revokeMessage (s : State) (n : Nat) : List Byte :=
  [0x50#8, 0x4B#8, 0x52#8, 0x56#8, BitVec.ofNat 8 n] ++ stackIdBytes s

/-- The outcome of a command as read from the state, past its reads: RESULT, PARTIAL, EPOCH_NEW. -/
def crFinish (s : State) (op kind : Nat) : State :=
  let result (s : State) (r : Nat) : State := s.wr F.CR_STAT_RESULT r
  match op with
  | 1 => setCrDigest s (sha256 (s.bytes (s.rd F.CR_SRC_SRC) (s.rd F.CR_LEN_LEN)))
  | 2 =>
    let ok := (sigEpoch s (s.rd F.CR_KEYSLOT_DESC) (crDigest s) (crSig s 0) (crSig s 1)).isSome
    result s (if ok then 1 else 8)
  | 3 =>
    match imgKindOf kind with
    | none => ((result s (s.freeBits 4)).drew)
    | some k =>
      let r := imgCheck s k (s.rd F.CR_SRC_SRC) (imgRoom k) false
      let s := result ((s.wrb F.CR_STAT_PARTIAL r.part).wr F.CR_STAT_EPOCH_NEW r.epoch) r.code
      if r.part then logPush s 2 else s
  | _ =>
    let n := s.rd F.CR_KEYSLOT_DESC
    let ok := decide (n ≤ 1) && (sigEpoch s (1 - n) (sha256 (revokeMessage s n)) (crSig s 0) (crSig s 1)).isSome
    if ok then logPush (result (s.up F.FUSE_ROOT_REVOKE n) 1) 6 else result s 8

/-- CR_COMMAND_DONE (R693): the firmware command being served ends. -/
def crDone (s : State) : State :=
  if crAlive s && crServing s 1 then
    let op := s.rd F.CR_OP
    let kind := s.rd F.CR_KIND
    let src := s.rd F.CR_SRC_SRC
    let n := match op, imgKindOf kind with
      | 1, _ => s.rd F.CR_LEN_LEN
      | 3, some k => crImageSpan s k src
      | _, _ => 0
    if crWaits s src n then s
    else
      let x := crRead (((crLeave s).wr F.CR_OP 0).wr F.CR_KIND 0) src n
      let s := match x.2 with
        | some c => (x.1.wr F.CR_STAT_RESULT 7).wr F.CR_STAT_RESP c.num
        | none => crFinish x.1 op kind
      s.post 99
  else s

end Sys2Proof.Machine
end

