-- ==== Sys2Proof/Machine/Tasks.lean ====
section
/-!
DEFINITION. The task dispatcher (13_task_dispatcher.md): posting, queues, pre-emption, signals, the save area and the
tallies. STATE codes of a task: 0 IDLE, 1 READY, 2 RUNNING, 3 WAITING, 4 FAULTED.
-/
namespace Sys2Proof.Machine

/-! Queues (R496, R500, R515). -/

/-- STATE of task `k`. -/
def taskState (s : State) (k : Nat) : Nat := s.rd F.DSP_TSTAT_STATE k

/-- The running instance of task `k` finishes under the entry a live switch has replaced (R139). It is in force until the instance ends
or is dispatched again. -/
def oldEntry (s : State) (k : Nat) : Bool := (s.rd F.OLD_W0 k).testBit 14

/-- The affinity of task `k` (R494). -/
def taskAff (s : State) (k : Nat) : Nat := if oldEntry s k then bits (s.rd F.OLD_W0 k) 12 8 else s.rd F.TASK_W0_AFF k

/-- PRIO of task `k`. -/
def taskPrio (s : State) (k : Nat) : Nat := if oldEntry s k then s.rd F.OLD_W0 k % 32 else s.rd F.TASK_W0_PRIO k

/-- PREEMPT and RERUN of task `k`. -/
def taskPreempt (s : State) (k : Nat) : Bool := if oldEntry s k then (s.rd F.OLD_W0 k).testBit 5 else s.on F.TASK_W0_PREEMPT k
def taskRerun (s : State) (k : Nat) : Bool := if oldEntry s k then (s.rd F.OLD_W0 k).testBit 13 else s.on F.TASK_W0_RERUN k

/-- A live switch is about to replace the entry of task `k` (R139). -/
def keepEntry (s : State) (k : Nat) : State :=
  if s.rd F.DSP_TSTAT_STATE k ≠ 2 || oldEntry s k then s
  else s.wr F.OLD_W0 (s.rd F.TASK_W0_PRIO k + s.rd F.TASK_W0_PREEMPT k * 2 ^ 5 + s.rd F.TASK_W0_AFF k * 2 ^ 8 +
    s.rd F.TASK_W0_RERUN k * 2 ^ 13 + 2 ^ 14) k

/-- The queue of task `k`: its core's where AFF names exactly one core, else the shared one, 4 (R496). -/
def taskQueue (s : State) (k : Nat) : Nat :=
  match onesOf (taskAff s k % 16) 4 with | [c] => if taskAff s k < 16 then c else 4 | _ => 4

/-- Task `k` may run on global thread `t` (R496). -/
def mayRun (s : State) (k t : Nat) : Bool := (taskAff s k).testBit (t / 8)

/-- The tasks in queue `q`, most urgent level first. -/
def queued (s : State) (q : Nat) : List Nat := (List.range 32).flatMap fun p => s.q Q.ready q p

/-- QDEPTH_CUR of queue `q`. -/
def qDepth (s : State) (q : Nat) : Nat := (queued s q).length

/-- Put task `k` at the tail of its priority level, or at the head. -/
def enqueue (s : State) (k : Nat) (head : Bool) : State :=
  let q := taskQueue s k
  let p := taskPrio s k
  let l := s.q Q.ready q p
  let s := s.setq Q.ready (if head then k :: l else l ++ [k]) q p
  s.peak F.DSP_QDEPTH_MAX (qDepth s q) q

/-- Take task `k` out of its queue. -/
def dequeue (s : State) (k : Nat) : State :=
  let q := taskQueue s k
  let p := taskPrio s k
  s.setq Q.ready ((s.q Q.ready q p).filter (· != k)) q p

/-- A task is enabled for posts (R500). -/
def taskEnabled (s : State) (k : Nat) : Bool := (s.rd F.DSP_TASKEN_EN (k / 32)).testBit (k % 32)

/-! Threads as the dispatcher sees them. -/

/-- Thread `t` can take a task: it is powered and clocked or its clock is gated in DOZE, has none, is not halted, not
stopped, and its copy is neither in a hinge nor a re-seed (R454, R502, R565, R705). -/
def threadFree (s : State) (t : Nat) : Bool :=
  cUp s && s.rd F.PTM_STATE_CUR ≤ 1 && domOn s (threadDomain (mainOf s t)) && !s.on F.HASTASK t && !s.on F.HALTED t &&
    !s.on F.HALT_REQ t && !s.on F.DFAULTED (mainOf s t) && !s.on F.SAVE_FOR t &&
    (t < 32 || (s.rd F.SP_STAT_MODE != 3 && !s.on F.SP_STAT_RESEEDING))

/-- The task thread `t` runs. -/
def runningTask (s : State) (t : Nat) : Nat := s.rd F.TID_TASK (mainOf s t)

/-- PREEMPT of a running task; task 0 as firmware entry leaves it is not pre-empted (R497). -/
def preemptible (s : State) (k : Nat) : Bool := taskPreempt s k && !(k == 0 && s.on F.TASK0_BOOT)

/-- R504: thread `t` runs a task that the more urgent task `k` may displace or signal. -/
def displaceable (s : State) (k t : Nat) : Bool :=
  s.on F.HASTASK t && mayRun s k t && decide (taskPrio s k < taskPrio s (runningTask s t)) &&
    !s.on F.HALTED t && !s.on F.HALT_REQ t && !exl s (mainOf s t) && !s.on F.DFAULTED (mainOf s t) && !s.on F.SAVE_FOR t &&
    (t < 32 || s.rd F.SP_STAT_MODE != 3)

/-- The thread of a list whose running task has the greatest PRIO, the lowest number on equal PRIO. -/
def leastUrgent (s : State) (l : List Nat) : Option Nat :=
  l.foldl (fun m t => match m with
    | none => some t
    | some u => if taskPrio s (runningTask s u) < taskPrio s (runningTask s t) then some t else m) none

/-- SIGNAL (R505): thread `t` is signalled for task `k`. -/
def signal (s : State) (k t : Nat) : State :=
  let r := runningTask s t
  let u := mainOf s t
  let s := (s.up F.SG_PEND u).wr F.SG_INFO (k + taskPrio s k * 256) u
  trace ((s.up F.DSP_TSTAT_SIGNALLED r).bump F.DSP_SIGNALS_COUNT) 4 r t

/-- PREEMPTION (R504, R506): thread `t` stops issuing for task `k`. Its context is written and the new task loaded with
CONTEXT_SAVE_DONE. -/
def preempt (s : State) (k t : Nat) : State :=
  trace (((dequeue s k).wr F.SAVE_FOR (k + 1) t).bump F.DSP_PREEMPTS_COUNT) 3 (runningTask s t) t

/-- The boot ROM runs a start: every thread but 0.0 stays idle until it hands over (R69; log entry 88). -/
def romHolds (s : State) : Bool := 1 ≤ s.rd F.ROM_STAGE && s.rd F.ROM_STAGE ≤ 5

/-- The pair is between an accepted hinge request and the hinge, and task `k` is one of its tasks: it is considered after the hinge
(R565). -/
def hingeHolds (s : State) (k : Nat) : Bool := s.rd F.SP_STAT_MODE == 3 && mayRun s k 32

/-- R504: a task has become READY. Where no thread it may run on is free, a less urgent one gives way or is signalled. -/
def considerReady (s : State) (k : Nat) : State :=
  if !s.on F.DSP_CTRL_EN || romHolds s || hingeHolds s k then s
  else if (List.range 40).any fun t => threadFree s t && mayRun s k t then s
  else
    let s := s.down F.TASK_NEW k
    let l := (List.range 40).filter (displaceable s k)
    match leastUrgent s (l.filter fun t => preemptible s (runningTask s t)) with
    | some t => preempt s k t
    | none =>
      match leastUrgent s (l.filter fun t => !s.on F.DSP_TSTAT_SIGNALLED (runningTask s t)) with
      | some t => signal s k t
      | none => s

/-- A task becomes READY (R193, R498): queued, and DOZE is left. -/
def makeReady (s : State) (k : Nat) (head : Bool) : State :=
  considerReady (dozeExit (enqueue ((s.wr F.DSP_TSTAT_STATE 1 k).up F.TASK_NEW k) k head)) k

/-- The post time is stamped (R498, R516). -/
def stampPost (s : State) (k : Nat) : State := (s.wr F.POST_STAMP s.time k).up F.STAMP_LIVE k

/-- R498: a post of task `k`. -/
def postTask (s : State) (k : Nat) : State :=
  let t := s.rd F.DSP_TSTAT_THREAD k
  if taskState s k = 4 ∨ !taskEnabled s k then trace (s.bump F.DSP_DROPPED_COUNT) 8 k t
  else match taskState s k with
    | 0 => makeReady (trace (stampPost s k) 0 k t) k false
    | 3 => makeReady (trace (stampPost s k) 0 k t) k false
    | 2 =>
      if taskRerun s k && !s.on F.DSP_TSTAT_PENDING k then
        trace ((s.up F.DSP_TSTAT_PENDING k).wr F.PEND_STAMP s.time k) 0 k t
      else trace (s.bump F.DSP_COALESCE_COUNT) 7 k t
    | _ => trace (s.bump F.DSP_COALESCE_COUNT) 7 k t

/-- EVENT_POST (R163, R498, R522): the pulse of event input `ev` reaches the dispatcher. While PD116 is off it is lost. -/
def eventPost (s : State) (ev : Nat) : State :=
  if !eventDue s ev then s
  else
    let s := { s with events := s.events.erase ev }
    if cUp s && domOn s 116 && s.on F.BIND_EN ev then postTask s (s.rd F.BIND_TASK ev) else s

/-! The save area (R507, R511). -/

/-- The save record of task `k`. -/
def saveAddr (k : Nat) : Nat := 0x20008000 + 128 * k

/-- The bank of the save records powers up and holds the dispatcher's requests to it (R174). -/
def saveHeld (s : State) : Bool := poweringUp s (saveAddr 0)

/-- The 32 words of the context of thread `t`, read from its main copy; `pc` is where the task resumes. -/
def contextWords (s : State) (t pc : Nat) (wait : Bool) : List Nat :=
  let u := mainOf s t
  (List.range 16).map (gpr s u) ++
    [pc, s.rd F.TSR u, s.rd F.XSR u, s.rd F.XPC u, s.rd F.XCAUSE u, s.rd F.XINFO u, s.rd F.XADDR u, s.rd F.TRMASK u] ++
    (List.range 4).map (fun n => s.rd F.SCRATCH u n) ++
    [8 * s.rd F.STK_LIM_LIMIT (t / 8) (t % 8), s.rd F.WD_COUNT_COUNT (t / 8) (t % 8), t + (if wait then 256 else 0), 0]

/-- The number that words spell, lowest first. -/
def ofWords : List Nat → Nat
  | [] => 0
  | w :: r => w + 2 ^ 32 * ofWords r

/-- The context is written as four 32-byte requests of master 41 (R511). Answers whether every one completed OK. -/
def saveContext (s : State) (k t pc : Nat) (wait : Bool) : State × Bool :=
  let v := ofWords (contextWords s t pc wait)
  (List.range 4).foldl (fun (r : State × Bool) n =>
    let s := memAccess r.1 41 1 (saveAddr k + 32 * n) 32 (v / 2 ^ (256 * n) % 2 ^ 256)
    (s, r.2 && okay s)) (s, true)

/-- The save record is read as four 32-byte requests. -/
def readContext (s : State) (k : Nat) : State × Bool × Nat :=
  (List.range 4).foldl (fun (r : State × Bool × Nat) n =>
    let s := memAccess r.1 41 0 (saveAddr k + 32 * n) 32 0
    (s, r.2.1 && okay s, r.2.2 + s.resp.data * 2 ^ (256 * n))) (s, true, 0)

/-! Starting a task (R508). -/

/-- What copy `u` forgets when a task is loaded: what was pending of the one before, and its fetch buffer. A pending NOTICE
stays (R453). -/
def freshCopy (s : State) (u k : Nat) : State :=
  let s := (((s.down F.SG_PEND u).down F.WDX_PEND u).down F.FB_LINE u).down F.SYNCING u
  let s := ((s.down F.LD_PEND u).down F.DIV_PEND u).down F.LDX_OK u
  s.wr F.TID_TASK k u

/-- The thread's state at a fresh start of task `k` (R508). -/
def freshStart (s : State) (u k : Nat) : State :=
  let s := freshCopy s u k
  let s := s.each (List.range 16) fun s r =>
    s.wr F.GPR (if r = 0 then s.rd F.TASK_W3_ARG k else if r = 15 then s.rd F.TASK_W2_SP k else 0) u r
  let s := (s.wr F.PC (4 * s.rd F.TASK_W1_ENTRY k) u).wr F.TSR (s.rd F.TASK_W0_USER k) u
  let s := (((s.wr F.XSR 0 u).wr F.XPC 0 u).wr F.XCAUSE 0 u).wr F.XINFO 0 u
  let s := (s.wr F.XADDR 0 u).each (List.range 4) fun s n => s.wr F.SCRATCH 0 u n
  s.wr F.TRMASK (s.rd F.TASK_W4_TRMASK k) u

/-- The thread's state from the save record `v`. -/
def restoreCopy (s : State) (u k v : Nat) : State :=
  let w (n : Nat) : Nat := v / 2 ^ (32 * n) % 2 ^ 32
  let s := (freshCopy s u k).each (List.range 16) fun s r => s.wr F.GPR (w r) u r
  let s := ((s.wr F.PC (w 16 / 4 * 4) u).wr F.TSR (w 17) u).wr F.XSR (w 18) u
  let s := ((s.wr F.XPC (w 19 / 4 * 4) u).wr F.XCAUSE (w 20) u).wr F.XINFO (w 21) u
  let s := (s.wr F.XADDR (w 22) u).wr F.TRMASK (w 23) u
  s.each (List.range 4) fun s n => s.wr F.SCRATCH (w (24 + n)) u n

/-- TASK_START (R193, R507, R508, R521): task `k`, out of its queue, is loaded on thread `t`, and DOZE is left. -/
def startTask (s : State) (k t : Nat) : State :=
  let c := t / 8
  let l := t % 8
  let begun (s : State) : State :=
    let s := (((s.wr F.DSP_TSTAT_STATE 2 k).down F.DSP_TSTAT_SAVED k).down F.DSP_TSTAT_SIGNALLED k).wr F.OLD_W0 0 k
    dozeExit (((s.wr F.DSP_TSTAT_THREAD t k).up F.HASTASK t).wr F.SAVE_FOR 0 t)
  if s.on F.DSP_TSTAT_SAVED k then
    match readContext s k with
    | (s, true, v) =>
      let s := s.each (copiesOf s t) fun s u => restoreCopy s u k v
      let s := (s.wr F.STK_LIM_LIMIT (v / 2 ^ (32 * 28) % 2 ^ 32 / 8) c l).wr F.WD_COUNT_COUNT (v / 2 ^ (32 * 29) % 2 ^ 24) c l
      trace (begun s) 2 k t
    | (s, false, _) => faultTask (s.wr F.SAVE_FOR 0 t) k t 2
  else
    let s := s.each (copiesOf s t) fun s u => freshStart s u k
    let s := (s.wr F.STK_LIM_LIMIT (s.rd F.TASK_W5_STK_LIM k) c l).wr F.WD_COUNT_COUNT (s.rd F.WD_PERIOD_PERIOD c l) c l
    trace (begun (if k = 0 then s.down F.TASK0_BOOT else s)) 1 k t

/-- Of two tasks the more urgent: the lower PRIO, then the earlier stamp (R502). -/
def moreUrgent (s : State) (a b : Nat) : Bool :=
  let p := taskPrio s a
  let r := taskPrio s b
  decide (p < r) || (p == r && decide (s.rd F.POST_STAMP a ≤ s.rd F.POST_STAMP b))

/-- The first task of queue `q` that some free thread may run. -/
def queueChoice (s : State) (q : Nat) : Option Nat :=
  (queued s q).find? fun k => !(s.on F.DSP_TSTAT_SAVED k && saveHeld s) &&
    (List.range 40).any fun t => threadFree s t && mayRun s k t && (q == 4 || t / 8 == q)

/-- The task to hand out next (R502, R503). -/
def nextTask (s : State) : Option Nat :=
  (List.range 5).foldl (fun m q => match m, queueChoice s q with
    | none, c => c
    | some a, some b => if moreUrgent s a b then some a else some b
    | some a, none => some a) none

/-- R502, R503: the most urgent task goes to the lowest free thread among those it may run on. -/
def handOut (s : State) : State :=
  match nextTask s with
  | none => s
  | some k =>
    match (List.range 40).find? fun t => threadFree s t && mayRun s k t with
    | none => s
    | some t => startTask (dequeue s k) k t

/-- TASK_DISPATCH (R502 to R504): a task is handed out. A task that became READY while a thread was free, and finds that thread taken now,
is considered anew. -/
def dispatch (s : State) : State :=
  if !cUp s || !domOn s 116 || !s.on F.DSP_CTRL_EN || romHolds s then s
  else
    let s := handOut s
    s.each (((List.range 5).flatMap (queued s)).filter (s.on F.TASK_NEW ·)) considerReady

/-- CONTEXT_SAVE_DONE (R506, R507, R521, R706): the save writes of the victim on thread `t` are complete and the new task
is loaded, once nothing issued is outstanding. -/
def saveDone (s : State) (t : Nat) : State :=
  let u := mainOf s t
  if !s.on F.SAVE_FOR t || (copiesOf s t).any (fun v => s.on F.LD_PEND v || s.on F.DIV_PEND v) || saveHeld s then s
  else
    let new := s.rd F.SAVE_FOR t - 1
    let victim := runningTask s t
    if !s.on F.HASTASK t then startTask s new t
    else
      let r := saveContext s victim t (s.rd F.PC u) false
      let s := r.1.down F.HASTASK t
      let s := if r.2 then enqueue (((s.wr F.DSP_TSTAT_STATE 1 victim).up F.DSP_TSTAT_SAVED victim).up F.TASK_NEW victim) victim true
        else faultTask s victim t 1
      let s := startTask s new t
      if r.2 then considerReady s victim else s

/-! Ends and waits (R509, R510). -/

/-- A task whose PENDING is set runs once more: READY at the tail, its stamp that of the pending post. -/
def rerun (s : State) (k : Nat) : State :=
  makeReady (((s.down F.DSP_TSTAT_PENDING k).wr F.POST_STAMP (s.rd F.PEND_STAMP k) k).up F.STAMP_LIVE k) k false

/-- TEND (R483, R509). On SP-C in lock-step the hand-back comes from SP-M. -/
def tend (s : State) (u : Nat) : State :=
  if isChecker s u then advance s u
  else
    let t := globOf u
    let k := s.rd F.TID_TASK u
    let s := trace ((s.down F.HASTASK t).down F.STAMP_LIVE k) 5 k t
    let s := if k = 0 then s.down F.TASK0_BOOT else s
    let s := s.wr F.OLD_W0 0 k
    if s.on F.DSP_TSTAT_PENDING k then rerun s k else s.wr F.DSP_TSTAT_STATE 0 k

/-- TWAIT (R483, R510, R521). A divide in progress ends before the context is saved (R506). -/
def twait (s : State) (u w : Nat) : State :=
  if exl s u then raiseIllegal s u w
  else if isChecker s u then advance s u
  else
    let s := divideDone s u
    let t := globOf u
    let k := s.rd F.TID_TASK u
    let r := saveContext (advance s u) k t (nextPc s u) true
    let s := trace (r.1.down F.HASTASK t) 6 k t
    if !r.2 then faultTask s k t 1
    else
      let s := ((s.up F.DSP_TSTAT_SAVED k).wr F.DSP_TSTAT_STATE 3 k).wr F.OLD_W0 0 k
      if s.on F.DSP_TSTAT_PENDING k then rerun s k else s

/-! Control (R520, R522). -/

/-- A write of DSP_RECOVER (R520). -/
def recoverTask (s : State) (k : Nat) : State := if taskState s k = 4 then s.wr F.DSP_TSTAT_STATE 0 k else s

/-- A write of DSP_CTRL.EN (R522): with EN 0 the tasks posted stay in their queues; with EN 1 they are considered. -/
def dispatchEnable (s : State) (en : Bool) : State :=
  let was := s.on F.DSP_CTRL_EN
  let s := s.wrb F.DSP_CTRL_EN en
  if en && !was then s.each ((List.range 5).flatMap (queued s)) considerReady else s

/-! Load windows (R517). -/

/-- N of the load window. -/
def loadN (s : State) : Nat := max 16 (min 30 (s.rd F.DSP_LOADCFG_N))

/-- LOAD_WINDOW_END (R517) of core `c`. -/
def loadWindowEnd (s : State) (c : Nat) : State :=
  let n := loadN s
  if s.rd F.WIN_CYC c < 2 ^ n then s
  else
    let s := s.wr F.DSP_LOAD_ISSUE (min 65535 (s.rd F.WIN_ISSUE c / 2 ^ (n - 16))) c
    let s := s.wr F.DSP_LOAD_BUSY (min 65535 (s.rd F.WIN_BUSY c / 2 ^ (n - 13))) c
    ((s.wr F.WIN_CYC 0 c).wr F.WIN_ISSUE 0 c).wr F.WIN_BUSY 0 c

end Sys2Proof.Machine
end

