-- ==== Sys2Proof/Machine/Live.lean ====
section
/-!
DEFINITION. Live re-patterns: the request, the checks, the load and the switch (03_pattern_image.md, R130, R135 to R145,
R747). Log entry 26 names what the rules leave open here.
-/
namespace Sys2Proof.Machine

/-- Where the delta lies: PAT_LIVE_ADDR. -/
def liveAddr (s : State) : Nat := 8 * s.rd F.PAT_LIVE_ADDR_ADDR

/-- A pending delta is rejected; a failure of the R134 codes leaves RESULT 9 (R135). -/
def liveReject (s : State) (result : Nat) : State :=
  ((s.setq Q.delta []).wr F.PAT_LIVE_STAT_STATE 5).wr F.PAT_LIVE_STAT_RESULT result

/-- A write of PAT_LIVE_GO.GO (R135, R141, R747): codes 0x44 and 0x40 are decided here. -/
def liveGo (s : State) : State :=
  if livePending s then (reject s 0x44 0 0 1).bump F.LIVE_REFUSED
  else if !s.on F.LIVE_EN || !(s.mget (liveAddr s + 6) 2).testBit 0 then liveReject (reject s 0x40 0 0 1) 9
  else crEnter (((s.setq Q.delta []).wr F.LIVE_DELTA (liveAddr s)).wr F.PAT_LIVE_STAT_STATE 1) 3

/-- User `u` leaves the crypto engine before it has been served. -/
def crDrop (s : State) (u : Nat) : State :=
  let l := ((List.range 4).map fun k => s.rd F.CR_USER / 4 ^ k % 4).filter fun x => x != 0 && x != u
  let q := l.foldr (fun x acc => x + 4 * acc) 0
  (s.wr F.CR_USER q).wrb F.CR_STAT_BUSY (q != 0)

/-- A write of PAT_LIVE_GO.CANCEL (R141). -/
def liveCancel (s : State) : State := if livePending s then crDrop (liveDiscard s 0x47) 3 else s

/-- The conditions of R130 that no step of R63 checks, as a code of R134; 0 where they hold. -/
def deltaRefusal (s : State) (a : Nat) : Nat :=
  if s.mget (a + 0x20) 8 ≠ s.rd F.PAT_DIGEST_WORD 0 + s.rd F.PAT_DIGEST_WORD 1 * 2 ^ 32 then 0x41
  else if s.mget (a + 0x14) 4 ≠ s.rd F.PAT_FAMILY_FAMILY ∨ s.mget (a + 0x10) 4 < s.rd F.PAT_VERSION_VERSION ∨
      s.mget (a + 0x10) 4 < s.rd F.CTR_VALUE 0 then 0x43
  else 0

/-- PARTIAL and EPOCH_NEW of an accepted image (R689). -/
def signatureNoted (s : State) (r : ImgRes) : State :=
  let s := (s.wrb F.CR_STAT_PARTIAL r.part).wr F.CR_STAT_EPOCH_NEW r.epoch
  if r.part then logPush s 2 else s

/-- LIVE_VERIFY_DONE (R130, R135, R136, R747): the engine has read and checked the delta. -/
def liveVerified (s : State) : State :=
  if crAlive s && crServing s 3 then
    if s.rd F.PAT_LIVE_STAT_STATE ≠ 1 then crLeave s
    else if crWaits s (s.rd F.LIVE_DELTA) (crImageSpan s .delta (s.rd F.LIVE_DELTA)) then s
    else
      let a := s.rd F.LIVE_DELTA
      let x := crRead (crLeave s) a (crImageSpan s .delta a)
      let s := x.1
      match x.2 with
      | some _ => liveReject s 7
      | none =>
        let r := imgCheck s .delta a 0x40000 false
        if r.code ≠ 1 then liveReject s r.code
        else
          let s := signatureNoted s r
          match deltaRefusal s a with
          | 0 =>
            match checkPass s a true with
            | .bad f => liveReject (rejectWith s f 1) 9
            | .ok fs _ => ((s.setq Q.delta (packFrames fs)).wr F.PAT_LIVE_STAT_STATE 2).wr F.PAT_LIVE_STAT_RESULT 1
          | c => liveReject (reject s c 0 0 1) 9
  else s

/-- LIVE_LOAD_DONE (R136): the shadows hold the delta. -/
def liveLoaded (s : State) : State :=
  if s.rd F.PAT_LIVE_STAT_STATE = 2 then s.wr F.PAT_LIVE_STAT_STATE 3 else s

/-- LIVE_SWITCH_TIMEOUT (R143). -/
def liveTimeout (s : State) : State := if s.rd F.PAT_LIVE_STAT_STATE = 3 then liveDiscard s 0x46 else s

/-- The block of type code `t` is having a shadow loaded (R175): the routes, the loop engine and its memory, the
dispatcher. -/
def liveLoads (s : State) (t : Nat) : Bool :=
  s.rd F.PAT_LIVE_STAT_STATE == 2 && (deltaFrames s).any fun f =>
    (f.type == 4 && t == 0x24) || ((f.type == 6 || f.type == 7) && t == 0x44) || (f.type == 10 && t == 0x46)

/-- R377, R359: a parameter swap falls due at this row boundary. -/
def swapDue (s : State) : Bool :=
  (List.range 48).any fun n => !s.on F.LE_MID n && leSwapAsked s n

/-- The switch itself (R137 to R140, R142): every shadow becomes active. -/
def liveSwitch (s : State) : State :=
  let fs := deltaFrames s
  let named := (fs.filter fun f => f.type == 7 && f.kind == 1).map (·.index)
  let tasks := ((fs.filter fun f => f.type == 10 && f.kind == 1).map (·.index)).filter fun k =>
    (queued s (taskQueue s k)).contains k
  let s := s.each tasks dequeue
  let s := s.each ((fs.filter fun f => f.type == 10 && f.kind == 1).map (·.index)) keepEntry
  let s := (loadSection s fs 4 fun _ => true).when (fs.any fun f => f.type == 4) routesSettled
  let s := loadSection s fs 7 fun _ => true
  let s := s.each named freshSlot
  let s := loadSection (loadSection s fs 6 fun _ => true) fs 10 fun _ => true
  let s := s.each tasks fun s k => enqueue s k false
  let s := (((s.setq Q.delta []).wr F.PAT_LIVE_STAT_STATE 4).up F.PAT_ACTIVE_DELTA).bump F.PAT_LIVE_STAT_SWITCHES
  s.wr F.PAT_LIVE_STAT_RESULT 1

/-- The boundary at the end of an execution of row `r` (R137, R140, R359, R370, R377): pending swaps first, then an armed
delta, then the table copies that fall due. -/
def rowEnds (s : State) (r : Nat) : State :=
  let due := swapDue s
  if s.rd F.PAT_LIVE_STAT_STATE = 3 ∧ s.rd F.PAT_LIVE_CTRL_ROW = r then
    let s := liveSwitch (leSwapAll s)
    leStartCopies (s.when due (·.up F.PAT_LIVE_STAT_OVERRIDE))
  else rowBoundary s

end Sys2Proof.Machine
end

