-- ==== Sys2Proof/Machine/Super.lean ====
section
/-!
DEFINITION. The supervisor pair (15_supervisor_pair.md): windows, classification, re-seeds, hinges and degraded operation.
-/
namespace Sys2Proof.Machine

/-- SP-C's domain is on. -/
def checkerOn (s : State) : Bool := domOn s 113

/-- A load or atomic operation of a copy in `l` is outstanding. -/
def loadsOpen (s : State) (l : List Nat) : Bool := l.any fun u => s.on F.LD_PEND u || s.on F.DIV_PEND u

/-- The copies of the pair's threads that SP-M holds. -/
def mainCopies : List Nat := (List.range 8).map (32 + ·)

/-- The architectural state of copy `a` is copied to copy `b` (R560, R569): the registers, the fetch buffer and what the
save record holds. -/
def copyThread (s : State) (a b : Nat) : State :=
  let one (s : State) (f : Fld) : State := s.wr f (s.rd f a) b
  let s := s.each (List.range 16) fun s r => s.wr F.GPR (s.rd F.GPR a r) b r
  let s := s.each (List.range 4) fun s n => s.wr F.SCRATCH (s.rd F.SCRATCH a n) b n
  [F.PC, F.TSR, F.XSR, F.XPC, F.XCAUSE, F.XINFO, F.XADDR, F.TRMASK, F.TID_TASK, F.FB_LINE, F.FB_DATA, F.FB_REQ, F.DFAULTED,
    F.SYNCING, F.LD_PEND, F.LDX_OK, F.DIV_PEND].foldl one s

/-- The pending asynchronous causes of copy `a` move to copy `b`. -/
def movePending (s : State) (a b : Nat) : State :=
  [F.WDX_PEND, F.NT_PEND, F.NT_CODE, F.NT_TASK, F.NT_ADDR, F.SG_PEND, F.SG_INFO].foldl
    (fun s f => (s.wr f (s.rd f a) b).wr f 0 a) s

/-- What SP-C has pending is forgotten: in lock-step it learns a cause from SP-M (R552). -/
def clearPending (s : State) (u : Nat) : State :=
  (((s.down F.WDX_PEND u).down F.NT_PEND u).down F.SG_PEND u).down F.LDX_OK (u - 8)

/-- The store-buffer entries of copy `a` become copy `b`'s. -/
def moveStores (s : State) (a b : Nat) : State :=
  { s with stores := s.stores.map fun e => if e.thread = a then { e with thread := b } else e }

/-- The signatures start a new window (R555). -/
def newWindow (s : State) : State :=
  let v := 0xFFFFFFFF
  ((((s.wr F.SIG_CM v).wr F.SIG_CC v).wr F.SIG_IM v).wr F.SIG_IC v).wr F.SP_WCYC 0

/-- A re-seed begins (R560). -/
def reseed (s : State) : State := s.up F.SP_STAT_RESEEDING

/-- SP_REACT (R562): the action that REACT names. -/
def react (s : State) : State :=
  match s.rd F.SP_CFG_REACT with
  | 1 => bindOff s 4
  | 2 => cDieLoss s 2
  | _ => reseed s

/-- The four signatures are captured with the class (R559). -/
def captureSigs (s : State) (class_ : Nat) : State :=
  let s := (s.wr F.SP_SIG_CM_SIG (s.rd F.SIG_CM)).wr F.SP_SIG_CC_SIG (s.rd F.SIG_CC)
  ((s.wr F.SP_SIG_IM_SIG (s.rd F.SIG_IM)).wr F.SP_SIG_IC_SIG (s.rd F.SIG_IC)).wr F.SP_STAT_LAST class_

/-- The class of the running window (R558): 0 agreement, 1 input divergence, 2 compute mismatch. -/
def windowClass (s : State) : Nat :=
  if s.rd F.SIG_IM ≠ s.rd F.SIG_IC then 1 else if s.rd F.SIG_CM ≠ s.rd F.SIG_CC then 2 else 0

/-- An input divergence (R558, R560, R561, R563). -/
def diverged (s : State) : State :=
  let lim := max 1 (s.rd F.SP_DIVCFG_DIV_LIM)
  let was := s.rd F.SP_RATE_COUNT
  let s := ((captureSigs s 1).bump F.SP_TALLY0_DIVERGE).bump F.SP_RATE_COUNT
  let s := reseed (newWindow s)
  if was < lim ∧ lim ≤ s.rd F.SP_RATE_COUNT then
    react (spCount (((s.up F.SP_EVT_EXCURSION).bump F.SP_TALLY1_EXCURSIONS).post 10))
  else s

/-- A compute mismatch (R562, R563). -/
def mismatched (s : State) : State :=
  let s := ((captureSigs s 2).bump F.SP_TALLY0_MISMATCH).up F.FAULT_CAUSE_SP_MISMATCH
  react (spCount (newWindow ((s.up F.SP_EVT_MISMATCH).post 9)))

/-- The running window is classified and the next one starts (R558, R559). -/
def classify (s : State) : State :=
  let k := windowClass s
  let s := s.bump F.SP_WINDOWS_COUNT
  match k with
  | 0 => newWindow s
  | 1 => diverged s
  | _ => mismatched s

/-- SP_WINDOW_CLASSIFY (R555, R558): a window of lock-step has ended. -/
def windowEnd (s : State) : State :=
  if s.rd F.SP_STAT_MODE ≠ 0 ∨ s.on F.SP_STAT_RESEEDING ∨ !cUp s ∨ !domOn s 112 ∨ s.rd F.SP_WCYC < s.rd F.SP_CFG_WINDOW then s
  else classify s

/-! Hinges. -/

/-- A hinge or degrade request is refused (R564, R572). -/
def hingeRefuse (s : State) (code : Nat) : State := ((s.up F.SP_EVT_HINGE_REF).wr F.SP_STAT_HCODE code).post 12

/-- The code with which a split or a rejoin is refused; 0 where it is accepted (R564). -/
def hingeCode (s : State) (rejoin : Bool) : Nat :=
  let m := s.rd F.SP_STAT_MODE
  if m = 3 || (if rejoin then m == 0 else m != 0) then 1
  else if mainCopies.any (fun t => s.on F.HALTED t) then 2
  else if !checkerOn s then 4
  else if s.on F.TC_DFAULT_THREADS 4 then 5
  else 0

/-- A hinge request is taken or refused (R564, R565). One during a re-seed is held. -/
def hingeTake (s : State) (rejoin : Bool) : State :=
  if s.on F.SP_STAT_RESEEDING then s.wr F.HINGE_HELD (s.rd F.HINGE_HELD ||| (if rejoin then 2 else 1))
  else
    let c := hingeCode s rejoin
    if c ≠ 0 then hingeRefuse s c
    else
      let m := s.rd F.SP_STAT_MODE
      ((s.wr F.HINGE_FROM m).wr F.HINGE_KIND (if rejoin then (if m = 1 then 2 else 3) else 1)).wr F.SP_STAT_MODE 3

/-- SP_SPLIT, SP_REJOIN (R577): a write of 1 to a bit of SP_HINGE. A window that ends as a SPLIT lands is classified first. -/
def hingeRequest (s : State) (rejoin : Bool) : State := hingeTake (if rejoin then s else windowEnd s) rejoin

/-- The requests held during a re-seed are taken up (R565). -/
def heldHinges (s : State) : State :=
  let h := s.rd F.HINGE_HELD
  ((s.wr F.HINGE_HELD 0).when (h.testBit 0) (hingeTake · false)).when (h.testBit 1) (hingeTake · true)

/-- SP_RESEED_DONE (R560, R565): the copy of SP-M's state into SP-C ends, and a held hinge request is taken up. -/
def reseedDone (s : State) : State :=
  if !s.on F.SP_STAT_RESEEDING || loadsOpen s mainCopies then s
  else
    let s := mainCopies.foldl (fun s u => clearPending (copyThread s u (u + 8)) (u + 8)) s
    heldHinges ((s.wr F.XVEC (s.rd F.XVEC 4) 5).down F.SP_STAT_RESEEDING)

/-- The hinge is reached: MODE becomes `m` (R568, R569). -/
def hingeDone (s : State) (m : Nat) : State :=
  let s := ((s.wr F.SP_STAT_MODE m).wr F.HINGE_KIND 0).down F.HINGE_SEEN
  ((s.up F.SP_EVT_HINGE_DONE).bump F.SP_TALLY1_HINGES).post 11

/-- The truncated window of a split agrees, or has been re-seeded: the threads are divided (R568). -/
def splitNow (s : State) : State :=
  let s := [36, 37, 38, 39].foldl (fun s u => moveStores (movePending s u (u + 8)) u (u + 8)) s
  hingeDone (newWindow (s.wr F.INV_KIND 3 5)) 1

/-- SP_SPLIT_HINGE (R566 to R568). -/
def splitHinge (s : State) : State :=
  if s.rd F.SP_STAT_MODE ≠ 3 ∨ s.rd F.HINGE_KIND ≠ 1 ∨ s.on F.SP_STAT_RESEEDING ∨ loadsOpen s (mainCopies ++ mainCopies.map (· + 8)) then s
  else if s.on F.HINGE_SEEN then splitNow s
  else
    match windowClass s with
    | 0 => splitNow (s.bump F.SP_WINDOWS_COUNT)
    | 1 => diverged ((s.bump F.SP_WINDOWS_COUNT).up F.HINGE_SEEN)
    | _ =>
      let s := ((s.bump F.SP_WINDOWS_COUNT).wr F.SP_STAT_MODE 0).wr F.HINGE_KIND 0
      mismatched (hingeRefuse s 3)

/-- SP_REJOIN_HINGE (R569, R570): once every response is in, the states are exchanged and lock-step resumes. -/
def rejoinHinge (s : State) : State :=
  let k := s.rd F.HINGE_KIND
  let all := mainCopies ++ mainCopies.map (· + 8)
  let running := if k = 2 then [32, 33, 34, 35, 44, 45, 46, 47] else mainCopies
  if s.rd F.SP_STAT_MODE ≠ 3 ∨ (k ≠ 2 ∧ k ≠ 3) ∨ loadsOpen s running ∨ s.stores.any (fun e => all.contains e.thread) then s
  else
    let s := if k = 2 then [44, 45, 46, 47].foldl (fun s u => movePending (copyThread s u (u - 8)) u (u - 8)) s else s
    let s := mainCopies.foldl (fun s u => clearPending (copyThread s u (u + 8)) (u + 8)) s
    let s := (s.wr F.CYC (s.rd F.CYC 4) 5).wr F.XVEC (s.rd F.XVEC 4) 5
    newWindow (hingeDone s 0)

/-- Degraded operation begins (R572). A hinge or re-seed in progress ends with it. -/
def degrade (s : State) : State :=
  let s := (((s.wr F.SP_STAT_MODE 2).down F.SP_STAT_RESEEDING).wr F.HINGE_KIND 0).down F.HINGE_SEEN
  heldHinges ((s.up F.SP_EVT_DEGRADED).post 14)

/-- SP_DEGRADE (R572): a write of 1 to SP_CTRL.DEGRADE. -/
def degradeRequest (s : State) : State :=
  match s.rd F.SP_STAT_MODE with
  | 0 => degrade s
  | 2 => s
  | _ => hingeRefuse s 1

/-- A rejoin from degraded that PD113 leaves goes no further (DESIGN CHOICE, log entry 92). -/
def rejoinOff (s : State) : State :=
  if s.rd F.SP_STAT_MODE = 3 then (s.wr F.SP_STAT_MODE 2).wr F.HINGE_KIND 0 else s

/-- PD113 begins to drain or fails to reach on (R572, R573): in split the tasks on threads 36 to 39 become FAULTED. -/
def checkerGone (s : State) : State :=
  match pairMode s with
  | 1 =>
    let s := { s with stores := s.stores.filter fun e => !(decide (44 ≤ e.thread) && !e.issued) }
    let s := [36, 37, 38, 39].foldl (fun s t =>
      let s := (moveStores s (t + 8) t).wr F.DFAULTED (s.rd F.DFAULTED (t + 8)) t
      if s.on F.HASTASK t then faultTask (s.down F.HASTASK t) (s.rd F.TID_TASK (t + 8)) t 3 else s) s
    degrade s
  | 0 => degrade s
  | _ => rejoinOff s

/-- SP_RATE_INTERVAL (R561): RATE_MS ms have passed since cast-on or since the interval before. -/
def rateInterval (s : State) : State :=
  if s.rd F.RATE_AGE < s.rd F.SP_DIVCFG_RATE_MS then s else (s.wr F.SP_RATE_COUNT 0).wr F.RATE_AGE 0

/-- The level SENSE line `n` has: from a general pin what the outside gives, else what the destination holds; a pulse is over
before it is taken as a level. -/
def senseLevel (s : State) (n : Nat) (level : Bool) : Bool :=
  let d := 456 + n
  if srcPin (s.rd F.RT_SRC d) then destOf s d (xor (s.on F.PIN_CFG_INVERT (s.rd F.RT_SRC d - 232)) level)
  else destLive s d && s.rd F.RT_SYNC d < 2 && s.on F.RT_LEVEL d

/-- SENSE_LINE_CHANGE (R117, R234, R553): the level of SENSE line `n` reaches the synchroniser of SP-M (0) or SP-C (1). `level`: of the
ball of the general pin the line is connected to. While the C-die is not up the lines are ignored. -/
def senseChange (s : State) (n copy : Nat) (level : Bool) : State :=
  let level := senseLevel s n level
  if !cUp s then s
  else if copy = 0 then s.wr F.SENSE_M (putBit (s.rd F.SENSE_M) n level)
  else s.wr F.SENSE_C (putBit (s.rd F.SENSE_C) n level)

/-! The replay log of debug writes (R575): thread, kind (0 to 15 a general register, 16 the PC, 17 on a system register)
and value. -/

/-- An entry of the replay log. -/
def replayEntry (lane kind v : Nat) : Nat := lane + kind * 2 ^ 8 + v * 2 ^ 32

/-- A debug write to copy `u`: `kind` as in the replay log. It folds into no signature (R575). -/
def debugWrite (s : State) (u kind v : Nat) : State :=
  if kind < 16 then s.wr F.GPR v u kind
  else if kind = 16 then (s.wr F.PC (v / 4 * 4) u).down F.FB_LINE u
  else sysWrite s u (kind - 17) v

/-- SP_REPLAY_APPLY (R575): SP-C applies the oldest entry. -/
def replayApply (s : State) : State :=
  match s.q Q.replay with
  | [] => s
  | e :: r => debugWrite (s.setq Q.replay r) (40 + e % 256) (e / 2 ^ 8 % 2 ^ 24) (e / 2 ^ 32)

end Sys2Proof.Machine
end

