-- ==== Sys2Proof/Machine/Dma.lean ====
section
/-!
DEFINITION. The DMA channels (16_dma.md), as far as they issue no request. STATE codes of a channel: 0 idle, 1 fetching, 2
running, 3 completing, 4 stopped, 5 halted, 6 RINGWAIT. The requests are in Sys2Proof/Machine/DmaRows.lean.
-/
namespace Sys2Proof.Machine

/-- STATE of channel `n`. -/
def dcState (s : State) (n : Nat) : Nat := s.rd F.DC_STAT_STATE n

/-- The channel has work in hand. -/
def dcActive (s : State) (n : Nat) : Bool := [1, 2, 3, 6].contains (dcState s n)

/-- The channel can issue: its domain is powered, it is enabled and no stop is taking effect (R587, R603). -/
def dcRuns (s : State) (n : Nat) : Bool :=
  cUp s && 2 ≤ s.rd F.DOM_STATE (117 + n / 16) && s.on F.DC_CFG_EN n && !s.on F.DC_STOPREQ n

/-- A ring of the doorbell, past the ticket rule (R586, R587). -/
def dcRing (s : State) (n : Nat) : State :=
  if !s.on F.DC_CFG_EN n then s
  else match dcState s n with
    | 0 => s.wr F.DC_STAT_STATE 1 n
    | 4 => s
    | 5 => s
    | _ => s.up F.DC_STAT_RESCAN n

/-- DC_STOP (R603). -/
def dcStop (s : State) (n : Nat) : State := if dcActive s n then s.up F.DC_STOPREQ n else s

/-- DC_STOPPED (R601, R603). -/
def dcStopped (s : State) (n : Nat) : State :=
  if s.on F.DC_STOPREQ n then
    ((s.down F.DC_STOPREQ n).wr F.DC_STAT_STATE 4 n).wr F.DC_DONE_BYTES (s.rd F.DC_WDONE n) n
  else s

/-- DC_CLEAR (R602). -/
def dcClear (s : State) (n : Nat) : State :=
  if dcState s n = 4 ∨ dcState s n = 5 then
    let s := (s.wr F.DC_STAT_STATE 0 n).wr F.DMA_HALTED_HALTED (putBit (s.rd F.DMA_HALTED_HALTED) n false)
    (s.setq Q.dmaBuf [] n).down F.DC_CTLDONE n
  else s

/-- A write of DC_CFG, or of its Basic alias, has changed EN from `was` (R587). -/
def dcCfgChanged (s : State) (n : Nat) (was : Bool) : State :=
  if was && !s.on F.DC_CFG_EN n then dcStop s n else s

/-- The place after WR in the record ring, whose length is at least 2 (R596). -/
def dcRingNext (s : State) (n : Nat) : Nat := (s.rd F.DC_RING_WR_WR n + 1) % max 2 (s.rd F.DC_RING_LEN_LEN n)

/-- The record ring of channel `n` has no room (R597). -/
def dcRingFull (s : State) (n : Nat) : Bool := dcRingNext s n == s.rd F.DC_RING_RD_RD n

/-- A write of DC_RING_RD that makes room ends RINGWAIT (R597). -/
def dcRingMoved (s : State) (n : Nat) : State := if dcState s n = 6 ∧ !dcRingFull s n then s.wr F.DC_STAT_STATE 3 n else s

/-- DMA_HALT (R600, R601): the channel halts at the first failure. -/
def dcHalt (s : State) (n addr dir resp phase : Nat) : State :=
  let s := (((s.wr F.DC_ERR_ADDR_ADDR addr n).wr F.DC_ERR_RESP resp n).wr F.DC_ERR_DIR dir n).wr F.DC_ERR_PHASE phase n
  let s := ((s.wr F.DC_STAT_STATE 5 n).down F.DC_STOPREQ n).wr F.DC_DONE_BYTES (s.rd F.DC_WDONE n) n
  (s.wr F.DMA_HALTED_HALTED (putBit (s.rd F.DMA_HALTED_HALTED) n true)).post 224

/-! Descriptors (R582 to R585). -/

/-- Bit `b` of CTRL of the descriptor in progress. -/
def dcCtl (s : State) (n b : Nat) : Bool := (s.rd F.DC_DCTRL n).testBit b

/-- SUNIT and DUNIT, as byte counts. -/
def dcSunit (s : State) (n : Nat) : Nat := 2 ^ bits (s.rd F.DC_DCTRL n) 5 3
def dcDunit (s : State) (n : Nat) : Nat := 2 ^ bits (s.rd F.DC_DCTRL n) 8 6

/-- R593, R625: the request sources that exist. -/
def reqSourceOk (r : Nat) : Bool := (1 ≤ r && r ≤ 8) || (16 ≤ r && r ≤ 29) || (32 ≤ r && r ≤ 39)

/-- The check of a fetched descriptor (R584): 1 where it is good. `chunkHi` holds the reserved bits of CHUNK. -/
def dcCheck (s : State) (n chunkHi : Nat) : Nat :=
  let c := s.rd F.DC_DCTRL n
  let len := s.rd F.DC_LEN n
  let chunk := s.rd F.DC_CHUNK n
  let src := s.rd F.DC_SRC n
  let dst := s.rd F.DC_DST n
  let sfix := c.testBit 1
  let dfix := c.testBit 2
  if bits c 15 13 ≠ 0 ∨ chunkHi ≠ 0 ∨ 5 < bits c 5 3 ∨ 5 < bits c 8 6 then 2
  else if c.testBit 12 ∧ (chunk = 0 ∨ !reqSourceOk (s.rd F.DC_CFG_REQ_SRC n) ∨ len % chunk ≠ 0) then 2
  else if (sfix ∧ (src % dcSunit s n ≠ 0 ∨ len % dcSunit s n ≠ 0)) ∨ (dfix ∧ (dst % dcDunit s n ≠ 0 ∨ len % dcDunit s n ≠ 0)) then 3
  else if (!sfix ∧ 2 ^ 32 < src + len) ∨ (!dfix ∧ 2 ^ 32 < dst + len) then 4
  else if !sfix ∧ !dfix ∧ src < dst ∧ dst < src + len then 5
  else 1

/-- A fetched descriptor, its 32 bytes in `v` (R584, R588). -/
def dcFetched (s : State) (n v : Nat) : State :=
  let w (k : Nat) : Nat := v / 2 ^ (32 * k) % 2 ^ 32
  if (w 3).testBit 0 then
    let s := ((s.wr F.DC_CUR_CUR (s.rd F.DC_NEXT_NEXT n) n).wr F.DC_SRC (w 0) n).wr F.DC_DST (w 1) n
    let s := ((s.wr F.DC_LEN (w 2 % 2 ^ 24 + 1) n).wr F.DC_DCTRL (w 3) n).wr F.DC_DNEXT (w 4) n
    let s := (((s.wr F.DC_CHUNK (w 6) n).wr F.DC_RDONE 0 n).wr F.DC_WDONE 0 n).wr F.DC_PACEGO 0 n
    let s := (s.setq Q.dmaBuf [] n).down F.DC_CTLDONE n
    let k := dcCheck s n (w 6 / 2 ^ 16)
    (s.wr F.DC_STAT_STATUS k n).wr F.DC_STAT_STATE (if k = 1 then 2 else 3) n
  else if s.on F.DC_STAT_RESCAN n then s.down F.DC_STAT_RESCAN n
  else s.wr F.DC_STAT_STATE 0 n

/-- The largest request of at most `unit` bytes at `a` that is aligned to its size and has at most `left` bytes (R583). -/
def dcSize (a unit left : Nat) : Nat :=
  ([32, 16, 8, 4, 2, 1].find? fun z => decide (z ≤ unit) && decide (z ≤ left) && a % z == 0).getD 1

/-- The bytes the served pace requests allow, or all (R593). -/
def dcAllowed (s : State) (n : Nat) : Nat := if dcCtl s n 12 then s.rd F.DC_PACEGO n else s.rd F.DC_LEN n

/-- The next source read: its address and size; none while nothing is allowed or the buffer has no room (R583, R591). -/
def dcNextRead (s : State) (n : Nat) : Option (Nat × Nat) :=
  let done := s.rd F.DC_RDONE n
  let left := dcAllowed s n - done
  if left = 0 then none
  else
    let a := if dcCtl s n 1 then s.rd F.DC_SRC n else s.rd F.DC_SRC n + done
    let z := if dcCtl s n 1 then dcSunit s n else dcSize a (dcSunit s n) left
    if 128 < done - s.rd F.DC_WDONE n + z then none else some (a, z)

/-- The next destination write: its address and size; none until its bytes have been read (R583, R591). -/
def dcNextWrite (s : State) (n : Nat) : Option (Nat × Nat) :=
  let done := s.rd F.DC_WDONE n
  let left := dcAllowed s n - done
  if left = 0 then none
  else
    let a := if dcCtl s n 2 then s.rd F.DC_DST n else s.rd F.DC_DST n + done
    let z := if dcCtl s n 2 then dcDunit s n else dcSize a (dcDunit s n) left
    if s.rd F.DC_RDONE n < done + z then none else some (a, z)

/-! Pacing (R593, R594). -/

/-- A request of source `r` that is latched: the ADC sequences and the route destinations. -/
def paceLatched (s : State) (r : Nat) : Bool :=
  if 1 ≤ r ∧ r ≤ 4 then s.on F.AD_DMA_REQ (r - 1) 0
  else if 5 ≤ r ∧ r ≤ 8 then s.on F.AD_DMA_REQ (r - 5) 1
  else decide (32 ≤ r) && s.on F.DC_REQ (r - 32)

/-- The latched request of source `r` has been served. -/
def paceServed (s : State) (r : Nat) : State :=
  if 1 ≤ r ∧ r ≤ 4 then s.down F.AD_DMA_REQ (r - 1) 0
  else if 32 ≤ r then s.down F.DC_REQ (r - 32) else s

/-- The reads of the chunk in hand are done: its request is served (R594). -/
def paceDone (s : State) (n : Nat) : State :=
  if dcCtl s n 12 && s.rd F.DC_PACEGO n ≤ s.rd F.DC_RDONE n then paceServed s (s.rd F.DC_CFG_REQ_SRC n) else s

/-- A channel that waits at the end of a chunk, its reads done and all it can write written, begins the next one where its source asks
(R593, R594). -/
def paceBegin (s : State) (n : Nat) (asked : Bool) : State :=
  let go := s.rd F.DC_PACEGO n
  if dcState s n = 2 ∧ dcCtl s n 12 ∧ asked ∧ go ≤ s.rd F.DC_RDONE n ∧ (dcNextWrite s n).isNone ∧ go < s.rd F.DC_LEN n then
    paceDone (s.wr F.DC_PACEGO (go + s.rd F.DC_CHUNK n) n) n
  else s

/-- R604: PD117 or PD118 begins to drain. -/
def dmaDrain (s : State) (d : Nat) : State :=
  if d = 117 ∨ d = 118 then (List.range 16).foldl (fun s k => dcStop s (16 * (d - 117) + k)) s else s

end Sys2Proof.Machine
end

