-- ==== Sys2Proof/Machine/Cvu.lean ====
section
/-!
DEFINITION. The check-value unit (17_check_value_units.md): the calculation, the context commands and what the unit does
for the frames of the SPI port and the station link. A path is numbered as R615 numbers it: 1 SPI transmit, 2 SPI receive,
3 station-link transmit, 4 station-link receive.
-/
namespace Sys2Proof.Machine

/-- WIDTH of context `x`. -/
def cxWidth (s : State) (x : Nat) : Nat := s.rd F.CX_CFG_WIDTH x + 1

/-- A value cut to WIDTH bits. -/
def cxCut (s : State) (x v : Nat) : Nat := v % 2 ^ cxWidth s x

/-- One bit of R607. -/
def crcShift (w poly r : Nat) (b : Bool) : Nat :=
  let fb := xor (r.testBit (w - 1)) b
  let r := r * 2 % 2 ^ w
  if fb then r ^^^ poly else r

/-- One byte of R607. -/
def crcFoldByte (w poly : Nat) (refin : Bool) (r : Nat) (b : Byte) : Nat :=
  (List.range 8).foldl (fun r k => crcShift w poly r (b.toNat.testBit (if refin then k else 7 - k))) r

/-- Bytes folded into a running value (R607, R608). -/
def crcFold (w poly : Nat) (refin : Bool) (r : Nat) (l : List Byte) : Nat := l.foldl (crcFoldByte w poly refin) r

/-- RESULT for a running value (R607). -/
def crcResult (w xorout : Nat) (refout : Bool) (r : Nat) : Nat := (if refout then reflect w r else r) ^^^ (xorout % 2 ^ w)

/-- Bytes folded into S of context `x`. -/
def cxFold (s : State) (x : Nat) (l : List Byte) : State :=
  s.wr F.CX_VALUE_S (crcFold (cxWidth s x) (cxCut s x (s.rd F.CX_POLY_POLY x)) (s.on F.CX_CFG_REFIN x)
    (cxCut s x (s.rd F.CX_VALUE_S x)) l) x

/-- RESULT of S as it stands. -/
def cxResult (s : State) (x : Nat) : Nat :=
  crcResult (cxWidth s x) (s.rd F.CX_XOROUT_XOROUT x) (s.on F.CX_CFG_REFOUT x) (cxCut s x (s.rd F.CX_VALUE_S x))

/-- S := INIT. -/
def cxInit (s : State) (x : Nat) : State := s.wr F.CX_VALUE_S (cxCut s x (s.rd F.CX_INIT_INIT x)) x

/-- MODE codes: 0 FEED, 1 COMPARE, 2 PORT, 3 SCRUB. -/
def cxMode (s : State) (x : Nat) : Nat := s.rd F.CX_CFG_MODE x

/-- EV107 + x where EVT is 1 (R614, R617, R619). -/
def cxEvent (s : State) (x : Nat) : State := s.postIf (s.on F.CX_CFG_EVT x) (107 + x)

/-- CX_CMD.START without what SCRUB adds (R612). -/
def cxBegin (s : State) (x : Nat) : State :=
  (((cxInit s x).down F.CX_STAT_DONE x).down F.CX_STAT_MATCH x).down F.CX_STAT_MISMATCH x

/-- A scrub pass starts (R618). -/
def cxPassStart (s : State) (x : Nat) : State := ((cxBegin s x).up F.CX_PASS x).up F.CX_STAT_BUSY x

/-- CX_START (R612, R618). -/
def cxStart (s : State) (x : Nat) : State := if cxMode s x = 3 then cxPassStart s x else cxBegin s x

/-- The comparison of R614. -/
def cxCompare (s : State) (x : Nat) : State :=
  if s.rd F.CX_RESULT_RESULT x = cxCut s x (s.rd F.CX_EXPECT_EXPECT x) then s.up F.CX_STAT_MATCH x
  else cxEvent (s.up F.CX_STAT_MISMATCH x) x

/-- CX_FINISH (R612, R614). -/
def cxFinish (s : State) (x : Nat) : State :=
  let s := (s.wr F.CX_RESULT_RESULT (cxResult s x) x).up F.CX_STAT_DONE x
  if cxMode s x = 1 ∨ cxMode s x = 3 then cxCompare s x else s

/-- The preset table (R622): WIDTH, POLY, INIT, REFIN and REFOUT, XOROUT. -/
def cxPresets (code : Nat) : Option (Nat × Nat × Nat × Bool × Nat) :=
  match code with
  | 1 => some (8, 0x07, 0, false, 0)
  | 2 => some (16, 0x1021, 0, false, 0)
  | 3 => some (16, 0x1021, 0xFFFF, false, 0)
  | 4 => some (32, 0x04C11DB7, 0xFFFFFFFF, true, 0xFFFFFFFF)
  | 5 => some (32, 0x1EDC6F41, 0xFFFFFFFF, true, 0xFFFFFFFF)
  | 6 => some (64, 0x42F0E1EBA9EA3693, 0xFFFFFFFFFFFFFFFF, true, 0xFFFFFFFFFFFFFFFF)
  | _ => none

/-- CX_PRESET (R611). -/
def cxPreset (s : State) (x code : Nat) : State :=
  match cxPresets code with
  | none => s
  | some (w, poly, init, ref, xo) =>
    let s := ((s.wr F.CX_CFG_WIDTH (w - 1) x).wr F.CX_POLY_POLY poly x).wr F.CX_INIT_INIT init x
    let s := ((s.wrb F.CX_CFG_REFIN ref x).wrb F.CX_CFG_REFOUT ref x).wrb F.CX_CFG_ORDER (!ref) x
    (s.wr F.CX_XOROUT_XOROUT xo x).wr F.CX_VALUE_S init x

/-- The path that MODE and PORT bind; 0 for none (R615). -/
def pathOf (mode port : Nat) : Nat := if mode = 2 ∧ 1 ≤ port ∧ port ≤ 4 then port else 0

/-- The path context `x` is bound to. -/
def cxPath (s : State) (x : Nat) : Nat := pathOf (cxMode s x) (s.rd F.CX_CFG_PORT x)

/-- The context bound to path `p`, while the unit is powered. -/
def cxOn (s : State) (p : Nat) : Option Nat :=
  if cUp s && domOn s 119 then (List.range 16).find? fun x => cxPath s x == p else none

/-- R610: the configuration of context `x` refuses writes. -/
def cxFixed (s : State) (x : Nat) : Bool := s.on F.CX_STAT_BUSY x || s.on F.CX_STAT_FRAME x

/-- R610: a write of `v` to CX_CFG of context `x` would bind a path that another context binds. -/
def cxBindTaken (s : State) (x v : Nat) : Bool :=
  let p := pathOf (bits v 9 8) (bits v 19 16)
  p != 0 && (List.range 16).any fun y => y != x && cxPath s y == p

/-- A write of `bytes` to the feed window of context `x`: whether it is refused (R613). -/
def cxFeedRefused (s : State) (x : Nat) : Bool := 2 ≤ cxMode s x

/-- R620: a bound context within a frame has received bytes that wait for a slice. -/
def cxPortReady (s : State) (x : Nat) : Bool := cxPath s x != 0 && s.on F.CX_STAT_FRAME x && s.on F.CX_RDY x

/-- The contexts in the order of their turns (R620). -/
def cxTurns (s : State) : List Nat := (List.range 16).map fun k => (s.rd F.CX_NEXT + 1 + k) % 16

/-! Frames of the bound paths (R616, R617). -/

/-- Number of check bytes of context `x`. -/
def cxBytes (s : State) (x : Nat) : Nat := (cxWidth s x + 7) / 8

/-- Number of check bytes on path `p`: none while it is unbound (R655). -/
def pathBytes (s : State) (p : Nat) : Nat := match cxOn s p with | some x => cxBytes s x | none => 0

/-- A frame starts on a path (R616), and its bytes come in (R621). -/
def cxFrameStart (s : State) (x : Nat) : State := ((cxInit s x).up F.CX_STAT_FRAME x).up F.CX_RDY x

/-- APPEND (R616): the covered bytes have been folded; the check bytes and their number go to the port. -/
def cxAppend (s : State) (x : Nat) (covered : List Byte) : State :=
  let s := cxFold s x covered
  let n := cxBytes s x
  let l := toBytes n (cxResult s x)
  let s := s.wr F.CX_RESULT_RESULT (cxResult s x) x
  let l := if s.on F.CX_CFG_ORDER x then l.reverse else l
  (((s.wr F.CX_OUT (ofBytes l) x).wr F.CX_OUTN n x).down F.CX_STAT_FRAME x).down F.CX_RDY x

/-- STRIP (R617) of a frame of covered bytes: what is left of it, and the comparison. -/
def cxStrip (s : State) (x : Nat) (frame : List Byte) : State × List Byte :=
  let n := cxBytes s x
  let body := frame.take (frame.length - n)
  let check := frame.drop (frame.length - n)
  let s := cxFold s x body
  let got := ofBytes (if s.on F.CX_CFG_ORDER x then check.reverse else check)
  let s := ((s.wr F.CX_RESULT_RESULT (cxResult s x) x).down F.CX_STAT_FRAME x).down F.CX_RDY x
  let runt := decide (frame.length < n)
  if runt || got != s.rd F.CX_RESULT_RESULT x then
    let s := if runt then s.bump F.CX_TALLY_RUNT x else s
    (cxEvent (((s.up F.CX_STAT_MISMATCH x).bump F.CX_TALLY_MISMATCHES x).up F.CX_SRES x) x, body)
  else (s.down F.CX_SRES x, body)

end Sys2Proof.Machine
end

