-- ==== Sys2Proof/Machine/Ports.lean ====
section
/-!
DEFINITION. The host and partner ports (18_host_ports.md). A port is numbered 0 USB, 1 Ethernet, 2 UART0, 3 UART1, 4 module
SPI, 5 station link. A FIFO of a framed port holds 32-bit words, a byte port's holds bytes (characters with their marks on
the receive side of a UART).
-/
namespace Sys2Proof.Machine

/-! What every port has (R625 to R632). -/

/-- The UARTs. -/
def isUart (p : Nat) : Bool := p == 2 || p == 3

/-- The port has its clocks (R57, R186, R190): USB and Ethernet need HSXO as the reference, Ethernet also the grant of the RMII
reference. -/
def portClocked (s : State) (p : Nat) : Bool :=
  (1 < p || s.on F.PTM_CLKSTAT_REF) && (p != 1 || (s.rd F.PTM_CLKSTAT_GRANT).testBit 2)

/-- The port is powered, clocked and enabled (R666). -/
def portLive (s : State) (p : Nat) : Bool :=
  cUp s && s.rd F.PTM_STATE_CUR ≤ 1 && domOn s (portDomain p) && portClocked s p && s.on F.PT_CTRL_EN p

/-- The physical layer answers (R669). -/
def phyUp (s : State) (p : Nat) : Bool :=
  domOn s (if p = 0 then 39 else if p = 1 ∨ p = 5 then 40 else 41) && (p != 4 || railGood s .vddioA && !s.on F.BANK_HIZ)

/-- The port can receive, or transmit. -/
def portRx (s : State) (p : Nat) : Bool := portLive s p && phyUp s p && s.on F.PT_CTRL_RX_EN p
def portTx (s : State) (p : Nat) : Bool := portLive s p && phyUp s p && s.on F.PT_CTRL_TX_EN p

/-- The receive, transmit and error events of a port (R625); the SPI port posts its events at the end of a transaction. -/
def rxEvent (p : Nat) : Option Nat := match p with | 0 => some 178 | 1 => some 181 | 2 => some 184 | 3 => some 186 | 5 => some 190 | _ => none
def txEvent (p : Nat) : Option Nat := match p with | 0 => some 179 | 1 => some 182 | 2 => some 185 | 3 => some 187 | _ => none
def errEvent (p : Nat) : Nat := match p with | 0 => 180 | 1 => 183 | 2 => 184 | 3 => 186 | 4 => 188 | _ => 191

/-- Post an event that may not exist. -/
def postOpt (s : State) (c : Bool) (e : Option Nat) : State := match e with | some v => s.postIf c v | none => s

/-- An error of a port is reported where EVT_ERR is set (DEDUCED, log entry 23). -/
def portError (s : State) (p : Nat) : State := s.postIf (s.on F.PT_CTRL_EVT_ERR p) (errEvent p)

/-- Fill of the receive FIFO: characters on a UART, bytes with header words elsewhere; the USB port has none of its own. -/
def rxLevel (s : State) (p : Nat) : Nat := if p = 0 then 0 else if isUart p then (s.q Q.rx p).length else 4 * (s.q Q.rx p).length

/-- The bytes a FIFO whose depth is not stated must at least hold, so that what the rules let through can pass: a whole frame with
its header word (R641, R653, R658), or one push (R627). DEDUCED: log entry 22. -/
def leastDepth (p : Nat) : Nat := match p with | 1 => 1524 | 4 => 520 | 5 => 132 | _ => 4

/-- Depth of the receive FIFO: 128 characters (R670's worked example), 16 KiB (4,096 bytes above XOFF_LEVEL: DEDUCED), else
not stated (log entry 22). -/
def rxDepth (p : Nat) : Nat := if isUart p then 128 else if p = 1 then 16384 else Config.fifoDepth p 1 + leastDepth p

/-- Free space of the receive FIFO. -/
def rxFree (s : State) (p : Nat) : Nat := rxDepth p - rxLevel s p

/-- Fill of the transmit FIFO in bytes. -/
def txLevel (s : State) (p : Nat) : Nat := if isUart p ∨ p = 4 then (s.q Q.tx p).length else 4 * (s.q Q.tx p).length

/-- Free space of the transmit FIFO; its depth is not stated (log entry 22). -/
def txFree (s : State) (p : Nat) : Nat := if p = 0 then 0 else Config.fifoDepth p 0 + leastDepth p - txLevel s p

/-- Entries arrive in the receive FIFO; `frame`: they end a frame (R632). -/
def rxPut (s : State) (p : Nat) (l : List Nat) (frame : Bool) : State :=
  let thr := max 1 (s.rd F.PT_THR_RX_THR p)
  let was := rxLevel s p
  let s := s.setq Q.rx (s.q Q.rx p ++ l) p
  postOpt s (s.on F.PT_CTRL_EVT_RX p && (frame || (was < thr && thr ≤ rxLevel s p))) (rxEvent p)

/-- The transmit FIFO comes to hold `l`, less than before (R632). -/
def txKeep (s : State) (p : Nat) (l : List Nat) : State :=
  let thr := max 1 (s.rd F.PT_THR_TX_THR p)
  let was := txFree s p
  let s := s.setq Q.tx l p
  postOpt s (s.on F.PT_CTRL_EVT_TX p && was < thr && thr ≤ txFree s p) (txEvent p)

/-- R626: the header word of a frame. -/
def frameHeader (len status ep : Nat) : Nat := len + status * 2 ^ 16 + ep * 2 ^ 24 + 2 ^ 31

/-- R626: the words of a frame's bytes; the last word is padded with zeros. -/
def packWords (l : List Byte) : List Nat := (List.range ((l.length + 3) / 4)).map fun k => ofBytes ((l.drop (4 * k)).take 4)

/-- The first frame of a framed FIFO, where the whole of it is there (R631): its bytes and what follows. -/
def headFrame (l : List Nat) : Option (List Byte × List Nat) :=
  match l with
  | [] => none
  | h :: r =>
    let n := h % 2 ^ 16
    let k := (n + 3) / 4
    if r.length < k then none else some (((r.take k).flatMap (toBytes 4)).take n, r.drop k)

/-! Ethernet (R640 to R646). -/

/-- A PAUSE frame of time `t` is sent (R644). -/
def ethSendPause (s : State) (t : Nat) : State := (s.bump F.ETH_TALLY1_PAUSE_SENT).wr F.ETH_PAUSE_OUT t

/-- The MAC sends PAUSE frames. -/
def ethPauses (s : State) : Bool := s.on F.ETH_CTRL_FULL_DUPLEX && s.on F.ETH_CTRL_PAUSE_TX_EN && portTx s 1

/-- ETH_PAUSE_SEND (R644): the fill, `was` before, has reached XOFF_LEVEL. -/
def ethXoff (s : State) (was : Nat) : State :=
  let l := s.rd F.ETH_FLOW_XOFF_LEVEL
  if ethPauses s && (!s.on F.ETH_XOFF || decide (was < l)) && decide (l ≤ rxLevel s 1) then
    ethSendPause (s.up F.ETH_XOFF) (s.rd F.ETH_PAUSE_PAUSE_TIME)
  else s

/-- ETH_XON_SEND (R644): the fill has fallen below XON_LEVEL. -/
def ethXon (s : State) : State :=
  if s.on F.ETH_XOFF && decide (rxLevel s 1 < s.rd F.ETH_FLOW_XON_LEVEL) then
    let s := s.down F.ETH_XOFF
    if ethPauses s then ethSendPause s 0 else s
  else s

/-- ETH_PAUSE_REPEAT (R644). -/
def ethRepeat (s : State) : State :=
  if ethPauses s && s.on F.ETH_XOFF && decide (s.rd F.ETH_FLOW_XOFF_LEVEL ≤ rxLevel s 1) then
    ethSendPause s (s.rd F.ETH_PAUSE_PAUSE_TIME)
  else s

/-- A destination address is accepted (R642). -/
def ethAccepts (s : State) (dst : List Byte) : Bool :=
  let own := toBytes 4 (s.rd F.ETH_MAC_LO_MAC) ++ toBytes 2 (s.rd F.ETH_MAC_HI_MAC)
  let bin := crc32hdlc dst / 2 ^ 26
  if s.on F.ETH_CTRL_PROMISC then true
  else if dst == own then true
  else if dst == List.replicate 6 0xFF#8 then s.on F.ETH_CTRL_BCAST_EN
  else if (dst.headD 0#8).toNat % 2 = 1 then
    (if bin < 32 then (s.rd F.ETH_HASH_LO_BINS).testBit bin else (s.rd F.ETH_HASH_HI_BINS).testBit (bin - 32))
  else false

/-- A PAUSE frame (IEEE 802.3, which R640 names). -/
def ethIsPause (l : List Byte) : Bool :=
  l.take 6 == [0x01#8, 0x80#8, 0xC2#8, 0x00#8, 0x00#8, 0x01#8] && (l.drop 12).take 4 == [0x88#8, 0x08#8, 0x00#8, 0x01#8]

/-- ETH_FRAME_RECEIVE (R642, R643): a frame with its FCS. Its length is judged before its FCS (log entry 23). -/
def ethReceive (s : State) (l : List Byte) : State :=
  if !portRx s 1 || !ethAccepts s (l.take 6) || (ethIsPause l && s.on F.ETH_CTRL_PAUSE_RX_EN) then s
  else if l.length < 64 ∨ 1522 < l.length then portError (s.bump F.ETH_TALLY2_SIZE_ERR) 1
  else
    let body := l.take (l.length - 4)
    if crc32hdlc body ≠ ofBytes (l.drop (l.length - 4)) then portError (s.bump F.ETH_TALLY0_FCS_ERR) 1
    else
      let ws := frameHeader body.length 0 0 :: packWords body
      if rxFree s 1 < 4 * ws.length then portError (s.bump F.ETH_TALLY0_RX_DROP) 1 else ethXoff (rxPut s 1 ws true) (rxLevel s 1)

/-- ETH_PAUSE_RECEIVE (R645). -/
def ethPauseReceive (s : State) (t : Nat) : State :=
  if portRx s 1 && s.on F.ETH_CTRL_FULL_DUPLEX && s.on F.ETH_CTRL_PAUSE_RX_EN then
    ((s.bump F.ETH_TALLY1_PAUSE_RCVD).wr F.ETH_PAUSE_LEFT t).wrb F.ETH_PAUSED (t != 0)
  else s

/-- ETH_PAUSE_EXPIRE (R645). -/
def ethPauseExpire (s : State) : State := (s.wr F.ETH_PAUSE_LEFT 0).down F.ETH_PAUSED

/-- The frame at the head of the transmit FIFO leaves it. -/
def ethDropHead (s : State) : State :=
  match headFrame (s.q Q.tx 1) with | some f => txKeep s 1 f.2 | none => s

/-- ETH_FRAME_TRANSMIT (R641): the frame on the wire is padded to 60 bytes and followed by its FCS. -/
def ethTransmit (s : State) : State :=
  if !portTx s 1 || s.on F.TX_ACTIVE 1 || s.on F.ETH_PAUSED then s
  else
    match headFrame (s.q Q.tx 1) with
    | none => s
    | some (l, _) =>
      if l.length < 14 ∨ 1518 < l.length then portError ((ethDropHead s).bump F.ETH_TALLY2_TX_BAD) 1
      else
        let w := l ++ List.replicate (60 - l.length) 0#8
        let w := w ++ toBytes 4 (crc32hdlc w)
        ((s.up F.TX_ACTIVE 1).wr F.TX_LEN w.length 1).setq Q.frames (w.map (·.toNat)) 1 0

/-- ETH_FRAME_SENT (R641): `collision` in half duplex. -/
def ethSent (s : State) (collision : Bool) : State :=
  if !s.on F.TX_ACTIVE 1 then s
  else
    let s := (s.down F.TX_ACTIVE 1).setq Q.frames [] 1 0
    if collision && !s.on F.ETH_CTRL_FULL_DUPLEX then
      let k := s.rd F.ETH_TRIES + 1
      if 16 ≤ k then portError (((ethDropHead s).wr F.ETH_TRIES 0).bump F.ETH_TALLY2_EXCESS) 1 else s.wr F.ETH_TRIES k
    else (ethDropHead s).wr F.ETH_TRIES 0

/-- ETH_MDIO_CMD (R646). -/
def mdioCmd (s : State) (v : Nat) : State :=
  if s.on F.ETH_MDIO_DATA_BUSY then s.up F.ETH_MDIO_DATA_MDIO_OVR else (s.wr F.MDIO_REGF v).up F.ETH_MDIO_DATA_BUSY

/-- ETH_MDIO_DONE (R646): `data` is what a read frame brought. -/
def mdioDone (s : State) (data : Nat) : State :=
  if !s.on F.ETH_MDIO_DATA_BUSY then s
  else
    let s := s.down F.ETH_MDIO_DATA_BUSY
    let s := if (s.rd F.MDIO_REGF).testBit 10 then s else s.wr F.ETH_MDIO_DATA_DATA data
    s.post 183

/-! UARTs (R647 to R651). `u` is the port number, 2 or 3. -/

/-- R648: RTS as the configuration and the fill ask (1 asserted: DEDUCED, log entry 23). -/
def uartRts (s : State) (u : Nat) : State :=
  let i := u - 2
  if !s.on F.PT_CTRL_RX_EN u then s.down F.UART_STAT_RTS i
  else if !s.on F.UART_FC_HWFC i then s.up F.UART_STAT_RTS i
  else if rxFree s u < s.rd F.UART_FC_RTS_FREE i then s.down F.UART_STAT_RTS i
  else if s.rd F.UART_FC_RTS_FREE i + 16 ≤ rxFree s u then s.up F.UART_STAT_RTS i
  else s

/-- R650: XOFF falls due when the free entries fall below XOFF_FREE, XON when they reach XOFF_FREE + 32. -/
def uartXoff (s : State) (u : Nat) : State :=
  let i := u - 2
  if !s.on F.UART_FC_SWFC_RX i then s
  else if rxFree s u < s.rd F.UART_FC_XOFF_FREE i then
    (if s.on F.UART_STAT_XOFF_SENT i then (if s.rd F.UART_XOFF_DUE i = 2 then s.wr F.UART_XOFF_DUE 0 i else s)
      else s.wr F.UART_XOFF_DUE 1 i)
  else if s.rd F.UART_FC_XOFF_FREE i + 32 ≤ rxFree s u then
    (if s.on F.UART_STAT_XOFF_SENT i then s.wr F.UART_XOFF_DUE 2 i else s.wr F.UART_XOFF_DUE 0 i)
  else s

/-- UART_CHAR_RECEIVE (R648, R650, R651). -/
def uartReceive (s : State) (u data : Nat) (framing par brk : Bool) : State :=
  let i := u - 2
  if !portRx s u then s
  else
    let data := if brk then 0 else if s.on F.UART_FMT_BITS7 i then data % 128 else data
    let par := par && s.on F.UART_FMT_PARITY i
    let plain := !framing && !par && !brk
    if s.on F.UART_FC_SWFC_TX i && plain && (data == 0x13 || data == 0x11) then s.wrb F.UART_STAT_XOFF_RX (data == 0x13) i
    else
      let s := (s.when framing (·.up F.UART_STAT_FRAMING i)).when par (·.up F.UART_STAT_PARITY i)
      let s := s.when brk (·.up F.UART_STAT_BREAK i)
      let s := if plain then s else portError s u
      if 128 ≤ (s.q Q.rx u).length then portError ((s.up F.UART_STAT_OVR i).bump F.PT_TALLY_OVR u) u
      else
        let e := data + bnat framing * 2 ^ 9 + bnat par * 2 ^ 10 + bnat brk * 2 ^ 11
        uartXoff (uartRts (rxPut s u [e] false) u) u

/-- The bits that stand for character `c` on the line, the first one lowest: a start bit, the data, the parity bit where there is one,
and one or two stop bits (R647; the order is PRESUMED, log entry 93). -/
def uartBits (s : State) (i c : Nat) : Nat :=
  let n := if s.on F.UART_FMT_BITS7 i then 7 else 8
  let p := s.rd F.UART_FMT_PARITY i
  let odd := popCount n (c % 2 ^ n) % 2
  let k := if p = 0 then n + 1 else n + 2
  2 * (c % 2 ^ n) + (if p = 0 then 0 else (if p = 1 then odd else 1 - odd) * 2 ^ (n + 1)) +
    (if s.on F.UART_FMT_STOP2 i then 3 else 1) * 2 ^ k

/-- UART_CHAR_TRANSMIT (R649, R650, R651): `cts`: CTS_N is low. XOFF and XON go ahead of the FIFO and are not stopped by a
received XOFF (log entry 23). -/
def uartTransmit (s : State) (u : Nat) (cts : Bool) : State :=
  let i := u - 2
  let s := if cUp s && domOn s (portDomain u) then s.wrb F.UART_STAT_CTS cts i else s
  if !portTx s u || s.on F.TX_ACTIVE u || (s.on F.UART_FC_HWFC i && !cts) || (u == 2 && s.on F.TS_STAT_BUSY) then s
  else
    let send (s : State) (c : Nat) : State := ((s.up F.TX_ACTIVE u).wr F.UART_SENT c i).wr F.UART_LINE (uartBits s i c) i
    match s.rd F.UART_XOFF_DUE i with
    | 1 => send ((s.wr F.UART_XOFF_DUE 0 i).up F.UART_STAT_XOFF_SENT i) 0x13
    | 2 => send ((s.wr F.UART_XOFF_DUE 0 i).down F.UART_STAT_XOFF_SENT i) 0x11
    | _ =>
      if s.on F.UART_FC_SWFC_TX i && s.on F.UART_STAT_XOFF_RX i then s
      else match s.q Q.tx u with
        | [] => s
        | c :: r => send (txKeep s u r) (if s.on F.UART_FMT_BITS7 i then c % 128 else c)

/-- UART_CHAR_SENT (R649). -/
def uartSent (s : State) (u : Nat) : State := s.down F.TX_ACTIVE u

/-! Module SPI port (R652 to R656). Its transmit FIFO is a stream of bytes in which each frame is its header word's four
bytes and its LEN bytes, without padding (log entry 23). -/

/-- The bytes a queue of small numbers stands for. -/
def byteList (l : List Nat) : List Byte := l.map (BitVec.ofNat 8)

/-- A list of bytes as a queue. -/
def numList (l : List Byte) : List Nat := l.map (·.toNat)

/-- MOD_TRANSACTION_START (R653, R655). -/
def modStart (s : State) : State :=
  let l := byteList (s.q Q.tx 4)
  let len := ofBytes (l.take 2)
  let n := pathBytes s 1
  if !portTx s 4 || s.on F.MOD_STAT_BUSY || decide (l.length < 4 + len) || decide (l.length < 4) || len == 0 || decide (508 < len) ||
      decide (rxFree s 4 < len + n + 4) then s
  else
    let s := (txKeep s 4 (numList (l.drop (4 + len)))).setq Q.frames (numList ((l.drop 4).take len)) 4 0
    let s := (s.wr F.MOD_STAGE (bnat (cxOn s 1).isSome) 0).wr F.MOD_STAGE (bnat (cxOn s 2).isSome) 1
    ((((s.up F.MOD_STAT_BUSY).wr F.MOD_LEFT (len + n)).wr F.MOD_SENT 0).wr F.MOD_PHASE 1).down F.MOD_TRUNC

/-- BURST: 0 means 512. -/
def modBurst (s : State) : Nat := let b := s.rd F.MOD_CFG_BURST; if b = 0 ∨ 512 < b then 512 else b

/-- MOD_BLOCK_START (R653): the next block is clocked. -/
def modBlock (s : State) : State :=
  if !s.on F.MOD_STAT_BUSY || s.rd F.MOD_PHASE != 1 || !portTx s 4 then s
  else
    let n := min (modBurst s) (s.rd F.MOD_LEFT)
    let s := (s.wr F.MOD_LEFT (s.rd F.MOD_LEFT - n)).wr F.MOD_SENT (s.rd F.MOD_SENT + n)
    if s.on F.MOD_LEFT then s else s.wr F.MOD_PHASE 2

/-- The transaction has ended: the bytes received become one frame (R653, R654). -/
def modDeliver (s : State) (l : List Byte) (status : Nat) : State :=
  let s := ((s.down F.MOD_STAT_BUSY).wr F.MOD_PHASE 0).setq Q.frames [] 4 0
  let s := ((s.wr F.MOD_STAGE 0 0).wr F.MOD_STAGE 0 1).setq Q.frames [] 4 1
  (rxPut s 4 (frameHeader l.length status 0 :: packWords l) true).post 188

/-- The bytes of a line, made as many as were clocked. -/
def fitBytes (n : Nat) (l : List Byte) : List Byte := l.take n ++ List.replicate (n - l.length) 0#8

/-- MOD_TRANSACTION_DONE (R653, R655, R668): `rx` is what MOD_MISO brought; a frame that a context has stripped is delivered as
the context left it. -/
def modDone (s : State) (rx : List Byte) : State :=
  let done (k : Nat) : Bool := s.rd F.MOD_STAGE k == 0 || s.rd F.MOD_STAGE k == 3
  if !s.on F.MOD_STAT_BUSY || s.rd F.MOD_PHASE != 2 || !done 0 || !done 1 then s
  else if s.rd F.MOD_STAGE 1 = 3 then
    let bad := match cxOn s 2 with | some x => s.on F.CX_SRES x | none => false
    let l := byteList (s.q Q.frames 4 1)
    if bad then modDeliver (portError (s.up F.MOD_STAT_CHECK) 4) l 1 else modDeliver s l 0
  else modDeliver s (fitBytes (s.rd F.MOD_SENT) rx) (if s.on F.MOD_TRUNC then 2 else 0)

/-- The contexts of a path leave their frame. -/
def pathLeave (s : State) (p : Nat) : State := match cxOn s p with | some x => s.down F.CX_STAT_FRAME x | none => s

/-- MOD_RDY_TIMEOUT (R654). -/
def modRdyTimeout (s : State) (rx : List Byte) : State :=
  if !s.on F.MOD_STAT_BUSY || s.rd F.MOD_PHASE != 1 || s.rd F.MOD_RDY_TMO_US == 0 then s
  else modDeliver (portError ((pathLeave (pathLeave s 1) 2).up F.MOD_STAT_RDY_TMO) 4) (fitBytes (s.rd F.MOD_SENT) rx) 2

/-- MOD_IRQ_FALL (R656). -/
def modIrqFall (s : State) : State := if portLive s 4 && phyUp s 4 then s.post 189 else s

/-! Station link (R657 to R665). STATE: 0 down, 1 hello, 2 up. -/

/-- R660: while path 3 is unbound no frame is sent. -/
def slCanSend (s : State) : Bool := portLive s 5 && phyUp s 5 && (cxOn s 3).isSome && !s.on F.TX_ACTIVE 5

/-- A frame starts: `head` and `body` are its bytes without the check (R658). -/
def slSend (s : State) (type cret seq : Nat) (body : List Byte) : State :=
  let l := [BitVec.ofNat 8 (type + 16 * cret), BitVec.ofNat 8 seq] ++ toBytes 2 body.length ++ body
  let s := ((s.up F.TX_ACTIVE 5).wr F.TX_LEN (l.length + 3) 5).setq Q.frames (numList l) 5 0
  ((s.wr F.SL_TXKIND type).wr F.SL_TXCRET cret).wr F.SL_STAGE 1 0

/-- The units that `len` bytes need (R661, R662). -/
def slUnits (len : Nat) : Nat := (len + 31) / 32

/-- Units are freed and their credits fall due (R662). -/
def slFree (s : State) (n : Nat) : State :=
  (s.wr F.SL_UNITS (min 8 (s.rd F.SL_UNITS + n))).wr F.SL_STAT_CRET_PEND (min 8 (s.rd F.SL_STAT_CRET_PEND + n))

/-- SL_DATA_SEND (R661). A queued frame whose LEN is not 1 to 128 never starts (log entry 23). -/
def slDataSend (s : State) : State :=
  if !slCanSend s || !s.on F.PT_CTRL_TX_EN 5 || s.rd F.SL_STAT_STATE != 2 then s
  else match headFrame (s.q Q.tx 5) with
    | none => s
    | some (l, r) =>
      let n := slUnits l.length
      if l.length = 0 ∨ 128 < l.length ∨ s.rd F.SL_STAT_TX_CREDITS < n then s
      else
        let cret := s.rd F.SL_STAT_CRET_PEND
        let seq := s.rd F.SL_SEQ_TX_SEQ
        let s := ((txKeep s 5 r).wr F.SL_STAT_TX_CREDITS (s.rd F.SL_STAT_TX_CREDITS - n)).wr F.SL_STAT_CRET_PEND 0
        slSend (s.wr F.SL_SEQ_TX_SEQ ((seq + 1) % 256)) 1 cret seq l

/-- SL_CREDIT_TIMEOUT (R662). -/
def slCreditTimeout (s : State) : State :=
  if !slCanSend s || !s.on F.SL_STAT_CRET_PEND || s.rd F.SL_STAT_STATE != 2 then s
  else slSend (s.wr F.SL_STAT_CRET_PEND 0) 2 (s.rd F.SL_STAT_CRET_PEND) 0 []

/-- The link comes up once a HELLO has been sent and one received (R663). -/
def slUpCheck (s : State) : State :=
  if s.on F.SL_HELLO_SENT && s.on F.SL_HELLO_RCVD && s.rd F.SL_STAT_STATE == 1 then s.wr F.SL_STAT_STATE 2 else s

/-- SL_HELLO_TIMER (R663): a HELLO carries the free units, and with them every credit that was pending. -/
def slHelloTimer (s : State) : State :=
  if !slCanSend s || s.rd F.SL_STAT_STATE != 1 then s
  else slUpCheck ((slSend (s.wr F.SL_STAT_CRET_PEND 0) 3 (s.rd F.SL_UNITS) 0 []).up F.SL_HELLO_SENT)

/-- A received frame as the check-value unit left it: its bytes without the check, and whether it mismatches. While path 4
is unbound every frame does (R660). Nothing where a bound context has not compared it yet. -/
def slFrame (s : State) (frame : List Byte) : Option (List Byte × Bool) :=
  match cxOn s 4 with
  | none => some (frame.take (frame.length - 2), true)
  | some x => if s.rd F.SL_STAGE 1 = 3 then some (byteList (s.q Q.frames 5 1), s.on F.CX_SRES x) else none

/-- The receiver has done with a frame. -/
def slRxDone (s : State) : State := (s.wr F.SL_STAGE 0 1).setq Q.frames [] 5 1

/-- TYPE, CRET, SEQ and LEN of a frame (R658). -/
def slHead (l : List Byte) : Nat × Nat × Nat × Nat :=
  let b (k : Nat) : Nat := (l.getD k 0#8).toNat
  (b 0 % 16, b 0 / 16, b 1, b 2 + 256 * b 3)

/-- R659: the header is in order and the frame is as long as it says. -/
def slHeadOk (l : List Byte) : Bool :=
  match slHead l with
  | (t, c, _, n) => c ≤ 8 && (if t = 1 then 1 ≤ n && n ≤ 128 else (t == 2 || t == 3) && n == 0) && l.length == 4 + n

/-- R661: credits returned by the partner. -/
def slCredit (s : State) (n : Nat) : State :=
  let c := s.rd F.SL_STAT_TX_CREDITS + n
  if 8 < c then portError ((s.wr F.SL_STAT_TX_CREDITS 8).bumpBy F.SL_TALLY1_CREDIT_ERR (c - 8)) 5 else s.wr F.SL_STAT_TX_CREDITS c

/-- A frame with a mismatch is discarded; the units it took are free at once (R660, R662). -/
def slMismatch (s : State) (l : List Byte) : State :=
  let s := portError (s.bump F.SL_TALLY0_CRC_ERR) 5
  let n := slUnits (slHead l).2.2.2
  if (slHead l).1 = 1 ∧ slHeadOk l ∧ n ≤ s.rd F.SL_UNITS then s.wr F.SL_STAT_CRET_PEND (min 8 (s.rd F.SL_STAT_CRET_PEND + n)) else s

/-- A received frame of type `type` that the receiver takes up acts as `f` says on its header fields and bytes. -/
def slReceive (s : State) (type : Nat) (frame : List Byte) (f : State → Nat → Nat → List Byte → State) : State :=
  if !portRx s 5 || s.rd F.SL_STAT_STATE == 0 then s
  else match slFrame s frame with
    | none => s
    | some (l, bad) =>
      if (slHead l).1 ≠ type ∨ !slHeadOk l then s
      else
        let s := slRxDone s
        if bad then slMismatch s l else f s (slHead l).2.1 (slHead l).2.2.1 l

/-- A DATA frame in order (R661, R662, R665). -/
def slData (s : State) (cret seq : Nat) (l : List Byte) : State :=
  let body := l.drop 4
  let n := slUnits body.length
  let s := slCredit s cret
  let s := if seq = s.rd F.SL_SEQ_RX_SEQ then s else portError (s.bump F.SL_TALLY0_SEQ_GAP) 5
  let s := s.wr F.SL_SEQ_RX_SEQ ((seq + 1) % 256)
  if s.rd F.SL_UNITS < n then portError (s.bump F.SL_TALLY1_RX_OVR) 5
  else rxPut (s.wr F.SL_UNITS (s.rd F.SL_UNITS - n)) 5 (frameHeader body.length 0 0 :: packWords body) true

/-- A HELLO (R663, R664). -/
def slHello (s : State) (cret _seq : Nat) (_l : List Byte) : State :=
  let s := s.wr F.SL_STAT_TX_CREDITS cret
  if s.rd F.SL_STAT_STATE = 2 then (((s.up F.SL_STAT_PEER_RST).wr F.SL_SEQ_TX_SEQ 0).wr F.SL_SEQ_RX_SEQ 0).post 191
  else slUpCheck (s.up F.SL_HELLO_RCVD)

/-- SL_HEADER_ERROR (R659). -/
def slHeaderError (s : State) : State :=
  if !portRx s 5 || s.rd F.SL_STAT_STATE == 0 then s
  else portError ((slRxDone (pathLeave s 4)).bump F.SL_TALLY1_HDR_ERR) 5

/-- SL_LINK_TIMEOUT (R665): the frame being received is discarded and HELLO resumes. -/
def slLinkTimeout (s : State) : State :=
  if !portLive s 5 || s.rd F.SL_STAT_STATE != 2 then s
  else
    let s := slRxDone (pathLeave s 4)
    (((s.wr F.SL_STAT_STATE 1).down F.SL_HELLO_SENT).down F.SL_HELLO_RCVD).post 191

/-- EN of the station link has changed (R663). -/
def slEnChanged (s : State) (was : Bool) : State :=
  let now := s.on F.PT_CTRL_EN 5
  if now == was then s
  else ((s.wr F.SL_STAT_STATE (bnat now)).down F.SL_HELLO_SENT).down F.SL_HELLO_RCVD

/-- Payload of the frame at the head of the link's FIFO has been popped: a unit is freed for every 32 bytes and at its end
(R662). `w` is the word popped. -/
def slPopped (s : State) (w : Nat) : State :=
  let k := s.rd F.SL_POS
  if k = 0 then (if w % 2 ^ 16 = 0 then s else (s.wr F.SL_HEAD (w % 2 ^ 16)).wr F.SL_POS 1)
  else
    let last := decide (s.rd F.SL_HEAD ≤ 4 * k)
    let s := if last || k % 8 == 0 then slFree s 1 else s
    s.wr F.SL_POS (if last then 0 else k + 1)

/-! USB device (R633 to R638). Endpoint 8 stands for EP0 IN. -/

/-- The largest packet of an endpoint (R633): MAXPKT, within what its kind and the speed allow. -/
def usbMax (s : State) (e : Nat) : Nat :=
  if e = 0 ∨ e = 8 then 64
  else min (s.rd F.USB_EPCFG_MAXPKT 0 (e - 1))
    (if !s.on F.USB_STAT_HS then 64 else if s.on F.USB_EPCFG_INTR 0 (e - 1) then 1024 else 512)

/-- The packet buffers of an endpoint (R634). -/
def usbBuffers (s : State) (e : Nat) : Nat := if e = 0 ∨ e = 8 then 1 else s.rd F.USB_EPCFG_DOUBLE 0 (e - 1) + 1

/-- The endpoint exists in the direction asked for. -/
def usbOpen (s : State) (e : Nat) (isIn : Bool) : Bool :=
  if e = 8 then isIn else if e = 0 then !isIn
  else s.on F.USB_EPCFG_EN 0 (e - 1) && s.on F.USB_EPCFG_IN 0 (e - 1) == isIn

/-- Whole packets an endpoint holds. -/
def usbFull (s : State) (e : Nat) : Nat := (s.q Q.usb e 1).length

/-- A packet as one number: its header word and its bytes. -/
def usbPacket (l : List Byte) (status ep : Nat) : Nat := frameHeader l.length status ep + 2 ^ 32 * ofBytes l

/-- The IN endpoint's filled bytes become a whole packet (R635). -/
def usbClose (s : State) (e n : Nat) : State :=
  let l := s.q Q.usb e 0
  (s.setq Q.usb (s.q Q.usb e 1 ++ [usbPacket (byteList (l.take n)) 0 (e % 8)]) e 1).setq Q.usb (l.drop n) e 0

/-- R627, R628, R635: a word is pushed to IN endpoint `e`: a frame's header word, or its next four bytes. The end of a frame
is what marks the end of its packet (log entry 23). -/
def usbPush (s : State) (e w : Nat) : State :=
  let left := s.rd F.USB_LEFT e
  if left = 0 then (if w % 2 ^ 16 = 0 then usbClose s e 0 else s.wr F.USB_LEFT (w % 2 ^ 16) e)
  else
    let n := min 4 left
    let s := (s.setq Q.usb (s.q Q.usb e 0 ++ numList (toBytes n w)) e 0).wr F.USB_LEFT (left - n) e
    let s := if usbMax s e ≤ (s.q Q.usb e 0).length then usbClose s e (usbMax s e) else s
    if !s.on F.USB_LEFT e && (s.q Q.usb e 0) != [] then usbClose s e (usbMax s e) else s

/-- The IN endpoint that a push or stream names. -/
def usbInOf (ep : Nat) : Nat := if ep % 8 = 0 then 8 else ep % 8

/-- A push to endpoint `e` finds room. -/
def usbRoom (s : State) (e : Nat) : Bool := usbOpen s e true && decide (usbFull s e < usbBuffers s e)

/-- USB_POP_n (R630): the next word of OUT endpoint `e`. -/
def usbPop (s : State) (e : Nat) : Nat × State :=
  match s.q Q.usb e 1 with
  | [] => (0, s)
  | pk :: r =>
    let k := s.rd F.USB_POS e
    let w := pk / 2 ^ (32 * k) % 2 ^ 32
    let words := 1 + (pk % 2 ^ 16 + 3) / 4
    (w, if words ≤ k + 1 then (s.setq Q.usb r e 1).wr F.USB_POS 0 e else s.wr F.USB_POS (k + 1) e)

/-- R637: the pull-up is applied. -/
def usbPullup (s : State) : Bool :=
  portLive s 0 && phyUp s 0 && s.on F.USB_STAT_VBUS && s.on F.USB_CTRL_CONNECT && (s.rd F.PTM_CLKSTAT_GRANT).testBit 1

/-- A token for this device at `addr` reaches it. -/
def usbHears (s : State) (addr : Nat) : Bool := usbPullup s && addr == s.rd F.USB_ADDR_ACT

/-- A handshake: 1 ACK, 2 NAK, 3 NYET, 4 STALL, 5 data. -/
def usbAnswer (s : State) (a : Nat) : State := s.wr F.USB_ANSWER a

/-- NAK, counted on the endpoint. -/
def usbNak (s : State) (e : Nat) : State := usbAnswer (s.bump F.USB_EPSTAT_NAKS 0 (e % 8)) 2

/-- R637: the status stage of a control transfer is over. -/
def usbStatusStage (s : State) : State :=
  if s.on F.USB_ADDR_PEND then (s.wr F.USB_ADDR_ACT (s.rd F.USB_ADDR_NEXT)).down F.USB_ADDR_PEND else s

/-- The event of an OUT packet (EV178). -/
def usbRxEvent (s : State) : State := s.postIf (s.on F.PT_CTRL_EVT_RX 0) 178

/-- A buffer of the endpoint is free for a whole packet. -/
def usbBufFree (s : State) (e : Nat) : Bool := s.on F.PT_CTRL_RX_EN 0 && decide (usbFull s e < usbBuffers s e)

/-- USB_OUT_TOKEN (R635, R636): an OUT with its data and toggle, or a PING. -/
def usbOut (s : State) (addr e : Nat) (ping : Bool) (toggle : Nat) (l : List Byte) : State :=
  if !usbHears s addr || !usbOpen s e false then s
  else if s.on F.USB_EPSTAT_STALL 0 e then usbAnswer s 4
  else if ping then (if usbBufFree s e then usbAnswer s 1 else usbNak s e)
  else if usbMax s e < l.length then s
  else if toggle ≠ s.rd F.USB_EPSTAT_TOGGLE 0 e then usbAnswer (s.bump F.USB_TALLY_TOGGLE_DUP) 1
  else if usbBufFree s e then
    let s := s.setq Q.usb (s.q Q.usb e 1 ++ [usbPacket l 0 e]) e 1
    let s := s.wr F.USB_EPSTAT_TOGGLE ((toggle + 1) % 2) 0 e
    let s := if e = 0 ∧ l = [] then usbStatusStage s else s
    let intr := e != 0 && s.on F.USB_EPCFG_INTR 0 (e - 1)
    usbRxEvent (usbAnswer s (if s.on F.USB_STAT_HS && !intr && !usbBufFree s e then 3 else 1))
  else usbNak s e

/-- USB_IN_TOKEN (R635): `acked`: the host acknowledges the packet. -/
def usbIn (s : State) (addr ep : Nat) (acked : Bool) : State :=
  let e := usbInOf ep
  if !usbHears s addr || !usbOpen s e true then s
  else if s.on F.USB_EPSTAT_STALL 0 (e % 8) then usbAnswer s 4
  else match (if s.on F.PT_CTRL_TX_EN 0 then s.q Q.usb e 1 else []) with
    | [] => usbNak s e
    | pk :: r =>
      let s := usbAnswer s 5
      if !acked then s
      else
        let s := s.setq Q.usb r e 1
        let s := if e = 8 then s.wr F.USB_IN_TGL ((s.rd F.USB_IN_TGL + 1) % 2)
          else s.wr F.USB_EPSTAT_TOGGLE ((s.rd F.USB_EPSTAT_TOGGLE 0 e + 1) % 2) 0 e
        let s := if e = 8 ∧ pk % 2 ^ 16 = 0 then usbStatusStage s else s
        s.postIf (s.on F.PT_CTRL_EVT_TX 0) 179

/-- Every packet of an endpoint goes. -/
def usbFlush (s : State) (e : Nat) : State :=
  (((s.setq Q.usb [] e 0).setq Q.usb [] e 1).wr F.USB_POS 0 e).wr F.USB_LEFT 0 e

/-! The recovery port of the boot ROM (R82, R639, R746). -/

/-- The ROM offers a port for recovery: a strap names one alone (R70, R82, R83, R746). -/
def recoveryOffers (s : State) (usb : Bool) : Bool :=
  let strapped := s.rd F.SU_TIER_CAUSE == 8
  s.on F.REC_MODE && cUp s &&
    (if usb then (!strapped || s.rd F.SU_TIER_BOOT_STRAP == 2) && s.on F.HSXO_ON && s.on F.USB_STAT_VBUS && s.on F.USB_EN
      else !strapped || s.rd F.SU_TIER_BOOT_STRAP == 1)

/-- The largest packet of its bulk endpoints (R639). -/
def recoveryMax (s : State) : Nat := if s.on F.USB_STAT_HS then 512 else 64

/-- Its device descriptor (R639; the layout is that of USB 2.0, log entry 88): vendor 0x3C1D, product 0x9640, bcdDevice, class 0xFF, and
EP0's 64 bytes (R633). `x` gives the bytes that no rule states. -/
def recoveryDevice (x : Nat) : List Byte :=
  [18#8, 1#8] ++ toBytes 2 0x200 ++ [0xFF#8] ++ toBytes 2 x ++ [64#8] ++ toBytes 2 0x3C1D ++ toBytes 2 0x9640 ++
    toBytes 2 Config.bootRomVer.toNat ++ toBytes 3 (x / 2 ^ 16) ++ [1#8]

/-- Its configuration: one interface with the bulk endpoints EP1 OUT and EP2 IN, of `n` bytes. -/
def recoveryConfig (n x : Nat) : List Byte :=
  let ep (a : Nat) (i : Nat) : List Byte := [7#8, 5#8, BitVec.ofNat 8 a, 2#8] ++ toBytes 2 n ++ toBytes 1 i
  [9#8, 2#8, 32#8, 0#8, 1#8] ++ toBytes 4 x ++ [9#8, 4#8, 0#8, 0#8, 2#8] ++ toBytes 4 (x / 2 ^ 32) ++ ep 1 (x / 2 ^ 64) ++
    ep 0x82 (x / 2 ^ 72)

/-- One of its endpoints, at buffer unit `base` (DESIGN CHOICE: log entry 88). -/
def recoveryEndpoint (s : State) (e base : Nat) (isIn : Bool) : State :=
  let s := (((s.up F.USB_EPCFG_EN 0 (e - 1)).wrb F.USB_EPCFG_IN isIn 0 (e - 1)).down F.USB_EPCFG_INTR 0 (e - 1)).down F.USB_EPCFG_DOUBLE
    0 (e - 1)
  (s.wr F.USB_EPCFG_BASE base 0 (e - 1)).wr F.USB_EPCFG_MAXPKT (recoveryMax s) 0 (e - 1)

/-- The two endpoints, as the speed asks for. -/
def recoveryEndpoints (s : State) : State :=
  if recoveryOffers s true then recoveryEndpoint (recoveryEndpoint s 1 2 false) 2 10 true else s

/-- The ROM puts the port on the bus where it offers it: it requests the USB PLL (R746), enables the controller and connects. -/
def recoveryConnect (s : State) : State :=
  if recoveryOffers s true then
    let s := clockRequest s 1 (portDomain 0)
    recoveryEndpoints ((((s.up F.PT_CTRL_EN 0).up F.PT_CTRL_RX_EN 0).up F.PT_CTRL_TX_EN 0).up F.USB_CTRL_CONNECT)
  else s

/-- The ROM's answer to a standard request `l`: a descriptor, cut to what the host asked for, else an empty packet for a request
that brings no data; the address the host gives is taken (R637). -/
def recoverySetup (s : State) (l : List Byte) : State :=
  let b (k : Nat) : Nat := (l.getD k 0#8).toNat
  let put (s : State) (d : List Byte) : State := (s.setq Q.usb [] 0 1).setq Q.usb [usbPacket (d.take (b 6 + 256 * b 7)) 0 0] 8 1
  if b 0 = 0x80 ∧ b 1 = 6 ∧ b 3 = 1 then put s.drew (recoveryDevice (s.freeBits 40))
  else if b 0 = 0x80 ∧ b 1 = 6 ∧ b 3 = 2 then put s.drew (recoveryConfig (recoveryMax s) (s.freeBits 80))
  else if b 0 = 0 ∧ b 1 = 5 then put (((s.wr F.USB_ADDR_ADDR (b 2)).wr F.USB_ADDR_NEXT (b 2)).up F.USB_ADDR_PEND) []
  else if b 0 / 128 = 0 ∧ b 6 + b 7 = 0 then put s []
  else s

/-- Bytes of the ROM go out on the bulk IN endpoint, where its buffer is free. -/
def recoverySend (s : State) (l : List Byte) : State :=
  if usbRoom s 2 then s.setq Q.usb (s.q Q.usb 2 1 ++ [usbPacket l 0 2]) 2 1 else s

/-- USB_SETUP (R636, R639). After it both directions of EP0 expect DATA1 (PRESUMED: USB 2.0, log entry 23). Standard requests are
answered by firmware, by the ROM while it offers the port. -/
def usbSetup (s : State) (addr : Nat) (l : List Byte) : State :=
  if !usbHears s addr then s
  else
    let s := usbFlush (usbFlush s 0) 8
    let s := s.setq Q.usb [usbPacket l 3 0] 0 1
    let s := (s.wr F.USB_EPSTAT_TOGGLE 1 0 0).wr F.USB_IN_TGL 1
    let s := usbRxEvent (usbAnswer s 1)
    if recoveryOffers s true then recoverySetup s l else s

/-- USB_VBUS_RISE (R82, R637). -/
def usbVbusRise (s : State) : State :=
  if phyUp s 0 && cUp s && domOn s 121 then recoveryConnect (s.up F.USB_STAT_VBUS) else s

/-- USB_VBUS_FALL (R637). -/
def usbVbusFall (s : State) : State :=
  if s.on F.USB_STAT_VBUS then ((s.down F.USB_STAT_VBUS).each (List.range 9) usbFlush).post 180 else s

/-- USB_BUS_RESET (R637): `hs`: the host and the device agree on high speed. -/
def usbBusReset (s : State) (hs : Bool) : State :=
  if !usbPullup s then s
  else
    let s := (((s.wr F.USB_ADDR_ADDR 0).wr F.USB_ADDR_NEXT 0).wr F.USB_ADDR_ACT 0).down F.USB_ADDR_PEND
    let s := (s.each (List.range 8) fun s e => s.wr F.USB_EPSTAT_TOGGLE 0 0 e).wr F.USB_IN_TGL 0
    let s := (s.up F.USB_STAT_BUS_RESET).down F.USB_STAT_SUSPENDED
    recoveryEndpoints ((s.wrb F.USB_STAT_HS (hs && s.on F.USB_CTRL_HS_EN)).post 180)

/-- USB_SUSPEND (R638). -/
def usbSuspend (s : State) : State :=
  if usbPullup s && !s.on F.USB_STAT_SUSPENDED then (s.up F.USB_STAT_SUSPENDED).post 180 else s

/-- USB_RESUME (R638). -/
def usbResume (s : State) : State := if usbPullup s then s.down F.USB_STAT_SUSPENDED else s

/-- USB_RWAKE (R638). -/
def usbRwake (s : State) : State := if s.on F.USB_STAT_SUSPENDED then s.up F.USB_RWAKING else s

/-- A write of USB_ADDR (R637). -/
def usbAddrWritten (s : State) : State := (s.wr F.USB_ADDR_NEXT (s.rd F.USB_ADDR_ADDR)).up F.USB_ADDR_PEND

/-- The units from BASE that a configuration word claims (R634). -/
def usbUnits (v : Nat) : Nat × Nat := (bits v 9 4, (bits v 3 3 + 1) * ((bits v 26 16 + 63) / 64))

/-- The configuration word of endpoint `e` as it stands. -/
def usbCfg (s : State) (e : Nat) : Nat :=
  let r (f : Fld) : Nat := s.rd f 0 (e - 1)
  r F.USB_EPCFG_EN + 2 * r F.USB_EPCFG_IN + 4 * r F.USB_EPCFG_INTR + 8 * r F.USB_EPCFG_DOUBLE + 16 * r F.USB_EPCFG_BASE +
    2 ^ 16 * r F.USB_EPCFG_MAXPKT

/-- R634: a write of `v` to USB_EPCFG of endpoint `e` is refused. -/
def usbCfgRefused (s : State) (e v : Nat) : Bool :=
  let meets (a b : Nat × Nat) : Bool := decide (a.1 < b.1 + b.2) && decide (b.1 < a.1 + a.2)
  let u := usbUnits v
  (s.on F.USB_EPCFG_EN 0 (e - 1) && v.testBit 0) || meets u (0, 2) ||
    (List.range 8).any fun k => k != 0 && k != e && s.on F.USB_EPCFG_EN 0 (k - 1) && meets u (usbUnits (usbCfg s k))

/-! The FIFO registers (R627 to R630). -/

/-- R629: a push of `n` bytes to port `p` (USB: endpoint `ep`) finds room. -/
def pushRoom (s : State) (p n ep : Nat) : Bool :=
  if p = 0 then usbRoom s (usbInOf ep) else decide ((if isUart p ∨ p = 4 then n else 4) ≤ txFree s p)

/-- R627: the port takes a push of `n` bytes. -/
def pushSizeOk (p n : Nat) : Bool := isUart p || p == 4 || n == 4

/-- The bytes, or the word, are appended. -/
def pushApply (s : State) (p data n ep : Nat) : State :=
  if p = 0 then usbPush s (usbInOf ep) data
  else if isUart p ∨ p = 4 then s.setq Q.tx (s.q Q.tx p ++ numList (toBytes n data)) p
  else s.setq Q.tx (s.q Q.tx p ++ [data % 2 ^ 32]) p

/-- PT_RX_POP (R630): the entry, and the state without it. -/
def rxPop (s : State) (p : Nat) : Nat × State :=
  match s.q Q.rx p with
  | [] => (0, s)
  | w :: r =>
    let s := s.setq Q.rx r p
    match p with
    | 1 => (w, ethXon s)
    | 5 => (w, slPopped s w)
    | _ => if isUart p then (w + 256, uartXoff (uartRts s p) p) else (w, s)

/-- R632: the port asks for a chunk: `src` is its REQ_SRC code. -/
def portAsks (s : State) (src : Nat) : Bool :=
  let rx (p : Nat) : Bool := portLive s p && s.on F.PT_CTRL_DMA_RX p && decide (max 1 (s.rd F.PT_THR_RX_THR p) ≤ rxLevel s p)
  let tx (p : Nat) : Bool := portLive s p && s.on F.PT_CTRL_DMA_TX p && decide (max 1 (s.rd F.PT_THR_TX_THR p) ≤ txFree s p)
  let ep (e : Nat) : Bool := portLive s 0 &&
    if usbOpen s (usbInOf e) true then s.on F.PT_CTRL_DMA_TX 0 && usbRoom s (usbInOf e)
    else s.on F.PT_CTRL_DMA_RX 0 && usbOpen s e false && decide (0 < usbFull s e)
  match src with
  | 16 => rx 1 | 17 => tx 1 | 18 => rx 2 | 19 => tx 2 | 20 => rx 3 | 21 => tx 3 | 22 => rx 4 | 23 => tx 4 | 24 => rx 5
  | 25 => tx 5 | 26 => ep (s.rd F.USB_DMASEL_SEL0 % 8) | 27 => ep (s.rd F.USB_DMASEL_SEL1 % 8)
  | 28 => ep (s.rd F.USB_DMASEL_SEL2 % 8) | 29 => ep (s.rd F.USB_DMASEL_SEL3 % 8)
  | _ => false

/-! The check-value unit's part in a frame (R616, R617). -/

/-- CX_FRAME_START on path `p`: the port has begun a frame, or, on path 4, a frame arrives. -/
def pathFrameStart (s : State) (p : Nat) : State :=
  match cxOn s p with
  | none => s
  | some x =>
    match p with
    | 1 => if s.rd F.MOD_STAGE 0 = 1 then cxFrameStart (s.wr F.MOD_STAGE 2 0) x else s
    | 2 => if s.rd F.MOD_STAGE 1 = 1 then cxFrameStart (s.wr F.MOD_STAGE 2 1) x else s
    | 3 => if s.rd F.SL_STAGE 0 = 1 then cxFrameStart (s.wr F.SL_STAGE 2 0) x else s
    | _ => if portRx s 5 ∧ s.rd F.SL_STAT_STATE ≠ 0 then cxFrameStart (s.wr F.SL_STAGE 2 1) x else s

/-- The station link has sent its frame. -/
def slSent (s : State) : State := ((s.down F.TX_ACTIVE 5).setq Q.frames [] 5 0).wr F.SL_STAGE 0 0

/-- CX_APPEND on path `p` (1 or 3). -/
def pathAppend (s : State) (p : Nat) : State :=
  match cxOn s p with
  | none => s
  | some x =>
    if p = 1 then
      let l := byteList (s.q Q.frames 4 0)
      if s.rd F.MOD_STAGE 0 = 2 ∧ l.length ≤ s.rd F.MOD_SENT then (cxAppend s x l).wr F.MOD_STAGE 3 0 else s
    else if s.rd F.SL_STAGE 0 = 2 then slSent (cxAppend s x (byteList (s.q Q.frames 5 0))) else s

/-- CX_STRIP on path `p` (2 or 4) of the covered bytes that the line brought. On the station link the SYNC byte is not
among them. -/
def pathStrip (s : State) (p : Nat) (l : List Byte) : State :=
  match cxOn s p with
  | none => s
  | some x =>
    if p = 2 then
      if s.rd F.MOD_STAGE 1 = 2 ∧ s.rd F.MOD_PHASE = 2 then
        let r := cxStrip s x (fitBytes (s.rd F.MOD_SENT) l)
        (r.1.wr F.MOD_STAGE 3 1).setq Q.frames (numList r.2) 4 1
      else s
    else if s.rd F.SL_STAGE 1 = 2 then
      let r := cxStrip s x l
      (r.1.wr F.SL_STAGE 3 1).setq Q.frames (numList r.2) 5 1
    else s

/-! Drains (R623, R667, R668). -/

/-- R623, R668: the check-value unit begins to drain. -/
def cxDrain (s : State) : State :=
  let s := s.each (List.range 16) fun s x => ((s.down F.CX_PASS x).down F.CX_STAT_BUSY x).down F.CX_STAT_FRAME x
  let s := if s.rd F.SL_STAGE 0 = 1 ∨ s.rd F.SL_STAGE 0 = 2 then slSent s else s
  let s := if s.rd F.SL_STAGE 1 ≠ 0 then slRxDone s else s
  let n := s.rd F.MOD_LEFT + s.rd F.MOD_SENT - (s.q Q.frames 4 0).length
  let s := if s.rd F.MOD_STAGE 0 = 1 ∨ s.rd F.MOD_STAGE 0 = 2 then
      let left := s.rd F.MOD_LEFT - n
      (s.wr F.MOD_LEFT left).wr F.MOD_PHASE (if left = 0 then 2 else 1)
    else s
  let s := s.wr F.MOD_STAGE 0 0
  if s.rd F.MOD_STAGE 1 = 1 ∨ s.rd F.MOD_STAGE 1 = 2 then (s.up F.MOD_TRUNC).wr F.MOD_STAGE 0 1 else s

/-- R667: the controller of port `p` begins to drain. -/
def portDrain (s : State) (p : Nat) : State :=
  let s := (((s.setq Q.tx [] p).setq Q.rx [] p).setq Q.frames [] p 0).setq Q.frames [] p 1
  let s := s.down F.TX_ACTIVE p
  match p with
  | 0 => s.each (List.range 9) usbFlush
  | 4 => (((((pathLeave (pathLeave s 1) 2).down F.MOD_STAT_BUSY).wr F.MOD_PHASE 0).wr F.MOD_STAGE 0 0).wr F.MOD_STAGE 0 1)
  | 5 => (((((pathLeave (pathLeave s 3) 4).wr F.SL_STAGE 0 0).wr F.SL_STAGE 0 1).wr F.SL_POS 0).wr F.SL_UNITS 8).up F.SL_ABORTED
  | _ => s

end Sys2Proof.Machine
end

