-- ==== Sys2Proof/Machine/Debug.lean ====
section
/-!
DEFINITION. Debug and test (20_debug_and_test.md): the lock state, the TAP, authentication, halting and stepping. The
requests of the debug access port are in Sys2Proof/Machine/DebugRows.lean. Lock states: 0 OPEN, 1 LOCKED, 3 SEALED.
-/
namespace Sys2Proof.Machine

/-- The lock state. -/
def lockState (s : State) : Nat := s.rd F.TST_LOCK_STATE

/-- The part is OPEN. -/
def isOpen (s : State) : Bool := lockState s == 0

/-! The TAP (R698 to R701). -/

/-- R698: instruction `ir` is allowed now. -/
def tapAllowed (s : State) (ir : Nat) : Bool :=
  let test := s.on F.TST_STAT_TESTMODE
  match ir with
  | 0 => isOpen s || test
  | 3 => isOpen s || test
  | 4 => isOpen s || test
  | 8 => isOpen s && !test
  | 9 => lockState s == 1
  | 0xA => isOpen s
  | _ => true

/-- An instruction is selected, or BYPASS in its place; what the cells do to the balls follows it. The instruction register captures
0b00001 before it is shifted. -/
def tapSelect (s : State) (ir : Nat) : State :=
  let s := s.wr F.TAP_CAP 1
  if tapAllowed s ir then
    (s.wr F.TAP_IR ir).wr F.BSR_DRIVE (match ir with | 0 => 1 | 3 => 1 | 4 => 2 | _ => 0)
  else (s.wr F.TAP_IR 0x1F).wr F.BSR_DRIVE 0

/-- R699. -/
def idcode : Nat := 0x19640D6B

/-- A TAP reset (R698): IDCODE is selected. -/
def tapReset (s : State) : State := (s.wr F.TAP_IR 2).wr F.BSR_DRIVE 0

/-- Capture-DR of DBG_ACC (R702). -/
def accCapture (s : State) : Nat := s.rd F.ACC_RDATA + s.rd F.ACC_RCODE * 2 ^ 64 + s.rd F.ACC_BUSY * 2 ^ 67

/-- Update-DR of DBG_ACC (R702): the request is opened. -/
def accGo (s : State) (dr : Nat) : State :=
  if s.rd F.TAP_IR ≠ 8 ∨ !tapAllowed s 8 ∨ s.on F.ACC_BUSY ∨ !dr.testBit 98 then s
  else
    let s := ((s.up F.ACC_BUSY).wr F.ACC_ADDR (bits dr 95 64)).wrb F.ACC_WRITE (dr.testBit 96)
    (s.wrb F.ACC_WIDE (dr.testBit 97)).wr F.ACC_DATA (if dr.testBit 97 then bits dr 63 0 else bits dr 31 0)

/-! Authentication (R713, R714). Status: 0 ready, 1 verifying, 2 accepted, 3 refused, 4 waiting. -/

/-- Capture-DR of DBG_AUTH. -/
def authCapture (s : State) : Nat := s.rd F.AUTH_CHAL + s.rd F.AUTH_STATUS * 2 ^ 128

/-- TAP_DBG_AUTH (R713): a fresh challenge is drawn, but for the second after a refusal, while an attempt is being verified,
or while the crypto engine is away. Where it is not allowed it acts as BYPASS, whose bit captures 0. -/
def authSelect (s : State) : State :=
  let s := tapSelect s 9
  if s.rd F.TAP_IR ≠ 9 then s.wr F.TAP_DR 0
  else
    let s := if s.rd F.AUTH_STATUS = 4 ∨ s.rd F.AUTH_STATUS = 1 ∨ !crAlive s then s
      else (((s.wr F.AUTH_CHAL (s.freeBits 128)).drew).up F.AUTH_READY).wr F.AUTH_STATUS 0
    s.wr F.TAP_DR (authCapture s)

/-- DBG_AUTH_SUBMIT (R713 step 3): bits [519:0]. A descriptor of 0 makes no attempt; each challenge serves one. -/
def authSubmit (s : State) (dr : Nat) : State :=
  if s.rd F.TAP_IR ≠ 9 ∨ lockState s ≠ 1 ∨ !s.on F.AUTH_READY ∨ bits dr 519 512 = 0 then s
  else ((s.wr F.AUTH_SIG dr).down F.AUTH_READY).wr F.AUTH_STATUS 1

/-- The digest that the signature covers (R713 step 4). -/
def authDigest (s : State) : Nat :=
  sha256 ([0x50#8, 0x4B#8, 0x44#8, 0x42#8] ++ toBytes 16 (s.rd F.AUTH_CHAL) ++ stackIdBytes s)

/-- The submitted signature is valid (R713, R714). -/
def authValid (s : State) : Bool :=
  let v := s.rd F.AUTH_SIG
  let desc := bits v 519 512
  let r := ofBytesBE (toBytes 32 v)
  let sg := ofBytesBE (toBytes 32 (v / 2 ^ 256))
  decide (0x10 ≤ desc) && mUp s && (sigEpoch s desc (authDigest s) r sg).isSome

/-- DBG_AUTH_VERIFIED (R713, R714). -/
def authVerified (s : State) : State :=
  if s.rd F.AUTH_STATUS ≠ 1 then s
  else if authValid s then (s.wr F.AUTH_STATUS 2).wr F.TST_LOCK_STATE 0
  else (s.wr F.AUTH_STATUS 4).bump F.TST_STAT_AUTH_FAIL

/-- DBG_AUTH_LOCKOUT_END (R714). -/
def authLockoutEnd (s : State) : State := if s.rd F.AUTH_STATUS = 4 then s.wr F.AUTH_STATUS 3 else s

/-! Lock (R712). -/

/-- TST_LOCK (R712). -/
def lockWrite (s : State) : State := if isOpen s then s.wr F.TST_LOCK_STATE 1 else s

/-- TST_FUSE_PROG (R712). -/
def fuseProg (s : State) (v : Nat) : State :=
  if isOpen s then
    let f := (s.rd F.FUSE_DBG ||| v) % 4
    (s.wr F.FUSE_DBG f).wr F.TST_FUSE_DBG_FUSE f
  else s

/-! Halting and stepping (R703 to R707). -/

/-- The threads a pair of mask registers names: bit `k` of word `w` is thread 32 w + k. -/
def namedThreads (w m : Nat) : List Nat := (onesOf m (if w = 0 then 32 else 8)).map (32 * w + ·)

/-- DBG_HALT (R703). -/
def dbgHalt (s : State) (w m : Nat) : State :=
  s.each (namedThreads w m) fun s t => if s.on F.HALTED t then s else (s.up F.HALT_REQ t).wr F.HREASON 1 t

/-- DBG_HALTED (R703, R706, R575): the thread has nothing issued, on both copies in lock-step at the same boundary. -/
def dbgHalted (s : State) (t : Nat) : State :=
  let l := copiesOf s t
  if !s.on F.HALT_REQ t || s.on F.SAVE_FOR t || l.any (fun u => s.on F.LD_PEND u || s.on F.DIV_PEND u || s.on F.SYNCING u) ||
      (32 ≤ t && (s.rd F.SP_STAT_MODE == 3 || (pairMode s == 0 && s.rd F.PC (t + 8) != s.rd F.PC t))) then s
  else (s.down F.HALT_REQ t).up F.HALTED t

/-- DBG_RESUME (R707). -/
def dbgResume (s : State) (w m : Nat) : State := s.each (namedThreads w m) fun s t => s.down F.HALTED t

/-- DBG_STEP (R707). -/
def dbgStep (s : State) (w m : Nat) : State :=
  s.each (namedThreads w m) fun s t => if s.on F.HALTED t then (s.down F.HALTED t).up F.STEPPING t else s

/-- BRK (R708). -/
def brk (s : State) (u num : Nat) : State :=
  if s.on F.DBG_CTRL_BRK_HALT && isOpen s then
    if isChecker s u then s else (((s.up F.HALT_REQ (globOf u)).wr F.HREASON 3 (globOf u)).wr F.HNUM num (globOf u))
  else raise s u 0xD num 0

/-- The halted threads among 32 w and on, as a mask. -/
def haltedMask (s : State) (w : Nat) : Nat := maskOf (if w = 0 then 32 else 8) fun k => s.on F.HALTED (32 * w + k)

/-- The selected thread. -/
def dbgSel (s : State) : Nat := s.rd F.DBG_SEL_SEL

/-- The selected thread is halted (R709); there are no threads from 40 on. -/
def selHalted (s : State) : Bool := decide (dbgSel s < 40) && s.on F.HALTED (dbgSel s)

/-- A write of the debug logic to the selected thread (R709, R575): in lock-step it goes to SP-M and into the replay log. -/
def dbgWriteThread (s : State) (kind v : Nat) : State :=
  let t := dbgSel s
  let s := debugWrite s (mainOf s t) kind v
  if 32 ≤ t ∧ s.rd F.SP_STAT_MODE = 0 then s.pushq Q.replay (replayEntry (t - 32) kind v) else s

/-- R575: the replay log has no room for a write to the selected thread. -/
def replayFull (s : State) : Bool := 32 ≤ dbgSel s && s.rd F.SP_STAT_MODE == 0 && decide (16 ≤ (s.q Q.replay).length)

end Sys2Proof.Machine
end

