-- ==== Sys2Proof/Machine/Pins.lean ====
section
/-!
DEFINITION. The balls (06_balls_and_signals.md): what each output carries, as a function of the state, and the boundary-scan
chain (R700). A ball has a number: those of PINMAP their index (R111), the others as the lists below give.
-/
namespace Sys2Proof.Machine

/-- What an output ball carries: a level, high impedance, or the running signal of a line or route whose momentary level the
model does not follow. -/
inductive Pad where
  | low | high | hiz | moving
deriving DecidableEq, Repr

/-- A level as a pad. -/
def padOf (b : Bool) : Pad := if b then .high else .low

/-- The balls of one type R227 gives. -/
inductive BallType where
  | analog | input | output | both
deriving DecidableEq, Repr

/-- The type of a ball. 128 WAKE0, 129 WAKE1, 130 MOD_IRQ, 131 MOD_RDY, 140 to 143 the crystal balls, 144 MOD_SCK, 145 MOD_MOSI,
146 MOD_MISO, 147 MOD_CS_N, 148 SL_TXC, 149 SL_TXD, 150 SL_RXC, 151 SL_RXD, 152 MDC, 153 MDIO, 154 RMII_REFCLK, 155
RMII_CRSDV, 156 and 157 RMII_RXD0 and 1, 158 RMII_RXER, 159 RMII_TXEN, 160 and 161 RMII_TXD0 and 1, 162 RESET_N, 163 PWR_EN,
164 REPLACE_N, 165 FAULT_N, 166 to 169 UART0 TX, RX, RTS_N and CTS_N, 170 BOOT0, 171 BOOT1, 172 TEST_EN, 174 to 177 UART1's,
178 USB_DP, 179 USB_DM, 180 USB_VBUS, 181 USB_RREF, from 200 the balls of the analog bank. -/
def ballType (b : Nat) : BallType :=
  if b < 24 ∨ b = 153 ∨ b = 154 ∨ b = 178 ∨ b = 179 then .both
  else if 200 ≤ b ∨ (140 ≤ b ∧ b ≤ 143) ∨ b = 181 then .analog
  else if (64 ≤ b ∧ b < 108) ∨ [144, 145, 147, 148, 149, 152, 159, 160, 161, 163, 164, 165, 166, 168, 174, 176].contains b then .output
  else .input

/-- The balls with boundary-scan cells in the row and column order of R226. -/
def scanBalls : List Nat :=
  (List.range 66).map (200 + ·) ++
  [0, 1, 2, 3, 140, 141, 142, 143, 4, 5, 6, 7, 144, 145, 146, 147, 8, 9, 10, 11, 131, 130, 148, 149] ++
  [12, 13, 14, 15, 150, 151, 152, 153, 16, 17, 18, 19, 154, 155, 156, 157, 20, 21, 162, 163, 158, 159, 160, 161] ++
  [164, 165, 128, 129, 166, 167, 168, 169, 170, 171, 172, 174, 175, 176, 177, 178, 179, 180, 181] ++
  [96, 97, 98, 99, 100, 101, 102, 103, 104, 105, 106, 107, 22, 23] ++
  (List.range 16).map (32 + ·) ++ (List.range 16).map (80 + ·) ++ (List.range 16).map (64 + ·)

/-- Number of cells of a ball (R700). -/
def cellsOf (b : Nat) : Nat := match ballType b with | .analog => 1 | .input => 1 | .output => 2 | .both => 3

/-- The first cell of ball `b` in the chain. -/
def firstCell (b : Nat) : Nat := ((scanBalls.takeWhile (· != b)).map cellsOf).foldl (· + ·) 0

/-! Signals that the always-on logic drives. -/

/-- FAULT_CAUSE.DEGRADED (register reference of 02): the tier is below 2. -/
def belowTier2 (s : State) : Bool := s.rd F.STK_DIESTATE_TIER < 2

/-- A fault cause is set: FAULT_N is low (R91). -/
def faultAny (s : State) : Bool :=
  s.on F.FAULT_CAUSE_BOOT || s.on F.FAULT_CAUSE_C_LOST || s.on F.FAULT_CAUSE_BINDOFF || s.on F.FAULT_CAUSE_TRIP ||
    s.on F.FAULT_CAUSE_SP_MISMATCH || belowTier2 s || s.on F.FAULT_CAUSE_FW

/-- REPLACE_N is low (R92). -/
def replaceAny (s : State) : Bool := s.on F.LEDGER_CAUSES

/-! Levels (R227 to R230, R754). -/

/-- The reset state of an output ball (R227). -/
def padReset (s : State) (b : Nat) : Pad :=
  if b = 147 then .high
  else if b = 163 then padOf (s.on F.PWR_EN)
  else if b = 165 then (if faultAny s then .low else .hiz)
  else if b = 164 then (if replaceAny s then .low else .hiz)
  else if (104 ≤ b ∧ b ≤ 107) ∨ [144, 145, 148, 149, 152, 159, 160, 161].contains b then .low
  else .hiz

/-- The level a general pin's SAFE field names (R112). -/
def gpSafe (s : State) (n : Nat) : Pad := match s.rd F.PIN_CFG_SAFE n with | 0 => .low | 1 => .high | _ => .hiz

/-- The functional level of general pin `n` (R232), after INVERT (R228); `dest`: the level of its route destination. -/
def gpFunction (s : State) (dest : Bool) (n : Nat) : Pad :=
  let inv := s.on F.PIN_CFG_INVERT n
  match s.rd F.PIN_CFG_FUNC n with
  | 1 => padOf (xor inv ((s.rd F.GP_OUT_VALUE).testBit n))
  | 2 => padOf (xor inv (ctBelow s (ctLead s (n % 16)) (n / 16)))
  | 3 => padOf (xor inv dest)
  | 4 => padOf (xor inv ((s.rd F.DK_STAT_ACTIVE).testBit (n % 2)))
  | _ => .hiz

/-- Outputs are to be safe: bind-off, Tier 0 or 1 (R227, R230). -/
def padsSafe (s : State) : Bool := (s.on F.BINDOFF || s.rd F.STK_DIESTATE_TIER < 2) && !s.on F.TST_STAT_TESTMODE

/-- The C-die has been lost and is not back: the orphan behaviour of R227 applies. -/
def orphaned (s : State) : Bool := !s.on F.PRE_CAST && !cUp s

/-- A ball that Tier 1 recovery has switched to its function without a cast-on (R227): UART0's, and USB's where the ROM offers USB
or has offered it to the image that now runs. -/
def recoveryPad (s : State) (b : Nat) : Bool :=
  (b == 166 && (s.rd F.REC_PADS).testBit 0) || ((b == 178 || b == 179) && (recoveryOffers s true || (s.rd F.REC_PADS).testBit 1))

/-- The functional level of an output ball, its safe and orphan levels included where it is no general pin. SCK idles as CPOL, the upper
bit of MODE, says (R652; PRESUMED, log entry 93). The pulse and strobe
balls follow the sides and bursts that the state holds, which already are where trips, gates and losses put them. INVERT acts on
the functional level alone (R228); the head balls are low until the release (R754). -/
def padFunction (s : State) (dest : Bool) (b : Nat) : Pad :=
  let quiet := (padsSafe s || orphaned s) && !recoveryPad s b
  let line (busy : Bool) (idle : Bool) : Pad := if busy && !quiet then .moving else padOf idle
  if b < 24 then gpFunction s dest b
  else if b < 96 then padOf (xor (s.on F.PIN_CFG_INVERT b) (s.on F.LG_SIDE ((b - 64) / 2) (b % 2)))
  else if b < 104 then padOf (xor (s.on F.PIN_CFG_INVERT b) ((s.rd F.ST_STAT_ACTIVE).testBit (b - 96)))
  else if b ≤ 107 ∧ (quiet = true ∨ s.on F.RELEASED = false) then .low
  else if b = 107 then padOf (xor (s.on F.PIN_CFG_INVERT b) (s.rd F.HDS_PHASE == 3))
  else if b < 107 then line (s.rd F.HDS_PHASE == 1 && (b != 105 || s.on F.HDS_G_LANES2)) (s.on F.PIN_CFG_INVERT b)
  else if b = 144 then
    (if quiet then .low else if s.on F.MOD_STAT_BUSY then .moving else padOf (portLive s 4 && (s.rd F.MOD_CFG_MODE).testBit 1))
  else if b = 145 then line (s.on F.MOD_STAT_BUSY) false
  else if b = 147 then padOf (quiet || !s.on F.MOD_STAT_BUSY)
  else if b = 148 then line (portLive s 5) false
  else if b = 149 then line (s.on F.TX_ACTIVE 5) false
  else if b = 152 then line (s.on F.ETH_MDIO_DATA_BUSY) false
  else if b = 153 then (if s.on F.ETH_MDIO_DATA_BUSY && !quiet then .moving else .hiz)
  else if b = 154 then (if !s.on F.RMII_OUT then .hiz else if s.on F.CLK_RUN 2 then .moving else .low)
  else if 159 ≤ b ∧ b ≤ 161 then line (s.on F.TX_ACTIVE 1) false
  else if b = 166 then (if s.on F.TS_STAT_BUSY then .moving else line (s.on F.TX_ACTIVE 2) true)
  else if b = 174 then line (s.on F.TX_ACTIVE 3) true
  else if b = 168 then padOf (quiet || !s.on F.UART_STAT_RTS 0)
  else if b = 176 then padOf (quiet || !s.on F.UART_STAT_RTS 1)
  else if b = 178 ∨ b = 179 then (if usbPullup s && !quiet then .moving else .hiz)
  else padReset s b

/-- The bank of a ball has no good supply, or is held off by a level mismatch (R183, R244). -/
def bankOff (s : State) (b : Nat) : Bool :=
  ((104 ≤ b && b ≤ 107) || [130, 131, 144, 145, 146, 147].contains b) && (!railGood s .vddioA || s.on F.BANK_HIZ)

/-- The boundary-scan cells drive the ball (R701): data, then control, which drives at 1 (DESIGN CHOICE, log entry 24). -/
def padScan (s : State) (b : Nat) : Option Pad :=
  match (if tapAllowed s (s.rd F.TAP_IR) then s.rd F.BSR_DRIVE else 0) with
  | 0 => none
  | 1 =>
    let c := firstCell b + (if ballType b == .both then 1 else 0)
    let v := s.rd F.BSR
    some (if v.testBit (c + 1) then padOf (v.testBit c) else .hiz)
  | _ => some .hiz

/-- A pad as a number, for a level that is held. -/
def padCode : Pad → Nat
  | .low => 0 | .high => 1 | .hiz => 2 | .moving => 3

/-- The pad a number stands for. -/
def padAt (n : Nat) : Pad := match n with | 0 => .low | 1 => .high | 2 => .hiz | _ => .moving

/-- The leg of a pulse ball is tripped, by itself or with its group (R230 precedence 3). -/
def padTripped (s : State) (b : Nat) : Bool :=
  let k := (b - 64) / 2
  legTripped s k || (legGrouped s k && s.on F.BG_STAT_TRIPPED (legGroup s k))

/-- What an output ball carries (R230); `dest`: the level of a general pin's route destination. A tombstone overrides every state
of its ball (R229); a held ball keeps its level (R231). -/
def padCarries (s : State) (dest : Bool) (b : Nat) : Pad :=
  if b = 163 ∨ b = 164 ∨ b = 165 ∨ bUp s = false then padReset s b
  else if bankOff s b then .hiz
  else if b = 166 ∧ s.on F.TS_STAT_BUSY = true then .moving
  else if s.on F.PAD_HOLD b then padAt (s.rd F.PAD_LEVEL b)
  else if s.on F.PRE_CAST && !recoveryPad s b then (if padsSafe s then padReset s b else (padScan s b).getD (padReset s b))
  else if b < 24 then
    let f := s.rd F.PIN_CFG_FUNC b
    let out := 1 ≤ f && f ≤ 4
    if (out && padsSafe s) || (orphaned s && (f == 1 || f == 4)) then gpSafe s b
    else (padScan s b).getD (if out && !s.on F.RELEASED then gpSafe s b else gpFunction s dest b)
  else if padsSafe s || orphaned s then padFunction s dest b
  else if (64 ≤ b && b < 96 && padTripped s b) || (96 ≤ b && b < 104 && strobesInhibited s) then padFunction s dest b
  else (padScan s b).getD (padFunction s dest b)

/-- The level at a ball that carries `p`: what the device drives there, else what the outside does. -/
def padSeen (s : State) (p : Pad) (b : Nat) : Bool := match p with | .low => false | .high => true | _ => ballIn s b

/-- The level of route destination 488 + n, which a pin of function 3 puts out (R117, R232, R234). Its source may be a general pin of
the same function; `fuel` bounds such a chain, and a chain that closes on itself reads 0 where it is cut (DESIGN CHOICE, log entry 82).
A pulse is over before its level is read. -/
def pinDest (fuel : Nat) (s : State) (n : Nat) : Bool :=
  let d := 488 + n
  let x := s.rd F.RT_SRC d
  match fuel with
  | 0 => false
  | fuel + 1 =>
    if 2 ≤ s.rd F.RT_SYNC d then false
    else if srcPin x then
      let m := x - 232
      destOf s d (xor (s.on F.PIN_CFG_INVERT m) (padSeen s (padCarries s (pinDest fuel s m) m) m))
    else destLive s d && s.on F.RT_LEVEL d

/-- What an output ball carries. -/
def padLevel (s : State) (b : Nat) : Pad := padCarries s (pinDest 25 s b) b

/-- The level at a ball: what the device drives there, else what the outside does. -/
def ballLevel (s : State) (b : Nat) : Bool :=
  match ballType b with
  | .analog => ballIn s b
  | .input => ballIn s b
  | _ => padSeen s (padLevel s b) b

/-- The cells of a ball as Capture-DR loads them (R700): the level, or the level driven and whether it is driven. -/
def captureCells (s : State) (b : Nat) : List Bool :=
  let out : List Bool := [padLevel s b == .high, padLevel s b != .hiz]
  match ballType b with
  | .analog => [ballIn s b]
  | .input => [ballIn s b]
  | .output => out
  | .both => ballLevel s b :: out

/-- The number whose bits a list gives, lowest first. -/
def ofBits : List Bool → Nat
  | [] => 0
  | b :: r => bnat b + 2 * ofBits r

/-- The boundary-scan chain as Capture-DR loads it. -/
def scanCapture (s : State) : Nat := ofBits (scanBalls.flatMap (captureCells s))

/-! Pad hold (R231). -/

/-- The output balls of banks A and B: every output but the always-on ones and those of USB. -/
def holdBalls : List Nat :=
  scanBalls.filter fun b => (ballType b == .output || ballType b == .both) && !(163 ≤ b && b ≤ 165) && b != 178 && b != 179

/-- R666: the ball is RTS_N of a UART with HWFC set, held deasserted in NAP, HIBERNATE and SHUTDOWN. -/
def rtsHeld (s : State) (b : Nat) : Bool := (b == 168 && s.on F.UART_FC_HWFC 0) || (b == 176 && s.on F.UART_FC_HWFC 1)

/-- Every output is held at the level it carries. -/
def padsHold (s : State) : State :=
  s.each holdBalls fun t b => (t.up F.PAD_HOLD b).wr F.PAD_LEVEL (if rtsHeld s b then 1 else padCode (padLevel s b)) b

/-- Whether instance `i` of a block drives output ball `b`: the block's function stands at the ball. -/
def drives (s : State) (blk : Blk) (i b : Nat) : Bool :=
  match blk with
  | .lg => 64 ≤ b && b < 96 && (b - 64) / 2 == i
  | .trip => 64 ≤ b && b < 96
  | .st => 96 ≤ b && b < 104
  | .hds => (104 ≤ b && b ≤ 107) || (20 ≤ b && b < 24 && s.rd F.PIN_CFG_FUNC b == 4)
  | .ct => (b < 24 && s.rd F.PIN_CFG_FUNC b == 2 && b % 16 == i) || (64 ≤ b && b < 96 && ctLead s (s.rd F.LG_CFG_SLICE ((b - 64) / 2)) == i)
  | .eth => [152, 153, 154, 159, 160, 161].contains b
  | .uart => if i = 0 then b == 166 || b == 168 else b == 174 || b == 176
  | .mod => b == 144 || b == 145 || b == 147
  | .sl => b == 148 || b == 149
  | _ => false

/-- A write has reached instance `i` of a block in RUN: the hold ends at the balls that the block drives, and at any other whose
functional level has changed (DEDUCED, log entry 28). `s0` is the state before the write. -/
def padsFreed (s0 s : State) (blk : Blk) (i : Nat) : State :=
  if s.rd F.PTM_STATE_CUR ≠ 0 then s
  else s.each (holdBalls.filter fun b => s0.on F.PAD_HOLD b &&
      (drives s blk i b || padFunction s0 (pinDest 25 s0 b) b != padFunction s (pinDest 25 s b) b)) fun s b =>
    (s.down F.PAD_HOLD b).wr F.PAD_LEVEL 0 b

/-- The same for a write of GP_OUT, GP_SET or GP_CLR, which reaches every ball of function 1 whose bit the mask names. -/
def gpFreed (s : State) (m : Nat) : State :=
  if s.rd F.PTM_STATE_CUR ≠ 0 then s
  else s.each ((onesOf m 24).filter fun n => s.rd F.PIN_CFG_FUNC n == 1) fun s n => (s.down F.PAD_HOLD n).wr F.PAD_LEVEL 0 n

/-- GP_IN (R228, R234). -/
def gpIn (s : State) : Nat := maskOf 24 fun n => xor (s.on F.PIN_CFG_INVERT n) (ballLevel s n)

end Sys2Proof.Machine
end

