-- ==== Sys2Proof/Machine/TimingRows.lean ====
section
/-!
DEFINITION. The commands of the table that come from the counter slices, captures, quadrature decoders, legs and strobes
(08_counters_and_pulse_generators.md). A command whose condition does not hold leaves the state as it is (log entry 4).
-/
namespace Sys2Proof.Machine

/-- The clock of slice `n` runs: its domain is on and CLK_T is not stopped. -/
def ctLive (s : State) (n : Nat) : Bool := domOn s (15 + n / 2) && clkTRuns s (15 + n / 2)

/-- Compare unit `u` of slice `n`, or of the pair it leads, matches on the step just taken: the count equals its value and moves in a
direction EVDIR selects (R288). -/
def ctMatches (s : State) (n u : Nat) : Bool :=
  let e := s.rd F.CT_CMP_ACT_EVDIR n u
  ctCount s n == ctPair s F.CT_CMP_ACT_VALUE n u && !(e == 1 && s.on F.CT_COUNT_DIR n) && !(e == 2 && !s.on F.CT_COUNT_DIR n)

/-- The pulses of slice `n` on the step just taken under the period `p`: its matches, its zero point and its top point (R288). -/
def ctPulses (s : State) (n p : Nat) : State :=
  let u := (List.range 4).filter fun u => ctMatches s n u
  let z := if ctCount s n = 0 then [96 + 2 * n] else []
  let t := if ctCount s n = p then [97 + 2 * n] else []
  s.each (u.map (4 * n + ·) ++ z ++ t) routePulse

/-- The compare values of the step just taken, which REF keeps while the slice is stopped (R337). -/
def ctSeen (s : State) (n : Nat) : State :=
  s.each (List.range 4) fun s u => (s.wr F.CT_REFV (s.rd F.CT_CMP_ACT_VALUE n u) n u).when (ctPaired s n) fun s =>
    s.wr F.CT_REFV (s.rd F.CT_CMP_ACT_VALUE (n + 1) u) (n + 1) u

/-- SLICE_STEP (R288, R290 to R295, R300, R316, R317): the count of slice `n`, or of the pair it leads, steps. -/
def sliceStep (s : State) (n : Nat) : State :=
  if ctUpper s n || !ctLive s n || !s.on F.CT_CTRL_RUN n then s
  else
    let m := s.rd F.CT_CFG_MODE n
    let p := ctP s n
    let sync := s.on F.CT_SYNC n
    let nx := if sync then (ctPair s F.CT_PHASE_PHASE n 0, s.rd F.CT_PHASE_PDIR n) else ctNext m p (ctCount s n) (s.rd F.CT_COUNT_DIR n)
    let s := ((ctSetCount s n nx.1).wr F.CT_COUNT_DIR nx.2 n).down F.CT_SYNC n
    let s := if ctLoadPoint (s.rd F.CT_CFG_LOAD n) p nx.1 && !s.on F.CT_SHCTL_HOLD n then ctTransferAll s n else s
    let s := ctSeen (if m == 3 && nx.1 == p then s.down F.CT_CTRL_RUN n else s) n
    let s := ctPulses s n p
    if ctPeriodStart m p nx.1 then
      let s := s.postIf (s.on F.CT_EVT_PSTART n) (16 + n)
      let s := s.postIf (ctUpper s (n + 1) && s.on F.CT_EVT_PSTART (n + 1)) (17 + n)
      cmPeriodStart (armAtPeriodStart s n) n
    else s

/-- SLICE_START_EDGE (R294). -/
def sliceStart (s : State) (n : Nat) : State :=
  if edgeAt s (32 + n) true && s.on F.CT_CTRL_START_EN n && ctLive s n && !ctUpper s n then
    (edgeTaken s (32 + n) true).up F.CT_CTRL_RUN n
  else s

/-- SLICE_SYNC_EDGE (R295). -/
def sliceSync (s : State) (n : Nat) : State :=
  if edgeAt s (16 + n) true && s.on F.CT_CTRL_SYNC_EN n && ctLive s n && !ctUpper s n then
    (edgeTaken s (16 + n) true).up F.CT_SYNC n
  else s

/-- An accepted edge of channel `n` homes the cutter (R414). -/
def cutterHome (s : State) (n : Nat) : State :=
  if domOn s 34 && s.on F.CUT_CFG_EN && s.rd F.CUT_CFG_HOME_CAP == n then
    ((s.each (onesOf (s.rd F.CUT_CFG_LEGS) 16) legDisarm).up F.CUT_STAT_HOMED).post 106
  else s

/-- Channel `n` takes a level that its filter has accepted (R306 to R308, R414). -/
def captureTake (s : State) (n : Nat) (rise : Bool) : State :=
  if captureEdgeWanted s n rise && domOn s (23 + n / 4) then cutterHome (capture s n rise) n else s

/-- The level of pin `n` as the device sees it, where its ball carries `b`: INVERT acts at the pad (R228). -/
def pinSees (s : State) (n : Nat) (b : Bool) : Bool := xor (s.on F.PIN_CFG_INVERT n) b

/-- Decoder `q` takes the levels of its two inputs (R310). -/
def qdTake (s : State) (q ab : Nat) : State := if domOn s 27 then qdStep s q ab else s

/-- CAPTURE_EDGE (R228, R235, R306 to R308, R414): the filter of channel `n` accepts a level. From the ball, `rise` is the ball's
level; the balls of CP00 to CP03 feed the decoders together with the captures. With SRC 1 it is an edge of destination 48 + n. -/
def captureEdge (s : State) (n : Nat) (rise : Bool) : State :=
  if !clkTRuns s (23 + n / 4) then s
  else if s.on F.CP_CFG_SRC n then
    (if edgeAt s (48 + n) rise then captureTake (edgeTaken s (48 + n) rise) n rise else s)
  else
    let b := pinSees s (32 + n) rise
    let s := captureTake s n b
    if n < 4 then qdTake s (n / 2) (putBit (s.rd F.QD_AB (n / 2)) (n % 2) b) else s

/-- QD_TRANSITION (R228, R235, R310, R311): the balls of decoder `q` have the levels `a` and `b` after the capture filters. A ball
that has changed feeds its capture channel as well. -/
def qdTransition (s : State) (q : Nat) (a b : Bool) : State :=
  if !clkTRuns s 27 then s
  else
    let old := s.rd F.QD_AB q
    let ab := bnat (pinSees s (32 + 2 * q) a) + 2 * bnat (pinSees s (33 + 2 * q) b)
    let fed := (List.range 2).filter fun i => old.testBit i != ab.testBit i && !s.on F.CP_CFG_SRC (2 * q + i)
    qdTake (s.each fed fun s i => captureTake s (2 * q + i) (ab.testBit i)) q ab

/-- QD_INDEX_EDGE (R228, R289, R312): the ball of the index input goes to `level`; a rising edge after INVERT is an index. -/
def qdIndex (s : State) (q : Nat) (level : Bool) : State :=
  if domOn s 27 && clkTRuns s 27 && s.on F.QD_CFG_EN q && s.rd F.PIN_CFG_FUNC (16 + q) == 5 && pinSees s (16 + q) level then
    let s := routePulse s (145 + 2 * q)
    let s := if s.on F.QD_CFG_IDX_EN q then
        let s := s.wr F.QD_IDXPOS_IDXPOS (s.rd F.QD_POS_POS q) q
        if s.on F.QD_CFG_IDX_RST q then s.wr F.QD_POS_POS 0 q else s
      else s
    s.postIf (s.on F.QD_CFG_EVT q) (56 + q)
  else s

/-- LEG_REF_EDGE (R313, R314): the sides of leg `k` follow the levels its slice now asks for; `count`: a dead time that
this ends is a swallowed pulse. A leg in its safe state keeps it. -/
def legRefEdge (s : State) (k : Nat) : State :=
  if !domOn s (28 + k / 4) then s
  else
    let w := legWant s k
    let s := (s.wrb F.LG_REF w.1 k 0).wrb F.LG_REF w.2 k 1
    if 2 ≤ s.rd F.LG_STAT_STATE k then driveLeg s k w true else s

/-- DEAD_TIME_EXPIRE (R313, R324): the dead time of side `j` ends and the side turns on. -/
def deadTimeExpire (s : State) (k j : Nat) : State :=
  if s.on F.LG_DTRUN k j then setSide (s.down F.LG_DTRUN k j) k j true else s

/-- BLANK_WINDOW_END (R322). -/
def blankEnd (s : State) (k : Nat) : State :=
  if !s.on F.LG_BLANKING k then s
  else
    let seen := s.on F.LG_OCREC k
    let s := (s.down F.LG_BLANKING k).down F.LG_OCREC k
    if rawOf s (s.rd F.LG_TRIPCFG_OC_CMP k) then trip s [(k, 0)]
    else if seen then (s.up F.LG_STAT_BLANKED k).bump F.LG_TALLY_BLANKED k
    else s

/-- LEG_EXT_TRIP (R321). -/
def legExtTrip (s : State) (k : Nat) : State :=
  if edgeAt s (64 + k) true && s.on F.LG_CFG_EXT_EN k && domOn s (28 + k / 4) then trip (edgeTaken s (64 + k) true) [(k, 2)] else s

/-- STROBE_BURST_START (R332, R333): a rising edge of destination 81; the streamer's own bursts start with LATCH_PULSE_END. -/
def routeBurst (s : State) : State :=
  if edgeAt s 81 true && s.on F.ST_CTRL_ROUTE_EN && domOn s 33 && clkTRuns s 33 then
    let s := edgeTaken s 81 true
    routePulse (burstStart s (ownWidth s) 0) 162
  else s

/-- STROBE_ACTIVATE (R332, R334): the delay of strobe `n` expires; an inhibited strobe stays inactive. -/
def strobeActivate (s : State) (n : Nat) : State :=
  if !s.on F.ST_DELAYED n then s
  else
    let s := s.down F.ST_DELAYED n
    if strobesInhibited s then burstOver (s.down F.ST_INBURST n)
    else s.wr F.ST_STAT_ACTIVE (putBit (s.rd F.ST_STAT_ACTIVE) n true)

/-- STROBE_WIDTH_END (R332, R395). -/
def strobeWidthEnd (s : State) (n : Nat) : State :=
  if !(s.rd F.ST_STAT_ACTIVE).testBit n then s
  else burstOver ((s.wr F.ST_STAT_ACTIVE (putBit (s.rd F.ST_STAT_ACTIVE) n false)).down F.ST_INBURST n)

/-! The commands. -/

def execSliceStep (slice : Fin 16) (s : State) : Out := .next (sliceStep s slice.val)
def execSliceStartEdge (slice : Fin 16) (s : State) : Out := .next (sliceStart s slice.val)
def execSliceSyncEdge (slice : Fin 16) (s : State) : Out := .next (sliceSync s slice.val)
def execCaptureEdge (ch : Fin 16) (rise : Bool) (s : State) : Out := .next (captureEdge s ch.val rise)
def execQdTransition (qd : Fin 2) (a b : Bool) (s : State) : Out := .next (qdTransition s qd.val a b)
/-- QD_INDEX_EDGE (R312). -/
def execQdIndexEdge (edge : IndexEdge) (s : State) : Out := .next (qdIndex s edge.qd.val edge.level)
def execLegRefEdge (leg : Fin 16) (s : State) : Out := .next (legRefEdge s leg.val)
def execDeadTimeExpire (leg : Fin 16) (side : Fin 2) (s : State) : Out := .next (deadTimeExpire s leg.val side.val)
def execBlankWindowEnd (leg : Fin 16) (s : State) : Out := .next (blankEnd s leg.val)
def execLegExtTrip (leg : Fin 16) (s : State) : Out := .next (legExtTrip s leg.val)
def execStrobeBurstStart (s : State) : Out := .next (routeBurst s)
def execStrobeActivate (strobe : Fin 8) (s : State) : Out := .next (strobeActivate s strobe.val)
def execStrobeWidthEnd (strobe : Fin 8) (s : State) : Out := .next (strobeWidthEnd s strobe.val)

end Sys2Proof.Machine
end

