-- ==== Sys2Proof/Machine/Print.lean ====
section
/-!
DEFINITION. The head data streamer, the yank detector and the drawer-kick timers (10_print_path.md), as operations over the
state, with the commands of the table that do not pass the fabric. The history compensation unit stands in
Sys2Proof/Machine/EngineRows.lean.
-/
namespace Sys2Proof.Machine

/-- The streamer's buffer. -/
def hdsBuf : Nat := 0x50032800

/-- Plane `j` of slot `n` as a number: bit i is dot i (R389). -/
def hdsPlane (s : State) (n j : Nat) : Nat := s.mget (hdsBuf + 0x200 * n + 0x80 * j) 128

/-- DOTS rounded up to a multiple of 8 and held between 8 and 1,024 (the register's range). -/
def hdsDots (s : State) : Nat := max 8 (min 1024 ((s.rd F.HDS_GEOM_DOTS + 7) / 8 * 8))

/-- The lowest plane of the line in force at or above `j`. -/
def nextPlane (s : State) (j : Nat) : Option Nat := (onesOf (s.rd F.HDS_G_PEN) 4).find? fun p => j ≤ p

/-- The shift of plane `j` starts. -/
def shiftPlane (s : State) (j : Nat) : State :=
  (((s.wr F.HDS_PHASE 1).wr F.HDS_NEXTPLANE j).down F.HDS_SHIFTED).wr F.HDS_SLOT_PLANE j

/-- A line start (R395 to R400). -/
def lineStart (s : State) : State :=
  if !s.on F.HDS_CTRL_EN || !domOn s 34 then s
  else if s.on F.HDS_SLOT_BUSY then (s.bump F.HDS_TALLY0_LINE_OVR).post 101
  else if !(s.rd F.HDS_SLOT_FULL).testBit (s.rd F.HDS_SLOT_NEXT) then (s.bump F.HDS_TALLY0_UNDERRUN).post 101
  else
    let s := ((s.wr F.HDS_G_DOTS (hdsDots s)).wr F.HDS_G_LANES2 (s.rd F.HDS_GEOM_LANES2)).wr F.HDS_G_PEN (s.rd F.HDS_PLANES_PEN)
    let s := s.each (List.range 4) fun s j => s.wr F.HDS_G_MUL (min 256 (s.rd F.HDS_PMUL_MUL j)) j
    let s := routePulse (((s.up F.HDS_SLOT_BUSY).down F.HDS_WCAP).wrb F.HDS_INH (strobesInhibited s)) 160
    match nextPlane s 0 with
    | none => lineDone s
    | some j => shiftPlane s j

/-- The bits that lane `l` shifts of the plane `v` of `d` dots, the first of them in bit 0 (R394): with LANES2 each lane takes its half of
the dots, its highest-numbered first, or its lowest first while ORDER is 1; HD_D1 is otherwise low. -/
def laneBits (s : State) (v d l : Nat) : Nat :=
  let two := s.on F.HDS_G_LANES2
  let n := if two then d / 2 else d
  if l = 1 ∧ two = false then 0
  else maskOf n fun i => v.testBit (n * l + if s.on F.HDS_CTRL_ORDER then i else n - 1 - i)

/-- PLANE_SHIFT_DONE (R394, R395): the plane is in the head's shift register. -/
def planeShifted (s : State) : State :=
  if s.rd F.HDS_PHASE != 1 then s
  else
    let v := hdsPlane s (s.rd F.HDS_SLOT_NEXT) (s.rd F.HDS_NEXTPLANE)
    let s := s.each (List.range 2) fun s l => s.wr F.HDS_LANE (laneBits s v (s.rd F.HDS_G_DOTS) l) l
    ((s.wr F.HDS_SHIFTREG (v % 2 ^ s.rd F.HDS_G_DOTS)).up F.HDS_SHIFTED).wr F.HDS_PHASE 2

/-- LATCH_PULSE_START (R395): the plane before it has burned. -/
def latchStart (s : State) : State :=
  if s.rd F.HDS_PHASE == 2 && !s.on F.HDS_BURSTING then (s.wr F.HDS_PHASE 3).wr F.HDS_LATCHED (s.rd F.HDS_SHIFTREG) else s

/-- The unscaled width of strobe `n` in eighths (R402, R403). -/
def hdsWidth (s : State) (n : Nat) : Nat :=
  if s.on F.HDS_CTRL_WCOPY then s.rd F.HDS_W else 8 * s.rd F.ST_WIDTH_TICKS n + s.rd F.ST_WIDTH_FINE n

/-- LATCH_PULSE_END (R332, R395, R401 to R403): the burst of the plane starts, and with it the next shift. -/
def latchEnd (s : State) : State :=
  if s.rd F.HDS_PHASE != 3 then s
  else
    let j := s.rd F.HDS_NEXTPLANE
    let s := if s.on F.HDS_CTRL_WCOPY && !s.on F.HDS_WCAP then
        (s.wr F.HDS_W (8 * s.rd F.ST_WIDTH_TICKS 0 + s.rd F.ST_WIDTH_FINE 0)).up F.HDS_WCAP
      else s
    let s := if strobesInhibited s then s.up F.HDS_INH else s
    let width (n : Nat) : Nat × Nat := let w := hdsWidth s n * s.rd F.HDS_G_MUL j / 256; (w / 8, w % 8)
    let s := (if domOn s 33 then routePulse (burstStart s width (j + 1)) 162 else s).up F.HDS_BURSTING
    let s := match nextPlane s (j + 1) with
      | some k => shiftPlane s k
      | none => s.wr F.HDS_PHASE 4
    burstOver s

/-- LINE_START (R398): a rising edge of destination 80. -/
def routeLine (s : State) : State := if edgeAt s 80 true && clkTRuns s 34 then lineStart (edgeTaken s 80 true) else s

/-- A write of ones `m` to HDS_COMMIT (R391). -/
def hdsCommit (s : State) (m : Nat) : State :=
  s.each (onesOf m 2) fun s n =>
    if (s.rd F.HDS_SLOT_FULL).testBit n then s.bump F.HDS_TALLY1_COMMIT_DUP
    else s.wr F.HDS_SLOT_FULL (putBit (s.rd F.HDS_SLOT_FULL) n true)

/-- What a change of HDS_CTRL.EN from `old` does (R392, R419). -/
def hdsEnChanged (s : State) (old : Bool) : State :=
  let new := s.on F.HDS_CTRL_EN
  if !old && new then (s.wr F.HDS_SLOT_FULL 0).wr F.HDS_SLOT_NEXT 0
  else if old && !new then hdsAbandon s
  else s

/-! Yank (R410 to R413). -/

/-- The sample of the pair that starts at converter `a`. -/
def yankSample (s : State) (a : Nat) : Int :=
  let i (n : Nat) : Int := Int.ofNat (s.rd F.AD_RES_VALUE n 0) - 32768
  let v (n u : Nat) : Int := Int.ofNat (s.rd F.CT_CMP_ACT_VALUE n u)
  let ua := v (s.rd F.YK_CFG_SA) (s.rd F.YK_CFG_UAP) - v (s.rd F.YK_CFG_SA) (s.rd F.YK_CFG_UAN)
  let ub := v (s.rd F.YK_CFG_SB) (s.rd F.YK_CFG_UBP) - v (s.rd F.YK_CFG_SB) (s.rd F.YK_CFG_UBN)
  (ub * i a - ua * i (a + 1)) / 256

/-- YANK is set (R412). -/
def yank (s : State) : State :=
  let s := ((s.up F.YK_STAT_YANK).bump F.YK_COUNT_COUNT).post 104
  let s := s.each ((onesOf (s.rd F.YK_LEGS_LEGS) 16).filter fun k => !legTripped s k) legDisarm
  routeFollow (applyInhibit s)

/-- The detector takes a sample of the pair at `a` (R410, R411). -/
def yankDetect (s : State) (a : Nat) : State :=
  if !domOn s 34 || !s.on F.YK_CFG_EN || 2 * s.rd F.YK_CFG_PAIR != a then s
  else
    let y := yankSample s a
    let s := s.wr F.YK_LAST_Y (patternOf 32 y)
    let sy := if s.on F.YK_CFG_NEG then -y else y
    if sy < -Int.ofNat (s.rd F.YK_THR_THR) then
      let r := min 15 (s.rd F.YK_STAT_RUN + 1)
      let s := s.wr F.YK_STAT_RUN r
      if max 1 (s.rd F.YK_CFG_YK_N) ≤ r ∧ !s.on F.YK_STAT_YANK then yank s else s
    else s.wr F.YK_STAT_RUN 0


/-- ADC_CONVERSION_END with what follows at the end of sequence A of a pair (R260, R410). -/
def conversionEnd (s : State) (n : Nat) (x : Int) : State :=
  let running := s.rd F.AD_SEQ n 0 == 1
  let s := adConversionEnd s n x
  let a := n / 2 * 2
  if running && !s.on F.AD_SEQ n 0 && !s.on F.AD_SEQ a 0 && !s.on F.AD_SEQ (a + 1) 0 then yankDetect s a else s

/-! Drawer kick. -/

/-- DKd is assigned to a pin (R232). -/
def dkAssigned (s : State) (d : Nat) : Bool :=
  !s.on F.PRE_CAST && [20 + d, 22 + d].any fun p => s.rd F.PIN_CFG_FUNC p == 4

/-- A write of DK_FIRE_d (R415, R416). -/
def dkFire (s : State) (d : Nat) : State :=
  if s.on F.DK_STAT_ACTIVE || (s.rd F.DK_STAT_COOLING).testBit d || !dkAssigned s d then
    s.wr F.DK_STAT_REFUSED (putBit (s.rd F.DK_STAT_REFUSED) d true)
  else s.wr F.DK_STAT_ACTIVE (putBit 0 d true)

/-- DK_PULSE_END (R415). -/
def dkPulseEnd (s : State) (d : Nat) : State :=
  if !(s.rd F.DK_STAT_ACTIVE).testBit d then s
  else
    let s := (s.wr F.DK_STAT_ACTIVE (putBit (s.rd F.DK_STAT_ACTIVE) d false)).post 105
    if s.on F.DK_CFG_OFF_MS d then s.wr F.DK_STAT_COOLING (putBit (s.rd F.DK_STAT_COOLING) d true) else s

/-- DK_COOL_END (R415). -/
def dkCoolEnd (s : State) (d : Nat) : State := s.wr F.DK_STAT_COOLING (putBit (s.rd F.DK_STAT_COOLING) d false)

/-! The commands. -/

/-- ADC_CONVERSION_END (R260). `uv`: what the outside drives at the selected input, in microvolts, two's complement. -/
def execAdcConversionEnd (ad : Fin 4) (uv : BitVec 32) (s : State) : Out := .next (conversionEnd s ad.val uv.toInt)
def execLineStart (s : State) : Out := .next (routeLine s)
def execPlaneShiftDone (s : State) : Out := .next (planeShifted s)
def execLatchPulseStart (s : State) : Out := .next (latchStart s)
def execLatchPulseEnd (s : State) : Out := .next (latchEnd s)
def execDkPulseEnd (dk : Fin 2) (s : State) : Out := .next (dkPulseEnd s dk.val)
def execDkCoolEnd (dk : Fin 2) (s : State) : Out := .next (dkCoolEnd s dk.val)

end Sys2Proof.Machine
end

