-- ==== Sys2Proof/Machine/Startup.lean ====
section
/-!
DEFINITION. What the registers of the start-up and ledger block do when they are written (02_startup_and_service_tiers.md,
R52, R56, R72 to R74, R95).
-/
namespace Sys2Proof.Machine

/-- SYS_RESET.STACK (R52). -/
def sysReset (s : State) : State := bReset s F.RST_CAUSE_SOFT

/-- PWD_KICK.KICK or SU_KICK.KICK (R56): a running watchdog starts its period afresh. -/
def pwdKick (s : State) : State := if s.on F.PWD_RUN then s.wr F.PWD_LEFT (s.rd F.PWD_CFG_PERIOD) else s

/-- SU_TIER.GIVE_UP (R72): the PTM resets the C-die explicitly and holds it in reset. -/
def giveUp (s : State) : State := cDieLoss (s.up F.SU_TIER_GIVE_UP) 2

/-- SU_TIER.ROM_DONE (R73, R74): it ends the ROM's phase of a start; outside it nothing follows (DEDUCED, log entry 27). -/
def romDone (s : State) : State :=
  if s.on F.SU_TIER_ROM_PHASE then (s.down F.SU_TIER_ROM_PHASE).down F.SU_TIER_RECOVER else s

/-- The debug lock state is OPEN (R711). -/
def lockOpen (s : State) : Bool := s.rd F.TST_LOCK_STATE == 0

/-- LEDGER_CLR in OPEN (R95, R96): the named causes are cleared, and a record falls due on a change. -/
def ledgerClear (s : State) (m : Nat) : State :=
  let old := s.rd F.LEDGER_CAUSES
  let new := clearBits old m
  (s.wr F.LEDGER_CAUSES new).when (old != new) (·.up F.LEDGER_PENDING)

/-- STK_RESET (R39): explicit resets of the upper dies. -/
def stkReset (s : State) (c m : Bool) : State :=
  let s := s.when c (cDieLoss · 2)
  s.when m (mDieLoss · 2)

end Sys2Proof.Machine
end

