-- ==== Sys2Proof/Machine/RegView.lean ====
section
/-!
DEFINITION. Where an address lies in register space, which state a register shows, and what a read of it returns
(R7, R145 to R149, R744, R745; the register reference that closes each chapter).
-/
namespace Sys2Proof.Machine

/-! Registers. -/

/-- The row of a block at an offset, and which register of the row it is. -/
def rowAt (rows : List RegRow) (off : Nat) : Option (RegRow × Nat) :=
  match rows with
  | [] => none
  | r :: rest =>
    if r.stride = 0 then (if off = r.off then some (r, 0) else rowAt rest off)
    else if r.off ≤ off ∧ (off - r.off) % r.stride = 0 ∧ (off - r.off) / r.stride < r.cnt then some (r, (off - r.off) / r.stride)
    else rowAt rest off

/-- The offset lies in PIN_CFG at an index outside R111, where no register stands. -/
def pinHole (off : Nat) : Bool := (0x260 ≤ off && off < 0x280) || (0x2C0 ≤ off && off < 0x300)

/-- The register at a place. CT_GSTART stands in CT00 alone (R294); PIN_CFG stands for the indices of R111 alone (R3). -/
def regAt (l : Loc) : Option (RegRow × Nat) :=
  if (l.b = .ct ∧ l.off = 0x180 ∧ l.i ≠ 0) ∨ (l.b = .pin ∧ pinHole l.off = true) then none else rowAt (regsOf l.b) l.off

/-- The port a controller block stands for. -/
def portOf (b : Blk) (i : Nat) : Nat :=
  match b with | .usb => 0 | .eth => 1 | .uart => 2 + i | .mod => 4 | _ => 5

/-- The registers every port shares have their state by port. -/
def portField (f : Fld) : Bool := F.PT_BASIC_EN.id ≤ f.id && f.id ≤ F.PT_TALLY_OVR.id

/-- The indices of field `f` of register `k` of instance `i`. -/
def fieldIdx (b : Blk) (i k : Nat) (f : Fld) : Nat × Nat :=
  if portField f then (portOf b i, 0)
  else match b with
    | .usb => (0, k)
    | .dmg => (8 * i + k, 0)
    | .ad => (i, k) | .ct => (i, k) | .lg => (i, k) | .tc => (i, k) | .cc => (i, k) | .wd => (i, k) | .mpu => (i, k)
    | .fw => (i, k) | .uart => (i, k)
    | _ => (k, 0)

/-- What each Basic alias stands for (R7): fields by their place within the alias. -/
def aliasTable : List (Fld × List FieldRow) := [
  (F.STK_EVENTS_EVT, [⟨0, F.STK_EVT_C_LOST, .w1c⟩, ⟨1, F.STK_EVT_M_LOST, .w1c⟩, ⟨2, F.STK_EVT_LANE_REP, .w1c⟩,
    ⟨3, F.STK_EVT_BUNDLE_RET, .w1c⟩]),
  (F.STK_CTRL_LBIST_EN, [⟨0, F.LBIST_CFG_EN, .rw⟩]),
  (F.SU_FAULT_ACK_ACK, [⟨0, F.FAULT_CAUSE_BOOT, .w1c⟩, ⟨1, F.FAULT_CAUSE_C_LOST, .w1c⟩, ⟨2, F.FAULT_CAUSE_BINDOFF, .w1c⟩,
    ⟨3, F.FAULT_CAUSE_TRIP, .w1c⟩, ⟨4, F.FAULT_CAUSE_SP_MISMATCH, .w1c⟩]),
  (F.PM_REQ_REQ, [⟨0, F.PTM_STATE_REQ_REQ, .rw⟩]),
  (F.PIN_GP_OUT_VALUE, [⟨0, F.GP_OUT_VALUE, .rw⟩]),
  (F.AD_BASIC_CTRL_EN, [⟨0, F.AD_CFG_EN, .rw⟩]),
  (F.CM_LATCH_CLR_CLR, [⟨0, F.CM_LATCHED_LATCHED, .w1c⟩]),
  (F.CT_BASIC_CTRL_RUN, [⟨0, F.CT_CTRL_RUN, .rw⟩]),
  (F.CT_BASIC_DUTY_VALUE, [⟨0, F.CT_CMP_SH_VALUE, .rw⟩]),
  (F.LE_BASIC_CTRL_EN, [⟨0, F.LE_CTRL_EN, .rw⟩]),
  (F.LE_BASIC_CTRL_ROWS, [⟨0, F.LE_ROWEN_EN, .rw⟩]),
  (F.LE_BASIC_STAT_OVR, [⟨0, F.LE_EVT_ROW_OVR, .w1c⟩]),
  (F.LE_BASIC_STAT_SAT, [⟨0, F.LE_EVT_SAT, .w1c⟩]),
  (F.LE_BASIC_STAT_ECC, [⟨0, F.LE_EVT_ECC, .w1c⟩]),
  (F.HDS_BASIC_EN, [⟨0, F.HDS_CTRL_EN, .rw⟩]),
  (F.HDS_BASIC_YANK, [⟨0, F.YK_STAT_YANK, .w1c⟩]),
  (F.HCU_BASIC_EN, [⟨0, F.HCU_CTRL_EN, .rw⟩]),
  (F.HCU_BASIC_ERR, [⟨0, F.HCU_STAT_ERR, .w1c⟩]),
  (F.TC_BASIC_DFAULT, [⟨0, F.TC_DFAULT_THREADS, .w1c⟩]),
  (F.CC_BASIC_IC_EN, [⟨0, F.IC_CTRL_EN, .rw⟩]),
  (F.CC_BASIC_RC_EN, [⟨0, F.RC_CTRL_EN, .rw⟩]),
  (F.DSP_BASIC_STAT_EN, [⟨0, F.DSP_CTRL_EN, .rw⟩]),
  (F.MPU_BASIC_DEF_EN, [⟨0, F.MPU_CTRL_DEF_EN, .rw⟩]),
  (F.MPU_BASIC_LOCK, [⟨0, F.MPU_CTRL_LOCK, .w1s⟩]),
  (F.FW_BASIC_NEW, [⟨0, F.FW_STAT_NEW, .w1c⟩]),
  (F.SP_BASIC_MISMATCH, [⟨0, F.SP_EVT_MISMATCH, .w1c⟩]),
  (F.SP_BASIC_EXCURSION, [⟨0, F.SP_EVT_EXCURSION, .w1c⟩]),
  (F.DMG_BASIC_EN, [⟨0, F.DC_CFG_EN, .rw⟩]),
  (F.PT_BASIC_EN, [⟨0, F.PT_CTRL_EN, .rw⟩])]

/-- A field of a register as the state holds it: an alias is replaced by what it stands for. -/
def unalias (r : FieldRow) : List FieldRow :=
  if r.acc = .al then
    match aliasTable.find? fun e => e.1 = r.f with
    | some e => e.2.map fun x => { x with lo := x.lo + r.lo }
    | none => []
  else [r]

/-- The fields of a register, aliases replaced. -/
def fieldsOf (row : RegRow) : List FieldRow := row.fields.flatMap unalias

/-! What is computed rather than held. -/

/-- A mask of the instances below `n` whose one-bit field is set. -/
def maskFld (s : State) (f : Fld) (n : Nat) : Nat := maskOf n fun k => s.on f k

/-- Spares in use over all bundles. -/
def sparesUsed (s : State) : Nat := (List.range 32).foldl (fun n b => n + sparesOf s b) 0

/-- Bundles retired (R33). -/
def bundlesRetired (s : State) : Nat := ((List.range 32).filter fun b => s.rd F.BUNDLE_STATE b == 3).length

/-- Some bundle has four spares in use. -/
def spareExhaust (s : State) : Bool := (List.range 32).any fun b => sparesOf s b == 4

/-- Legs with a cause (R321). -/
def trippedLegs (s : State) : Nat := maskOf 16 (legTripped s)

/-- Capture channels whose queue holds a time. -/
def cpNonempty (s : State) : Nat := maskOf 16 fun n => !(s.q Q.capture n).isEmpty

/-- The thread that bit `k` of a register of core `i` stands for. -/
def coreThread (i k : Nat) : Nat := 8 * i + k

/-- Thread `t` has a task and is eligible to issue (R424). -/
def eligible (s : State) (t : Nat) : Bool :=
  let u := mainOf s t
  match fetched s u with
  | some w => canIssue s u w && !storeWaits s u w
  | none => false

/-- Stack monitor. -/
def stkDv (s : State) (f : Fld) : Nat :=
  if f = F.STK_STATUS_TIER then s.rd F.STK_DIESTATE_TIER
  else if f = F.STK_STATUS_C_UP then bnat (cUp s)
  else if f = F.STK_STATUS_M_UP then bnat (mUp s)
  else if f = F.STK_STATUS_LANE_WARN ∨ f = F.LANE_SUMMARY_EXHAUST then bnat (spareExhaust s)
  else if f = F.STK_STATUS_BUNDLE_DOWN then bnat (bundlesRetired s != 0)
  else if f = F.LANE_SUMMARY_SPARES_USED then sparesUsed s
  else bundlesRetired s

/-- Start-up and ledger. -/
def suDv (s : State) (f : Fld) : Nat :=
  if f = F.SU_STATUS_TIER ∨ f = F.SU_TIER_TIER then s.rd F.STK_DIESTATE_TIER
  else if f = F.SU_STATUS_CAUSE then s.rd F.SU_TIER_CAUSE
  else if f = F.SU_STATUS_REPLACE ∨ f = F.LEDGER_ANY then bnat (replaceAny s)
  else if f = F.FAULT_CAUSE_DEGRADED then bnat (belowTier2 s)
  else bnat (faultAny s)

/-- Pattern control, crossroads, fabric monitor, PTM. -/
def patDv (s : State) (f : Fld) : Nat :=
  if f = F.PAT_STATUS_SLOT then s.rd F.PAT_ACTIVE_SLOT
  else if f = F.PAT_STATUS_DELTA then s.rd F.PAT_ACTIVE_DELTA
  else if f = F.PAT_STATUS_LIVE then s.rd F.PAT_LIVE_STAT_STATE
  else s.rd F.PAT_REJECT_CODE

def xrDv (s : State) (f : Fld) : Nat :=
  if f = F.XR_STATUS_LOST then bnat (s.on F.XR_LOST_LOST_REPLY) else (busyTags s).length

/-- Register `k` of PTM_DOM_STATE: two bits a domain. -/
def domStates (s : State) (k : Nat) : Nat :=
  (List.range 16).foldl (fun n i => n + (if 16 * k + i < 136 then s.rd F.DOM_STATE (16 * k + i) else 0) * 4 ^ i) 0

def ptmDv (s : State) (k : Nat) (f : Fld) : Nat :=
  if f = F.PM_STATUS_STATE then s.rd F.PTM_STATE_CUR
  else if f = F.PM_STATUS_THROTTLE then s.rd F.PTM_CLKSTAT_THROTTLE
  else if f = F.PM_STATUS_DROP then s.rd F.PTM_SUPPLY_DROP_WARN
  else if f = F.PTM_CLKSTAT_HSXO_FAIL then s.rd F.SU_TIER_HSXO_FAIL
  else domStates s k

/-- Pins. -/
def pinDv (s : State) (k : Nat) (f : Fld) : Nat :=
  if f = F.PIN_CFG_PULL then pinPull s k
  else if f = F.PIN_GP_IN_LEVEL ∨ f = F.GP_IN_LEVEL then gpIn s
  else if f = F.BANK_A_DET then s.rd F.PTM_SUPPLY_V18
  else if f = F.BANK_A_GOOD then bnat ((s.rd F.PTM_SUPPLY_GOOD).testBit 5)
  else s.rd F.GP_OUT_VALUE

/-- Legs and the trip matrix. -/
def lgDv (s : State) (i : Nat) (f : Fld) : Nat := if f = F.LG_BASIC_STATE then s.rd F.LG_STAT_STATE i else bnat (legTripped s i)

def tripDv (s : State) (f : Fld) : Nat := if f = F.TRIP_BASIC_GROUPS then maskFld s F.BG_STAT_TRIPPED 6 else trippedLegs s

/-- The head of a capture queue, as CP_DATA shows it (R309). -/
def cpDv (s : State) (k : Nat) (f : Fld) : Nat :=
  let v := (capturePop s k).1
  if f = F.CP_DATA_VALUE then v % 2 ^ 24
  else if f = F.CP_DATA_RISE then v / 2 ^ 24 % 2
  else if f = F.CP_DATA_VALID then v / 2 ^ 25 % 2
  else cpNonempty s

/-- Core control. -/
def tcDv (s : State) (i : Nat) (f : Fld) : Nat :=
  let m (p : Nat → Bool) : Nat := maskOf 8 fun k => p (coreThread i k)
  if f = F.TC_THREADS_WAITING then m fun t => s.on F.HASTASK t && !eligible s t
  else if f = F.TC_THREADS_HALTED then m fun t => s.on F.HALTED t
  else m fun t => s.on F.HASTASK t

/-- Tasks in a state. -/
def taskCount (s : State) (st : Nat) : Nat := ((List.range 256).filter fun k => taskState s k == st).length

/-- Dispatcher. -/
def dspDv (s : State) (k : Nat) (f : Fld) : Nat :=
  if f = F.DSP_QDEPTH_CUR then qDepth s k else if f = F.DSP_STATUS_RUNNING then taskCount s 2 else taskCount s 1

/-- Firewalls. -/
def fwDv (s : State) (i : Nat) (f : Fld) : Nat :=
  if f = F.FW_BASIC_COUNT then s.rd F.FW_DENY_COUNT_COUNT i
  else if f = F.FW_RANGE_BASE_BASE then (fwRange i).1 else (fwRange i).2

/-- Supervisor pair. -/
def spDv (s : State) (f : Fld) : Nat :=
  if f = F.SP_BASIC_MODE then s.rd F.SP_STAT_MODE
  else if f = F.SP_REPLAY_COUNT then (s.q Q.replay).length
  else if f = F.SP_REPLAY_FULL then bnat (decide (16 ≤ (s.q Q.replay).length))
  else s.rd F.SENSE_M

/-- Check-value unit and crypto engine. -/
def cxDv (s : State) (f : Fld) : Nat :=
  if f = F.CV_BASIC_BUSY then maskFld s F.CX_STAT_BUSY 16 else maskFld s F.CX_STAT_MISMATCH 16

def crDv (s : State) (f : Fld) : Nat :=
  if f = F.CR_BASIC_BUSY then s.rd F.CR_STAT_BUSY
  else if f = F.CR_BASIC_RESULT then s.rd F.CR_STAT_RESULT
  else if f = F.CR_ROOT_REVOKED then s.rd F.FUSE_ROOT_REVOKE 0 + 2 * s.rd F.FUSE_ROOT_REVOKE 1
  else if f = F.CR_ROOT_EPOCH0 then s.rd F.FUSE_ROOT_EPOCH 0 else s.rd F.FUSE_ROOT_EPOCH 1

/-- Ports: `p` the port, `k` the register of a row. -/
def portDv (s : State) (p k : Nat) (f : Fld) : Nat :=
  if f = F.PT_STAT_TX_FREE then txFree s p
  else if f = F.PT_RX_POP_DATA then (rxPop s p).1
  else if f = F.USB_EPSTAT_FULL then usbFull s k
  else if f = F.USB_POP_DATA then (usbPop s k).1
  else if f = F.MOD_STAT_RDY then bnat (ballIn s 131)
  else if f = F.MOD_STAT_IRQ then bnat (ballIn s 130)
  else if f = F.SL_STAT_NOCRC then bnat (cxOn s 3).isNone
  else rxLevel s p

/-- NVM controller and keys block. -/
def nvmDv (s : State) (f : Fld) : Nat :=
  if f = F.NVM_BASIC_CORR then s.rd F.NVM_ECC_CORR_COUNT
  else if f = F.NVM_BASIC_UNC then s.rd F.NVM_ECC_UNC_COUNT
  else if f = F.NVM_ECC_DAY_COUNT then eccDay s
  else if f = F.NVM_TALLY_MAX_MAX then (tallyMax s).1
  else if f = F.NVM_TALLY_MAXPG_PAGE then (tallyMax s).2
  else s.rd F.PAGE_TALLY (s.rd F.NVM_TALLY_SEL_PAGE)

def keyDv (s : State) (f : Fld) : Nat :=
  if f = F.KEY_BASIC_STATE then s.rd F.KEY_STAT_STATE
  else if f = F.KEY_BASIC_RESULT then s.rd F.KEY_STAT_RESULT
  else bnat (dualStrict s)

/-- Debug block: the selected thread's registers (R709). -/
def dbgDv (s : State) (k : Nat) (f : Fld) : Nat :=
  let u := mainOf s (dbgSel s)
  if f = F.DBG_PC_PC then s.rd F.PC u / 4
  else if f = F.DBG_GPR_G then gpr s u k
  else if f = F.DBG_SYS_DATA_DATA then sysRead s u (s.rd F.DBG_SYS_NUM_NUM)
  else if f = F.DBG_REASON_REASON then (if dbgSel s < 40 then s.rd F.HREASON (dbgSel s) else 0)
  else if f = F.DBG_REASON_NUM then (if dbgSel s < 40 then s.rd F.HNUM (dbgSel s) else 0)
  else if f = F.DBG_HALTED1_HALTED then haltedMask s 1 else haltedMask s 0

/-- The value of a computed field of register `k` of instance `i`. -/
def derived (s : State) (b : Blk) (i k : Nat) (f : Fld) : Nat :=
  match b with
  | .stk => stkDv s f
  | .su => suDv s f
  | .pat => patDv s f
  | .xr => xrDv s f
  | .fab => s.rd F.FAB_DUP_COUNT
  | .ptm => ptmDv s k f
  | .pin => pinDv s k f
  | .ad => let n := s.rd F.AD_LAST i; if f = F.AD_BASIC_RES_STEP then n else s.rd F.AD_RES_VALUE i n
  | .csa => if f = F.CA_STAT_READY then maskFld s F.CA_OK 8 else maskFld s F.CA_CFG_EN 8
  | .cm => s.rd F.CM_COND_COND
  | .sw => if f = F.SW_BASIC_BUSY then s.rd F.SW_STAT_BUSY else s.rd F.SW_STAT_RESULT
  | .lg => lgDv s i f
  | .trip => tripDv s f
  | .st => if strobesInhibited s then 0xFF else 0
  | .cp => cpDv s k f
  | .qd => s.rd F.QD_POS_POS k
  | .hds => s.rd F.HDS_SLOT_FULL
  | .tc => tcDv s i f
  | .dsp => dspDv s k f
  | .fw => fwDv s i f
  | .sp => spDv s f
  | .dma => s.rd F.DMA_HALTED_HALTED
  | .dmg => dcState s (8 * i + k)
  | .cx => cxDv s f
  | .cr => crDv s f
  | .nvm => nvmDv s f
  | .key => keyDv s f
  | .tst => s.rd F.TST_LOCK_STATE
  | .dbg => dbgDv s k f
  | .usb => portDv s 0 k f
  | .eth => portDv s 1 k f
  | .uart => portDv s (2 + i) k f
  | .mod => portDv s 4 k f
  | .sl => portDv s 5 k f
  | _ => 0

/-! Reads. -/

/-- What one field of register `k` reads as: 0 where it is write-only or ticketed (R744). -/
def fieldValue (s : State) (b : Blk) (i k : Nat) (r : FieldRow) : Nat :=
  match r.acc with
  | .wo => 0
  | .tk => 0
  | .al => 0
  | .dv => derived s b i k r.f % 2 ^ r.f.w
  | _ => let x := fieldIdx b i k r.f; s.rd r.f x.1 x.2

/-- The offset is that of CX_POLY, CX_INIT, CX_XOROUT or CX_VALUE of a context, which hold WIDTH bits (R607). -/
def cxWide (off : Nat) : Bool := 0x100 ≤ off && off < 0x500 && 0x10 ≤ (off - 0x100) % 64 && (off - 0x100) % 64 ≤ 0x28

/-- The bits of register `k` that stand for something: PTM_DOM_CTRL4 has bits for the domains 128 to 135 alone (R2, R207). -/
def regBits (s : State) (l : Loc) (row : RegRow) (k : Nat) : Nat :=
  if l.b = .ptm ∧ l.off = 0x210 then 8 else if l.b = .cx ∧ cxWide l.off = true then cxWidth s k else 8 * row.w

/-- What register `k` of a row reads as; bits no field names are 0 (R2). -/
def regValue (s : State) (l : Loc) (row : RegRow) (k : Nat) : Nat :=
  lowBits (regBits s l row k) (((fieldsOf row).map fun r => fieldValue s l.b l.i k r * 2 ^ r.lo).foldl (· + ·) 0)

/-- What the identity and control area holds (R9, R745; BLK_VER: log entry 8). -/
def identValue (s : State) (l : Loc) : Nat :=
  let x := blkInfo l.b
  match l.off with
  | 0xF00 => x.type + l.i * 2 ^ 16 + (match x.die with | .b => 1 | .c => 2 | .m => 4) * 2 ^ 24
  | 0xF04 => (Config.blkVer x.type).toNat
  | 0xF08 => s.rd F.BAS_LOCK (locNum l) + 2 * s.rd F.EXP_LOCK (locNum l)
  | _ =>
    let d := locDomain l
    d + (if d = 255 then 2 else s.rd F.DOM_STATE d) * 2 ^ 8

/-- What a read of a register removes: the head of a capture queue or of a receive FIFO (R309, R630). -/
def afterRead (s : State) (l : Loc) (k : Nat) : State :=
  match l.b with
  | .cp => if 0x140 ≤ l.off ∧ l.off < 0x180 then (capturePop s k).2 else s
  | .usb => if 0x1E0 ≤ l.off then (usbPop s k).2 else s
  | .eth => if l.off = 0x11C then (rxPop s 1).2 else s
  | .uart => if l.off = 0x11C then (rxPop s (2 + l.i)).2 else s
  | .mod => if l.off = 0x11C then (rxPop s 4).2 else s
  | .sl => if l.off = 0x11C then (rxPop s 5).2 else s
  | _ => s

end Sys2Proof.Machine
end

