-- ==== Sys2Proof/Machine/RegWrite.lean ====
section
/-!
DEFINITION. What a write of a register does once it has reached it: the fields by their access codes (00_scope.md, Access
codes; R5, R50), then what the register's own rules add. Each block's part takes the state before the write (`s0`), the
state with the fields written (`s`), the instance, the register of its row, the offset and the value.
-/
namespace Sys2Proof.Machine

/-! Fields by their access codes. -/

/-- One field takes its part of the value `v`. -/
def fieldWrite (b : Blk) (i k v : Nat) (s : State) (r : FieldRow) : State :=
  let x := fieldIdx b i k r.f
  let w := v / 2 ^ r.lo % 2 ^ r.f.w
  match r.acc with
  | .rw => s.wr r.f w x.1 x.2
  | .w1c => s.wr r.f (clearBits (s.rd r.f x.1 x.2) w) x.1 x.2
  | .tl => s.wr r.f r.f.rst x.1 x.2
  | _ => s

/-- Every field of register `k` of a row takes its part of `v`: RW is written, W1C cleared by ones, a tally cleared by any
value; RO, PL, WO, W1S and TK hold nothing that a write changes by itself. -/
def plainWrite (s : State) (l : Loc) (row : RegRow) (k v : Nat) : State :=
  (fieldsOf row).foldl (fieldWrite l.b l.i k v) s

/-! What the registers of each block add. -/

def stkWrite (s : State) (off v : Nat) : State := if off = 0x128 then stkReset s (v.testBit 0) (v.testBit 1) else s

def suWrite (s : State) (off v : Nat) : State :=
  match off with
  | 0x8 => s.when (v.testBit 0) pwdKick
  | 0x120 => s.when (v.testBit 0) pwdKick
  | 0x100 =>
    let s := s.when (v.testBit 17) (·.up F.SU_TIER_RECOVER)
    let s := s.when (v.testBit 16) giveUp
    s.when (v.testBit 19) romDone
  | 0x110 => s.when (v.testBit 0) sysReset
  | 0x138 => ledgerClear s (v % 2 ^ F.LEDGER_CLR_CLR.w)
  | _ => s

def patWrite (s : State) (off v : Nat) : State :=
  if off = 0x158 then (s.when (v.testBit 0) liveGo).when (v.testBit 1) liveCancel else s

def ptmWrite (s0 s : State) (k off v : Nat) : State :=
  if off = 0x4 ∨ off = 0x104 then stateRequest s (s.rd F.PTM_STATE_REQ_REQ)
  else if off = 0x120 then clkReqWritten s
  else if 0x200 ≤ off ∧ off < 0x214 then domCtrlWritten s0 k v
  else s

def pinWrite (s : State) (off v : Nat) : State :=
  let s := if off = 0x4 ∨ off = 0x104 then gpFreed s (2 ^ 24 - 1)
    else if off = 0x108 ∨ off = 0x10C then gpFreed s v else s
  match off with
  | 0x108 => s.wr F.GP_OUT_VALUE (s.rd F.GP_OUT_VALUE ||| v % 2 ^ F.GP_SET_SET.w)
  | 0x10C => s.wr F.GP_OUT_VALUE (clearBits (s.rd F.GP_OUT_VALUE) (v % 2 ^ F.GP_CLR_CLR.w))
  | _ => s

def adWrite (s : State) (i off v : Nat) : State :=
  match off with
  | 0x0 => s.when (v.testBit 1) (adTrigger · i 1 true)
  | 0x10C => (s.when (v.testBit 0) (adTrigger · i 0 true)).when (v.testBit 1) (adTrigger · i 1 true)
  | _ => s

/-- The amplifiers: CA_BASIC writes EN of all eight (R7). -/
def csaWrite (s0 s : State) (k off v : Nat) : State :=
  if off = 0 then
    s.each (List.range 8) fun s n =>
      caChanged (s.wrb F.CA_CFG_EN (v.testBit n) n) n (s0.rd F.CA_CFG_EN n) (s0.rd F.CA_CFG_GAIN n)
  else if 0x100 ≤ off ∧ off < 0x120 then caChanged s k (s0.rd F.CA_CFG_EN k) (s0.rd F.CA_CFG_GAIN k)
  else s

/-- A comparator's CFG and DAC (R270). -/
def cmWrite (s0 s : State) (k off v : Nat) : State :=
  if off = 0x4 ∨ off = 0x288 then cmLatchClear s0 v
  else if 0x100 ≤ off ∧ off < 0x160 then
    (if cmLegUse s0 k && cmArmed s0 k then s0.bump F.CM_REFUSED_COUNT else cmCfgWrite s0 k v)
  else if 0x200 ≤ off ∧ off < 0x260 then (if cmLegUse s0 k then s0.bump F.CM_REFUSED_COUNT else s)
  else s

def swWrite (s : State) (off v : Nat) : State := if off = 0x114 ∧ v.testBit 0 then swGo s else s

/-- The slices: shadow registers land as R300 and R302 say; `put` is the plain write. -/
def ctWrite (s0 s : State) (i k off v : Nat) (put : State → State) : State :=
  if off = 0x4 then ctSoftShadow s0 i 0 put
  else if off = 0x10C then ctSoftShadow s0 i 4 put
  else if 0x120 ≤ off ∧ off < 0x130 then ctSoftShadow s0 i k put
  else if off = 0x118 then s.when (v.testBit 1) (ctTransferAll · i)
  else if off = 0x180 then s.each (onesOf v 16) fun s n => s.when (domOn s (15 + n / 2)) (·.up F.CT_CTRL_RUN n)
  else s

/-- LG_ARM (R316, R318, R321): ARM, then DISARM, then SWTRIP. -/
def lgArmWrite (s : State) (i v : Nat) : State :=
  let s := s.when (v.testBit 0) (legArm · i (v.testBit 2))
  let s := s.when (v.testBit 1) (legDisarm · i)
  s.when (v.testBit 3) (trip · [(i, 3)])

def lgWrite (s0 s : State) (i off v : Nat) : State :=
  match off with
  | 0x100 => if s0.rd F.LG_STAT_STATE i = 0 then s else s0.up F.LG_STAT_CFG_IGN i
  | 0x104 => if s0.rd F.LG_STAT_STATE i = 0 then s else s0.up F.LG_STAT_CFG_IGN i
  | 0x110 => lgArmWrite s i v
  | 0x114 => if legTripped s0 i then tripAgain (causesCleared s) i else s
  | _ => s

def tripWrite (s : State) (off v : Nat) : State := if off = 0x140 then s.each (onesOf v 6) groupArm else s

def leWrite (s : State) (k off v : Nat) : State :=
  match off with
  | 0x118 => leSwapWritten s false (v % 2 ^ F.LE_SWAP0_SWAP.w)
  | 0x11C => leSwapWritten s true (v % 2 ^ F.LE_SWAP1_SWAP.w)
  | 0x120 => leClrWritten s false (v % 2 ^ F.LE_CLR0_CLR.w)
  | 0x124 => leClrWritten s true (v % 2 ^ F.LE_CLR1_CLR.w)
  | _ => if 0x140 ≤ off ∧ off < 0x150 then ltRequest s k (v.testBit 1) (v.testBit 2) else s

/-- YANK was cleared (R413). -/
def yankWritten (s0 s : State) : State :=
  if s0.on F.YK_STAT_YANK && !s.on F.YK_STAT_YANK then routeFollow (s.wr F.YK_STAT_RUN 0) else s

def hdsWrite (s0 s : State) (k off v : Nat) : State :=
  match off with
  | 0x0 => yankWritten s0 (hdsEnChanged s (s0.on F.HDS_CTRL_EN))
  | 0x100 => hdsEnChanged s (s0.on F.HDS_CTRL_EN)
  | 0x124 => hdsCommit s v
  | 0x128 => s.when (v.testBit 0) lineStart
  | 0x14C => yankWritten s0 s
  | _ => if 0x184 ≤ off ∧ off < 0x190 ∧ off % 8 = 4 ∧ v.testBit 0 then dkFire s k else s

def hcuWrite (s0 s : State) (off v : Nat) : State :=
  let s := if !s0.on F.HCU_CTRL_EN && s.on F.HCU_CTRL_EN then ((s.wr F.HCU_SLOT 0).wr F.HCU_HELD 0).down F.HCU_STAT_BUSY else s
  if off = 0x100 ∧ v.testBit 2 then (s.wr F.HCU_H1 0).wr F.HCU_H2 0 else s

/-- A clear of TC_DFAULT, or of its Basic alias in bits 15 to 8 (R454). -/
def tcWrite (s0 : State) (s : State) (i off v : Nat) : State :=
  match off with
  | 0x0 => dfaultClear s0 i (v / 2 ^ 8 % 2 ^ 8)
  | 0x104 => dfaultClear s0 i (v % 2 ^ 8)
  | _ => s

def ccWrite (s : State) (i off v : Nat) : State := if off = 0x108 then ccInvWrite s i (v % 16) else s

def wdWrite (s : State) (i off v : Nat) : State := if off = 0x0 ∨ off = 0x120 then watchdogKick s i v else s

/-- The dispatcher (R498, R520, R522). -/
def dspWrite (s0 s : State) (off v : Nat) : State :=
  match off with
  | 0x0 => dispatchEnable s0 (v.testBit 16)
  | 0x100 => dispatchEnable s0 (v.testBit 0)
  | 0x8 => postTask s (v % 256)
  | 0x108 => postTask s (v % 256)
  | 0x1B0 => recoverTask s (v % 256)
  | _ => s

def mpuWrite (s : State) (i off v : Nat) : State :=
  if (off = 0x0 ∨ off = 0x100) ∧ v.testBit 1 then s.up F.MPU_CTRL_LOCK i else s

/-- The hinge bits: SPLIT, then REJOIN (R564). -/
def hingeWrite (s : State) (v : Nat) : State :=
  (s.when (v.testBit 0) (hingeRequest · false)).when (v.testBit 1) (hingeRequest · true)

/-- The supervisor pair (R564, R572, R576). -/
def spWrite (s : State) (off v : Nat) : State :=
  match off with
  | 0x4 => hingeWrite s v
  | 0x20C => hingeWrite s v
  | 0x208 =>
    let s := (s.when (v.testBit 1) (·.up F.INJ_C)).when (v.testBit 2) (·.up F.INJ_I)
    s.when (v.testBit 0) degradeRequest
  | _ => s

def dmaWrite (s : State) (off v : Nat) : State := if off = 0x180 ∧ v.testBit 0 then s.up F.DMA_CTRL_MID_LOCK else s

def dmgWrite (s0 s : State) (n off v : Nat) : State :=
  if off < 0x100 then dcCfgChanged s n (s0.on F.DC_CFG_EN n)
  else match off % 256 with
    | 0x00 => dcCfgChanged s n (s0.on F.DC_CFG_EN n)
    | 0x08 => s.when (v.testBit 0) (dcRing · n)
    | 0x10 => (s.when (v.testBit 0) (dcStop · n)).when (v.testBit 1) (dcClear · n)
    | 0x34 => dcRingMoved s n
    | _ => s

/-- The check-value unit: CV_BASIC clears MISMATCH bits; the contexts' commands and presets; the registers that hold WIDTH bits take no
others (R607, R609). -/
def cxWrite (s : State) (k off v : Nat) : State :=
  if off = 0 then s.each (onesOf (v / 2 ^ 16) 16) fun s x => s.down F.CX_STAT_MISMATCH x
  else if 0x100 ≤ off ∧ off < 0x500 then
    match (off - 0x100) % 64 with
    | 0x08 => (s.when (v.testBit 0) (cxStart · k)).when (v.testBit 1) (cxFinish · k)
    | 0x0C => cxPreset s k (v % 2 ^ F.CX_PRESET_CODE.w)
    | 0x10 => s.wr F.CX_POLY_POLY (cxCut s k v) k
    | 0x18 => s.wr F.CX_INIT_INIT (cxCut s k v) k
    | 0x20 => s.wr F.CX_XOROUT_XOROUT (cxCut s k v) k
    | 0x28 => s.wr F.CX_VALUE_S (cxCut s k v) k
    | _ => s
  else s

def crWrite (s : State) (off v : Nat) : State :=
  if off = 0x100 then crCommand s (v % 2 ^ F.CR_CMD_OP.w) (v / 2 ^ 4 % 2 ^ F.CR_CMD_KIND.w) else s

/-- The registers every port has (R627, R628): a push or a stream write; a change of PT_CTRL. -/
def portWrite (s0 s : State) (p off v : Nat) : State :=
  match off with
  | 0x110 => pushApply s p (v % 2 ^ 32) (v / 2 ^ 32 % 4 + 1) (v / 2 ^ 35 % 16)
  | 0x118 => pushApply s p v 4 0
  | 0x0 => if isUart p then uartXoff (uartRts s p) p else if p = 5 then slEnChanged s (s0.on F.PT_CTRL_EN 5) else s
  | 0x100 => if isUart p then uartXoff (uartRts s p) p else if p = 5 then slEnChanged s (s0.on F.PT_CTRL_EN 5) else s
  | _ => s

def usbWrite (s0 s : State) (k off v : Nat) : State :=
  if off = 0x140 then s.when (v.testBit 2) usbRwake
  else if off = 0x148 then usbAddrWritten s
  else if 0x1C0 ≤ off ∧ off < 0x1E0 then pushApply s 0 v 4 k
  else portWrite s0 s 0 off v

def ethWrite (s0 s : State) (off v : Nat) : State := if off = 0x160 then mdioCmd s v else portWrite s0 s 1 off v

def uartWrite (s0 s : State) (i off v : Nat) : State :=
  if off = 0x148 then uartXoff (uartRts s (2 + i)) (2 + i) else portWrite s0 s (2 + i) off v

def nvmWrite (s : State) (off v : Nat) : State := if off = 0x128 ∧ v.testBit 0 then tallySaveStart s else s

def keyWrite (s : State) (k off v : Nat) : State :=
  if off = 0x190 then keyCommit s (v % 2 ^ F.KEY_COMMIT_SLOT.w)
  else if 0x1E0 ≤ off ∧ off < 0x200 then ctrRaise s k v
  else s

def tstWrite (s : State) (off v : Nat) : State :=
  match off with
  | 0x100 => s.when (v.testBit 8) lockWrite
  | 0x108 => fuseProg s (v % 2 ^ F.TST_FUSE_PROG_BITS.w)
  | _ => s

/-- The debug block (R703, R707, R709). -/
def dbgWrite (s : State) (k off v : Nat) : State :=
  match off with
  | 0x100 => dbgHalt s 0 v
  | 0x104 => dbgHalt s 1 v
  | 0x108 => dbgResume s 0 v
  | 0x10C => dbgResume s 1 v
  | 0x110 => dbgStep s 0 v
  | 0x114 => dbgStep s 1 v
  | 0x128 => dbgWriteThread s 16 v
  | 0x184 => dbgWriteThread s (17 + s.rd F.DBG_SYS_NUM_NUM) v
  | _ => if 0x140 ≤ off ∧ off < 0x180 then dbgWriteThread s k v else s

/-- What register `k` at a place does with the value `v`: its fields, then what its own rules add. -/
def regWrite (s0 : State) (l : Loc) (row : RegRow) (k v : Nat) : State :=
  let put (s : State) : State := plainWrite s l row k v
  let s := put s0
  match l.b with
  | .stk => stkWrite s l.off v
  | .su => suWrite s l.off v
  | .pat => patWrite s l.off v
  | .ptm => ptmWrite s0 s k l.off v
  | .pin => pinWrite s l.off v
  | .ad => adWrite s l.i l.off v
  | .csa => csaWrite s0 s k l.off v
  | .cm => cmWrite s0 s k l.off v
  | .sw => swWrite s l.off v
  | .ct => ctWrite s0 s l.i k l.off v put
  | .lg => lgWrite s0 s l.i l.off v
  | .trip => tripWrite s l.off v
  | .le => leWrite s k l.off v
  | .hds => hdsWrite s0 s k l.off v
  | .hcu => hcuWrite s0 s l.off v
  | .tc => tcWrite s0 s l.i l.off v
  | .cc => ccWrite s l.i l.off v
  | .wd => wdWrite s l.i l.off v
  | .dsp => dspWrite s0 s l.off v
  | .mpu => mpuWrite s l.i l.off v
  | .sp => spWrite s l.off v
  | .dma => dmaWrite s l.off v
  | .dmg => dmgWrite s0 s (8 * l.i + k) l.off v
  | .cx => cxWrite s k l.off v
  | .cr => crWrite s l.off v
  | .usb => usbWrite s0 s k l.off v
  | .eth => ethWrite s0 s l.off v
  | .uart => uartWrite s0 s l.i l.off v
  | .mod => portWrite s0 s 4 l.off v
  | .sl => portWrite s0 s 5 l.off v
  | .nvm => nvmWrite s l.off v
  | .key => keyWrite s k l.off v
  | .tst => tstWrite s l.off v
  | .dbg => dbgWrite s k l.off v
  | _ => s

/-- The ticket a write of a ticketed register carries (R168). -/
def ticketOf (row : RegRow) (v : Nat) : Nat :=
  if row.fields.any fun r => r.acc == .tk && r.lo == 48 then v / 2 ^ 48 % 2 ^ 16 else 0

/-- The register is ticketed. -/
def ticketed (row : RegRow) : Bool := row.fields.any fun r => r.acc == .tk && r.lo == 48

end Sys2Proof.Machine
end

