-- ==== Sys2Proof/Machine/Bus.lean ====
section
/-!
DEFINITION. Requests of the fabric (04_fabric_and_address_map.md): where a request ends up, in the order of R166, and what
it then does. A request that its target holds (R174, R175, R575, R629, R646) waits in `held`.
-/
namespace Sys2Proof.Machine

/-- Why a request is held: its domain is powering up (R174), a live re-pattern loads its block (R175), a FIFO has no room (R629), a
management frame runs (R646), the replay log is full (R575), bytes of its check-value context wait for a slice (R609, R621), or it
cannot set out over the links (R24, R164). -/
inductive HoldWhy where
  | power | live | room | mdio | replay | feed | link
deriving DecidableEq, Repr

/-- Where a request ends up: answered with a code, refused by a firewall, held, or served by a memory, by a thread's own
local memory (at its alias), by an identity area, by the head buffer, by a feed window or by register `k` of a row. -/
inductive Gate where
  | code (c : Code)
  | deny (f : Nat)
  | hold (w : HoldWhy)
  | mem
  | own (a : Nat)
  | ident (l : Loc)
  | buf
  | feed (x : Nat)
  | reg (l : Loc) (row : RegRow) (k : Nat)
deriving DecidableEq, Repr

/-! Refusals. -/

/-- R10: a lock bit of the block covers a write at the place. The dispatcher's arrays are no part of a view (R493). -/
def lockRefuses (s : State) (l : Loc) : Bool :=
  if l.off < 0x100 then s.on F.BAS_LOCK (lockNum l) else if l.off < 0xF00 then s.on F.EXP_LOCK (lockNum l) else false

/-- The level of the request's thread is user level; no other master has one (R533). -/
def userRequest (r : Held) : Bool := match r.who with | .thread _ => !r.priv | _ => false

/-- R535: a register of the MPU that LOCK protects. -/
def mpuLocked (off : Nat) : Bool := off == 0 || off == 0x100 || (0x200 ≤ off && off < 0x300)

/-- The debug block's thread registers (R709). -/
def dbgThreadReg (off : Nat) : Bool := off == 0x128 || (0x140 ≤ off && off < 0x180) || off == 0x184

/-- The refusals that blocks make of their own, as FIREWALL: of any access. -/
def accessRefused (s : State) (r : Held) (l : Loc) : Bool :=
  match l.b with
  | .mpu => userRequest r
  | .dbg => midOf s r.who != 47 || (dbgThreadReg l.off && !selHalted s)
  | _ => false

/-- The same of a write of `v`: R72, R95, R390, R535, R576, R581, R602, R610, R613, R634. -/
def writeRefused (s : State) (r : Held) (l : Loc) : Bool :=
  let v := r.data
  match l.b with
  | .su => (l.off == 0x138 && !lockOpen s) || (l.off == 0x100 && v.testBit 16 && !s.on F.SU_TIER_ROM_PHASE)
  | .hds => (l.off == 0x124 || (0x800 ≤ l.off && l.off < 0xC00)) && s.on F.HDS_CTRL_OWNER && midOf s r.who != 44
  | .mpu => s.on F.MPU_CTRL_LOCK l.i && mpuLocked l.off
  | .sp => l.off == 0x208 && (v.testBit 1 || v.testBit 2) && !lockOpen s
  | .dma => 0x100 ≤ l.off && l.off < 0x180 &&
      (s.on F.DMA_CTRL_MID_LOCK || !(dcState s ((l.off - 0x100) / 4) == 0 || dcState s ((l.off - 0x100) / 4) == 5))
  | .dmg => 0x100 ≤ l.off && l.off % 256 == 4 &&
      (let n := 8 * l.i + (l.off - 0x100) / 256; !(dcState s n == 0 || dcState s n == 4 || dcState s n == 5))
  | .cx =>
    if 0x100 ≤ l.off ∧ l.off < 0x500 then
      let x := (l.off - 0x100) / 64
      match (l.off - 0x100) % 64 with
      | 0x00 => cxFixed s x || cxBindTaken s x v
      | 0x0C => cxFixed s x
      | 0x10 => cxFixed s x
      | 0x18 => cxFixed s x
      | 0x20 => cxFixed s x
      | 0x28 => cxFixed s x
      | _ => false
    else 0x600 ≤ l.off && l.off < 0x800 && cxFeedRefused s ((l.off - 0x600) / 32)
  | .usb => 0x154 ≤ l.off && l.off < 0x170 && usbCfgRefused s ((l.off - 0x154) / 4 + 1) v
  | _ => false

/-- The place refuses the request with FIREWALL; a lock refuses an atomic operation as the write it would be (DEDUCED, log
entry 23). -/
def placeRefuses (s : State) (r : Held) (l : Loc) : Bool :=
  l.off % 0x1000 < 0xF00 &&
    (accessRefused s r l || ((r.op == 1 || r.op == 3 || r.op == 4) && lockRefuses s l) || (r.op == 1 && writeRefused s r l))

/-! Powered-down and held places. -/

/-- The state of the place's domain: 0 off, 1 powering up, 2 on, 3 draining (R9, R171). The PTM answers in RUN, DOZE and NAP
only (R181). -/
def placeState (s : State) (l : Loc) : Nat :=
  if l.b = .ptm then (if s.rd F.PTM_STATE_CUR ≤ 2 then 2 else 0)
  else if locDomain l = 255 then 2 else s.rd F.DOM_STATE (locDomain l)

/-- A live re-pattern is loading the place (R175). -/
def placeLoading (s : State) (l : Loc) : Bool := liveLoads s (blkInfo l.b).type

/-- The port of a push or stream write at the place, the bytes it brings and its endpoint; none for any other write. -/
def pushOf (l : Loc) (v : Nat) : Option (Nat × Nat × Nat) :=
  match l.b with
  | .usb => if l.off = 0x110 then some (0, v / 2 ^ 32 % 4 + 1, v / 2 ^ 35 % 16)
      else if 0x1C0 ≤ l.off ∧ l.off < 0x1E0 then some (0, 4, (l.off - 0x1C0) / 4) else none
  | .eth => if l.off = 0x110 then some (1, v / 2 ^ 32 % 4 + 1, 0) else if l.off = 0x118 then some (1, 4, 0) else none
  | .uart => if l.off = 0x110 then some (2 + l.i, v / 2 ^ 32 % 4 + 1, 0) else if l.off = 0x118 then some (2 + l.i, 4, 0) else none
  | .mod => if l.off = 0x110 then some (4, v / 2 ^ 32 % 4 + 1, 0) else if l.off = 0x118 then some (4, 4, 0) else none
  | .sl => if l.off = 0x110 then some (5, v / 2 ^ 32 % 4 + 1, 0) else if l.off = 0x118 then some (5, 4, 0) else none
  | _ => none

/-- The write is the duplicate of one that took effect (R168). -/
def isDuplicate (s : State) (r : Held) (l : Loc) (row : RegRow) : Bool :=
  ticketed row && ticketSeen s (locNum l) (midOf s r.who) (ticketOf row r.data)

/-- Why the register holds the request, if it does. -/
def regHolds (s : State) (r : Held) (l : Loc) (row : RegRow) : Option HoldWhy :=
  if r.op = 0 then
    (if l.b = .eth ∧ l.off = 0x164 ∧ s.on F.ETH_MDIO_DATA_BUSY then some .mdio else none)
  else if l.b = .dbg ∧ dbgThreadReg l.off ∧ replayFull s then some .replay
  else match pushOf l r.data with
    | some (p, n, e) => if isDuplicate s r l row || pushRoom s p n e then none else some .room
    | none => none

/-- A register that its own rules do not give in this form: a push of another size than a word to a framed port (R627), the
stream and pop registers that the USB block replaces by one for each endpoint (R628, R630), and a system register that does
not exist (R709). -/
def noSuch (s : State) (r : Held) (l : Loc) : Bool :=
  (l.b == .usb && (l.off == 0x118 || l.off == 0x11C)) ||
    (l.b == .dbg && l.off == 0x184 && !sysReg (s.rd F.DBG_SYS_NUM_NUM)) ||
    (r.op == 1 && l.off == 0x110 && match pushOf l r.data with | some (p, n, _) => !pushSizeOk p n | none => false)

/-- R203, R282: the arming request completes with BUSY. -/
def armRefused (s : State) (r : Held) (l : Loc) : Bool :=
  r.op == 1 &&
    match l.b with
    | .lg => l.off == 0x110 && r.data.testBit 0 && armBusy s l.i
    | .trip => l.off == 0x140 && (onesOf r.data 6).any fun g => (groupLegs s g).any (armBusy s)
    | _ => false

/-! Feed windows of the check-value unit (R613, R621). -/

/-- The context whose feed window the request writes. -/
def feedOf (r : Held) : Option Nat :=
  match locate r.who r.addr with
  | some l => if l.b = .cx ∧ r.op = 1 ∧ 0x600 ≤ l.off ∧ l.off < 0x800 then some ((l.off - 0x600) / 32) else none
  | none => none

/-- The feed writes that wait in context `x`, oldest first: those within its 32 bytes, and behind them the ones held at the block. -/
def cxWaiting (s : State) (x : Nat) : List Held := s.held.filter fun r => feedOf r == some x

/-- Of writes in a row, the leading ones that come to at most `n` bytes: what one context holds, and one slice folds (R620, R621). -/
def within (n : Nat) : List Held → List Held
  | [] => []
  | r :: rest => if r.size ≤ n then r :: within (n - r.size) rest else []

/-- A write to context `x` waits: bytes of a port path go first (R620), or earlier writes to it wait. -/
def cxFeedWaits (s : State) (x : Nat) : Bool := (List.range 16).any (cxPortReady s) || !(cxWaiting s x).isEmpty

/-! Where a request ends up. -/

/-- A request at a place of register space, past die and firewall (R9, R166, R181). -/
def gateAt (s : State) (r : Held) (l : Loc) : Gate :=
  if placeRefuses s r l then .code .firewall
  else if l.b = .ptm ∧ 3 ≤ s.rd F.PTM_STATE_CUR then .code .pdown
  else if 0xF00 ≤ l.off ∧ l.off < 0x1000 then
    (if r.op ≤ 1 ∧ r.size = 4 ∧ l.off % 4 = 0 ∧ l.off < 0xF10 then .ident l else .code .decode)
  else if placeState s l = 1 then .hold .power
  else if placeState s l ≠ 2 then .code .pdown
  else if 1 < r.op then .code .decode
  else if l.b = .hds ∧ 0x800 ≤ l.off ∧ l.off < 0xC00 then
    (if r.addr % r.size = 0 ∧ (if r.op = 0 then r.size = 4 else (r.size = 4 ∨ r.size = 8 ∨ r.size = 32)) then .buf else .code .decode)
  else if l.b = .cx ∧ 0x600 ≤ l.off ∧ l.off < 0x800 then
    (if !alignedReq r.addr r.size then .code .decode
    else if r.op = 1 ∧ cxFeedWaits s ((l.off - 0x600) / 32) = true then .hold .feed
    else .feed ((l.off - 0x600) / 32))
  else match regAt l with
    | none => .code .decode
    | some (row, k) =>
      if r.size ≠ row.w ∨ noSuch s r l then .code .decode
      else if placeLoading s l then .hold .live
      else if l.b = .cx ∧ 0x100 ≤ l.off ∧ l.off < 0x500 ∧ (cxWaiting s ((l.off - 0x100) / 64)).isEmpty = false then .hold .feed
      else match regHolds s r l row with
        | some w => .hold w
        | none => if armRefused s r l then .code .busy else .reg l row k

/-- Where a request that sets out ends up (R166). -/
def gateThere (s : State) (r : Held) : Gate :=
  if !dieAnswers s r.who r.addr then .code .absent
  else match fwRefuses s r.who r.op r.addr with
    | some f => .deny f
    | none =>
      match ownAlias r with
      | some a => .own a
      | none =>
        match targetOf r.addr with
        | .block => (match locate r.who r.addr with | some l => gateAt s r l | none => .code .decode)
        | .unmapped => (match locate r.who r.addr with | some l => gateAt s r l | none => .code .decode)
        | t => if targetDomain t ≠ 255 ∧ s.rd F.DOM_STATE (targetDomain t) = 1 ∧ ¬(r.op = 1 ∧ nvmProtected r.addr = true) then .hold .power
          else .mem

/-- Where a request ends up, once it can set out. -/
def gate (s : State) (r : Held) : Gate := if linkHolds s r then .hold .link else gateThere s r

/-! Serving. -/

/-- A duplicate is counted where its block counts them (R498, R586). -/
def countDuplicate (s : State) (l : Loc) (k : Nat) : State :=
  match l.b with
  | .dsp => s.bump F.DSP_DUPS_COUNT
  | .dmg => s.bump F.DC_TALLY_DUP (8 * l.i + k)
  | _ => s

/-- A write reaches register `k` at a place (R168, R169). -/
def writeReg (s : State) (r : Held) (l : Loc) (row : RegRow) (k : Nat) : State :=
  if isDuplicate s r l row then respond (countDuplicate s l k) r ⟨.ok, true, 0⟩
  else
    let s := if ticketed row then ticketTake s (locNum l) (midOf s r.who) (ticketOf row r.data) else s
    respondCode (padsFreed s (routeFollow (regWrite s l row k r.data)) l.b l.i) r .ok

/-- A read reaches register `k` at a place. -/
def readReg (s : State) (r : Held) (l : Loc) (row : RegRow) (k : Nat) : State :=
  respondData (afterRead s l k) r (regValue s l row k)

/-- What a request that has set out does where it has ended up; a held one does nothing yet. -/
def serveAt (s : State) (r : Held) (g : Gate) : State :=
  match g with
  | .code c => respondCode s r c
  | .deny f => respondCode (fwRefuse s f (midOf s r.who) r.op r.addr) r .firewall
  | .hold _ => s
  | .mem => memServe s r
  | .own a =>
    let t := targetOf a
    (match r.op with
    | 0 => memRead s { r with addr := a } t
    | 1 => memWrite s { r with addr := a } t
    | 3 => memAtomic s { r with addr := a } t
    | 4 => memAtomic s { r with addr := a } t
    | _ => respondCode s r .decode)
  | .ident l => if r.op = 0 then respondData s r (identValue s l) else respondCode s r .ok
  | .buf => if r.op = 0 then respondData s r (s.mget r.addr 4) else respondCode (s.mset r.addr r.size r.data) r .ok
  | .feed x => if r.op = 0 then respondData s r 0 else respondCode (cxFold s x (toBytes r.size r.data)) r .ok
  | .reg l row k => if r.op = 0 then readReg s r l row k else writeReg s r l row k

/-- A request sets out, where nothing holds it, and is served. -/
def serveOne (s : State) (r : Held) (g : Gate) : State :=
  match g with
  | .hold _ => s
  | g => serveAt (setsOut s r) r g

/-- The target of a request is draining; of the requests held for it, those it accepted before wait for R172. -/
def heldDrains (s : State) (r : Held) : Bool := heldDomain r != 255 && s.rd F.DOM_STATE (heldDomain r) == 3


/-- A request of a unit that issues one itself is held: behind others of its master, by the links or by its target. -/
def holds (s : State) (r : Held) : Bool := mustWait s r || match gate s r with | .hold _ => true | _ => false

/-! Held requests. -/

/-- A held request is tried again: served now, or held on. One that a domain accepted before it began to drain is served as before,
until R172 ends it. -/
def retryHeld (s : State) (r : Held) : State :=
  if mustWait s r then { s with held := s.held ++ [r] }
  else match gate (if heldDrains s r then s.wr F.DOM_STATE 2 (heldDomain r) else s) r with
    | .hold _ => { s with held := s.held ++ [r] }
    | g => serveOne s r g

/-- Held requests that can now be served are served, in the order of their arrival (R159, R174, R175). -/
def releaseHeld (s : State) : State := s.held.foldl retryHeld { s with held := [] }

/-- A request is served, and where it has ended the load of a delta, what that load held goes on (R142, R175). -/
def serve (s : State) (r : Held) (g : Gate) : State :=
  let t := serveOne s r g
  if s.rd F.PAT_LIVE_STAT_STATE = 2 ∧ t.rd F.PAT_LIVE_STAT_STATE ≠ 2 then { releaseHeld t with resp := t.resp } else t

/-- A request of a live master is issued (R750): it is served at once, or held, by its target or at the master's own interface. -/
def busRequest (s : State) (r : Held) : State :=
  if !masterLive s r.who then s
  else if mustWait s r && !heldDrains s r then { s with held := s.held ++ [r] }
  else match gate s r with
    | .hold _ => { s with held := s.held ++ [r] }
    | g => serve s r g

/-- Held requests that satisfy `p` are answered with a code. -/
def answerHeld (s : State) (p : Held → Bool) (c : Code) : State :=
  (s.held.filter p).foldl (fun s r => respondCode s r c) { s with held := s.held.filter fun r => !p r }

/-- The block has accepted the held request: it waits there for the block's own reason. -/
def accepted (s : State) (r : Held) : Bool :=
  match gate { s with held := s.held.takeWhile (· != r) } r with
  | .hold .room => true | .hold .mdio => true | .hold .replay => true | .hold .feed => true | _ => false

/-- R171, R176: domain `d` has begun to drain; the requests held for it that it had not accepted complete with PDOWN. `s0` is the state
before. -/
def drainHeld (s0 s : State) (d : Nat) : State := answerHeld s (fun r => heldDomain r == d && !accepted s0 r) .pdown

/-- The oldest held request of master `who` whose hold satisfies `p` is answered with `c`; a push is counted in TX_FULL
(R629). -/
def expireHeld (s : State) (who : Master) (p : HoldWhy → Bool) (c : Code) : State :=
  let due (r : Held) : Bool := decide (r.who = who) && match gate s r with | .hold w => p w | _ => false
  match s.held.find? due with
  | none => s
  | some r =>
    let full := match gate s r, locate r.who r.addr with
      | .hold .room, some l => s.bump F.PT_TALLY_TX_FULL (portOf l.b l.i)
      | _, _ => s
    respondCode { full with held := s.held.eraseP due } r c

end Sys2Proof.Machine
end

