-- ==== Sys2Proof/Machine/DebugRows.lean ====
section
/-!
DEFINITION. The commands of the TAP, of the debug access port and of the test ball (20_debug_and_test.md). TAP_DR holds what
Capture-DR loads after a command.
-/
namespace Sys2Proof.Machine

/-! The TAP. -/

/-- A boundary-scan instruction (R698, R700, R701): the chain is captured and `cells` are updated. Where the instruction is
not allowed it acts as BYPASS, whose bit captures 0. -/
def scanSelect (s : State) (ir cells : Nat) : State :=
  let t := tapSelect s ir
  if t.rd F.TAP_IR = ir then (t.wr F.BSR cells).wr F.TAP_DR (scanCapture s) else t.wr F.TAP_DR 0

/-- An instruction whose data register is the bypass bit (R698). -/
def bypassSelect (s : State) (ir : Nat) : State := (tapSelect s ir).wr F.TAP_DR 0

/-- TAP_DBG_ACC (R702). -/
def accSelect (s : State) : State :=
  let s := tapSelect s 8
  s.wr F.TAP_DR (if s.rd F.TAP_IR = 8 then accCapture s else 0)

/-- TAP_STACK_RESET (R52, R698). -/
def tapStackReset (s : State) : State :=
  let s := bypassSelect s 0xA
  if s.rd F.TAP_IR = 0xA then bReset s F.RST_CAUSE_DEBUG else s

/-! The debug access port (R702, R757). -/

/-- The open request of master 47. A write's ticket stands in the upper half of its data. -/
def accRequest (s : State) : Held :=
  ⟨.unit 47, true, s.rd F.ACC_WRITE, s.rd F.ACC_ADDR, if s.on F.ACC_WIDE then 8 else 4, s.rd F.ACC_DATA⟩

/-- The response is held for Capture-DR. -/
def accAnswered (s : State) : State := ((s.down F.ACC_BUSY).wr F.ACC_RCODE s.resp.code.num).wr F.ACC_RDATA s.resp.data

/-- DBG_ACC_RESPONSE (R702): the target takes the request and answers it; while it holds the request there is no response. -/
def accRespond (s : State) : State :=
  if !s.on F.ACC_BUSY || holds s (accRequest s) then s else accAnswered (busRequest s (accRequest s))

/-- The open request, held by its target, completes with `c` (R174, R175, R629). -/
def accExpire (s : State) (p : HoldWhy → Bool) (c : Code) : State :=
  let r := accRequest s
  if s.on F.ACC_BUSY && (match gate s r with | .hold w => p w | _ => false) then
    let s := match gate s r, locate r.who r.addr with
      | .hold .room, some l => s.bump F.PT_TALLY_TX_FULL (portOf l.b l.i)
      | _, _ => s
    accAnswered (respondCode s r c)
  else s

/-! The commands. -/

/-- TAP_RESET (R698). -/
def execTapReset (s : State) : Out := .next (tapReset s)
/-- TAP_EXTEST (R700, R701). -/
def execTapExtest (cells : BitVec 311) (s : State) : Out := .next (scanSelect s 0 cells.toNat)
/-- TAP_SAMPLE_PRELOAD (R698, R700). -/
def execTapSamplePreload (cells : BitVec 311) (s : State) : Out := .next (scanSelect s 1 cells.toNat)
/-- TAP_IDCODE (R699). -/
def execTapIdcode (s : State) : Out := .next ((tapSelect s 2).wr F.TAP_DR idcode)
/-- TAP_CLAMP (R701). -/
def execTapClamp (s : State) : Out := .next (bypassSelect s 3)
/-- TAP_HIGHZ (R701). -/
def execTapHighz (s : State) : Out := .next (bypassSelect s 4)
/-- TAP_DBG_ACC (R702). -/
def execTapDbgAcc (s : State) : Out := .next (accSelect s)
/-- TAP_BYPASS (R698). -/
def execTapBypass (s : State) : Out := .next (bypassSelect s 0x1F)
/-- TAP_STACK_RESET (R698). -/
def execTapStackReset (s : State) : Out := .next (tapStackReset s)
/-- TAP_DBG_AUTH (R713). -/
def execTapDbgAuth (s : State) : Out := .next (authSelect s)
/-- DBG_AUTH_SUBMIT (R713): bits [519:0] of the data register. -/
def execDbgAuthSubmit (dr : BitVec 520) (s : State) : Out := .next (authSubmit s dr.toNat)
/-- DBG_AUTH_VERIFIED (R713, R714). -/
def execDbgAuthVerified (s : State) : Out := .next (authVerified s)
/-- DBG_AUTH_LOCKOUT_END (R714). -/
def execDbgAuthLockoutEnd (s : State) : Out := .next (authLockoutEnd s)
/-- DBG_ACC_GO (R702): bits [98:0] of the data register. -/
def execDbgAccGo (dr : BitVec 99) (s : State) : Out := .next (accGo s dr.toNat)
/-- DBG_ACC_RESPONSE (R702). -/
def execDbgAccResponse (s : State) : Out := .next (accRespond s)
/-- DBG_HALTED (R703, R706). -/
def execDbgHalted (t : Fin 40) (s : State) : Out := .next (dbgHalted s t.val)
/-- TEST_EN_RISE (R716). -/
def execTestEnRise (s : State) : Out := .next (s.up F.TST_STAT_TEST_SEEN)

end Sys2Proof.Machine
end

