-- ==== Sys2Proof/Machine/DmaRows.lean ====
section
/-!
DEFINITION. The requests of the DMA channels (16_dma.md): fetches, data and completions. A request that its target holds is
not answered yet, and its command then does nothing.
-/
namespace Sys2Proof.Machine

/-- A request of channel `n`. -/
def dcRequest (n op a z v : Nat) : Held := ⟨.dma (Fin.ofNat 32 n), true, op, a, z, v⟩

/-- The request is held at its interface (R152), at a link or at its target, or the channel can issue none. -/
def dcWaits (s : State) (n : Nat) (r : Held) : Bool := !dcRuns s n || !masterLive s r.who || holds s r

/-- The request is served; the answer stands in `resp`. A duplicate is counted (R599). -/
def dcServe (s : State) (n : Nat) (r : Held) : State :=
  let s := serve s r (gate s r)
  if r.op = 1 ∧ s.resp.dup then s.bump F.DC_TALLY_DUP n else s

/-- DC_CUR as an address. -/
def dcCurAddr (s : State) (n : Nat) : Nat := 32 * s.rd F.DC_CUR_CUR n

/-- The read of the next descriptor. -/
def dcFetchRequest (s : State) (n : Nat) : Held := dcRequest n 0 (32 * s.rd F.DC_NEXT_NEXT n) 32 0

/-- DESCRIPTOR_FETCHED (R584, R588, R600). -/
def dcFetch (s : State) (n : Nat) : State :=
  let r := dcFetchRequest s n
  if dcState s n ≠ 1 ∨ dcWaits s n r then s
  else
    let s := dcServe s n r
    if okay s then dcFetched s n s.resp.data else dcHalt s n r.addr 0 s.resp.code.num 1

/-- A paced channel takes up a request of its source (R593, R594). -/
def dcAsked (s : State) (n : Nat) : State :=
  let src := s.rd F.DC_CFG_REQ_SRC n
  paceBegin s n (paceLatched s src || portAsks s src)

/-- DMA_READ_RESPONSE (R591, R594, R600). -/
def dcReadStep (s : State) (n : Nat) : State :=
  if dcState s n ≠ 2 ∨ !dcRuns s n then s
  else
    let s := dcAsked s n
    match dcNextRead s n with
    | none => s
    | some (a, z) =>
      let r := dcRequest n 0 a z 0
      if dcWaits s n r then s
      else
        let s := dcServe s n r
        if okay s then
          let l := (toBytes z s.resp.data).map (·.toNat)
          let s := (s.setq Q.dmaBuf (s.q Q.dmaBuf n ++ l) n).wr F.DC_RDONE (s.rd F.DC_RDONE n + z) n
          paceDone s n
        else dcHalt s n a 0 s.resp.code.num 2

/-- DMA_WRITE_RESPONSE (R591, R595, R599 to R601). -/
def dcWriteStep (s : State) (n : Nat) : State :=
  if dcState s n ≠ 2 ∨ !dcRuns s n then s
  else
    match dcNextWrite s n with
    | none => s
    | some (a, z) =>
      let buf := s.q Q.dmaBuf n
      let r := dcRequest n 1 a z (ofBytes ((buf.take z).map (BitVec.ofNat 8)))
      if dcWaits s n r then s
      else
        let s := dcServe s n r
        if okay s then
          let s := (s.setq Q.dmaBuf (buf.drop z) n).wr F.DC_WDONE (s.rd F.DC_WDONE n + z) n
          if s.rd F.DC_WDONE n = s.rd F.DC_LEN n then s.wr F.DC_STAT_STATE 3 n else s
        else dcHalt s n a 1 s.resp.code.num 2

/-- A completion write of `z` bytes; a failure halts the channel. Answers whether it was OK. -/
def dcPut (s : State) (n a z v : Nat) : State × Bool :=
  let s := dcServe s n (dcRequest n 1 a z v)
  if okay s then (s, true) else (dcHalt s n a 1 s.resp.code.num 3, false)

/-- The bytes moved and the status code (R582, R596). -/
def dcStatusWord (s : State) (n : Nat) : Nat := s.rd F.DC_WDONE n + s.rd F.DC_STAT_STATUS n * 2 ^ 28

/-- CTRL as fetched, but with OWN 0. -/
def dcCtrlWord (s : State) (n : Nat) : Nat := putBit (s.rd F.DC_DCTRL n) 0 false

/-- The completion writes are done (R584, R589, R598, R600). -/
def dcCompleted (s : State) (n : Nat) : State :=
  let code := s.rd F.DC_STAT_STATUS n
  let s := (((s.postIf (dcCtl s n 10) (192 + n)).bump F.DC_TALLY_DESCS n).wr F.DC_NEXT_NEXT (s.rd F.DC_DNEXT n / 32) n).down F.DC_CTLDONE n
  let s := s.wr F.DC_WDONE 0 n
  if code ≠ 1 then dcHalt s n (dcCurAddr s n) 0 0 4
  else if dcCtl s n 11 then (s.wr F.DC_STAT_STATE 0 n).down F.DC_STAT_RESCAN n
  else s.wr F.DC_STAT_STATE 1 n


/-- The record of a completed descriptor (R596). -/
def dcRecord (s : State) (n : Nat) : Nat :=
  dcCurAddr s n + dcStatusWord s n * 2 ^ 32 + s.rd F.DC_DCTRL n / 2 ^ 16 * 2 ^ 64 + s.rd F.DC_RECN n * 2 ^ 80 +
    s.time / 5 % 2 ^ 32 * 2 ^ 96

/-- The write of the record to its place in the ring. -/
def dcRecordRequest (s : State) (n : Nat) : Held :=
  dcRequest n 1 (16 * s.rd F.DC_RING_BASE_BASE n + 16 * s.rd F.DC_RING_WR_WR n) 16 (dcRecord s n)

/-- The record is written, or the channel waits for room in the ring (R596, R597) or while the record's target holds the write
(R162, R174). -/
def dcPutRecord (s : State) (n : Nat) : State :=
  if dcRingFull s n then (s.wr F.DC_STAT_STATE 6 n).bump F.DC_TALLY1_RING_STALL n
  else if dcWaits s n (dcRecordRequest s n) then s
  else
    match dcPut s n (16 * s.rd F.DC_RING_BASE_BASE n + 16 * s.rd F.DC_RING_WR_WR n) 16 (dcRecord s n) with
    | (s, true) => dcCompleted ((s.wr F.DC_RING_WR_WR (dcRingNext s n) n).wr F.DC_RECN (s.rd F.DC_RECN n + 1) n) n
    | (s, false) => s

/-- DESCRIPTOR_COMPLETE (R595 to R598). -/
def dcComplete (s : State) (n : Nat) : State :=
  let cur := dcCurAddr s n
  if dcState s n ≠ 3 then s
  else if dcCtl s n 9 && s.on F.DC_CTLDONE n then dcPutRecord s n
  else if dcWaits s n (dcRequest n 1 (cur + 0xC) 4 0) then s
  else if dcCtl s n 9 then
    match dcPut s n (cur + 0xC) 4 (dcCtrlWord s n) with
      | (s, true) => dcPutRecord (s.up F.DC_CTLDONE n) n
      | (s, false) => s
  else
    match dcPut s n (cur + 0x14) 4 (dcStatusWord s n) with
    | (s, false) => s
    | (s, true) => match dcPut s n (cur + 0xC) 4 (dcCtrlWord s n) with
      | (s, true) => dcCompleted s n
      | (s, false) => s

/-- DMA_PACE_REQUEST (R593, R594): source `src` asks for a chunk; the channels that wait for it begin one. -/
def paceRequest (s : State) (src : Nat) : State :=
  let d := 408 + src
  let s := if 32 ≤ src ∧ src ≤ 39 ∧ edgeAt s d true = true ∧ cUp s then (edgeTaken s d true).up F.DC_REQ (src - 32) else s
  s.each ((List.range 32).filter fun n => s.rd F.DC_CFG_REQ_SRC n == src && dcRuns s n) dcAsked

/-- The request of channel `n` that its target holds completes with `c` (R174, R175, R629): a fetch, a read, a write or a
completion. -/
def dcExpire (s : State) (n : Nat) (p : HoldWhy → Bool) (c : Code) : State :=
  let held (r : Held) : Bool := dcRuns s n && (match gate s r with | .hold w => p w | _ => false)
  let fail (r : Held) (phase : Nat) : State :=
    let s := match gate s r, locate r.who r.addr with
      | .hold .room, some l => s.bump F.PT_TALLY_TX_FULL (portOf l.b l.i)
      | _, _ => s
    dcHalt (respondCode s r c) n r.addr r.op c.num phase
  match dcState s n with
  | 1 => if held (dcFetchRequest s n) then fail (dcFetchRequest s n) 1 else s
  | 2 =>
    let rd := (dcNextRead s n).map fun x => dcRequest n 0 x.1 x.2 0
    let wr := (dcNextWrite s n).map fun x => dcRequest n 1 x.1 x.2 0
    (match rd.filter held, wr.filter held with
    | some r, _ => fail r 2
    | none, some r => fail r 2
    | none, none => s)
  | 3 =>
    let r := if dcCtl s n 9 && s.on F.DC_CTLDONE n then dcRecordRequest s n else dcRequest n 1 (dcCurAddr s n + 0xC) 4 0
    if held r then fail r 3 else s
  | _ => s

/-! The commands. -/

def execDescriptorFetched (ch : Fin 32) (s : State) : Out := .next (dcFetch s ch.val)
def execDmaReadResponse (ch : Fin 32) (s : State) : Out := .next (dcReadStep s ch.val)
def execDmaWriteResponse (ch : Fin 32) (s : State) : Out := .next (dcWriteStep s ch.val)
def execDescriptorComplete (ch : Fin 32) (s : State) : Out := .next (dcComplete s ch.val)
/-- DMA_PACE_REQUEST: `source` is a REQ_SRC code. -/
def execDmaPaceRequest (source : Fin 64) (s : State) : Out := .next (paceRequest s source.val)
def execDcStopped (ch : Fin 32) (s : State) : Out := .next (dcStopped s ch.val)

end Sys2Proof.Machine
end

