-- ==== Sys2Proof/Machine/RegRows.lean ====
section
/-!
DEFINITION. The commands of the table that are a write of one register: each is a request of the fabric at that register's
address (R149, R750), with the bits the row names; the rest of the write's value is an operand. What the register does with
it stands in Sys2Proof/Machine/RegWrite.lean.
-/
namespace Sys2Proof.Machine

/-- The ticket of a ticketed write (R168). -/
def tk (t : BitVec 16) : Nat := t.toNat * 2 ^ 48

/-- The address of offset `off` of instance `i` of a block (R145 to R147). The core-local blocks have one address for each
core's own; the pair's core-control registers stand in the pair's block. -/
def regAddr (b : Blk) (i off : Nat) : Nat :=
  match b with
  | .mpu => (blkInfo b).base + off
  | .cc => (blkInfo b).base + off
  | .wd => (blkInfo b).base + off
  | .tc => if i = 4 then 0x40008000 + off else (blkInfo b).base + 0x1000 * i + off
  | _ => (blkInfo b).base + blkSpan b * i + off

/-- The size of the register at an offset of a block. -/
def regSize (b : Blk) (off : Nat) : Nat := match rowAt (regsOf b) off with | some (r, _) => r.w | none => 4

/-- A request for the register at offset `off` of instance `i` of a block, in the register's size. -/
def regRequest (src : Source) (op : Nat) (b : Blk) (i off v : Nat) : Held :=
  ⟨src.who, src.priv, op, regAddr b i off, regSize b off, v⟩

/-- A write of a register as a command. -/
def writeRow (s : State) (src : Source) (b : Blk) (i off v : Nat) : Out := .next (busRequest s (regRequest src 1 b i off v))

/-- A read of a register as a command. -/
def readRow (s : State) (src : Source) (b : Blk) (i off : Nat) : Out := .next (busRequest s (regRequest src 0 b i off 0))

/-- The word of PTM_DOM_CTRL that switches domain `d` and leaves the others as they are. -/
def domWord (s : State) (d : Nat) (on : Bool) : Nat := putBit (s.rd F.PTM_DOM_CTRL_CTRL (d / 32)) (d % 32) on

/-- The block of a port, and its instance. -/
def portBlk (p : Nat) : Blk := match p with | 0 => .usb | 1 => .eth | 2 => .uart | 3 => .uart | 4 => .mod | _ => .sl
def portInst (p : Nat) : Nat := if p = 3 then 1 else 0

/-! The commands. -/

/-- STK_RESET_C_RST (R39). -/
def execStkResetCRst (src : Source) (ticket : BitVec 16) (s : State) : Out :=
  writeRow s src .stk 0 0x128 (1 + tk ticket)

/-- STK_RESET_M_RST (R39). -/
def execStkResetMRst (src : Source) (ticket : BitVec 16) (s : State) : Out :=
  writeRow s src .stk 0 0x128 (2 + tk ticket)

/-- SYS_RESET_STACK (R52). -/
def execSysResetStack (src : Source) (ticket : BitVec 16) (s : State) : Out :=
  writeRow s src .su 0 0x110 (1 + tk ticket)

/-- PWD_KICK (R56; `basic`: SU_KICK). -/
def execPwdKick (src : Source) (basic : Bool) (ticket : BitVec 16) (s : State) : Out :=
  writeRow s src .su 0 (if basic then 0x8 else 0x120) (1 + tk ticket)

/-- GIVE_UP_WRITE (R72). -/
def execGiveUpWrite (src : Source) (s : State) : Out := writeRow s src .su 0 0x100 (2 ^ 16)

/-- ROM_DONE_WRITE (R73). -/
def execRomDoneWrite (src : Source) (s : State) : Out := writeRow s src .su 0 0x100 (2 ^ 19)

/-- RECOVER_WRITE (R74). -/
def execRecoverWrite (src : Source) (s : State) : Out := writeRow s src .su 0 0x100 (2 ^ 17)

/-- LEDGER_CLR (R95). -/
def execLedgerClr (src : Source) (causes : BitVec 8) (ticket : BitVec 16) (s : State) : Out :=
  writeRow s src .su 0 0x138 (causes.toNat + tk ticket)

/-- PAT_LIVE_GO (R135). -/
def execPatLiveGo (src : Source) (ticket : BitVec 16) (s : State) : Out :=
  writeRow s src .pat 0 0x158 (1 + tk ticket)

/-- PAT_LIVE_CANCEL (R141). -/
def execPatLiveCancel (src : Source) (ticket : BitVec 16) (s : State) : Out :=
  writeRow s src .pat 0 0x158 (2 + tk ticket)

/-- STATE_REQ_DOZE (R193). -/
def execStateReqDoze (src : Source) (fastNap : Bool) (s : State) : Out :=
  writeRow s src .ptm 0 0x104 (1 + 256 * bnat fastNap)

/-- STATE_REQ_NAP (R195). -/
def execStateReqNap (src : Source) (fastNap : Bool) (s : State) : Out :=
  writeRow s src .ptm 0 0x104 (2 + 256 * bnat fastNap)

/-- STATE_REQ_HIBERNATE (R195). -/
def execStateReqHibernate (src : Source) (fastNap : Bool) (s : State) : Out :=
  writeRow s src .ptm 0 0x104 (3 + 256 * bnat fastNap)

/-- STATE_REQ_SHUTDOWN (R195). -/
def execStateReqShutdown (src : Source) (fastNap : Bool) (s : State) : Out :=
  writeRow s src .ptm 0 0x104 (4 + 256 * bnat fastNap)

/-- DOM_CTRL_ON (R207). -/
def execDomCtrlOn (src : Source) (dom : Fin 136) (s : State) : Out :=
  writeRow s src .ptm 0 (0x200 + 4 * (dom.val / 32)) (domWord s dom.val true)

/-- DOM_CTRL_OFF (R207). -/
def execDomCtrlOff (src : Source) (dom : Fin 136) (s : State) : Out :=
  writeRow s src .ptm 0 (0x200 + 4 * (dom.val / 32)) (domWord s dom.val false)

/-- AD_SWTRIG_A (R250). -/
def execAdSwtrigA (src : Source) (ad : Fin 4) (s : State) : Out := writeRow s src .ad ad.val 0x10C (1)

/-- AD_SWTRIG_B (R250). -/
def execAdSwtrigB (src : Source) (ad : Fin 4) (s : State) : Out := writeRow s src .ad ad.val 0x10C (2)

/-- CM_CFG_WRITE (R270; `dac`: CMn_DAC). -/
def execCmCfgWrite (src : Source) (cmp : Fin 24) (dac : Bool) (data : BitVec 32) (s : State) : Out :=
  writeRow s src .cm 0 ((if dac then 0x200 else 0x100) + 4 * cmp.val) (data.toNat)

/-- SW_GO (R279). -/
def execSwGo (src : Source) (s : State) : Out := writeRow s src .sw 0 0x114 (1)

/-- CT_GSTART (R294). -/
def execCtGstart (src : Source) (slices : BitVec 16) (s : State) : Out := writeRow s src .ct 0 0x180 (slices.toNat)

/-- CT_SHCTL_FORCE (R301; `hold`: the HOLD bit of the same write). -/
def execCtShctlForce (src : Source) (slice : Fin 16) (hold : Bool) (s : State) : Out :=
  writeRow s src .ct slice.val 0x118 (2 + bnat hold)

/-- CT_SHADOW_WRITE (R300; `which`: a compare value, or 4 the period). -/
def execCtShadowWrite (src : Source) (slice : Fin 16) (which : Fin 5) (data : BitVec 32) (s : State) : Out :=
  writeRow s src .ct slice.val (if which.val = 4 then 0x10C else 0x120 + 4 * which.val) (data.toNat)

/-- LG_ARM_ARM (R316). -/
def execLgArmArm (src : Source) (leg : Fin 16) (s : State) : Out := writeRow s src .lg leg.val 0x110 (1)

/-- LG_ARM_NOW (R316). -/
def execLgArmNow (src : Source) (leg : Fin 16) (s : State) : Out := writeRow s src .lg leg.val 0x110 (5)

/-- LG_ARM_DISARM (R318). -/
def execLgArmDisarm (src : Source) (leg : Fin 16) (s : State) : Out := writeRow s src .lg leg.val 0x110 (2)

/-- LG_ARM_SWTRIP (R321). -/
def execLgArmSwtrip (src : Source) (leg : Fin 16) (s : State) : Out := writeRow s src .lg leg.val 0x110 (8)

/-- BG_ARM (R317). -/
def execBgArm (src : Source) (groups : BitVec 6) (s : State) : Out := writeRow s src .trip 0 0x140 (groups.toNat)

/-- LG_CFG_WRITE (R315; `dt`: LG_DT). -/
def execLgCfgWrite (src : Source) (leg : Fin 16) (dt : Bool) (data : BitVec 32) (s : State) : Out :=
  writeRow s src .lg leg.val (if dt then 0x104 else 0x100) (data.toNat)

/-- YANK_CLEAR (R413). -/
def execYankClear (src : Source) (s : State) : Out := writeRow s src .hds 0 0x14C (1)

/-- LE_SWAP (R377; `high`: LE_SWAP1). -/
def execLeSwap (src : Source) (high : Bool) (slots : BitVec 32) (s : State) : Out :=
  writeRow s src .le 0 (if high then 0x11C else 0x118) (slots.toNat)

/-- LE_CLR (R379; `high`: LE_CLR1). -/
def execLeClr (src : Source) (high : Bool) (slots : BitVec 32) (s : State) : Out :=
  writeRow s src .le 0 (if high then 0x124 else 0x120) (slots.toNat)

/-- LT_PRELOAD (R370; `freeze`: the FREEZE bit of the same write). -/
def execLtPreload (src : Source) (table : Fin 4) (freeze : Bool) (s : State) : Out :=
  writeRow s src .le 0 (0x140 + 4 * table.val) (2 + bnat freeze)

/-- LT_SNAP (R370; `freeze`: the FREEZE bit of the same write). -/
def execLtSnap (src : Source) (table : Fin 4) (freeze : Bool) (s : State) : Out :=
  writeRow s src .le 0 (0x140 + 4 * table.val) (4 + bnat freeze)

/-- HDS_COMMIT (R391). -/
def execHdsCommit (src : Source) (slots : BitVec 2) (s : State) : Out := writeRow s src .hds 0 0x124 (slots.toNat)

/-- HDS_CTRL_WRITE (R392). -/
def execHdsCtrlWrite (src : Source) (data : BitVec 32) (s : State) : Out :=
  writeRow s src .hds 0 0x100 (data.toNat)

/-- HDS_GO_LINE (R398). -/
def execHdsGoLine (src : Source) (s : State) : Out := writeRow s src .hds 0 0x128 (1)

/-- HCU_IN_WR_WRITE (R404). -/
def execHcuInWrWrite (src : Source) (data : BitVec 32) (s : State) : Out :=
  writeRow s src .hcu 0 0x10C (data.toNat)

/-- HCU_ERR_CLEAR (R418). -/
def execHcuErrClear (src : Source) (s : State) : Out := writeRow s src .hcu 0 0x114 (2)

/-- HCU_HIST_CLR (R407; `data` gives the other bits). -/
def execHcuHistClr (src : Source) (data : BitVec 32) (s : State) : Out :=
  writeRow s src .hcu 0 0x100 (putBit data.toNat 2 true)

/-- DK_FIRE (R415). -/
def execDkFire (src : Source) (dk : Fin 2) (s : State) : Out := writeRow s src .hds 0 (0x184 + 8 * dk.val) (1)

/-- WD_KICK (R456; `basic`: WD_BASIC). -/
def execWdKick (src : Source) (basic : Bool) (threads : BitVec 8) (s : State) : Out :=
  writeRow s src .wd 0 (if basic then 0 else 0x120) (threads.toNat)

/-- TC_DFAULT_CLEAR (R454). -/
def execTcDfaultClear (src : Source) (core : Fin 5) (threads : BitVec 8) (s : State) : Out :=
  writeRow s src .tc core.val 0x104 (threads.toNat)

/-- CC_INV_IC_ALL (R435). -/
def execCcInvIcAll (src : Source) (s : State) : Out := writeRow s src .cc 0 0x108 (1)

/-- CC_INV_RC_ALL (R435). -/
def execCcInvRcAll (src : Source) (s : State) : Out := writeRow s src .cc 0 0x108 (2)

/-- CC_INV_IC_RANGE (R435). -/
def execCcInvIcRange (src : Source) (s : State) : Out := writeRow s src .cc 0 0x108 (4)

/-- CC_INV_RC_RANGE (R435). -/
def execCcInvRcRange (src : Source) (s : State) : Out := writeRow s src .cc 0 0x108 (8)

/-- DSP_POST (R498; `basic`: DSP_BASIC_POST). -/
def execDspPost (src : Source) (basic : Bool) (task : BitVec 8) (ticket : BitVec 16) (s : State) : Out :=
  writeRow s src .dsp 0 (if basic then 0x8 else 0x108) (task.toNat + tk ticket)

/-- DSP_RECOVER (R520). -/
def execDspRecover (src : Source) (task : BitVec 8) (s : State) : Out := writeRow s src .dsp 0 0x1B0 (task.toNat)

/-- DSP_CTRL_EN (R522). -/
def execDspCtrlEn (src : Source) (en : Bool) (s : State) : Out := writeRow s src .dsp 0 0x100 (bnat en)

/-- MPU_LOCK (R535; `defEn`: the DEF_EN bit of the same write). -/
def execMpuLock (src : Source) (defEn : Bool) (s : State) : Out := writeRow s src .mpu 0 0x100 (2 + bnat defEn)

/-- SP_SPLIT (R564). -/
def execSpSplit (src : Source) (s : State) : Out := writeRow s src .sp 0 0x20C (1)

/-- SP_REJOIN (R564). -/
def execSpRejoin (src : Source) (s : State) : Out := writeRow s src .sp 0 0x20C (2)

/-- SP_DEGRADE (R572). -/
def execSpDegrade (src : Source) (s : State) : Out := writeRow s src .sp 0 0x208 (1)

/-- SP_INJ_C (R576). -/
def execSpInjC (src : Source) (s : State) : Out := writeRow s src .sp 0 0x208 (2)

/-- SP_INJ_I (R576). -/
def execSpInjI (src : Source) (s : State) : Out := writeRow s src .sp 0 0x208 (4)

/-- DC_DOORBELL (R586). -/
def execDcDoorbell (src : Source) (ch : Fin 32) (ticket : BitVec 16) (s : State) : Out :=
  writeRow s src .dmg (ch.val / 8) (0x100 * (ch.val % 8) + 0x108) (1 + tk ticket)

/-- DC_STOP (R603). -/
def execDcStop (src : Source) (ch : Fin 32) (s : State) : Out :=
  writeRow s src .dmg (ch.val / 8) (0x100 * (ch.val % 8) + 0x110) (1)

/-- DC_CLEAR (R602). -/
def execDcClear (src : Source) (ch : Fin 32) (s : State) : Out :=
  writeRow s src .dmg (ch.val / 8) (0x100 * (ch.val % 8) + 0x110) (2)

/-- DC_CFG_WRITE (R587). -/
def execDcCfgWrite (src : Source) (ch : Fin 32) (data : BitVec 32) (s : State) : Out :=
  writeRow s src .dmg (ch.val / 8) (0x100 * (ch.val % 8) + 0x100) (data.toNat)

/-- DC_NEXT_WRITE (R602). -/
def execDcNextWrite (src : Source) (ch : Fin 32) (data : BitVec 32) (s : State) : Out :=
  writeRow s src .dmg (ch.val / 8) (0x100 * (ch.val % 8) + 0x104) (data.toNat)

/-- DC_RING_RD_WRITE (R597). -/
def execDcRingRdWrite (src : Source) (ch : Fin 32) (data : BitVec 32) (s : State) : Out :=
  writeRow s src .dmg (ch.val / 8) (0x100 * (ch.val % 8) + 0x134) (data.toNat)

/-- DMA_MID_WRITE (R581). -/
def execDmaMidWrite (src : Source) (ch : Fin 32) (mid : BitVec 6) (s : State) : Out :=
  writeRow s src .dma 0 (0x100 + 4 * ch.val) (mid.toNat)

/-- DMA_MID_LOCK (R581). -/
def execDmaMidLock (src : Source) (s : State) : Out := writeRow s src .dma 0 0x180 (1)

/-- CX_START (R612, R618). -/
def execCxStart (src : Source) (ctx : Fin 16) (s : State) : Out := writeRow s src .cx 0 (0x108 + 64 * ctx.val) (1)

/-- CX_FINISH (R612, R614). -/
def execCxFinish (src : Source) (ctx : Fin 16) (s : State) : Out := writeRow s src .cx 0 (0x108 + 64 * ctx.val) (2)

/-- CX_PRESET (R611). -/
def execCxPreset (src : Source) (ctx : Fin 16) (code : BitVec 3) (s : State) : Out :=
  writeRow s src .cx 0 (0x10C + 64 * ctx.val) (code.toNat)

/-- CX_CONFIG_WRITE (R610; `which`: 0 CFG, 1 POLY, 2 INIT, 3 XOROUT, 4 VALUE). -/
def execCxConfigWrite (src : Source) (ctx : Fin 16) (which : Fin 5) (data : BitVec 64) (s : State) : Out :=
  writeRow s src .cx 0 (0x100 + 64 * ctx.val + (if which.val = 0 then 0 else 8 + 8 * which.val)) (data.toNat)

/-- PT_TX_PUSH (R627; `n`: one byte fewer than the push brings). -/
def execPtTxPush (src : Source) (port : Fin 6) (data : BitVec 32) (n : Fin 4) (ep : Fin 8) (ticket : BitVec 16) (s : State) : Out :=
  writeRow s src (portBlk port.val) (portInst port.val) 0x110 (data.toNat + n.val * 2 ^ 32 + ep.val * 2 ^ 35 + tk ticket)

/-- PT_TX_STREAM (R628; the USB block has one such register for each endpoint). -/
def execPtTxStream (src : Source) (port : Fin 6) (ep : Fin 8) (data : BitVec 32) (s : State) : Out :=
  writeRow s src (portBlk port.val) (portInst port.val) (if port.val = 0 then 0x1C0 + 4 * ep.val else 0x118) (data.toNat)

/-- USB_RWAKE (R638; the other bits of the same write follow). -/
def execUsbRwake (src : Source) (connect hsEn : Bool) (s : State) : Out :=
  writeRow s src .usb 0 0x140 (4 + 2 * bnat hsEn + bnat connect)

/-- USB_EPCFG_WRITE (R634; `ep`: one less than the endpoint). -/
def execUsbEpcfgWrite (src : Source) (ep : Fin 7) (data : BitVec 32) (s : State) : Out :=
  writeRow s src .usb 0 (0x154 + 4 * ep.val) (data.toNat)

/-- ETH_MDIO_CMD (R646). -/
def execEthMdioCmd (src : Source) (data : BitVec 32) (s : State) : Out := writeRow s src .eth 0 0x160 (data.toNat)

/-- NVM_TALLY_SAVE (R678). -/
def execNvmTallySave (src : Source) (s : State) : Out := writeRow s src .nvm 0 0x128 (1)

/-- KEY_COMMIT (R681). -/
def execKeyCommit (src : Source) (slot : Fin 4) (ticket : BitVec 16) (s : State) : Out :=
  writeRow s src .key 0 0x190 (slot.val + tk ticket)

/-- CTR_RAISE (R687). -/
def execCtrRaise (src : Source) (ctr : Fin 8) (value : BitVec 32) (s : State) : Out :=
  writeRow s src .key 0 (0x1E0 + 4 * ctr.val) (value.toNat)

/-- CR_HASH (R693). -/
def execCrHash (src : Source) (s : State) : Out := writeRow s src .cr 0 0x100 (1)

/-- CR_VERIFY (R688). -/
def execCrVerify (src : Source) (s : State) : Out := writeRow s src .cr 0 0x100 (2)

/-- CR_IMAGE (R693). -/
def execCrImage (src : Source) (kind : BitVec 3) (s : State) : Out :=
  writeRow s src .cr 0 0x100 (3 + 16 * kind.toNat)

/-- CR_REVOKE (R692). -/
def execCrRevoke (src : Source) (s : State) : Out := writeRow s src .cr 0 0x100 (4)

/-- DBG_HALT (R703; `high`: the register of threads 32 to 39). -/
def execDbgHalt (src : Source) (high : Bool) (threads : BitVec 32) (s : State) : Out :=
  writeRow s src .dbg 0 (if high then 0x104 else 0x100) (threads.toNat)

/-- DBG_RESUME (R707; `high`: the register of threads 32 to 39). -/
def execDbgResume (src : Source) (high : Bool) (threads : BitVec 32) (s : State) : Out :=
  writeRow s src .dbg 0 (if high then 0x10c else 0x108) (threads.toNat)

/-- DBG_STEP (R707; `high`: the register of threads 32 to 39). -/
def execDbgStep (src : Source) (high : Bool) (threads : BitVec 32) (s : State) : Out :=
  writeRow s src .dbg 0 (if high then 0x114 else 0x110) (threads.toNat)

/-- TST_LOCK (R712). -/
def execTstLock (src : Source) (s : State) : Out := writeRow s src .tst 0 0x100 (2 ^ 8)

/-- TST_FUSE_PROG (R712). -/
def execTstFuseProg (src : Source) (fuses : BitVec 2) (s : State) : Out :=
  writeRow s src .tst 0 0x108 (fuses.toNat)

/-- CP_DATA_POP (R309): a read of CP_DATA_n. -/
def execCpDataPop (src : Source) (ch : Fin 16) (s : State) : Out := readRow s src .cp 0 (0x140 + 4 * ch.val)

/-- PT_RX_POP (R630): a read of PT_RX_POP, or of an endpoint's USB_POP. -/
def execPtRxPop (src : Source) (port : Fin 6) (ep : Fin 8) (s : State) : Out :=
  readRow s src (portBlk port.val) (portInst port.val) (if port.val = 0 then 0x1E0 + 4 * ep.val else 0x11C)

/-- CX_FEED_WRITE (R613): `size` bytes (as a power of two) at a place of a context's feed window. -/
def execCxFeedWrite (src : Source) (ctx : Fin 16) (place : Fin 32) (size : Fin 6) (data : BitVec 256) (s : State) : Out :=
  .next (busRequest s ⟨src.who, src.priv, 1, 0x40040600 + 32 * ctx.val + place.val, 2 ^ size.val, data.toNat⟩)

/-- DBG_REG_ACCESS (R709): `reg`: 0 to 15 DBG_GPR, 16 DBG_PC, 17 DBG_SYS_DATA. -/
def execDbgRegAccess (src : Source) (reg : Fin 18) (write : Bool) (data : BitVec 32) (s : State) : Out :=
  let off := if reg.val < 16 then 0x140 + 4 * reg.val else if reg.val = 16 then 0x128 else 0x184
  if write then writeRow s src .dbg 0 off data.toNat else readRow s src .dbg 0 off

/-- REGISTER_WRITE (R8): a write of any register, by its address and size. -/
def execRegisterWrite (src : Source) (addr : BitVec 32) (size : Fin 6) (data : BitVec 256) (s : State) : Out :=
  .next (busRequest s ⟨src.who, src.priv, 1, addr.toNat, 2 ^ size.val, data.toNat % 2 ^ (8 * 2 ^ size.val)⟩)

/-- TALLY_WRITE (R50): a write of a tally register, by its address and size. -/
def execTallyWrite (src : Source) (addr : BitVec 32) (size : Fin 6) (data : BitVec 256) (s : State) : Out :=
  .next (busRequest s ⟨src.who, src.priv, 1, addr.toNat, 2 ^ size.val, data.toNat % 2 ^ (8 * 2 ^ size.val)⟩)

end Sys2Proof.Machine
end

