-- ==== Sys2Proof/Machine/EngineRows.lean ====
section
/-!
DEFINITION. The commands of the loop engine (09_loop_engine.md), of the history compensation unit (10_print_path.md) and of
the check-value unit (17_check_value_units.md). A command waits while the target of any of its requests holds it (log entry
30); the flits of its later requests wait for room on their link, where it has none (R24).
-/
namespace Sys2Proof.Machine

/-! Requests of an engine. -/

/-- A request of master `m`. -/
def engineRequest (m op a z v : Nat) : Held := ⟨.unit (Fin.ofNat 64 m), true, op, a, z, v⟩

/-- The answer to a request of an engine stands in `resp`. One whose command finds the hold at a step before would have waited; what a
hold met here amounts to is its end. -/
def agentAccess (s : State) (m op a z v : Nat) : State :=
  let r := engineRequest m op a z v
  match gateThere s r with
  | .hold .power => respondCode s r .pdown
  | .hold .room => respondCode s r .abort
  | .hold _ => respondCode s r .busy
  | g => serve s r g

/-- A request of an engine waits. -/
def engineWaits (s : State) (m op a z v : Nat) : Bool := holds s (engineRequest m op a z v)

/-- One of the reads of `n` 32-byte lines from `a` waits (R174). -/
def linesWait (s : State) (m a n : Nat) : Bool := (List.range n).any fun k => engineWaits s m 0 (a + 32 * k) 32 0

/-- Reads of `n` 32-byte lines from `a`: the state after the last one, the bytes read, and the first code other than OK. -/
def engineLines (s : State) (m a n : Nat) : State × List Byte × Option Code :=
  (List.range n).foldl (fun (p : State × List Byte × Option Code) k =>
    match p.2.2 with
    | some c => (p.1, p.2.1, some c)
    | none =>
      let t := agentAccess p.1 m 0 (a + 32 * k) 32 0
      if okay t then (t, p.2.1 ++ toBytes 32 t.resp.data, none) else (t, p.2.1, some t.resp.code)) (s, [], none)

/-! Loop engine (R357 to R363, R370, R372, R380). -/

/-- A relayed trigger of row `r` (R357 to R359). -/
def rowTake (s : State) (r : Nat) : State :=
  let x := rowTrigger s r
  if x.2 then rowEnds x.1 r else x.1

/-- ROW_TRIGGER (R357). -/
def rowRelay (s : State) (r : Nat) : State := if rowMay s r then rowTake (s.wr F.ROW_DUE (s.rd F.ROW_DUE r - 1) r) r else s

/-- FAST_NAP_PLL_SWITCH (R203): the calendar triggers held meanwhile follow, the lowest row first. -/
def napSwitch (s : State) : State :=
  let t := fastNapSwitch s
  if s.on F.PTM_STATE_ONFRC && !t.on F.PTM_STATE_ONFRC then (t.wr F.ROW_HELD 0).each (onesOf (t.rd F.ROW_HELD) 16) rowTake else t

/-- R372: SAT_ACTION 2 trips a leg by a write of LG_ARM.SWTRIP with master ID 40. -/
def satTrip (s : State) (leg : Option Nat) : State :=
  match leg with
  | some k => busRequest s ⟨.unit 40, true, 1, regAddr .lg k 0x110, 4, 8⟩
  | none => s

/-- What the check bits of a word a stitch of slot `n` reads turn out to say: 1 a corrected error, 2 an uncorrectable one (R380), in
its state, or in its parameters where its law has none. -/
def stitchBits (s : State) (n ecc : Nat) : State :=
  if ecc = 1 then s.bump F.LE_TALLY2_ECC_CORR
  else if ecc = 2 then
    s.spoil (if (leWords (s.rd F.LE_SLOT_CFG_LAW n)).2 = 0 then paramAddr n (leBank s n) 0 else stateAddr n 0)
  else s

/-- One stitch of slot `n`, with what it sends. -/
def runStitch (s : State) (n ecc : Nat) : State :=
  if 48 ≤ n then s else let x := stitch (stitchBits s n ecc) n; satTrip x.1 x.2

/-- STITCH (R351, R358, R359, R362, R382): the next stitch of the running row, or the first of the lowest pending one. A ready
express slot goes first. -/
def stitchStep (s : State) (ecc : Nat) : State :=
  if !leLive s || (readyExpress s).isSome then s
  else match startRow s with
    | none => s
    | some s =>
      let r := s.rd F.LE_ROWSTAT_ROW
      let k := s.rd F.LE_POS
      let s := (runStitch s (rowSlot s r k) ecc).wr F.LE_POS (k + 1)
      if rowN s r ≤ k + 1 then rowEnds ((s.down F.LE_ROWSTAT_ACTIVE).wr F.LE_POS 0) r else s

/-- EXPRESS_STITCH (R361, R362). -/
def expressStep (s : State) (ecc : Nat) : State :=
  if !leLive s then s
  else match readyExpress s with
    | none => s
    | some n => runStitch (startExpress s n) n ecc

/-! History compensation unit (R404 to R409, R418). -/

/-- DOTS of the input ring, at most the streamer's 1,024. -/
def hcuDots (s : State) : Nat := min 1024 (s.rd F.HCU_RING_DOTS)

/-- The 32-byte requests of a line or plane. -/
def hcuWords (s : State) : Nat := (hcuDots s + 255) / 256

/-- NLINES. -/
def hcuLines (s : State) : Nat := max 1 (s.rd F.HCU_RING_NLINES) + 1

/-- The address of the line at IN_RD. -/
def hcuLineAddr (s : State) : Nat := 32 * s.rd F.HCU_IN_BASE_BASE + s.rd F.HCU_IN_RD_RD * (32 * hcuWords s)

/-- The neighbourhood code of dot `i` (R405); `l0`, `l1`, `l2` are lines n, n − 1, n − 2. -/
def hcuCode (l0 l1 l2 i : Nat) : Nat :=
  let left (l : Nat) : Bool := i != 0 && l.testBit (i - 1)
  bnat (l0.testBit i) + 2 * bnat (l1.testBit i) + 4 * bnat (l2.testBit i) + 8 * bnat (left l0) +
    16 * bnat (l0.testBit (i + 1)) + 32 * bnat (left l1 || l1.testBit (i + 1))

/-- The energy of a dot with code `c` (R406). -/
def hcuEnergy (s : State) (c : Nat) : Nat :=
  if c % 2 = 0 ∧ !s.on F.HCU_CTRL_PREHEAT then 0
  else bits (s.rd F.HCU_ETAB_ENTRIES (c / 8)) (4 * (c % 8) + 3) (4 * (c % 8))

/-- Plane `j` of a line. -/
def hcuPlane (s : State) (l0 l1 l2 j : Nat) : Nat :=
  maskOf (hcuDots s) fun i => (hcuEnergy s (hcuCode l0 l1 l2 i)).testBit j

/-- An error stops the HCU (R418). -/
def hcuFail (s : State) (ecode : Nat) (c : Code) : State :=
  ((((((s.up F.HCU_STAT_ERR).wr F.HCU_STAT_ECODE ecode).wr F.HCU_STAT_RESP c.num).down F.HCU_STAT_BUSY).wr F.HCU_HELD 0)).post 102

/-- The HCU runs. -/
def hcuLive (s : State) : Bool :=
  s.on F.HCU_CTRL_EN && !s.on F.HCU_STAT_ERR && masterLive s (.unit 44) && s.rd F.DOM_STATE 126 == 2

/-- The addresses of HDS_SLOT and HDS_COMMIT. -/
def hdsSlotAddr : Nat := 0x50032120
def hdsCommitAddr : Nat := 0x50032124

/-- The planes in hand are written to the next slot (R408). -/
def hcuWritePlanes (s : State) : State :=
  let n := s.rd F.HCU_SLOT
  let step (p : State × Option Code) (jk : Nat × Nat) : State × Option Code :=
    match p.2 with
    | some c => (p.1, some c)
    | none =>
      let v := s.rd F.HCU_PLANE jk.1 / 2 ^ (256 * jk.2) % 2 ^ 256
      let t := agentAccess p.1 44 1 (hdsBuf + 0x200 * n + 0x80 * jk.1 + 32 * jk.2) 32 v
      (t, if okay t then none else some t.resp.code)
  let all := (List.range 4).flatMap fun j => (List.range (hcuWords s)).map fun k => (j, k)
  match all.foldl step (s, none) with
  | (t, none) => t.wr F.HCU_HELD 2
  | (t, some c) => hcuFail t 2 c

/-- The HCU reads HDS_SLOT; where its slot is free it writes the planes (R408). -/
def hcuTrySlot (s : State) : State :=
  let s := agentAccess s 44 0 hdsSlotAddr 4 0
  if !okay s then hcuFail s 1 s.resp.code
  else if s.resp.data.testBit (s.rd F.HCU_SLOT) then s
  else hcuWritePlanes s

/-- More than HIST_TMO ms have passed since the previous line (R407). -/
def hcuStale (s : State) : Bool :=
  s.on F.HCU_HIST_TMO_MS && decide (s.rd F.HCU_HIST_TMO_MS < s.msNow - s.rd F.HCU_LAST_MS)

/-- HCU_LINE_PROCESS (R404 to R408): the line at IN_RD becomes four planes, which go to the slot if it is free. -/
def hcuProcess (s : State) : State :=
  if !hcuLive s || s.on F.HCU_HELD || s.rd F.HCU_IN_RD_RD == s.rd F.HCU_IN_WR_WR ||
      linesWait s 44 (hcuLineAddr s) (hcuWords s) || engineWaits s 44 0 hdsSlotAddr 4 0 then s
  else
    let x := engineLines (s.up F.HCU_STAT_BUSY) 44 (hcuLineAddr s) (hcuWords s)
    match x.2.2 with
    | some c => hcuFail x.1 1 c
    | none =>
      let s := if hcuStale x.1 then (x.1.wr F.HCU_H1 0).wr F.HCU_H2 0 else x.1
      let d := 2 ^ hcuDots s
      let l0 := ofBytes x.2.1 % d
      let s := s.each (List.range 4) fun s j => s.wr F.HCU_PLANE (hcuPlane s l0 (s.rd F.HCU_H1 % d) (s.rd F.HCU_H2 % d) j) j
      hcuTrySlot ((s.wr F.HCU_CUR l0).wr F.HCU_HELD 1)

/-- HCU_SLOT_POLL (R408). -/
def hcuPoll (s : State) : State :=
  if hcuLive s && s.rd F.HCU_HELD == 1 && !engineWaits s 44 0 hdsSlotAddr 4 0 then hcuTrySlot s else s

/-- HCU_COMMIT (R407 to R409). -/
def hcuCommit (s : State) : State :=
  let n := s.rd F.HCU_SLOT
  if !hcuLive s || s.rd F.HCU_HELD != 2 || engineWaits s 44 1 hdsCommitAddr 4 (2 ^ n) then s
  else
    let s := agentAccess s 44 1 hdsCommitAddr 4 (2 ^ n)
    if !okay s then hcuFail s 3 s.resp.code
    else
      let s := ((s.wr F.HCU_HELD 0).down F.HCU_STAT_BUSY).wr F.HCU_SLOT (1 - n)
      let s := ((s.wr F.HCU_H2 (s.rd F.HCU_H1)).wr F.HCU_H1 (s.rd F.HCU_CUR)).wr F.HCU_LAST_MS s.msNow
      let s := (s.wr F.HCU_IN_RD_RD ((s.rd F.HCU_IN_RD_RD + 1) % hcuLines s)).bump F.HCU_LINES_COUNT
      s.postIf (s.on F.HCU_CTRL_EVT) 103

/-! Check-value unit (R616 to R620). -/

/-- CX_SCRUB_PERIOD (R618). -/
def scrubPeriod (s : State) (x : Nat) : State :=
  if !masterLive s (.unit 45) || cxMode s x ≠ 3 || !s.on F.CX_SCRUB_PERIOD_MS x then s
  else if s.on F.CX_PASS x then s.bump F.CX_TALLY_SCRUB_LATE x
  else cxPassStart s x

/-- CX_SCRUB_PASS_END (R618, R619). -/
def scrubPassEnd (s : State) (x : Nat) : State :=
  let a := 32 * s.rd F.CX_SCRUB_BASE_BASE x
  let n := s.rd F.CX_SCRUB_LEN_LEN x
  if !s.on F.CX_PASS x || !masterLive s (.unit 45) || linesWait s 45 a n then s
  else
    let r := engineLines s 45 a n
    let s := (r.1.down F.CX_PASS x).down F.CX_STAT_BUSY x
    match r.2.2 with
    | some c => cxEvent (((cxFold s x r.2.1).up F.CX_STAT_ERR x).wr F.CX_STAT_RESP c.num x) x
    | none => cxFinish (cxFold s x r.2.1) x

/-- CX_SLICE (R609, R613, R620, R621): the context whose turn it is folds up to 32 bytes of what waits in it, of the first class that has
any: port paths, whose bytes are folded with the commands that move them, then feed writes, which complete, then scrub passes, whose
reads are folded with their own command. -/
def cxSlice (s : State) : State :=
  match (cxTurns s).find? (cxPortReady s) with
  | some x => releaseHeld ((s.wr F.CX_NEXT x).down F.CX_RDY x)
  | none =>
    match (cxTurns s).find? fun x => !(cxWaiting s x).isEmpty with
    | some x =>
      let now := within 32 (cxWaiting s x)
      let s := (s.wr F.CX_NEXT x)
      let s := { s with held := now.foldl (fun l r => l.erase r) s.held }
      releaseHeld (now.foldl (fun s r => respondCode (cxFold (setsOut s r) x (toBytes r.size r.data)) r .ok) s)
    | none =>
      match (cxTurns s).find? (s.on F.CX_PASS ·) with
      | some x => s.wr F.CX_NEXT x
      | none => s

/-! The commands. -/

/-- FAST_NAP_PLL_SWITCH (R203). -/
def execFastNapPllSwitch (s : State) : Out := .next (napSwitch s)
def execRowTrigger (row : Fin 16) (s : State) : Out := .next (rowRelay s row.val)
/-- STITCH: `ecc` as `stitchBits` takes it. -/
def execStitch (ecc : Fin 3) (s : State) : Out := .next (stitchStep s ecc.val)
def execExpressStitch (ecc : Fin 3) (s : State) : Out := .next (expressStep s ecc.val)
def execResultReceive (s : State) : Out := .next (resultReceive s)
def execLtCopyDone (table : Fin 4) (s : State) : Out := .next (ltCopyDone s table.val)
def execHcuLineProcess (s : State) : Out := .next (hcuProcess s)
def execHcuSlotPoll (s : State) : Out := .next (hcuPoll s)
def execHcuCommit (s : State) : Out := .next (hcuCommit s)
/-- CX_FRAME_START (R616, R617): `path`: 0 SPI transmit, 1 SPI receive, 2 station-link transmit, 3 station-link receive. -/
def execCxFrameStart (path : Fin 4) (s : State) : Out := .next (pathFrameStart s (path.val + 1))
/-- CX_APPEND (R616): `link`: the station link's transmit path, else the SPI port's. -/
def execCxAppend (link : Bool) (s : State) : Out := .next (pathAppend s (if link then 3 else 1))
/-- CX_STRIP (R617): the covered bytes the line brought; `link` as above, receive paths. -/
def execCxStrip (link : Bool) (frame : List (BitVec 8)) (s : State) : Out := .next (pathStrip s (if link then 4 else 2) frame)
def execCxScrubPeriod (ctx : Fin 16) (s : State) : Out := .next (scrubPeriod s ctx.val)
def execCxScrubPassEnd (ctx : Fin 16) (s : State) : Out := .next (scrubPassEnd s ctx.val)
def execCxSlice (s : State) : Out := .next (cxSlice s)

end Sys2Proof.Machine
end

