-- ==== Sys2Proof/Machine/Links.lean ====
section
/-!
DEFINITION. Fuses and straps, link training, flits, heartbeats and lane tests (01_stack_and_dies.md): operations and the
commands of the table that stand for them. Link end `e = 2 b + d` carries flits over bundle `b` towards the upper die
(`d` 0) or towards the B-die (`d` 1).
-/
namespace Sys2Proof.Machine

/-! Fuses and straps. -/

/-- The 7-bit entry `k` of a bundle's fused map (01, Site straps and fuses): VALID in bit 6, PHYS in bits [5:0]. -/
def fusedEntry (m : BitVec 28) (k : Nat) : Nat := bits m.toNat (7 * k + 6) (7 * k)

/-- The fused assignments of bundle `b` enter the lane map. -/
def loadFusedMap (s : State) (b : Nat) (m : BitVec 28) : State :=
  let s := s.each (List.range 4) fun s k =>
    let e := fusedEntry m k
    if e.testBit 6 then setSpare s b k (e % 64) true else s
  s.wr F.BUNDLE_SPARES (sparesOf s b) b

/-- B_DIE_FUSE_READ (R14, R17, R70, R93): the B-die's site code and fuses have been read. A DBG_FUSE bit, a revocation or
a seal once programmed stays (R692, R712). -/
def bFuseRead (s : State) (site : Nat) (f : BFuses) : State :=
  if !bUp s && !railGood s .vdd33 then s
  else
    let s := (s.wr F.STK_DIESTATE_STRAP_B site).up F.FUSE_VALID
    let s := (s.wr F.FUSE_STACK_ID f.stackId.toNat).wr F.STK_ID_B_ID f.stackId.toNat
    let s := s.when f.sealed (·.up F.FUSE_SEAL)
    let s := ((s.wr F.FUSE_ROOT_HASH f.rootHash0.toNat 0).wr F.FUSE_ROOT_HASH f.rootHash1.toNat 1)
    let s := ((s.wr F.FUSE_ROOT_EPOCH f.rootEpoch0.toNat 0).wr F.FUSE_ROOT_EPOCH f.rootEpoch1.toNat 1)
    let s := s.each (List.range 2) fun s k => s.when (f.revoke.toNat.testBit k) (·.up F.FUSE_ROOT_REVOKE k)
    let s := s.wr F.FUSE_DBG (s.rd F.FUSE_DBG ||| f.dbg.toNat)
    let s := lockFollows (s.wr F.TST_FUSE_DBG_FUSE (s.rd F.FUSE_DBG))
    let s := (((s.wr F.FUSE_ECC_LIM f.eccLim.toNat).wr F.FUSE_WEAR_LIM f.wearLim.toNat).wr F.FUSE_HOT_LIM
      f.hotLim.toNat).wr F.FUSE_SP_LIM f.spLim.toNat
    let s := (((s.wr F.ECC_LIM_ECC_LIM f.eccLim.toNat).wr F.WEAR_LIM_WEAR_LIM f.wearLim.toNat).wr F.HOT_LIM_HOT_LIM
      f.hotLim.toNat).wr F.SP_LIM_SP_LIM f.spLim.toNat
    let s := s.each (f.lanes.zipIdx.take 32) fun s e => loadFusedMap s e.2 e.1
    if site ≠ 1 then confine s 1
    else if f.stackId = 0 ∨ f.stackId = BitVec.allOnes 64 then confine s 2
    else s

/-- R14 to R16: a site's code and STACK_ID judged; the cause recorded is 4 (strap fault) or 5 (stack ID), 0 when sound. -/
def siteFault (s : State) (want site id : Nat) : Nat :=
  if site ≠ want then 4
  else if id ≠ s.rd F.FUSE_STACK_ID ∨ id = 0 ∨ id = 2 ^ 64 - 1 then 5 else 0

/-- UPPER_FUSE_READ (R14 to R16, R70): both upper sites have been read over the sidebands. -/
def upperFuseRead (s : State) (cSite mSite cId mId : Nat) : State :=
  if !s.on F.FUSE_VALID || !bUp s || s.on F.TIER0_ONLY then s
  else
    let s := ((s.wr F.STK_DIESTATE_STRAP_C cSite).wr F.STK_DIESTATE_STRAP_M mSite)
    let s := (s.wr F.STK_ID_C_ID (if cSite = 0 then 0 else cId)).wr F.STK_ID_M_ID (if mSite = 0 then 0 else mId)
    let cf := siteFault s 2 cSite cId
    let mf := siteFault s 4 mSite mId
    let s := if mf ≠ 0 then ((s.wr F.STK_DIESTATE_M_STATE 0).up F.M_ABSENT).wr F.STK_DIESTATE_LAST_M_CAUSE mf
      else s.wr F.STK_DIESTATE_M_STATE 1
    if cf ≠ 0 then confine (((s.wr F.STK_DIESTATE_C_STATE 0).up F.C_ABSENT).wr F.STK_DIESTATE_LAST_C_CAUSE cf) 3
    else s.wr F.STK_DIESTATE_C_STATE 1

/-- The bundles of link `l` are trained: the lanes named in `bad` show errors (R27). A bundle that was retired goes back in service with
the next training of its link: the spec speaks of the next power-up alone (DESIGN CHOICE, log entry 87). -/
def trainLink (s : State) (l : Nat) (bad : List (Fin 32 × Fin 68)) : State :=
  let s := (s.down F.BUNDLE_LOST l).each (linkBundles l) fun s b => freshBundle (s.wr F.BUNDLE_STATE 2 b) b
  let s := assignControl s
  let s := s.each bad fun s x => if bundleLink x.1.val = l then trainLane s x.1.val x.2.val else s
  s.each (linkBundles l) fun s b => if sparesOf s b = 4 then ledgerRaise s 0 else s

/-- No link is trained: the B-die's own straps or fuses are at fault, or board-test mode is on (R17, R70). -/
def trainingBarred (s : State) : Bool := [1, 2, 0xD].contains (s.rd F.TIER0_ONLY)

/-- LINK_TRAINING_DONE (R16, R26 to R28, R49, R72): training of the links of the dies that are present ends; that of a die held in reset
does not begin. -/
def linkTrainingDone (s : State) (bad : List (Fin 32 × Fin 68)) : State :=
  if !s.on F.PLL_LOCKED || !s.on F.FUSE_VALID || trainingBarred s || s.on F.BINDOFF then s
  else
    let s := if s.rd F.STK_DIESTATE_C_STATE = 1 ∧ s.on F.SU_TIER_GIVE_UP = false then trainLink (s.wr F.STK_DIESTATE_C_STATE 2) 0 bad
      else s
    if s.rd F.STK_DIESTATE_M_STATE = 1 then trainLink (s.wr F.STK_DIESTATE_M_STATE 2) 1 bad else s

/-! Flits. -/

/-- The receiver of link end `e` sends NAK with the expected SEQ and discards until it arrives (R21). -/
def sendNak (s : State) (e : Nat) : State :=
  ((s.up F.LK_SKIP e).wr F.LK_NAK_OUT (s.rd F.LK_EXPECT e) e).bump F.LK_NAKS e

/-- The receiver of link end `e` sends ACK with the last accepted SEQ (R23). -/
def sendAck (s : State) (e : Nat) : State :=
  ((s.wr F.LK_ACK_OUT (s.rd F.LK_LAST_ACC e) e).bump F.LK_ACKS e).wr F.LK_UNACKED 0 e

/-- The link of end `e` has its far die up; a flit that arrives after that die has been lost is discarded (R40). -/
def endLive (s : State) (e : Nat) : Bool := farUp s (e / 2)

/-- ACK_RECEIVE (R23): the sender of link end `e` releases its sent entries up to `seq`; those that waited for room are sent. -/
def ackReceive (s : State) (e seq : Nat) : State :=
  let l := s.q Q.retry e
  if endLive s e && (l.take 64).any (fun f => f % 256 == seq) then s.setq Q.retry ((l.dropWhile fun f => f % 256 != seq).drop 1) e else s

/-- NAK_RECEIVE (R24): the sender resends from `seq` onwards; its buffer keeps every entry that is not acknowledged. RETRY counts one for
each NAK, not one for each flit sent again: its words, NAK-triggered resends, allow both (DESIGN CHOICE, log entry 87). -/
def nakReceive (s : State) (e seq : Nat) : State :=
  if endLive s e then (s.wr F.LK_RESENT seq e).bump F.BUNDLE_RETRY (e / 2) else s

/-- The times of the LCRC errors of bundle `b` that lie within the last millisecond, this one among them. -/
def crcRecent (s : State) (b : Nat) : List Nat := (s.q Q.crcTimes b).filter (fun t => decide (s.time < t + 2000000)) ++ [s.time]

/-- R32: an LCRC error of bundle `b` is counted; enough of them within one millisecond call for a test of the bundle, after which the
count begins again (DESIGN CHOICE, log entry 87). -/
def crcError (s : State) (b : Nat) : State :=
  let s := s.bump F.BUNDLE_CRC_ERR b
  let l := crcRecent s b
  let n := s.rd F.LBIST_CFG_CRC_TRIG
  if n ≠ 0 ∧ n ≤ l.length then (s.setq Q.crcTimes [] b).up F.CRC_PEND b
  else s.setq Q.crcTimes (l.drop (l.length - 255)) b

/-- What an accepted flit does at once: a HEARTBEAT on a control bundle is seen (R37), a RESULT with a reserved RTYPE is counted
(R178). -/
def flitAccepted (s : State) (e flit : Nat) : State :=
  if flitKind flit = 5 ∧ e % 2 = 1 then s.when (s.on F.BUNDLE_CTRL (e / 2)) (·.up F.HB_SEEN)
  else if flitKind flit = 4 ∧ 2 ≤ bits flit 17 16 then s.bump F.XR_SHADOW_ERR_COUNT
  else s

/-- FLIT_RECEIVE (R19 to R24, R40): the receiver of link end `e` takes a flit. ACK and NAK flits, which have no SEQ of their own, are taken
while it discards for a missing SEQ too: R21 does not except them (DESIGN CHOICE, log entry 87). -/
def flitReceive (s : State) (e flit : Nat) : State :=
  let b := e / 2
  let k := flitKind flit
  let seq := flit % 256
  if s.rd F.BUNDLE_STATE b < 2 || !farUp s b then s
  else if lcrc flit != bits flit 255 240 then sendNak (crcError s b) e
  else if 8 < k then sendNak s e
  else if k = 6 then ackReceive s (if e % 2 = 0 then e + 1 else e - 1) seq
  else if k = 7 then nakReceive s (if e % 2 = 0 then e + 1 else e - 1) seq
  else if !sequenced k then s
  else
    let back := (s.rd F.LK_EXPECT e + 256 - seq) % 256
    if back = 0 then
      let s := ((s.wr F.LK_EXPECT (seq + 1) e).down F.LK_SKIP e).wr F.LK_LAST_ACC seq e
      let s := s.wr F.LK_UNACKED (s.rd F.LK_UNACKED e + 1) e
      let s := if s.rd F.LK_UNACKED e = 8 then sendAck s e else s
      flitAccepted s e flit
    else if back ≤ 64 then s.bump F.BUNDLE_DUP b
    else if s.on F.LK_SKIP e then s
    else sendNak s e

/-- ACK_TIMER_EXPIRE (R23): 100 ns since the last ACK. -/
def ackTimer (s : State) (e : Nat) : State := if s.on F.LK_UNACKED e then sendAck s e else s

/-! Heartbeats. -/

/-- HEARTBEAT_SEND (R36). One for which a bundle has no room is not sent (R24). FLAGS.LAST is 0 in HEARTBEAT and STEER flits, which end no
transaction (DESIGN CHOICE, log entry 86). -/
def heartbeatSend (s : State) : State :=
  if cUp s && !s.on F.HB_SUSPENDED then
    s.each (controlBundles s) fun s b => if flitRoom s (2 * b + 1) 1 then sendFlit s (2 * b + 1) ⟨5, false, 0⟩ else s
  else s

/-- HEARTBEAT_PERIOD_MISS (R37): a period of 1 µs ends; one without a heartbeat is counted. -/
def heartbeatMiss (s : State) : State :=
  if !cUp s || s.on F.HB_SUSPENDED then s
  else if s.on F.HB_SEEN then s.down F.HB_SEEN
  else s.bump F.STK_TALLY0_HB_MISS

/-- HEARTBEAT_TIMEOUT (R37, R40): the C-die is lost. -/
def heartbeatTimeout (s : State) : State := if cUp s && !s.on F.HB_SUSPENDED && !s.on F.HB_SEEN then cDieLoss s 1 else s

/-- M_LINK_SILENT_TIMEOUT (R38): the M-die is lost. -/
def mLinkSilent (s : State) : State := if mUp s && !s.on F.HB_SUSPENDED 1 then mDieLoss s 1 else s

/-- ORPHAN_TIMEOUT (R41, R43): leg `k` in hold-last goes to its safe state. -/
def orphanTimeout (s : State) (k : Nat) : State :=
  if s.rd F.LG_STAT_STATE k == 3 && s.on F.ORPHAN_RUN k then legToSafe s k else s

/-! Lane tests. -/

/-- The bundle that link `l` tests first under the CRC trigger: the one begun, else the lowest that has called for it (R32). -/
def trigBundle (s : State) (l : Nat) : Option Nat :=
  if s.on F.LT_TRIG l then some (s.rd F.LT_TRIG l - 1) else (linkBundles l).find? fun b => s.on F.CRC_PEND b

/-- The bundle and lane that link `l` visits next in bundle order, then lane order (R30): data lanes alone, one after another, also one that
a spare replaces, whose turn then passes; a spare in use has no turn (DESIGN CHOICE, log entry 87: only the worked example speaks of data
lanes). -/
def nextLane (s : State) (l : Nat) : Nat × Nat :=
  let base := if l = 0 then 0 else 24
  let n := if l = 0 then 24 else 8
  let b := if s.rd F.LT_BUNDLE l < base then base + n - 1 else s.rd F.LT_BUNDLE l
  let lane := s.rd F.LT_LANE l
  if lane < 63 then (b, lane + 1) else (base + (b - base + 1) % n, 0)

/-- The turn of link `l` moves on to the lane it gives: of a bundle under the trigger every lane, spares too (R32). -/
def takeTurn (s : State) (l : Nat) : State × Nat × Nat :=
  match trigBundle s l with
  | some b =>
    let lane := if s.on F.LT_TRIG l then s.rd F.LT_TRIG_LANE l else 0
    let s := s.down F.CRC_PEND b
    (if 67 ≤ lane then (s.wr F.LT_TRIG 0 l).wr F.LT_TRIG_LANE 0 l else (s.wr F.LT_TRIG (b + 1) l).wr F.LT_TRIG_LANE (lane + 1) l, b, lane)
  | none =>
    let x := nextLane s l
    ((s.wr F.LT_BUNDLE x.1 l).wr F.LT_LANE x.2 l, x.1, x.2)

/-- A retry of bundle `b` is in progress: a receiver discards until a SEQ arrives again (R29). -/
def retrying (s : State) (b : Nat) : Bool := s.on F.LK_SKIP (2 * b) || s.on F.LK_SKIP (2 * b + 1)

/-- A STEER flit leaves over bundle `b`; both ends switch at the SEQ it names, that of the next flit (the place of that SEQ in the body:
DESIGN CHOICE, log entry 86). -/
def steer (s : State) (l b : Nat) : State :=
  let named := (s.rd F.LK_TXSEQ (2 * b) + 1) % 256
  (sendFlit s (2 * b) ⟨8, false, named⟩).wr F.LT_SWITCH named l

/-- The turn is skipped and counted (R29). Outside the trigger the skip covers the lanes of the bundle that are left in this sweep, under it
the one lane: the spec does not say what a turn covers (DESIGN CHOICE, log entry 87). -/
def skipTurn (s : State) (l : Nat) (trig : Bool) : State := (s.bump F.STK_TALLY0_LBIST_SKIP).when (!trig) (·.wr F.LT_LANE 63 l)

/-- LANE_TEST_START (R28 to R30, R32): the gap of link `l` expires. A lane that carries no traffic is passed over. No test starts where
the bundle has no room for the STEER flit (R24). -/
def laneTestStart (s : State) (l : Nat) : State :=
  if !s.on F.LBIST_CFG_EN || s.on F.LT_ACTIVE l then s
  else
    let trig := (trigBundle s l).isSome
    let x := takeTurn s l
    let b := x.2.1
    let lane := x.2.2
    let s1 := x.1
    if !inService s b || !laneInUse s b lane then s1
    else
      match freeSpare s b with
      | some k =>
        if retrying s b then skipTurn s1 l trig
        else if !flitRoom s (2 * b) 1 then s
        else steer ((((s1.up F.LT_ACTIVE l).wr F.LT_SPARE (k + 1) l).wr F.LT_TEST_BUNDLE b l).wr F.LT_TEST_LANE lane l) l b
      | none => skipTurn s1 l trig

/-- LANE_TEST_DONE (R31, R35, R46): the running test of link `l` ends; `bad`: the lane failed twice in succession. -/
def laneTestDone (s : State) (l : Nat) (bad : Bool) : State :=
  if !s.on F.LT_ACTIVE l then s
  else
    let b := s.rd F.LT_TEST_BUNDLE l
    let lane := s.rd F.LT_TEST_LANE l
    let k := s.rd F.LT_SPARE l - 1
    let s := (s.down F.LT_ACTIVE l).wr F.LT_SPARE 0 l
    if bad then ((repairLane s b lane k).up F.STK_EVT_LANE_REP).post 4 else steer s l b

/-! The commands. -/

def execBDieFuseRead (site : BitVec 3) (fuses : BFuses) (s : State) : Out := .next (bFuseRead s site.toNat fuses)
def execUpperFuseRead (cSite mSite : BitVec 3) (cId mId : BitVec 64) (s : State) : Out :=
  .next (upperFuseRead s cSite.toNat mSite.toNat cId.toNat mId.toNat)
def execLinkTrainingDone (bad : List (Fin 32 × Fin 68)) (s : State) : Out := .next (linkTrainingDone s bad)
def execNakReceive (linkEnd : Fin 64) (seq : BitVec 8) (s : State) : Out := .next (nakReceive s linkEnd.val seq.toNat)
def execAckTimerExpire (linkEnd : Fin 64) (s : State) : Out := .next (ackTimer s linkEnd.val)
def execHeartbeatSend (s : State) : Out := .next (heartbeatSend s)
def execHeartbeatPeriodMiss (s : State) : Out := .next (heartbeatMiss s)
def execHeartbeatTimeout (s : State) : Out := .next (heartbeatTimeout s)
def execMLinkSilentTimeout (s : State) : Out := .next (mLinkSilent s)
def execOrphanTimeout (leg : Fin 16) (s : State) : Out := .next (orphanTimeout s leg.val)
def execLaneTestStart (link : Fin 2) (s : State) : Out := .next (laneTestStart s link.val)
def execLaneTestDone (link : Fin 2) (bad : Bool) (s : State) : Out := .next (laneTestDone s link.val bad)

end Sys2Proof.Machine
end

