-- ==== Sys2Proof/Machine/FabricRows.lean ====
section
/-!
DEFINITION. The commands of the fabric (04_fabric_and_address_map.md): accesses to memory, the tags of the crossroads and
SHADOW requests. An access command is a whole request: it takes its tag, is served and answered, and frees the tag, where it
is not held. A request whose steps are commands of their own enters with HEADER_ARRIVE, is served by an access command or by
its target, and ends with RESPONSE_RECEIVE.
-/
namespace Sys2Proof.Machine

/-- XR_CFG.TMO as R179 takes it. -/
def tmoNow (s : State) : Nat := max 20 (s.rd F.XR_CFG_TMO)

/-- A header takes tag `t`: what the tag keeps of the request, and on which bundles it is placed (R33, R153, R154, R164, R756). -/
def tagFields (s : State) (t : Nat) (r : Held) (code : Nat) : State :=
  let s := (((s.up F.TAG_BUSY t).wr F.TAG_MID code t).wr F.TAG_TMO (tmoNow s) t).wr F.TAG_ADDR r.addr t
  let s := (((s.wr F.TAG_OP r.op t).wr F.TAG_SINCE s.time t).wr F.TAG_SIZE (Nat.log2 r.size) t).wr F.TAG_DATA r.data t
  let s := s.wr F.TAG_DOM (masterDomain s r.who) t
  s.each (linksOf r.who r.addr) fun s l =>
    (s.wr F.TAG_BUNDLE (match bundleFor s l (midOf s r.who) r.addr with | some b => b + 1 | none => 0) t l).wr F.TAG_N
      (generalBundles s l).length t l

/-- A header has taken tag `t`, and goes on to its target. -/
def takeTag (s : State) (t : Nat) (r : Held) (code : Nat) : State :=
  sendOn ((tagFields s t r code).peak F.XR_TAGS_MAX ((busyTags s).length + 1)) r t

/-- A header that waits in the link buffer, as one number. -/
def headerWord (r : Held) : Nat :=
  masterCode r.who + r.op * 2 ^ 8 + bnat r.priv * 2 ^ 12 + Nat.log2 r.size * 2 ^ 13 + r.addr * 2 ^ 16 + r.data * 2 ^ 48

/-- The header a number spells. -/
def headerOf (h : Nat) : Held :=
  ⟨masterAt (h % 256), h.testBit 12, bits h 11 8, bits h 47 16, 2 ^ bits h 15 13, h / 2 ^ 48⟩

/-- The request waits at its master's own interface (R151, R164, R24): it does not set out. -/
def atInterface (s : State) (r : Held) : Bool := decide (masterLimit r.who ≤ openRequests s r.who) || linkHolds s r

/-- HEADER_ARRIVE (R11, R150, R151, R153, R164, R178, R537). A request that does not cross a link passes no crossroads; a SHADOW request
takes no tag (R157); one that waits at its master's interface does not arrive. -/
def headerArrive (s : State) (r : Held) : State :=
  if !masterLive s r.who || !crosses r.who r.addr || r.op == 2 || atInterface s r then s
  else
    let s := sendFirst s r
    if !dieAnswers s r.who r.addr then respondCode s r .absent
    else match fwRefuses s r.who r.op r.addr with
      | some f => respondCode (fwRefuse s f (midOf s r.who) r.op r.addr) r .firewall
      | none => match freeTagOf s with
        | some t => takeTag s t r (masterCode r.who)
        | none => s.pushq Q.headers (headerWord r)

/-- HELD_HEADER_TAGGED (R44, R153): the oldest header of the link buffer takes a tag; one whose target's die has gone meanwhile completes
with ABSENT. A header of a C-die that has been lost keeps its place, and its answer is absorbed (R750). -/
def heldHeader (s : State) : State :=
  match s.q Q.headers, freeTagOf s with
  | h :: rest, some t =>
    let r := headerOf h
    let s := s.setq Q.headers rest
    if dieAnswers s r.who r.addr then takeTag s t r (h % 256)
    else if h % 256 = lostCode then s.bump F.STK_TALLY1_ABSORB_C
    else respondCode s r .absent
  | _, _ => s

/-- The tag has been held for its TMO (R154). -/
def tagDue (s : State) (t : Nat) : Bool := s.on F.TAG_BUSY t && decide (s.rd F.TAG_SINCE t + 2000 * s.rd F.TAG_TMO t ≤ s.time)

/-- TAG_TIMEOUT (R154). -/
def tagTimeout (s : State) (t : Nat) : State := if tagDue s t then answerTag (s.bump F.XR_LATE_LATE) t .abort true else s

/-- The response code a number names (R165). -/
def codeOf (n : Nat) : Code :=
  match n with
  | 0 => .ok | 1 => .absent | 2 => .pdown | 3 => .abort | 4 => .busy | 5 => .firewall | 6 => .decode | _ => .ecc

/-- What the target has done by the time its answer leaves: the array has programmed the words of a write it answers with OK (R45,
R674). A request to any other target takes effect with an access command (log entry 26). -/
def targetDid (s : State) (t : Nat) (c : Code) : State :=
  if tagWrites s t && c == .ok then
    memStore s (targetOf (s.rd F.TAG_ADDR t)) (s.rd F.TAG_ADDR t) (2 ^ s.rd F.TAG_SIZE t) (s.rd F.TAG_DATA t)
  else s

/-- RESPONSE_RECEIVE (R154, R165, R167, R173, R177, R178): a response with tag `t`. One whose tag is free, or has been held for its TMO,
comes too late; one for a master of a lost C-die is absorbed. To a reserved operation the target can answer DECODE alone. -/
def responseReceive (s : State) (t : Nat) (r : Resp) : State :=
  if !s.on F.TAG_BUSY t then s.bump F.XR_LOST_LOST_REPLY
  else if tagDue s t then (tagTimeout s t).bump F.XR_LOST_LOST_REPLY
  else
    let m := masterAt (s.rd F.TAG_MID t)
    let a := s.rd F.TAG_ADDR t
    let size := 2 ^ s.rd F.TAG_SIZE t
    let r : Resp := if 4 < s.rd F.TAG_OP t then ⟨.decode, false, 0⟩ else r
    let s1 := freeTag (targetDid s t r.code) t
    if s.rd F.TAG_MID t = lostCode then s1.bump F.STK_TALLY1_ABSORB_C
    else if !isBMaster m && !cDomainLive s (s.rd F.TAG_DOM t) then s1.bump F.XR_LOST_LOST_REPLY
    else reply s1 m a ⟨r, size, t, false⟩

/-! SHADOW requests (R157). -/

/-- The strobe whose width register an address is, if any. -/
def strobeWidthAt (a : Nat) : Option Nat :=
  match locate (.unit 40) a with
  | some l => if l.b = .st then (match regAt l with | some (row, k) => if row.off = 0x100 then some k else none | none => none) else none
  | none => none

/-- The slice and shadow whose register an address is, if any. -/
def sliceShadowAt (a : Nat) : Option (Nat × Nat) :=
  match locate (.unit 40) a with
  | some l =>
    if l.b ≠ .ct then none else if l.off = 0x10C then some (l.i, 4)
    else if 0x120 ≤ l.off ∧ l.off < 0x130 ∧ l.off % 4 = 0 then some (l.i, (l.off - 0x120) / 4) else none
  | none => none

/-- SHADOW_WRITE (R157, R302, R356): the oldest SHADOW request on its way arrives. -/
def shadowArrive (s : State) : State :=
  match s.shadows with
  | [] => s
  | sh :: rest =>
    if !shadowDue s then s
    else
    let s := { s with shadows := rest }
    match sliceShadowAt sh.addr, strobeWidthAt sh.addr with
    | some (n, j), _ => if domOn s (15 + n / 2) then ctHardShadow s n j sh.data else s.bump F.XR_SHADOW_ERR_COUNT
    | none, some n =>
      if domOn s 33 then (s.wr F.ST_WIDTH_TICKS sh.data n).wr F.ST_WIDTH_FINE (sh.data / 2 ^ F.ST_WIDTH_TICKS.w) n
      else s.bump F.XR_SHADOW_ERR_COUNT
    | none, none => s.bump F.XR_SHADOW_ERR_COUNT

/-! Accesses to memory. -/

/-- What the check bits of the memory word read turn out to say: 0 nothing, 1 a corrected error, 2 an uncorrectable one. It
concerns SRAM, local memory and engine memory, where the access reaches them. -/
def checkBits (s : State) (r : Held) (ecc : Nat) : State :=
  match gate s r, targetOf r.addr with
  | .mem, .sram _ => if ecc = 2 then s.spoil r.addr else s
  | .mem, .localMem _ => if ecc = 2 then s.spoil r.addr else s
  | .mem, .engine => if ecc = 2 then s.spoil r.addr else if ecc = 1 then s.bump F.LE_TALLY2_ECC_CORR else s
  | _, _ => s

/-- A request as a command spells it. -/
def reqOf (src : Source) (op a size data : Nat) : Held := ⟨src.who, src.priv, op, a, size, data % 2 ^ (8 * size)⟩

/-! The commands. -/

/-- HEADER_ARRIVE. `op` as R155 codes it; `body` holds its size and what a write brings. -/
def execHeaderArrive (src : Source) (op : BitVec 4) (addr : BitVec 32) (body : Payload) (s : State) : Out :=
  .next (headerArrive s (reqOf src op.toNat addr.toNat (2 ^ body.size.val) body.data.toNat))

/-- FLIT_RECEIVE (R18 to R24): an ACK among them may make room for requests that wait to set out. -/
def execFlitReceive (linkEnd : Fin 64) (flit : BitVec 256) (s : State) : Out :=
  .next (releaseHeld (flitReceive s linkEnd.val flit.toNat))
/-- ACK_RECEIVE (R23, R24). -/
def execAckReceive (linkEnd : Fin 64) (seq : BitVec 8) (s : State) : Out := .next (releaseHeld (ackReceive s linkEnd.val seq.toNat))
def execHeldHeaderTagged (s : State) : Out := .next (heldHeader s)
/-- TAG_TIMEOUT: a request held at its master's interface may go on (R151, R164). -/
def execTagTimeout (tag : BitVec 12) (s : State) : Out := .next (releaseHeld (tagTimeout s tag.toNat))
def execResponseReceive (tag : BitVec 12) (code : Fin 8) (dup : Bool) (data : BitVec 256) (s : State) : Out :=
  .next (releaseHeld (responseReceive s tag.toNat ⟨codeOf code.val, dup, data.toNat⟩))
/-- MEMORY_READ (R159, R165): `ecc` as `checkBits` takes it. -/
def execMemoryRead (src : Source) (addr : BitVec 32) (size : Fin 6) (ecc : Fin 3) (s : State) : Out :=
  let r := reqOf src 0 addr.toNat (2 ^ size.val) 0
  .next (busRequest (checkBits s r ecc.val) r)
/-- MEMORY_WRITE (R161, R438). -/
def execMemoryWrite (src : Source) (addr : BitVec 32) (size : Fin 6) (data : BitVec 256) (s : State) : Out :=
  .next (busRequest s (reqOf src 1 addr.toNat (2 ^ size.val) data.toNat))
/-- ATOMIC_SWAP (R158): `wide`: 8 bytes. -/
def execAtomicSwap (src : Source) (addr : BitVec 32) (wide : Bool) (data : BitVec 64) (s : State) : Out :=
  .next (busRequest s (reqOf src 3 addr.toNat (if wide then 8 else 4) data.toNat))
/-- ATOMIC_ADD (R158). -/
def execAtomicAdd (src : Source) (addr : BitVec 32) (wide : Bool) (data : BitVec 64) (s : State) : Out :=
  .next (busRequest s (reqOf src 4 addr.toNat (if wide then 8 else 4) data.toNat))
def execShadowWrite (s : State) : Out := .next (shadowArrive s)

end Sys2Proof.Machine
end

