-- ==== Sys2Proof/Machine/ThreadRows.lean ====
section
/-!
DEFINITION. The commands of the thread cores (11_thread_cores.md, 12_instruction_set.md): fetches, loads, stores, exceptions
and every instruction. `t` is a copy number: 0 to 39 the threads, 40 to 47 what SP-C holds of threads 32 to 39. An
instruction's command takes effect where the copy can issue that word now; else nothing happens (log entry 29).
-/
namespace Sys2Proof.Machine

/-! Loads (R439, R442, R475, R552). -/


/-- The copy leads a pair of copies in lock-step. -/
def leadsPair (s : State) (u : Nat) : Bool := decide (32 ≤ u) && decide (u < 40) && pairMode s == 0

/-- The answer in `resp` reaches the copy; in lock-step SP-C will see the same (R552). `miss`: a line was requested. -/
def loadAnswered (s : State) (u : Nat) (miss : Bool) : State :=
  let c := s.resp.code.num
  let v := s.resp.data
  let s := if leadsPair s u then (((s.up F.LDX_OK u).wr F.LDX_CODE c u).wr F.LDX_DATA v u).wrb F.LDX_MISS miss u else s
  deliver s u c v

/-- An access of a thread to its own core's local memory (R438); the answer stands in `resp`. -/
def localAccess (s : State) (u : Nat) (r : Held) : State :=
  let t : Target := .localMem (coreOf u)
  let a := 0x40100000 + coreOf u * 0x10000 + (r.addr - 0xE0000000)
  if r.op = 0 then
    match memReadFault s t a r.size with
    | some c => { s with resp := ⟨c, false, 0⟩ }
    | none => { s with resp := ⟨.ok, false, s.mget a r.size⟩ }
  else
    match memAtomicFault s t a r.size with
    | some c => { s with resp := ⟨c, false, 0⟩ }
    | none => { atomicStore s t r.op a r.size r.data with resp := ⟨.ok, false, s.mget a r.size⟩ }

/-- A load from NVM goes through the read cache (R434). -/
def cachedLoad (s : State) (u : Nat) (parity : Bool) : State :=
  let a := s.rd F.LD_ADDR u
  let was := s.rd F.FB_REQ u
  let t := cachedLine (s.down F.FB_REQ u) u a Q.rcache 128 2 F.RC_CTRL_EN F.RC_HIT_COUNT F.RC_MISS_COUNT parity
  let miss := t.on F.FB_REQ u
  let t := { t.wr F.FB_REQ was u with resp := ⟨t.resp.code, t.resp.dup, t.resp.data / 2 ^ (8 * (a % 32))⟩ }
  loadAnswered t u miss

/-- SP-C in lock-step sees the answer SP-M saw (R552). -/
def checkerLoad (s : State) (u : Nat) : State :=
  let m := u - 8
  if s.on F.LDX_OK m then
    let s := if s.on F.LDX_MISS m then foldRequest s u 0 32 (s.rd F.LD_ADDR u / 32 * 32) 0 else s
    deliver (s.down F.LDX_OK m) u (s.rd F.LDX_CODE m) (s.rd F.LDX_DATA m)
  else s

/-- LOAD_RESPONSE (R434 to R439, R442, R477): the answer to the copy's outstanding load. `parity` as `cachedLine` takes it. A
request that an earlier store or its target holds is not answered yet. -/
def loadResponse (s : State) (u : Nat) (parity : Bool) : State :=
  let r := loadRequest s u
  if !s.on F.LD_PEND u then s
  else if isChecker s u then checkerLoad s u
  else if (leadsPair s u && s.on F.LDX_OK u) || loadWaits s u then s
  else if ownLocal u r.addr then loadAnswered (localAccess s u r) u false
  else if r.op = 0 ∧ inNvm r.addr then
    (if cacheBusy s u || (lineNeeded s u r.addr Q.rcache 128 F.RC_CTRL_EN && lineWaits s u r.addr) then s
    else cachedLoad s u parity)
  else if !masterLive s r.who || holds s r then s
  else loadAnswered (serve s r (gate s r)) u false

/-! Stores (R441, R444). -/

/-- The copy's oldest store that has not left for the fabric. -/
def oldestStore (s : State) (u : Nat) : Option StoreEntry := s.stores.find? fun e => e.thread == u && !e.issued


/-- The copy's oldest unissued entry has left and has its answer. -/
def markIssued (l : List StoreEntry) (u : Nat) (r : Resp) : List StoreEntry :=
  match l with
  | [] => []
  | e :: rest =>
    if e.thread == u && !e.issued then { e with issued := true, answer := some r } :: rest else e :: markIssued rest u r

/-- The answer in `resp` is that of the copy's oldest unissued store. -/
def storeAnswered (s : State) (u : Nat) : State := { s with stores := markIssued s.stores u s.resp }

/-- The copy is at its limit of outstanding requests, its load among them (R150, R151). -/
def atLimit (s : State) (u : Nat) : Bool := decide (4 ≤ openRequests s (threadMaster u) + s.rd F.LD_PEND u)

/-- STORE_BUFFER_DRAIN (R441): the copy's oldest store leaves for the fabric. -/
def storeDrain (s : State) (u : Nat) : State :=
  match oldestStore s u with
  | none => s
  | some e =>
    let r := storeRequest e
    if atLimit s u || !masterLive s r.who || holds s r then s else storeAnswered (serve s r (gate s r)) u

/-! Own requests that are held too long (R174, R175, R629). -/

/-- The request is held for a reason that satisfies `p`. -/
def heldFor (s : State) (r : Held) (p : HoldWhy → Bool) : Bool := match gate s r with | .hold w => p w | _ => false

/-- A push that found no room is counted (R629). -/
def countFull (s : State) (r : Held) : State :=
  match gate s r, locate r.who r.addr with
  | .hold .room, some l => s.bump F.PT_TALLY_TX_FULL (portOf l.b l.i)
  | _, _ => s

/-- The waiting request of copy `u` itself completes with `c`: a load, else its oldest store, else its fetch. -/
def threadExpire (s : State) (u : Nat) (p : HoldWhy → Bool) (c : Code) : State :=
  let r := loadRequest s u
  if s.on F.LD_PEND u && !isChecker s u && !loadWaits s u && heldFor s r p then
    loadAnswered (respondCode (countFull s r) r c) u (inNvm r.addr)
  else
    match (oldestStore s u).filter fun e => heldFor s (storeRequest e) p with
    | some e => storeAnswered (respondCode (countFull s (storeRequest e)) (storeRequest e) c) u
    | none =>
      let pc := s.rd F.PC u
      if canAdvance s u && asyncDue s u == 0 && s.rd F.FB_LINE u != pc / 32 + 1 && fetchable u pc && !isChecker s u &&
          p .power && dieAnswers s (threadMaster u) pc && poweringUp s pc && (mpuCheck s u .fetch pc).isNone then
        raise (respondCode s (lineRequest s u pc) c) u 8 (c.num + 256) pc
      else s

/-! System instructions. -/

/-- MFS (R445, R488, R491). -/
def mfs (s : State) (u rd num w : Nat) : State :=
  if userLevel s u && !userReads num then raisePriv s u w else result s u rd (sysRead s u num)

/-- MTS (R445, R484, R488, R536). -/
def mts (s : State) (u ra num w : Nat) : State :=
  if mtsRefused s u num then raisePriv s u w else advance (sysWrite s u num (gpr s u ra)) u

/-- RETX (R448). -/
def retx (s : State) (u w : Nat) : State :=
  if userLevel s u then raisePriv s u w else (s.wr F.TSR (s.rd F.XSR u) u).wr F.PC (s.rd F.XPC u) u

/-- The 64-bit pair of registers `r` and `r + 1`. -/
def pairOf (s : State) (u r : Nat) : Nat := gpr s u r + gpr s u (r + 1) * 2 ^ 32

/-! The commands of the pipeline. -/

/-- FETCH_REFILL_DONE (R432). -/
def execFetchRefillDone (t : Fin 48) (parity : Bool) (s : State) : Out := .next (fetchRefill s t.val parity)
def execLoadResponse (t : Fin 48) (parity : Bool) (s : State) : Out := .next (loadResponse s t.val parity)
def execStoreBufferDrain (t : Fin 48) (s : State) : Out := .next (storeDrain s t.val)
def execStoreResponse (t : Fin 48) (s : State) : Out := .next (storeResponse s t.val)
def execDivideDone (t : Fin 48) (s : State) : Out := .next (divideDone s t.val)
def execAsyncException (t : Fin 48) (s : State) : Out := .next (takeAsync s t.val)
def execThreadWatchdogExpire (t : Fin 40) (s : State) : Out := .next (watchdogExpire s t.val)
def execCcInvDone (core : Fin 6) (s : State) : Out := .next (ccInvDone s core.val)
/-- ILLEGAL_INSTRUCTION (R487): the copy meets a word that is no legal encoding. -/
def execIllegalInstruction (t : Fin 48) (word : BitVec 32) (s : State) : Out :=
  .next (if legalWord word.toNat then s else issue s t.val word.toNat fun s => s)

/-! The instructions. -/

/-- ADD (R466). -/
def execAdd (t : Fin 48) (rd ra rb : Fin 16) (s : State) : Out :=
  .next (issue s t.val (encA 1 rd.val ra.val rb.val 0 0) fun s => result s t.val rd.val (intResult 0 (gpr s t.val ra.val) (gpr s t.val rb.val)))

/-- SUB (R466). -/
def execSub (t : Fin 48) (rd ra rb : Fin 16) (s : State) : Out :=
  .next (issue s t.val (encA 1 rd.val ra.val rb.val 0 1) fun s => result s t.val rd.val (intResult 1 (gpr s t.val ra.val) (gpr s t.val rb.val)))

/-- AND (R466). -/
def execAnd (t : Fin 48) (rd ra rb : Fin 16) (s : State) : Out :=
  .next (issue s t.val (encA 1 rd.val ra.val rb.val 0 2) fun s => result s t.val rd.val (intResult 2 (gpr s t.val ra.val) (gpr s t.val rb.val)))

/-- OR (R466). -/
def execOr (t : Fin 48) (rd ra rb : Fin 16) (s : State) : Out :=
  .next (issue s t.val (encA 1 rd.val ra.val rb.val 0 3) fun s => result s t.val rd.val (intResult 3 (gpr s t.val ra.val) (gpr s t.val rb.val)))

/-- XOR (R466). -/
def execXor (t : Fin 48) (rd ra rb : Fin 16) (s : State) : Out :=
  .next (issue s t.val (encA 1 rd.val ra.val rb.val 0 4) fun s => result s t.val rd.val (intResult 4 (gpr s t.val ra.val) (gpr s t.val rb.val)))

/-- ANDN (R466). -/
def execAndn (t : Fin 48) (rd ra rb : Fin 16) (s : State) : Out :=
  .next (issue s t.val (encA 1 rd.val ra.val rb.val 0 5) fun s => result s t.val rd.val (intResult 5 (gpr s t.val ra.val) (gpr s t.val rb.val)))

/-- SHL (R466). -/
def execShl (t : Fin 48) (rd ra rb : Fin 16) (s : State) : Out :=
  .next (issue s t.val (encA 1 rd.val ra.val rb.val 0 6) fun s => result s t.val rd.val (intResult 6 (gpr s t.val ra.val) (gpr s t.val rb.val)))

/-- SHR (R466). -/
def execShr (t : Fin 48) (rd ra rb : Fin 16) (s : State) : Out :=
  .next (issue s t.val (encA 1 rd.val ra.val rb.val 0 7) fun s => result s t.val rd.val (intResult 7 (gpr s t.val ra.val) (gpr s t.val rb.val)))

/-- SAR (R466). -/
def execSar (t : Fin 48) (rd ra rb : Fin 16) (s : State) : Out :=
  .next (issue s t.val (encA 1 rd.val ra.val rb.val 0 8) fun s => result s t.val rd.val (intResult 8 (gpr s t.val ra.val) (gpr s t.val rb.val)))

/-- ROR (R466). -/
def execRor (t : Fin 48) (rd ra rb : Fin 16) (s : State) : Out :=
  .next (issue s t.val (encA 1 rd.val ra.val rb.val 0 9) fun s => result s t.val rd.val (intResult 9 (gpr s t.val ra.val) (gpr s t.val rb.val)))

/-- SLT (R466). -/
def execSlt (t : Fin 48) (rd ra rb : Fin 16) (s : State) : Out :=
  .next (issue s t.val (encA 1 rd.val ra.val rb.val 0 10) fun s => result s t.val rd.val (intResult 10 (gpr s t.val ra.val) (gpr s t.val rb.val)))

/-- SLTU (R466). -/
def execSltu (t : Fin 48) (rd ra rb : Fin 16) (s : State) : Out :=
  .next (issue s t.val (encA 1 rd.val ra.val rb.val 0 11) fun s => result s t.val rd.val (intResult 11 (gpr s t.val ra.val) (gpr s t.val rb.val)))

/-- MIN (R466). -/
def execMin (t : Fin 48) (rd ra rb : Fin 16) (s : State) : Out :=
  .next (issue s t.val (encA 1 rd.val ra.val rb.val 0 12) fun s => result s t.val rd.val (intResult 12 (gpr s t.val ra.val) (gpr s t.val rb.val)))

/-- MAX (R466). -/
def execMax (t : Fin 48) (rd ra rb : Fin 16) (s : State) : Out :=
  .next (issue s t.val (encA 1 rd.val ra.val rb.val 0 13) fun s => result s t.val rd.val (intResult 13 (gpr s t.val ra.val) (gpr s t.val rb.val)))

/-- MINU (R466). -/
def execMinu (t : Fin 48) (rd ra rb : Fin 16) (s : State) : Out :=
  .next (issue s t.val (encA 1 rd.val ra.val rb.val 0 14) fun s => result s t.val rd.val (intResult 14 (gpr s t.val ra.val) (gpr s t.val rb.val)))

/-- MAXU (R466). -/
def execMaxu (t : Fin 48) (rd ra rb : Fin 16) (s : State) : Out :=
  .next (issue s t.val (encA 1 rd.val ra.val rb.val 0 15) fun s => result s t.val rd.val (intResult 15 (gpr s t.val ra.val) (gpr s t.val rb.val)))

/-- MUL (R467). -/
def execMul (t : Fin 48) (rd ra rb : Fin 16) (s : State) : Out :=
  .next (issue s t.val (encA 2 rd.val ra.val rb.val 0 0) fun s => result s t.val rd.val (mulResult 0 (gpr s t.val ra.val) (gpr s t.val rb.val)))

/-- MULH (R467). -/
def execMulh (t : Fin 48) (rd ra rb : Fin 16) (s : State) : Out :=
  .next (issue s t.val (encA 2 rd.val ra.val rb.val 0 1) fun s => result s t.val rd.val (mulResult 1 (gpr s t.val ra.val) (gpr s t.val rb.val)))

/-- MULHU (R467). -/
def execMulhu (t : Fin 48) (rd ra rb : Fin 16) (s : State) : Out :=
  .next (issue s t.val (encA 2 rd.val ra.val rb.val 0 2) fun s => result s t.val rd.val (mulResult 2 (gpr s t.val ra.val) (gpr s t.val rb.val)))

/-- MULQ (R467). -/
def execMulq (t : Fin 48) (rd ra rb : Fin 16) (s : State) : Out :=
  .next (issue s t.val (encA 2 rd.val ra.val rb.val 0 3) fun s => result s t.val rd.val (mulResult 3 (gpr s t.val ra.val) (gpr s t.val rb.val)))

/-- MULX (R467). -/
def execMulx (t : Fin 48) (rd ra rb : Fin 16) (s : State) : Out :=
  .next (issue s t.val (encA 2 rd.val ra.val rb.val 0 4) fun s => result s t.val rd.val (mulResult 4 (gpr s t.val ra.val) (gpr s t.val rb.val)))

/-- DIV (R430, R467). -/
def execDiv (t : Fin 48) (rd ra rb : Fin 16) (s : State) : Out :=
  .next (issue s t.val (encA 2 rd.val ra.val rb.val 0 8) fun s => divide s t.val rd.val 8 (gpr s t.val ra.val) (gpr s t.val rb.val))

/-- DIVU (R430, R467). -/
def execDivu (t : Fin 48) (rd ra rb : Fin 16) (s : State) : Out :=
  .next (issue s t.val (encA 2 rd.val ra.val rb.val 0 9) fun s => divide s t.val rd.val 9 (gpr s t.val ra.val) (gpr s t.val rb.val))

/-- REM (R430, R467). -/
def execRem (t : Fin 48) (rd ra rb : Fin 16) (s : State) : Out :=
  .next (issue s t.val (encA 2 rd.val ra.val rb.val 0 10) fun s => divide s t.val rd.val 10 (gpr s t.val ra.val) (gpr s t.val rb.val))

/-- REMU (R430, R467). -/
def execRemu (t : Fin 48) (rd ra rb : Fin 16) (s : State) : Out :=
  .next (issue s t.val (encA 2 rd.val ra.val rb.val 0 11) fun s => divide s t.val rd.val 11 (gpr s t.val ra.val) (gpr s t.val rb.val))

/-- ADDS (R468). -/
def execAdds (t : Fin 48) (rd ra rb : Fin 16) (s : State) : Out :=
  .next (issue s t.val (encA 3 rd.val ra.val rb.val 0 0) fun s => result s t.val rd.val (satResult 0 0 (gpr s t.val ra.val) (gpr s t.val rb.val)))

/-- SUBS (R468). -/
def execSubs (t : Fin 48) (rd ra rb : Fin 16) (s : State) : Out :=
  .next (issue s t.val (encA 3 rd.val ra.val rb.val 0 1) fun s => result s t.val rd.val (satResult 1 0 (gpr s t.val ra.val) (gpr s t.val rb.val)))

/-- ADDUS (R468). -/
def execAddus (t : Fin 48) (rd ra rb : Fin 16) (s : State) : Out :=
  .next (issue s t.val (encA 3 rd.val ra.val rb.val 0 2) fun s => result s t.val rd.val (satResult 2 0 (gpr s t.val ra.val) (gpr s t.val rb.val)))

/-- SUBUS (R468). -/
def execSubus (t : Fin 48) (rd ra rb : Fin 16) (s : State) : Out :=
  .next (issue s t.val (encA 3 rd.val ra.val rb.val 0 3) fun s => result s t.val rd.val (satResult 3 0 (gpr s t.val ra.val) (gpr s t.val rb.val)))

/-- SHLS (R468). -/
def execShls (t : Fin 48) (rd ra rb : Fin 16) (s : State) : Out :=
  .next (issue s t.val (encA 3 rd.val ra.val rb.val 0 8) fun s => result s t.val rd.val (satResult 8 0 (gpr s t.val ra.val) (gpr s t.val rb.val)))

/-- NEGS (R468). -/
def execNegs (t : Fin 48) (rd ra : Fin 16) (s : State) : Out :=
  .next (issue s t.val (encA 3 rd.val ra.val 0 0 4) fun s => result s t.val rd.val (satResult 4 0 (gpr s t.val ra.val) 0))

/-- ABSS (R468). -/
def execAbss (t : Fin 48) (rd ra : Fin 16) (s : State) : Out :=
  .next (issue s t.val (encA 3 rd.val ra.val 0 0 5) fun s => result s t.val rd.val (satResult 5 0 (gpr s t.val ra.val) 0))

/-- SATS (R468; `n`: one less than the width). -/
def execSats (t : Fin 48) (rd ra : Fin 16) (n : Fin 32) (s : State) : Out :=
  .next (issue s t.val (encA 3 rd.val ra.val 0 n.val 6) fun s => result s t.val rd.val (satResult 6 (n.val + 1) (gpr s t.val ra.val) 0))

/-- SATU (R468; `n`: one less than the width). -/
def execSatu (t : Fin 48) (rd ra : Fin 16) (n : Fin 32) (s : State) : Out :=
  .next (issue s t.val (encA 3 rd.val ra.val 0 n.val 7) fun s => result s t.val rd.val (satResult 7 (n.val + 1) (gpr s t.val ra.val) 0))

/-- EXTU (R469; `p` the place, `w` one less than the width). -/
def execExtu (t : Fin 48) (rd ra : Fin 16) (p w : Fin 32) (s : State) : Out :=
  .next (issue s t.val (encA 4 rd.val ra.val 0 (p.val * 32 + w.val) 0) fun s => result s t.val rd.val
    (fieldResult 0 p.val (w.val + 1) (gpr s t.val ra.val) (gpr s t.val rd.val)))

/-- EXTS (R469; `p` the place, `w` one less than the width). -/
def execExts (t : Fin 48) (rd ra : Fin 16) (p w : Fin 32) (s : State) : Out :=
  .next (issue s t.val (encA 4 rd.val ra.val 0 (p.val * 32 + w.val) 1) fun s => result s t.val rd.val
    (fieldResult 1 p.val (w.val + 1) (gpr s t.val ra.val) (gpr s t.val rd.val)))

/-- INS (R469; `p` the place, `w` one less than the width). -/
def execIns (t : Fin 48) (rd ra : Fin 16) (p w : Fin 32) (s : State) : Out :=
  .next (issue s t.val (encA 4 rd.val ra.val 0 (p.val * 32 + w.val) 2) fun s => result s t.val rd.val
    (fieldResult 2 p.val (w.val + 1) (gpr s t.val ra.val) (gpr s t.val rd.val)))

/-- CLZ (R469). -/
def execClz (t : Fin 48) (rd ra : Fin 16) (s : State) : Out :=
  .next (issue s t.val (encA 4 rd.val ra.val 0 0 3) fun s => result s t.val rd.val (fieldResult 3 0 0 (gpr s t.val ra.val) 0))

/-- POPC (R469). -/
def execPopc (t : Fin 48) (rd ra : Fin 16) (s : State) : Out :=
  .next (issue s t.val (encA 4 rd.val ra.val 0 0 4) fun s => result s t.val rd.val (fieldResult 4 0 0 (gpr s t.val ra.val) 0))

/-- REV8 (R469). -/
def execRev8 (t : Fin 48) (rd ra : Fin 16) (s : State) : Out :=
  .next (issue s t.val (encA 4 rd.val ra.val 0 0 5) fun s => result s t.val rd.val (fieldResult 5 0 0 (gpr s t.val ra.val) 0))

/-- SWAPW (R476 to R479). -/
def execSwapw (t : Fin 48) (rd ra rb : Fin 16) (s : State) : Out :=
  .next (issue s t.val (encA 5 rd.val ra.val rb.val 0 0) fun s => atomic s t.val rd.val (gpr s t.val ra.val) 4 3 (gpr s t.val rb.val))

/-- ADDW (R476 to R479). -/
def execAddw (t : Fin 48) (rd ra rb : Fin 16) (s : State) : Out :=
  .next (issue s t.val (encA 5 rd.val ra.val rb.val 0 1) fun s => atomic s t.val rd.val (gpr s t.val ra.val) 4 4 (gpr s t.val rb.val))

/-- SWAPD (R476 to R479). -/
def execSwapd (t : Fin 48) (rd ra rb : Fin 16) (s : State) : Out :=
  .next (issue s t.val (encA 5 rd.val ra.val rb.val 0 2) fun s => atomic s t.val rd.val (gpr s t.val ra.val) 8 3 (pairOf s t.val rb.val))

/-- ADDD (R476 to R479). -/
def execAddd (t : Fin 48) (rd ra rb : Fin 16) (s : State) : Out :=
  .next (issue s t.val (encA 5 rd.val ra.val rb.val 0 3) fun s => atomic s t.val rd.val (gpr s t.val ra.val) 8 4 (pairOf s t.val rb.val))

/-- ADDI (R470). -/
def execAddi (t : Fin 48) (rd ra : Fin 16) (imm : BitVec 18) (s : State) : Out :=
  .next (issue s t.val (encI 0x08 rd.val ra.val imm.toNat) fun s => result s t.val rd.val (intResult 0 (gpr s t.val ra.val) (sextTo 18 imm.toNat)))

/-- ANDI (R470). -/
def execAndi (t : Fin 48) (rd ra : Fin 16) (imm : BitVec 18) (s : State) : Out :=
  .next (issue s t.val (encI 0x9 rd.val ra.val imm.toNat) fun s => result s t.val rd.val (intResult 2 (gpr s t.val ra.val) imm.toNat))

/-- ORI (R470). -/
def execOri (t : Fin 48) (rd ra : Fin 16) (imm : BitVec 18) (s : State) : Out :=
  .next (issue s t.val (encI 0xa rd.val ra.val imm.toNat) fun s => result s t.val rd.val (intResult 3 (gpr s t.val ra.val) imm.toNat))

/-- XORI (R470). -/
def execXori (t : Fin 48) (rd ra : Fin 16) (imm : BitVec 18) (s : State) : Out :=
  .next (issue s t.val (encI 0xb rd.val ra.val imm.toNat) fun s => result s t.val rd.val (intResult 4 (gpr s t.val ra.val) imm.toNat))

/-- SLTI (R470). -/
def execSlti (t : Fin 48) (rd ra : Fin 16) (imm : BitVec 18) (s : State) : Out :=
  .next (issue s t.val (encI 0xc rd.val ra.val imm.toNat) fun s => result s t.val rd.val (intResult 10 (gpr s t.val ra.val) (sextTo 18 imm.toNat)))

/-- SLTIU (R470). -/
def execSltiu (t : Fin 48) (rd ra : Fin 16) (imm : BitVec 18) (s : State) : Out :=
  .next (issue s t.val (encI 0xd rd.val ra.val imm.toNat) fun s => result s t.val rd.val (intResult 11 (gpr s t.val ra.val) (sextTo 18 imm.toNat)))

/-- SHI (R470; `kind`: 0 SHL, 1 SHR, 2 SAR, 3 ROR). -/
def execShi (t : Fin 48) (rd ra : Fin 16) (kind : Fin 4) (n : Fin 32) (s : State) : Out :=
  .next (issue s t.val (encI 0x0E rd.val ra.val (kind.val * 32 + n.val)) fun s => result s t.val rd.val (shift32 kind.val (gpr s t.val ra.val) n.val))

/-- LUI (R470). -/
def execLui (t : Fin 48) (rd : Fin 16) (imm : BitVec 22) (s : State) : Out :=
  .next (issue s t.val (encL 0x10 rd.val imm.toNat) fun s => result s t.val rd.val (imm.toNat * 2 ^ 10))

/-- LI (R470). -/
def execLi (t : Fin 48) (rd : Fin 16) (imm : BitVec 22) (s : State) : Out :=
  .next (issue s t.val (encL 0x13 rd.val imm.toNat) fun s => result s t.val rd.val (sextTo 22 imm.toNat))

/-- JAL (R481). -/
def execJal (t : Fin 48) (rd : Fin 16) (imm : BitVec 22) (s : State) : Out :=
  .next (issue s t.val (encL 0x11 rd.val imm.toNat) fun s => linkTo s t.val rd.val ((s.rd F.PC t.val + w32 (signedOf 22 imm.toNat * 4)) % 2 ^ 32))

/-- JALR (R481). -/
def execJalr (t : Fin 48) (rd ra : Fin 16) (imm : BitVec 18) (s : State) : Out :=
  .next (issue s t.val (encI 0x12 rd.val ra.val imm.toNat) fun s => linkTo s t.val rd.val (addrOf (gpr s t.val ra.val) imm.toNat))

/-- BR (R480). -/
def execBr (t : Fin 48) (cond : Fin 8) (ra rb : Fin 16) (disp : BitVec 14) (s : State) : Out :=
  .next (issue s t.val (encB 0x14 cond.val ra.val rb.val disp.toNat) fun s => branch s t.val (condHolds cond.val (gpr s t.val ra.val) (gpr s t.val rb.val)) disp.toNat)

/-- BRZ (R480). -/
def execBrz (t : Fin 48) (cond : Fin 8) (ra : Fin 16) (disp : BitVec 14) (s : State) : Out :=
  .next (issue s t.val (encB 0x15 cond.val ra.val 0 disp.toNat) fun s => branch s t.val (condHolds cond.val (gpr s t.val ra.val) 0) disp.toNat)

/-- LDB (R471, R472). -/
def execLdb (t : Fin 48) (rd ra : Fin 16) (imm : BitVec 18) (s : State) : Out :=
  .next (issue s t.val (encI 0x18 rd.val ra.val imm.toNat) fun s => load s t.val rd.val (addrOf (gpr s t.val ra.val) imm.toNat) 1 true)

/-- LDBU (R471, R472). -/
def execLdbu (t : Fin 48) (rd ra : Fin 16) (imm : BitVec 18) (s : State) : Out :=
  .next (issue s t.val (encI 0x19 rd.val ra.val imm.toNat) fun s => load s t.val rd.val (addrOf (gpr s t.val ra.val) imm.toNat) 1 false)

/-- LDH (R471, R472). -/
def execLdh (t : Fin 48) (rd ra : Fin 16) (imm : BitVec 18) (s : State) : Out :=
  .next (issue s t.val (encI 0x1a rd.val ra.val imm.toNat) fun s => load s t.val rd.val (addrOf (gpr s t.val ra.val) imm.toNat) 2 true)

/-- LDHU (R471, R472). -/
def execLdhu (t : Fin 48) (rd ra : Fin 16) (imm : BitVec 18) (s : State) : Out :=
  .next (issue s t.val (encI 0x1b rd.val ra.val imm.toNat) fun s => load s t.val rd.val (addrOf (gpr s t.val ra.val) imm.toNat) 2 false)

/-- LDW (R471, R472). -/
def execLdw (t : Fin 48) (rd ra : Fin 16) (imm : BitVec 18) (s : State) : Out :=
  .next (issue s t.val (encI 0x1c rd.val ra.val imm.toNat) fun s => load s t.val rd.val (addrOf (gpr s t.val ra.val) imm.toNat) 4 false)

/-- LDP (R471 to R475). -/
def execLdp (t : Fin 48) (rd ra : Fin 16) (imm : BitVec 18) (s : State) : Out :=
  .next (issue s t.val (encI 0x1d rd.val ra.val imm.toNat) fun s => load s t.val rd.val (addrOf (gpr s t.val ra.val) imm.toNat) 8 false)

/-- STB (R471, R472). -/
def execStb (t : Fin 48) (rd ra : Fin 16) (imm : BitVec 18) (s : State) : Out :=
  .next (issue s t.val (encI 0x20 rd.val ra.val imm.toNat) fun s => store s t.val (addrOf (gpr s t.val ra.val) imm.toNat) 1 (gpr s t.val rd.val))

/-- STH (R471, R472). -/
def execSth (t : Fin 48) (rd ra : Fin 16) (imm : BitVec 18) (s : State) : Out :=
  .next (issue s t.val (encI 0x21 rd.val ra.val imm.toNat) fun s => store s t.val (addrOf (gpr s t.val ra.val) imm.toNat) 2 (gpr s t.val rd.val))

/-- STW (R471, R472). -/
def execStw (t : Fin 48) (rd ra : Fin 16) (imm : BitVec 18) (s : State) : Out :=
  .next (issue s t.val (encI 0x22 rd.val ra.val imm.toNat) fun s => store s t.val (addrOf (gpr s t.val ra.val) imm.toNat) 4 (gpr s t.val rd.val))

/-- STP (R471 to R473). -/
def execStp (t : Fin 48) (rd ra : Fin 16) (imm : BitVec 18) (s : State) : Out :=
  .next (issue s t.val (encI 0x23 rd.val ra.val imm.toNat) fun s => store s t.val (addrOf (gpr s t.val ra.val) imm.toNat) 8 (pairOf s t.val rd.val))

/-- MFS (R445, R488). -/
def execMfs (t : Fin 48) (rd : Fin 16) (num : BitVec 10) (s : State) : Out :=
  .next (issue s t.val (encS 0 num.toNat 0 rd.val) fun s => mfs s t.val rd.val num.toNat (encS 0 num.toNat 0 rd.val))

/-- MTS (R445, R484, R488). -/
def execMts (t : Fin 48) (ra : Fin 16) (num : BitVec 10) (s : State) : Out :=
  .next (issue s t.val (encS 1 num.toNat ra.val 0) fun s => mts s t.val ra.val num.toNat (encS 1 num.toNat ra.val 0))

/-- TRAP (R448). -/
def execTrap (t : Fin 48) (num : BitVec 10) (s : State) : Out :=
  .next (issue s t.val (encS 2 num.toNat 0 0) fun s => raiseAt s t.val 9 num.toNat 0 (s.rd F.PC t.val) (nextPc s t.val))

/-- RETX (R448). -/
def execRetx (t : Fin 48) (s : State) : Out :=
  .next (issue s t.val (encS 3 0 0 0) fun s => retx s t.val (encS 3 0 0 0))

/-- SYNC (R443). -/
def execSync (t : Fin 48) (s : State) : Out :=
  .next (issue s t.val (encS 4 0 0 0) fun s => sync s t.val)

/-- TEND (R483, R509). -/
def execTend (t : Fin 48) (s : State) : Out :=
  .next (issue s t.val (encS 5 0 0 0) fun s => tend s t.val)

/-- TWAIT (R483, R510). -/
def execTwait (t : Fin 48) (s : State) : Out :=
  .next (issue s t.val (encS 6 0 0 0) fun s => twait s t.val (encS 6 0 0 0))

/-- BRK (R708). -/
def execBrk (t : Fin 48) (num : BitVec 10) (s : State) : Out :=
  .next (issue s t.val (encS 7 num.toNat 0 0) fun s => brk s t.val num.toNat)

/-- IBUF (R482). -/
def execIbuf (t : Fin 48) (s : State) : Out :=
  .next (issue s t.val (encS 8 0 0 0) fun s => advance (s.down F.FB_LINE t.val) t.val)

/-- NOP (R482). -/
def execNop (t : Fin 48) (s : State) : Out :=
  .next (issue s t.val (encS 9 0 0 0) fun s => advance s t.val)

end Sys2Proof.Machine
end

