-- ==== Sys2Proof/Machine/DomainRows.lean ====
section
/-!
DEFINITION. The commands of the power domains and of the holds of the fabric (04_fabric_and_address_map.md, R171 to R177;
05_power_clocks_thermal.md, R196, R207, R208, R217).
-/
namespace Sys2Proof.Machine

/-! Drains (R171 to R173). -/

/-- What the drain of domain `d` does to its own blocks (R572, R573, R604, R623, R667, R685). -/
def drainBlocks (s : State) (d : Nat) : State :=
  match d with
  | 113 => checkerGone s
  | 117 => dmaDrain s 117
  | 118 => dmaDrain s 118
  | 119 => cxDrain s
  | 121 => portDrain s 0
  | 122 => portDrain s 1
  | 123 => portDrain (portDrain s 2) 3
  | 124 => portDrain s 4
  | 125 => portDrain s 5
  | 135 => commitDropped s
  | _ => s

/-- DOMAIN_DRAIN_START (R171, R176). A drain for an entry begins only while no condition refuses it (R221). -/
def domainDrain (s : State) (d : Nat) : State :=
  if !drainDue s d then s
  else if domCtrl s d && entryLate s then refuseLate s
  else drainBlocks (drainHeld s (drainStart s d) d) d

/-- A request to the address of a tag goes to domain `d`. -/
def tagTo (s : State) (d t : Nat) : Bool :=
  heldDomain ⟨masterAt (s.rd F.TAG_MID t), true, s.rd F.TAG_OP t, s.rd F.TAG_ADDR t, 4, 0⟩ == d

/-- What domain `d` has accepted and not completed is answered ABORT. -/
def acceptedAbort (s : State) (d : Nat) : State :=
  let s := answerHeld s (fun r => heldDomain r == d) .abort
  s.each ((busyTags s).filter (tagTo s d)) fun s t => answerTag s t .abort false

/-- DRAIN_ABORT_TIMEOUT (R172): what a draining domain still has open is answered ABORT. -/
def drainAbort (s : State) (d : Nat) : State := if s.rd F.DOM_STATE d = 3 then acceptedAbort s d else s

/-- The held requests that a master of domain `d` has issued into the fabric (R173, R750). -/
def heldOf (s : State) (d : Nat) : List Held := (entered s s.held).filter fun r => masterDomain s r.who == d

/-- The copies that belong to domain `d` and whose load or atomic operation stands in the fabric. -/
def loadsOf (s : State) (d : Nat) : List Nat :=
  (List.range 48).filter fun u => s.on F.LD_PEND u && masterDomain s (threadMaster u) == d && !isChecker s u &&
    !coreLocal (threadMaster u) (s.rd F.LD_ADDR u)

/-- The stores of domain `d` that stand in the fabric. -/
def storesOf (s : State) (d : Nat) : List StoreEntry :=
  s.stores.filter fun e => e.issued && masterDomain s (threadMaster e.thread) == d

/-- A request that domain `d` issued or accepted is outstanding (R173, R756). -/
def domainBusy (s : State) (d : Nat) : Bool :=
  s.held.any (fun r => heldDomain r == d) || !(heldOf s d).isEmpty || !(loadsOf s d).isEmpty || !(storesOf s d).isEmpty ||
    (busyTags s).any fun t => tagTo s d t || s.rd F.TAG_DOM t == d

/-- R173, R750: at a forced switch-off the tags of a domain's outstanding requests are freed. Those of its requests that stand in the
fabric stay there, their replies to be discarded (R177); those at its own interfaces go. The stores that have had their effect lose
their answers. -/
def domainCut (s : State) (d : Nat) : State :=
  let s := acceptedAbort s d
  let stay := heldOf s d ++ (loadsOf s d).map (loadRequest s)
  let lost := (storesOf s d).length
  let s := { s with held := (s.held.filter fun (r : Held) => masterDomain s r.who != d) ++ stay
                    stores := s.stores.filter fun e => masterDomain s (threadMaster e.thread) != d }
  let s := s.each (List.range lost) fun s _ => s.bump F.XR_LOST_LOST_REPLY
  s.each ((busyTags s).filter fun t => s.rd F.TAG_DOM t == d) freeTag

/-- DOMAIN_SWITCH_OFF (R173, R685): `forced`: 10 µs have passed since the drain began. A domain that a power state drains is
dealt with where that state is entered; one that firmware has switched on again meanwhile powers up next (R207). -/
def domainOff (s : State) (d : Nat) (forced : Bool) : State :=
  if s.rd F.DOM_STATE d ≠ 3 || (domCtrl s d && (s.on F.ENTRY_REQ || 2 ≤ s.rd F.PTM_STATE_CUR)) ||
      (d == 135 && s.rd F.KEY_STAT_STATE == 3) || (!forced && domainBusy s d) then s
  else releaseHeld (switchOff (domainCut s d) d forced)

/-! Power-up (R174, R207, R208, R222). -/

/-- DOMAIN_ON (R174, R182, R207): what was held for the domain goes on. A domain comes on once its rails are good and the domains it
depends on are on. Pulses that came while the dispatcher was off are lost (R522). -/
def domainOn (s : State) (d : Nat) : State :=
  if s.rd F.DOM_STATE d ≠ 1 || !domRailsGood s d || !(domDeps d).all (domOn s) then s
  else
    let s := s.wr F.DOM_STATE 2 d
    let s := s.when (d == 35) routesSettled
    releaseHeld (if d = 116 then { s with events := [] } else s)

/-- R222: TC0, SRAM bank 0 or the dispatcher has failed during a wake: the wake is over, and the C-die restarts whole (R49). -/
def wakeFails (s : State) : State :=
  let s := wakeResume s
  if s.on F.STK_DIESTATE_C_STATE then cDieLoss (s.wr F.STK_DIESTATE_C_STATE 2) 2 else s

/-- The trace records that were held have not been written (R519); the task stands in the record's lowest byte. -/
def tracesFail (s : State) (l : List Held) : State := l.foldl (fun s r => traceFails s (r.data % 256)) s

/-- DOMAIN_ON_TIMEOUT (R174, R208, R222, R572): the domain reads off. -/
def domainOnTimeout (s : State) (d : Nat) : State :=
  if s.on F.WAKING && s.on F.DOM_WAS_ON d then
    let s := domErr ((s.down F.DOM_WAS_ON d).wr F.DOM_STATE 0 d) d 4
    if d == 108 || d == 44 || d == 116 then wakeFails s else s
  else if s.rd F.DOM_STATE d ≠ 1 then s
  else
    let s := domErr (s.wr F.DOM_STATE 0 d) d 4
    let lost := s.held.filter fun r => decide (r.who = .unit 41) && heldDomain r == d
    releaseHeld (tracesFail (if d = 113 then checkerGone s else s) lost)

/-! Holds that run out (R174, R175, R629). -/

/-- The request of master `who` whose hold satisfies `p` completes with `c`: one held in the fabric, else the master's own
that waits. -/
def holdExpires (s : State) (who : Master) (p : HoldWhy → Bool) (c : Code) : State :=
  let due := s.held.filter fun r => decide (r.who = who) && heldFor s r p
  if !due.isEmpty then (expireHeld s who p c).when (who == .unit 41) (tracesFail · (due.take 1))
  else match who with
    | .thread t => threadExpire s (mainOf s t.val) p c
    | .dma n => dcExpire s n.val p c
    | .unit m => if m.val = 47 then accExpire s p c else s

/-! Entry to a power state. -/

/-- Every domain that the state being entered does not keep drains, and what it has open ends (R171 to R173, R196). -/
def entryDrained (s : State) : State :=
  let s := s.each (List.range 136) domainDrain
  s.each ((List.range 136).filter fun d => s.rd F.DOM_STATE d == 3 && domCtrl s d) domainCut

/-- The requests of B-die masters that wait as HIBERNATE or SHUTDOWN is entered: their targets are gone (R11, R171). -/
def waitersAnswered (s : State) : State :=
  let s := answerHeldBy s (fun (r : Held) => isBMaster r.who && crosses r.who r.addr) .absent true
  answerHeldBy s (fun (r : Held) => isBMaster r.who) .pdown false

/-- STATE_ENTRY_COMPLETE (R191, R196, R197, R218, R221, R231, R678, R682, R685): a commit that is writing ends first. For HIBERNATE
and SHUTDOWN the tallies are saved and every pad holds its level, the dot knock inactive (R417). -/
def stateEntered (s : State) : State :=
  let st := s.rd F.ENTRY_REQ
  if st = 0 || anyTask s || s.rd F.KEY_STAT_STATE == 3 then s
  else if entryLate s then refuseLate s
  else
    let s := entryDrained (commitDropped s)
    if st = 2 then entryComplete s
    else entryComplete (padsHold ((tallySaveDone (tallySaveStart (waitersAnswered s))).wr F.DK_STAT_ACTIVE 0))

/-! The commands. -/

/-- DOMAIN_DRAIN_START (R171). -/
def execDomainDrainStart (dom : Fin 136) (s : State) : Out := .next (domainDrain s dom.val)
/-- DRAIN_ABORT_TIMEOUT (R172). -/
def execDrainAbortTimeout (dom : Fin 136) (s : State) : Out := .next (drainAbort s dom.val)
/-- DOMAIN_SWITCH_OFF (R173). -/
def execDomainSwitchOff (dom : Fin 136) (forced : Bool) (s : State) : Out := .next (domainOff s dom.val forced)
/-- POWERUP_HOLD_TIMEOUT (R174). -/
def execPowerupHoldTimeout (who : Master) (s : State) : Out := .next (holdExpires s who (· == .power) .pdown)
/-- BUSY_HOLD_TIMEOUT (R175). -/
def execBusyHoldTimeout (who : Master) (s : State) : Out := .next (holdExpires s who (· == .live) .busy)
/-- TX_PUSH_TIMEOUT (R629). -/
def execTxPushTimeout (who : Master) (s : State) : Out := .next (holdExpires s who (· == .room) .abort)
/-- DOMAIN_ON (R207). -/
def execDomainOn (dom : Fin 136) (s : State) : Out := .next (domainOn s dom.val)
/-- DOMAIN_ON_TIMEOUT (R208). -/
def execDomainOnTimeout (dom : Fin 136) (s : State) : Out := .next (domainOnTimeout s dom.val)
/-- STATE_ENTRY_COMPLETE (R196). -/
def execStateEntryComplete (s : State) : Out := .next (stateEntered s)
/-- SUPPLY_DROP_CLEAR (R217, R684): a commit that waited starts its writes. -/
def execSupplyDropClear (s : State) : Out := .next (if s.on F.PTM_SUPPLY_DROP_WARN then commitResumes (dropClear s) else s)

end Sys2Proof.Machine
end

