-- ==== Sys2Proof/Machine/LiveRows.lean ====
section
/-!
DEFINITION. The commands of a live re-pattern on its way (03_pattern_image.md).
-/
namespace Sys2Proof.Machine

/-- LIVE_VERIFY_DONE (R130, R135, R136). -/
def execLiveVerifyDone (s : State) : Out := .next (liveVerified s)
/-- LIVE_LOAD_DONE (R136, R175): requests held for the load go on. -/
def execLiveLoadDone (s : State) : Out := .next (releaseHeld (liveLoaded s))
/-- LIVE_SWITCH_TIMEOUT (R143). -/
def execLiveSwitchTimeout (s : State) : Out := .next (liveTimeout s)

end Sys2Proof.Machine
end

