-- ==== Sys2Proof/Machine/NvmRows.lean ====
section
/-!
DEFINITION. The commands of the nonvolatile memory, of the key and counter controller, of the event log and of the crypto
engine (19_nvm_and_keys.md).
-/
namespace Sys2Proof.Machine

/-- The address of an offset into the array. -/
def nvmAt (offset : BitVec 25) : Nat := 0x10000000 + offset.toNat

/-- The address of word `w` of the request, or of its first word where the request has fewer. -/
def requestWord (r : Held) (w : Nat) : Nat := if 8 * w < r.size then r.addr / 8 * 8 + 8 * w else r.addr / 8 * 8

/-- The request reaches its array and is served there (R151, R159, R166, R672). -/
def nvmServes (s : State) (r : Held) : Bool :=
  masterLive s r.who && (!mustWait s r || heldDrains s r) && gate s r == .mem &&
    (if r.op = 0 then memReadFault s (targetOf r.addr) r.addr r.size
      else memWriteFault s (targetOf r.addr) r.addr r.size).isNone

/-- What the check bits of word `w` of a read turn out to say (R675, R676): 0 nothing, 1 a corrected error, 2 an
uncorrectable word. -/
def nvmCheck (s : State) (r : Held) (w ecc : Nat) : State :=
  if !nvmServes s r then s
  else match ecc with
    | 1 => nvmCorrected s (requestWord r w)
    | 2 => s.spoil (requestWord r w)
    | _ => s

/-- NVM_WRITE (R674): word `fail` of the request, if any, fails its verify three times. -/
def nvmStore (s : State) (r : Held) (fail : Option (Fin 4)) : State :=
  match fail with
  | none => busRequest s r
  | some w =>
    if nvmServes s r then
      let x := nvmProgram (setsOut s r) r.addr r.size r.data (some (requestWord r w.val))
      respondCode x.1 r (if x.2 then .ok else .ecc)
    else busRequest s r

/-! The commands. -/

/-- NVM_READ (R675, R676): word `word` of the request has check bits that say `ecc`. -/
def execNvmRead (src : Source) (offset : BitVec 25) (size : Fin 6) (word : Fin 4) (ecc : Fin 3) (s : State) : Out :=
  let r : Held := ⟨src.who, src.priv, 0, nvmAt offset, 2 ^ size.val, 0⟩
  .next (busRequest (nvmCheck s r word.val ecc.val) r)
/-- NVM_WRITE (R674, R677). -/
def execNvmWrite (src : Source) (offset : BitVec 25) (size : Fin 6) (data : BitVec 256) (fail : Option (Fin 4)) (s : State) :
    Out :=
  .next (nvmStore s ⟨src.who, src.priv, 1, nvmAt offset, 2 ^ size.val, data.toNat % 2 ^ (8 * 2 ^ size.val)⟩ fail)
/-- ECC_BUCKET_ROLL (R675). -/
def execEccBucketRoll (s : State) : Out := .next (bucketRoll s)
/-- NVM_TALLY_SAVE_TIMER (R678). -/
def execNvmTallySaveTimer (s : State) : Out := .next (tallySaveStart s)
/-- NVM_TALLY_SAVE_DONE (R678). -/
def execNvmTallySaveDone (s : State) : Out := .next (tallySaveDone s)
/-- KEY_COMMIT_VERIFIED (R681, R682, R684). -/
def execKeyCommitVerified (s : State) : Out := .next (commitVerified s)
/-- KEY_COMMIT_WRITTEN (R681, R682): `fail` is the first word whose write completed other than OK. -/
def execKeyCommitWritten (fail : Option (Fin 10)) (s : State) : Out := .next (commitWritten s (fail.map (·.val)))
/-- CTR_RAISE_DONE (R687): `fail0` and `fail1`: the write of that copy completed other than OK. -/
def execCtrRaiseDone (n : Fin 8) (fail0 fail1 : Bool) (s : State) : Out := .next (ctrRaiseDone s n.val fail0 fail1)
/-- EVENT_LOG_WRITE (R694). -/
def execEventLogWrite (s : State) : Out := .next (logWrite s)
/-- LOG_SEARCH_DONE (R96, R759). -/
def execLogSearchDone (s : State) : Out := .next (logSearchDone s)
/-- CR_COMMAND_DONE (R693). -/
def execCrCommandDone (s : State) : Out := .next (crDone s)

end Sys2Proof.Machine
end

