-- ==== Sys2Proof/Machine/StartupRows.lean ====
section
/-!
DEFINITION. The commands of resets, of the release of the upper dies, of the boot ROM, of Tier 1 recovery, of the tombstone
record and of the returns from NAP, HIBERNATE and SHUTDOWN (02_startup_and_service_tiers.md; 05_power_clocks_thermal.md, R201
to R204). Slots: 0 PA, 1 PB, 2 FA, 3 FB.
-/
namespace Sys2Proof.Machine

/-! Resets (R52, R53, R697). -/

/-- RESET_N_LOW (R52, R53): a low pulse of `ns` nanoseconds. Between 250 ns and 1 µs it may or may not act: a free value. -/
def pinReset (s : State) (ns : Nat) : State :=
  if !railGood s .vdd33 || decide (ns < 250) then s
  else if 1000 ≤ ns then bReset s F.RST_CAUSE_PIN
  else if s.freeBits 1 = 1 then bReset s.drew F.RST_CAUSE_PIN
  else s.drew

/-! The upper dies (R46, R48, R49, R59, R73, R182). -/

/-- The dies may run: not in board-test mode, not held by bind-off, and the device is in RUN or DOZE or on its way back. -/
def mayRelease (s : State) : Bool :=
  s.on F.PLL_LOCKED && !s.on F.BINDOFF && !s.on F.TST_STAT_TESTMODE && (s.rd F.PTM_STATE_CUR ≤ 1 || s.on F.WAKING)

/-- The return from HIBERNATE is under way. -/
def warmPath (s : State) : Bool := s.on F.WAKING && s.rd F.PTM_STATE_CUR == 3

/-- The C-die leaves reset with the straps at `boot` (R59, R73, R89); its supervision begins at t = 0 (R197). -/
def cRelease (s : State) (boot : Nat) : State :=
  let warm := warmPath s
  let s := (((s.wr F.STK_DIESTATE_C_STATE 3).wr F.C_FAILS 0).down F.HB_SUSPENDED 0).down F.HB_SEEN
  let s := (s.when (s.on F.C_WAS_UP && !s.on F.WAKING) (·.bump F.C_RESTARTS)).up F.C_WAS_UP
  let s := { s with events := [] }
  let s := if warm then s
    else [F.BOOT_LOG_PA, F.BOOT_LOG_PB, F.BOOT_LOG_FA, F.BOOT_LOG_FB].foldl (fun s f => s.wr f 0) (powerDie s .c)
  let s := ((s.up F.SU_TIER_ROM_PHASE).wr F.SU_TIER_BOOT_STRAP boot).wr F.ROM_STAGE 1
  (s.up F.HASTASK 0).wr F.PC 0 0

/-- The M-die comes up: winners, values and tallies are found (R46, R197, R678, R680, R686). -/
def mComesUp (s : State) : State :=
  let s := if warmPath s then s else powerDie s .m
  mElect ((((s.wr F.STK_DIESTATE_M_STATE 3).wr F.M_FAILS 0).down F.M_RETURN).down F.HB_SUSPENDED 1)

/-- UPPER_DIE_RELEASE (R49, R59, R72, R73). -/
def upperRelease (s : State) (die : Upper) (boot : Nat) : State :=
  if !mayRelease s then s
  else match die with
    | .c =>
      if s.rd F.STK_DIESTATE_C_STATE ≠ 2 || s.on F.TIER0_ONLY || s.on F.SU_TIER_GIVE_UP || !railGood s .vcore then s
      else cRelease s boot
    | .m => if s.rd F.STK_DIESTATE_M_STATE ≠ 2 || s.on F.M_RETURN then s else mComesUp s

/-- M_DIE_RETURN (R46, R48): a lost M-die is up again; it follows a C-die that is restarting. -/
def mReturn (s : State) : State :=
  let c := s.rd F.STK_DIESTATE_C_STATE
  if !mayRelease s || s.rd F.STK_DIESTATE_M_STATE ≠ 2 || !s.on F.M_RETURN || ((c == 1 || c == 2) && !s.on F.SU_TIER_GIVE_UP) then s
  else (mComesUp s).post 7

/-! The boot ROM (R58, R63 to R70). -/

/-- The ROM runs at stage `n`: thread 0.0 is not halted. -/
def romRuns (s : State) (n : Nat) : Bool := cUp s && s.rd F.ROM_STAGE == n && !s.on F.HALTED 0

/-- An outcome of Tier 0 or Tier 1: every leg and strobe is safe (R70, R75). -/
def tierDown (s : State) (tier cause : Nat) : State := outputsSafe (outcome s tier cause)

/-- Tier 1 (R70, R73, R80, R82, R227): the ROM offers recovery, and the balls of UART0 are switched to it. -/
def recoveryStart (s : State) (cause : Nat) : State :=
  let s := ((romDone (tierDown s 1 cause)).wr F.ROM_STAGE 5).up F.REC_MODE
  recoveryConnect (if recoveryOffers s false then s.wr F.REC_PADS (putBit (s.rd F.REC_PADS) 0 true) else s)

/-- ROM_SELF_CHECK (R58, R59, R70, R72, R76): the ROM has checked itself (`romOk`) and SRAM bank 0 (`bankOk`). A Pattern that is
active is the one to cast on. -/
def selfCheck (s : State) (romOk bankOk : Bool) : State :=
  if !romRuns s 1 || warmPath s then s
  else if !romOk || !bankOk then giveUp (romDone (tierDown s 0 (if romOk then 6 else 5)))
  else
    let strap := s.rd F.SU_TIER_BOOT_STRAP
    if s.on F.M_ABSENT then recoveryStart s 7
    else if strap = 1 ∨ strap = 2 then recoveryStart s 8
    else
      let s := s.wr F.ROM_STAGE 2
      let s := if s.on F.PAT_ACTIVE_VALID then (s.wr F.CHOSEN_PAT (s.rd F.KEPT_SLOT)).up F.PAT_FOUND else s
      if strap = 3 ∧ lockState s ≠ 3 then (s.up F.HALTED 0).wr F.HREASON 4 0 else s

/-- The address of slot `i` (R60). -/
def slotAddr (i : Nat) : Nat := match i with | 0 => 0x10000000 | 1 => 0x10040000 | 2 => 0x10080000 | _ => 0x10680000

/-- What a slot holds, and its size. -/
def slotKind (i : Nat) : ImgKind := if i < 2 then .pattern else .firmware
def slotRoom (i : Nat) : Nat := if i < 2 then 0x40000 else 0x600000

/-- The header of slot `i` can be read and passes step 2. -/
def slotHeaderOk (s : State) (i : Nat) : Bool := !s.anyBad (slotAddr i) 64 && imgStep2 s (slotKind i) (slotAddr i)

/-- Slots `i` and `i + 1` in the order of R64. -/
def slotOrder (s : State) (i : Nat) : List Nat :=
  let q (k : Nat) : Nat := s.mget (slotAddr k + 0xC) 4
  if slotHeaderOk s (i + 1) && (!slotHeaderOk s i || decide (q i < q (i + 1))) then [i + 1, i] else [i, i + 1]

/-- The slot to check next: a Pattern until one is chosen, then a firmware (R64, R65). -/
def nextSlot (s : State) : Option Nat :=
  (slotOrder s (if s.on F.PAT_FOUND then 2 else 0)).find? fun i => !s.on F.IMG_TRIED i

/-- Steps 1 to 8, and 10, of R63 on slot `i`. -/
def slotCheck (s : State) (i : Nat) : ImgRes :=
  if s.anyBad (slotAddr i) 64 then ⟨0xB, false, 0⟩
  else
    let r := imgCheck s (slotKind i) (slotAddr i) (slotRoom i) false
    if r.code = 1 ∧ 2 ≤ i ∧ s.mget (slotAddr i + 0x1C) 4 ≠ s.mget (slotAddr (s.rd F.CHOSEN_PAT) + 0x14) 4 then ⟨0xA, false, 0⟩ else r

/-- The uncorrectable word, if any, at which the check of slot `i` with result `r` ended (R63, R676): in the header, or in what is read
for step 7. -/
def slotRead (s : State) (i : Nat) (r : ImgRes) : State :=
  let a := slotAddr i
  let n := if r.code = 0xB then 64 else if r.code = 7 then imgLen s (slotKind i) a + 68 * imgNsig s a else 0
  match s.bad.find? fun w => decide (a ≤ w) && decide (w < a + n) with
  | some w => nvmFailed s w
  | none => s

/-- BOOT_LOG of slot `i` records a result code. -/
def slotLog (s : State) (i code : Nat) : State :=
  match i with
  | 0 => s.wr F.BOOT_LOG_PA code | 1 => s.wr F.BOOT_LOG_PB code | 2 => s.wr F.BOOT_LOG_FA code | _ => s.wr F.BOOT_LOG_FB code

/-- No slot of a kind is left: outcomes 9, 10 and 11 of R70. -/
def slotsExhausted (s : State) : State :=
  recoveryStart s (if s.on F.PAT_FOUND then 0xA else if s.on F.CAST_TRIED 0 || s.on F.CAST_TRIED 1 then 0xB else 9)

/-- Slot `i` has been checked with result `r` (R63, R65). -/
def slotChecked (s : State) (i : Nat) (r : ImgRes) : State :=
  let s := slotLog (s.up F.IMG_TRIED i) i r.code
  if r.code = 1 then
    let s := signatureNoted s r
    if i < 2 then (s.wr F.CHOSEN_PAT i).up F.PAT_FOUND else (s.wr F.CHOSEN_FW (i - 2)).wr F.ROM_STAGE 3
  else if (nextSlot s).isNone then slotsExhausted s else s

/-- ROM_IMAGE_CHECK (R63 to R65, R70, R97): the next candidate is checked. The spec does not say what the ROM does where the M-die is
still on its way up as the search would begin: it waits (DESIGN CHOICE, log entry 88). -/
def imageCheck (s : State) : State :=
  if !romRuns s 2 || warmPath s then s
  else if s.on F.ROM_MLOST || s.on F.M_ABSENT then recoveryStart s 7
  else if !mUp s then s
  else match nextSlot s with
    | none => slotsExhausted s
    | some i =>
      let r := slotCheck s i
      slotChecked (slotRead s i r) i r

/-- Cast-on has failed with slot `i` (R63 step 9, R66): the other slot is tried, if it has not been. -/
def castFailed (s : State) (i : Nat) : State :=
  let s := slotLog (s.up F.CAST_TRIED i) i 9
  if s.on F.IMG_TRIED (1 - i) then recoveryStart s 0xB
  else (((s.up F.IMG_TRIED i).down F.PAT_FOUND).wr F.ROM_STAGE 2).each [2, 3] fun s k => s.down F.IMG_TRIED k

/-- Cast-on is done (R70, R74): a request of firmware for Tier 1 is outcome 12. -/
def castDone (s : State) : State := if s.on F.SU_TIER_RECOVER then recoveryStart s 0xC else s.wr F.ROM_STAGE 4

/-- CAST_ON (R66, R76, R77, R131): the chosen Pattern is cast on; with a Pattern active, its C-die sections alone, from a slot
whose digest is the kept one. -/
def castOn (s : State) (fail : Option Nat) : State :=
  if !romRuns s 3 then s
  else
    let i := s.rd F.CHOSEN_PAT
    let a := slotAddr i
    if s.on F.PAT_ACTIVE_VALID then
      if imgDigest s a ≠ s.rd F.KEPT_DIGEST then sysReset s
      else match checkPass s a false with
        | .bad _ => castFailed (castUndo (castC s a)) i
        | .ok _ _ => castDone (castC s a)
    else
      let s := castFull (s.down F.CAST_FAILED) a i fail
      if s.on F.CAST_FAILED then castFailed s i else castDone s

/-- Thread 0.0 starts at `pc` at supervisor level with task 0, with every region of the protection units disabled (R69, R79, R497). The
other threads have stayed idle since the release of the die (`romHolds`). -/
def bootTask (s : State) (pc g0 : Nat) : State :=
  let s := s.each (List.range 5) fun s c => s.each (List.range 16) fun s r => s.down F.MPU_ATTR_EN c r
  let s := freshCopy s 0 0
  let s := s.each (List.range 16) fun s r => s.wr F.GPR (if r = 0 then g0 else 0) 0 r
  let s := ((s.wr F.PC (pc / 4 * 4) 0).wr F.TSR 0 0).up F.HASTASK 0
  let s := (s.wr F.WD_COUNT_COUNT (s.rd F.WD_PERIOD_PERIOD 0 0) 0 0).up F.TASK0_BOOT
  ((s.wr F.DSP_TSTAT_STATE 2 0).wr F.DSP_TSTAT_THREAD 0 0).wr F.ROM_STAGE 6

/-- The register at offset `off` of instance `i` of a block reads. -/
def readsAs (s : State) (b : Blk) (i off : Nat) : Nat :=
  match regAt ⟨b, i, off⟩ with | some (row, k) => regValue s ⟨b, i, off⟩ row k | none => 0

/-- R69: the body of a firmware image with COPY_TO_SRAM goes to LOAD_ADDR, where that lies in SRAM. -/
def copyBody (s : State) (a : Nat) : State :=
  let n := s.mget (a + 8) 4
  let dst := s.mget (a + 0x18) 4
  if (s.mget (a + 6) 2).testBit 0 ∧ 0x20000000 ≤ dst ∧ dst + n ≤ 0x20400000 then (s.setBytes dst (s.bytes (a + 64) n)).healRange dst n
  else s

/-- FIRMWARE_ENTRY (R69, R70, R497): g0 holds SU_TIER as the outcome leaves it. -/
def firmwareEntry (s : State) : State :=
  if !romRuns s 4 then s
  else
    let a := slotAddr (2 + s.rd F.CHOSEN_FW)
    let s := copyBody s a
    let s := ((romDone (outcome s 2 0)).wr F.SU_TIER_FW_SLOT (s.rd F.CHOSEN_FW)).up F.RELEASED
    bootTask s (s.mget (a + 0x14) 4) (readsAs s .su 0 0x100)

/-- PROGRESS_WATCHDOG_EXPIRE (R52, R56, R198): the period is over. -/
def pwdExpire (s : State) : State :=
  if !s.on F.PWD_RUN || s.on F.PWD_LEFT || 1 < s.rd F.PTM_STATE_CUR then s
  else (cDieLoss (s.up F.RST_CAUSE_PWD) 2).wr F.PWD_LEFT (s.rd F.PWD_CFG_PERIOD)

/-! Recovery at Tier 1 (R78 to R84). REC_PORT: 1 UART0, 2 USB. -/


/-- What the ROM sends to ask for an image (R80): ASCII "PKRQ". -/
def promptBytes : List Byte := [0x50#8, 0x4B#8, 0x52#8, 0x51#8]

/-- The ROM puts bytes out on a port that offers recovery: 1 UART0, 2 the bulk IN endpoint. -/
def romSend (s : State) (p : Nat) (l : List Byte) : State :=
  let s := s.setq Q.romOut (l.map (·.toNat)) p
  if p = 2 then recoverySend s l else s

/-- A port on which the ROM prompts: it offers recovery there, no transfer has begun, and on UART0 no tombstone is due (R80, R82, R83,
R88, R100). -/
def promptDue (s : State) (p : Nat) : Bool :=
  recoveryOffers s (p == 2) && s.rd F.REC_PORT == 0 && (p == 2 || (!s.on F.TS_STAT_BUSY && !s.on F.TS_REQ))

/-- RECOVERY_PROMPT (R80, R82, R83): "PKRQ" is sent on every port that prompts. -/
def recoveryPrompt (s : State) : State :=
  let s := if s.on F.USB_CTRL_CONNECT then s else recoveryConnect s
  let l := [1, 2].filter (promptDue s)
  if l.isEmpty then s else (s.each l fun s p => romSend s p promptBytes).bump F.REC_PROMPTS

/-- Where a recovery image stands. -/
def recoveryAddr : Nat := 0x20002000

/-- A transfer has ended with result code `code`, which is the answer on its port (R80). -/
def recoveryAnswer (s : State) (code : Nat) : State :=
  let s := romSend s (s.rd F.REC_PORT) (toBytes 1 code)
  (((((s.setq Q.recovery [] 1).setq Q.recovery [] 2).wr F.REC_PORT 0).wr F.REC_ANSWER code).wr F.BOOT_LOG_REC code)

/-- RECOVERY_IMAGE_START (R79, R227, R754): the balls that the ROM has switched stay so; after a cast-on the outputs are released. -/
def recoveryImageStart (s : State) : State :=
  let s := if recoveryOffers s true then s.wr F.REC_PADS (putBit (s.rd F.REC_PADS) 1 true) else s
  let s := s.when (!s.on F.PRE_CAST) (·.up F.RELEASED)
  let s := (s.down F.DSP_CTRL_EN).each (List.range 8) fun s k => s.wr F.DSP_TASKEN_EN 0 k
  bootTask (s.down F.REC_MODE) (s.mget (recoveryAddr + 0x14) 4) (readsAs s .su 0 0x100)

/-- A whole recovery image has been received: it is put in its place, checked and, if accepted, started (R78, R80, R84). -/
def recoveryImage (s : State) (img : List Byte) : State :=
  if 57344 < img.length then recoveryAnswer s 4
  else
    let s := (s.setBytes recoveryAddr img).healRange recoveryAddr img.length
    let skip := !mUp s
    let s := s.when skip (·.up F.BOOT_LOG_ROLLBACK_SKIP)
    let r := imgCheck s .recovery recoveryAddr 57344 skip
    let s := recoveryAnswer s r.code
    if r.code = 1 then recoveryImageStart (signatureNoted s r) else s

/-- RECOVERY_IMAGE_RECEIVE (R80, R82, R83): bytes of a transfer arrive: a 4-byte length, then the image. The first port to
deliver a length is used. -/
def recoveryReceive (s : State) (usb : Bool) (l : List Byte) : State :=
  let p := if usb then 2 else 1
  if !recoveryOffers s usb || (s.on F.REC_PORT && s.rd F.REC_PORT != p) then s
  else
    let got := (s.q Q.recovery p).map (BitVec.ofNat 8) ++ l
    let s := s.setq Q.recovery (got.map (·.toNat)) p
    if got.length < 4 then s
    else
      let n := ofBytes (got.take 4)
      let s := s.wr F.REC_PORT p
      if 57344 < n then recoveryAnswer s 4
      else if got.length < 4 + n then s
      else recoveryImage s ((got.drop 4).take n)

/-- RECOVERY_TRANSFER_TIMEOUT (R81): the transfer is aborted. -/
def recoveryTimeout (s : State) : State :=
  if s.on F.REC_MODE then ((s.setq Q.recovery [] 1).setq Q.recovery [] 2).wr F.REC_PORT 0 else s

/-! The tombstone record (R87 to R89, R100, R199). -/

/-- TOMBSTONE_BREAK (R87, R88, R100, R199). -/
def tombstoneBreak (s : State) : State :=
  if s.on F.TS_STAT_BUSY || s.rd F.PTM_STATE_CUR == 4 || (s.rd F.STK_DIESTATE_TIER == 2 && !s.on F.TS_CFG_T2_EN) then s
  else
    let s := s.up F.TS_REQ
    if s.on F.REC_MODE && s.rd F.REC_PORT != 2 then (s.setq Q.recovery [] 1).wr F.REC_PORT 0 else s

/-- The record (R89). -/
def tombstoneRecord (s : State) : List Byte :=
  let causes := s.rd F.STK_DIESTATE_LAST_C_CAUSE + s.rd F.STK_DIESTATE_LAST_M_CAUSE * 8 + s.rd F.SU_TIER_LEDGER_SRC * 64
  let body := [0x50#8, 0x4B#8, 0x54#8, 0x53#8, 1#8] ++ toBytes 1 (s.rd F.STK_DIESTATE_TIER) ++ toBytes 1 (s.rd F.SU_TIER_CAUSE) ++
    toBytes 1 causes ++ stackIdBytes s ++ toBytes 4 (readsAs s .su 0 0x108) ++ toBytes 4 (readsAs s .su 0 0x130) ++
    toBytes 4 (readsAs s .su 0 0x128) ++ toBytes 4 (s.secNow % 2 ^ 32) ++ toBytes 2 (s.rd F.C_RESTARTS) ++
    toBytes 2 (min 65535 (s.rd F.HOT_TIME_MINUTES / 60)) ++ toBytes 4 (readsAs s .su 0 0x104) ++
    toBytes 2 (Config.blkVer (blkInfo .stump).type).toNat ++ toBytes 1 (s.rd F.SU_TIER_BO_SRC) ++ [0#8]
  body ++ toBytes 4 (crc32hdlc body)

/-- TOMBSTONE_SEND_START (R88). -/
def tombstoneStart (s : State) : State :=
  if s.on F.TS_REQ && !s.on F.TS_STAT_BUSY then
    ((s.setq Q.tombstone ((tombstoneRecord s).map (·.toNat))).down F.TS_REQ).up F.TS_STAT_BUSY
  else s

/-- TOMBSTONE_SENT (R88). -/
def tombstoneSent (s : State) : State :=
  if s.on F.TS_STAT_BUSY then ((s.setq Q.tombstone []).down F.TS_STAT_BUSY).bump F.TS_STAT_COUNT else s

/-! Returns to RUN (R201 to R204, R384). -/

/-- HIBERNATE_CONFIG_CHECK (R204): `ok`: the retained configuration matches its CRC. -/
def configCheck (s : State) (ok : Bool) : State :=
  if !warmPath s || !romRuns s 1 then s else if ok then s.wr F.ROM_STAGE 2 else sysReset s

/-- R384: without KEEP_HIB the engine memory is loaded again from the active Pattern. On return the engine is not enabled. -/
def engineReload (s : State) : State :=
  let s := if s.on F.KEEP_HIB 115 || !mUp s then s
    else match checkPass s (slotAddr (s.rd F.PAT_ACTIVE_SLOT)) false with
      | .bad _ => s
      | .ok fs _ => loadSection (loadSection s fs 7 fun _ => true) fs 6 fun _ => true
  let s := (s.down F.LE_CTRL_EN).wr F.LE_ROWSTAT_PENDING 0
  s.each (List.range 48) fun s n => s.each (List.range 4) fun s j => s.down F.LE_FRESH n j

/-- WAKE_RESUME (R201 to R204): from HIBERNATE thread 0.0 fetches at PTM_RESUME once the warm path has been taken; from
SHUTDOWN the full start is over. -/
def wakeBack (s : State) : State :=
  if !s.on F.WAKING then s
  else match s.rd F.PTM_STATE_CUR with
    | 2 => wakeResume s
    | 3 =>
      if romRuns s 2 then
        let s := engineReload (wakeResume s)
        let s := (romDone (outcome s 2 0)).post 3
        bootTask s (4 * s.rd F.PTM_RESUME_ADDR) 0
      else s
    | 4 => if (cUp s && !s.on F.SU_TIER_ROM_PHASE) || s.on F.TIER0_ONLY || s.on F.SU_TIER_GIVE_UP then wakeResume s else s
    | _ => s

/-! The commands. -/

/-- RESET_N_LOW (R53): a pulse of `ns` nanoseconds. -/
def execResetNLow (ns : BitVec 32) (s : State) : Out := .next (pinReset s ns.toNat)
/-- TRST_N_LOW (R697). -/
def execTrstNLow (s : State) : Out := .next (tapReset s)
/-- UPPER_DIE_RELEASE (R73): `boot` is BOOT1:BOOT0 where the C-die is released. -/
def execUpperDieRelease (die : Upper) (boot : Fin 4) (s : State) : Out := .next (upperRelease s die boot.val)
/-- M_DIE_RETURN (R46). -/
def execMDieReturn (s : State) : Out := .next (mReturn s)
/-- ROM_SELF_CHECK (R58). -/
def execRomSelfCheck (romOk bankOk : Bool) (s : State) : Out := .next (selfCheck s romOk bankOk)
/-- ROM_IMAGE_CHECK (R63). -/
def execRomImageCheck (s : State) : Out := .next (imageCheck s)
/-- CAST_ON (R131): `fail` is a domain that does not come up. -/
def execCastOn (fail : Option (Fin 136)) (s : State) : Out := .next (castOn s (fail.map (·.val)))
/-- FIRMWARE_ENTRY (R69). -/
def execFirmwareEntry (s : State) : Out := .next (firmwareEntry s)
/-- PROGRESS_WATCHDOG_EXPIRE (R56). -/
def execProgressWatchdogExpire (s : State) : Out := .next (pwdExpire s)
/-- RECOVERY_PROMPT (R80). -/
def execRecoveryPrompt (s : State) : Out := .next (recoveryPrompt s)
/-- RECOVERY_IMAGE_RECEIVE (R80). -/
def execRecoveryImageReceive (usb : Bool) (data : List (BitVec 8)) (s : State) : Out := .next (recoveryReceive s usb data)
/-- RECOVERY_TRANSFER_TIMEOUT (R81). -/
def execRecoveryTransferTimeout (s : State) : Out := .next (recoveryTimeout s)
/-- TOMBSTONE_BREAK (R87). -/
def execTombstoneBreak (s : State) : Out := .next (tombstoneBreak s)
/-- TOMBSTONE_SEND_START (R88). -/
def execTombstoneSendStart (s : State) : Out := .next (tombstoneStart s)
/-- TOMBSTONE_SENT (R88). -/
def execTombstoneSent (s : State) : Out := .next (tombstoneSent s)
/-- LEDGER_RECORD_WRITE (R96). -/
def execLedgerRecordWrite (s : State) : Out := .next (ledgerRecord s)
/-- HIBERNATE_CONFIG_CHECK (R204). -/
def execHibernateConfigCheck (ok : Bool) (s : State) : Out := .next (configCheck s ok)
/-- WAKE_RESUME (R201). -/
def execWakeResume (s : State) : Out := .next (wakeBack s)

end Sys2Proof.Machine
end

