-- ==== Sys2Proof/Machine/PortRows.lean ====
section
/-!
DEFINITION. The commands of the host and partner ports (18_host_ports.md). Where a command frees room in a FIFO, requests
held for that room are tried again (R629).
-/
namespace Sys2Proof.Machine

/-- The ROM takes what the bulk OUT endpoint of its recovery port has received (R82): the bytes of RECOVERY_IMAGE_RECEIVE. -/
def recoveryTakes (s : State) : State :=
  if recoveryOffers s true then
    (s.q Q.usb 1 1).foldl (fun s pk => recoveryReceive s true (toBytes (pk % 2 ^ 16) (pk / 2 ^ 32))) (s.setq Q.usb [] 1 1)
  else s

/-- USB_OUT_TOKEN (R635, R636): an OUT with its data and toggle, or a PING. -/
def execUsbOutToken (addr : BitVec 7) (ep : Fin 8) (ping toggle : Bool) (data : List (BitVec 8)) (s : State) : Out :=
  .next (recoveryTakes (usbOut s addr.toNat ep.val ping (bnat toggle) data))
/-- USB_IN_TOKEN (R635): `acked`: the host acknowledges the packet sent. -/
def execUsbInToken (addr : BitVec 7) (ep : Fin 8) (acked : Bool) (s : State) : Out :=
  .next (releaseHeld (usbIn s addr.toNat ep.val acked))
/-- USB_SETUP (R636). -/
def execUsbSetup (addr : BitVec 7) (data : BitVec 64) (s : State) : Out :=
  .next (usbSetup s addr.toNat (toBytes 8 data.toNat))
/-- USB_VBUS_RISE (R637). -/
def execUsbVbusRise (s : State) : Out := .next (usbVbusRise s)
/-- USB_VBUS_FALL (R637). -/
def execUsbVbusFall (s : State) : Out := .next (releaseHeld (usbVbusFall s))
/-- USB_BUS_RESET (R637). -/
def execUsbBusReset (hs : Bool) (s : State) : Out := .next (usbBusReset s hs)
/-- USB_SUSPEND (R638). -/
def execUsbSuspend (s : State) : Out := .next (usbSuspend s)
/-- USB_RESUME (R638). -/
def execUsbResume (s : State) : Out := .next (usbResume s)
/-- USB_RWAKE_END (R638): the 2 ms of resume signalling are over. -/
def execUsbRwakeEnd (s : State) : Out := .next (s.down F.USB_RWAKING)

/-- ETH_FRAME_RECEIVE (R642 to R644): a frame with its FCS. -/
def execEthFrameReceive (frame : List (BitVec 8)) (s : State) : Out := .next (ethReceive s frame)
/-- ETH_PAUSE_REPEAT (R644). -/
def execEthPauseRepeat (s : State) : Out := .next (ethRepeat s)
/-- ETH_PAUSE_RECEIVE (R645). -/
def execEthPauseReceive (quanta : BitVec 16) (s : State) : Out := .next (ethPauseReceive s quanta.toNat)
/-- ETH_PAUSE_EXPIRE (R645). -/
def execEthPauseExpire (s : State) : Out := .next (ethPauseExpire s)
/-- ETH_FRAME_TRANSMIT (R631, R641). -/
def execEthFrameTransmit (s : State) : Out := .next (releaseHeld (ethTransmit s))
/-- ETH_FRAME_SENT (R641). -/
def execEthFrameSent (collision : Bool) (s : State) : Out := .next (releaseHeld (ethSent s collision))
/-- ETH_MDIO_DONE (R646): a read of ETH_MDIO_DATA held for the frame goes on. -/
def execEthMdioDone (data : BitVec 16) (s : State) : Out := .next (releaseHeld (mdioDone s data.toNat))

/-- UART_CHAR_RECEIVE (R648, R650, R651). -/
def execUartCharReceive (u : Fin 2) (data : BitVec 8) (framing parity brk : Bool) (s : State) : Out :=
  .next (uartReceive s (u.val + 2) data.toNat framing parity brk)
/-- UART_CHAR_TRANSMIT (R649 to R651): `cts`: CTS_N is low. -/
def execUartCharTransmit (u : Fin 2) (cts : Bool) (s : State) : Out := .next (releaseHeld (uartTransmit s (u.val + 2) cts))
/-- UART_CHAR_SENT (R649). -/
def execUartCharSent (u : Fin 2) (s : State) : Out := .next (uartSent s (u.val + 2))

/-- MOD_TRANSACTION_START (R653). -/
def execModTransactionStart (s : State) : Out := .next (releaseHeld (modStart s))
/-- MOD_BLOCK_START (R653). -/
def execModBlockStart (s : State) : Out := .next (modBlock s)
/-- MOD_TRANSACTION_DONE (R653, R655): `rx` is what MOD_MISO brought. -/
def execModTransactionDone (rx : List (BitVec 8)) (s : State) : Out := .next (modDone s rx)
/-- MOD_RDY_TIMEOUT (R654). -/
def execModRdyTimeout (rx : List (BitVec 8)) (s : State) : Out := .next (modRdyTimeout s rx)
/-- MOD_IRQ_FALL (R656). -/
def execModIrqFall (s : State) : Out := .next (modIrqFall s)

/-- SL_DATA_RECEIVE (R660 to R662, R665): `frame` is what follows SYNC. -/
def execSlDataReceive (frame : List (BitVec 8)) (s : State) : Out := .next (slReceive s 1 frame slData)
/-- SL_CREDIT_RECEIVE (R661). -/
def execSlCreditReceive (frame : List (BitVec 8)) (s : State) : Out :=
  .next (slReceive s 2 frame fun s cret _ _ => slCredit s cret)
/-- SL_HELLO_RECEIVE (R663, R664). -/
def execSlHelloReceive (frame : List (BitVec 8)) (s : State) : Out := .next (slReceive s 3 frame slHello)
/-- SL_DATA_SEND (R661). -/
def execSlDataSend (s : State) : Out := .next (releaseHeld (slDataSend s))
/-- SL_CREDIT_TIMEOUT (R662). -/
def execSlCreditTimeout (s : State) : Out := .next (slCreditTimeout s)
/-- SL_HELLO_TIMER (R663). -/
def execSlHelloTimer (s : State) : Out := .next (slHelloTimer s)
/-- SL_LINK_TIMEOUT (R665). -/
def execSlLinkTimeout (s : State) : Out := .next (slLinkTimeout s)
/-- SL_HEADER_ERROR (R659). -/
def execSlHeaderError (s : State) : Out := .next (slHeaderError s)

end Sys2Proof.Machine
end

