-- ==== Sys2Proof/Machine/TaskRows.lean ====
section
/-!
DEFINITION. The commands of the task dispatcher (13_task_dispatcher.md) and of the supervisor pair (15_supervisor_pair.md).
-/
namespace Sys2Proof.Machine

/-- EVENT_POST (R498, R522). -/
def execEventPost (ev : Fin 256) (s : State) : Out := .next (eventPost s ev.val)
/-- CONTEXT_SAVE_DONE (R506, R507, R521). -/
def execContextSaveDone (t : Fin 40) (s : State) : Out := .next (saveDone s t.val)
/-- TASK_DISPATCH (R502, R503, R508). -/
def execTaskDispatch (s : State) : Out := .next (dispatch s)
/-- LOAD_WINDOW_END (R517). -/
def execLoadWindowEnd (core : Fin 5) (s : State) : Out := .next (loadWindowEnd s core.val)

/-- SENSE_LINE_CHANGE (R553). -/
def execSenseLineChange (line : Fin 16) (copy : Fin 2) (level : Bool) (s : State) : Out :=
  .next (senseChange s line.val copy.val level)
/-- SP_WINDOW_CLASSIFY (R555, R558 to R563). -/
def execSpWindowClassify (s : State) : Out := .next (windowEnd s)
/-- SP_RESEED_DONE (R560, R565). -/
def execSpReseedDone (s : State) : Out := .next (reseedDone s)
/-- SP_RATE_INTERVAL (R561). -/
def execSpRateInterval (s : State) : Out := .next (rateInterval s)
/-- SP_SPLIT_HINGE (R566 to R568). -/
def execSpSplitHinge (s : State) : Out := .next (splitHinge s)
/-- SP_REJOIN_HINGE (R569, R570). -/
def execSpRejoinHinge (s : State) : Out := .next (rejoinHinge s)
/-- SP_REPLAY_APPLY (R575): SP-C applies the oldest entry, and a debug write held for want of room is tried again. -/
def execSpReplayApply (s : State) : Out := .next (releaseHeld (replayApply s))

end Sys2Proof.Machine
end

