-- ==== Sys2Proof/Machine/Dispatch.lean ====
section
/-!
DEFINITION. The meaning of each command by name: one arm per constructor.
-/
namespace Sys2Proof.Machine

def exec (i : Instr) (s : State) : Host.Outcome State Fault Refusal :=
  match i with
  | .registerWrite src addr size data => Sys2Proof.Machine.execRegisterWrite src addr size data s
  | .tallyWrite src addr size data => Sys2Proof.Machine.execTallyWrite src addr size data s
  | .railRise rail testEn => Sys2Proof.Machine.execRailRise rail testEn s
  | .railFall rail => Sys2Proof.Machine.execRailFall rail s
  | .bankDetect v18 => Sys2Proof.Machine.execBankDetect v18 s
  | .resetNLow ns => Sys2Proof.Machine.execResetNLow ns s
  | .trstNLow => Sys2Proof.Machine.execTrstNLow s
  | .sysResetStack src ticket => Sys2Proof.Machine.execSysResetStack src ticket s
  | .bDieFuseRead site fuses => Sys2Proof.Machine.execBDieFuseRead site fuses s
  | .upperFuseRead cSite mSite cId mId => Sys2Proof.Machine.execUpperFuseRead cSite mSite cId mId s
  | .hsxoStable => Sys2Proof.Machine.execHsxoStable s
  | .hsxoStartTimeout => Sys2Proof.Machine.execHsxoStartTimeout s
  | .hsxoStop => Sys2Proof.Machine.execHsxoStop s
  | .pllLock => Sys2Proof.Machine.execPllLock s
  | .pllRefMoveDone => Sys2Proof.Machine.execPllRefMoveDone s
  | .pllcLossOfLock => Sys2Proof.Machine.execPllcLossOfLock s
  | .plltLossOfLock => Sys2Proof.Machine.execPlltLossOfLock s
  | .lsxoFail => Sys2Proof.Machine.execLsxoFail s
  | .linkTrainingDone bad => Sys2Proof.Machine.execLinkTrainingDone bad s
  | .upperDieRelease die boot => Sys2Proof.Machine.execUpperDieRelease die boot s
  | .flitReceive linkEnd flit => Sys2Proof.Machine.execFlitReceive linkEnd flit s
  | .ackReceive linkEnd seq => Sys2Proof.Machine.execAckReceive linkEnd seq s
  | .nakReceive linkEnd seq => Sys2Proof.Machine.execNakReceive linkEnd seq s
  | .ackTimerExpire linkEnd => Sys2Proof.Machine.execAckTimerExpire linkEnd s
  | .heartbeatSend => Sys2Proof.Machine.execHeartbeatSend s
  | .heartbeatPeriodMiss => Sys2Proof.Machine.execHeartbeatPeriodMiss s
  | .heartbeatTimeout => Sys2Proof.Machine.execHeartbeatTimeout s
  | .mLinkSilentTimeout => Sys2Proof.Machine.execMLinkSilentTimeout s
  | .mDieReturn => Sys2Proof.Machine.execMDieReturn s
  | .stkResetCRst src ticket => Sys2Proof.Machine.execStkResetCRst src ticket s
  | .stkResetMRst src ticket => Sys2Proof.Machine.execStkResetMRst src ticket s
  | .orphanTimeout leg => Sys2Proof.Machine.execOrphanTimeout leg s
  | .laneTestStart link => Sys2Proof.Machine.execLaneTestStart link s
  | .laneTestDone link bad => Sys2Proof.Machine.execLaneTestDone link bad s
  | .headerArrive src op addr body => Sys2Proof.Machine.execHeaderArrive src op addr body s
  | .heldHeaderTagged => Sys2Proof.Machine.execHeldHeaderTagged s
  | .tagTimeout tag => Sys2Proof.Machine.execTagTimeout tag s
  | .responseReceive tag code dup data => Sys2Proof.Machine.execResponseReceive tag code dup data s
  | .memoryRead src addr size ecc => Sys2Proof.Machine.execMemoryRead src addr size ecc s
  | .memoryWrite src addr size data => Sys2Proof.Machine.execMemoryWrite src addr size data s
  | .atomicSwap src addr wide data => Sys2Proof.Machine.execAtomicSwap src addr wide data s
  | .atomicAdd src addr wide data => Sys2Proof.Machine.execAtomicAdd src addr wide data s
  | .shadowWrite => Sys2Proof.Machine.execShadowWrite s
  | .domainDrainStart dom => Sys2Proof.Machine.execDomainDrainStart dom s
  | .drainAbortTimeout dom => Sys2Proof.Machine.execDrainAbortTimeout dom s
  | .domainSwitchOff dom forced => Sys2Proof.Machine.execDomainSwitchOff dom forced s
  | .powerupHoldTimeout who => Sys2Proof.Machine.execPowerupHoldTimeout who s
  | .busyHoldTimeout who => Sys2Proof.Machine.execBusyHoldTimeout who s
  | .romSelfCheck romOk bankOk => Sys2Proof.Machine.execRomSelfCheck romOk bankOk s
  | .romImageCheck => Sys2Proof.Machine.execRomImageCheck s
  | .castOn fail => Sys2Proof.Machine.execCastOn fail s
  | .firmwareEntry => Sys2Proof.Machine.execFirmwareEntry s
  | .giveUpWrite src => Sys2Proof.Machine.execGiveUpWrite src s
  | .romDoneWrite src => Sys2Proof.Machine.execRomDoneWrite src s
  | .recoverWrite src => Sys2Proof.Machine.execRecoverWrite src s
  | .progressWatchdogExpire => Sys2Proof.Machine.execProgressWatchdogExpire s
  | .pwdKick src basic ticket => Sys2Proof.Machine.execPwdKick src basic ticket s
  | .recoveryPrompt => Sys2Proof.Machine.execRecoveryPrompt s
  | .recoveryImageReceive usb data => Sys2Proof.Machine.execRecoveryImageReceive usb data s
  | .recoveryTransferTimeout => Sys2Proof.Machine.execRecoveryTransferTimeout s
  | .tombstoneBreak => Sys2Proof.Machine.execTombstoneBreak s
  | .tombstoneSendStart => Sys2Proof.Machine.execTombstoneSendStart s
  | .tombstoneSent => Sys2Proof.Machine.execTombstoneSent s
  | .hotTimeMinute => Sys2Proof.Machine.execHotTimeMinute s
  | .ledgerRecordWrite => Sys2Proof.Machine.execLedgerRecordWrite s
  | .ledgerClr src causes ticket => Sys2Proof.Machine.execLedgerClr src causes ticket s
  | .patLiveGo src ticket => Sys2Proof.Machine.execPatLiveGo src ticket s
  | .patLiveCancel src ticket => Sys2Proof.Machine.execPatLiveCancel src ticket s
  | .liveVerifyDone => Sys2Proof.Machine.execLiveVerifyDone s
  | .liveLoadDone => Sys2Proof.Machine.execLiveLoadDone s
  | .liveSwitchTimeout => Sys2Proof.Machine.execLiveSwitchTimeout s
  | .clockRequest clk who => Sys2Proof.Machine.execClockRequest clk who s
  | .clockGrant clk => Sys2Proof.Machine.execClockGrant clk s
  | .clockRelease clk who => Sys2Proof.Machine.execClockRelease clk who s
  | .stateReqDoze src fastNap => Sys2Proof.Machine.execStateReqDoze src fastNap s
  | .stateReqNap src fastNap => Sys2Proof.Machine.execStateReqNap src fastNap s
  | .stateReqHibernate src fastNap => Sys2Proof.Machine.execStateReqHibernate src fastNap s
  | .stateReqShutdown src fastNap => Sys2Proof.Machine.execStateReqShutdown src fastNap s
  | .stateEntryTaskTimeout => Sys2Proof.Machine.execStateEntryTaskTimeout s
  | .stateEntryComplete => Sys2Proof.Machine.execStateEntryComplete s
  | .dozeEnter => Sys2Proof.Machine.execDozeEnter s
  | .wakeEvent src => Sys2Proof.Machine.execWakeEvent src s
  | .hibernateConfigCheck ok => Sys2Proof.Machine.execHibernateConfigCheck ok s
  | .wakeResume => Sys2Proof.Machine.execWakeResume s
  | .fastNapPllSwitch => Sys2Proof.Machine.execFastNapPllSwitch s
  | .domCtrlOn src dom => Sys2Proof.Machine.execDomCtrlOn src dom s
  | .domCtrlOff src dom => Sys2Proof.Machine.execDomCtrlOff src dom s
  | .domainOn dom => Sys2Proof.Machine.execDomainOn dom s
  | .domainOnTimeout dom => Sys2Proof.Machine.execDomainOnTimeout dom s
  | .tempConversion tsB tsM tsC0 tsC1 => Sys2Proof.Machine.execTempConversion tsB tsM tsC0 tsC1 s
  | .supplyDropWarning => Sys2Proof.Machine.execSupplyDropWarning s
  | .supplyDropClear => Sys2Proof.Machine.execSupplyDropClear s
  | .adcTrigger ad seq => Sys2Proof.Machine.execAdcTrigger ad seq s
  | .adSwtrigA src ad => Sys2Proof.Machine.execAdSwtrigA src ad s
  | .adSwtrigB src ad => Sys2Proof.Machine.execAdSwtrigB src ad s
  | .adcConversionEnd ad uv => Sys2Proof.Machine.execAdcConversionEnd ad uv s
  | .yankClear src => Sys2Proof.Machine.execYankClear src s
  | .csaReady amp => Sys2Proof.Machine.execCsaReady amp s
  | .comparatorCrossing cmp uv => Sys2Proof.Machine.execComparatorCrossing cmp uv s
  | .comparatorFilterSample cmp => Sys2Proof.Machine.execComparatorFilterSample cmp s
  | .cmCfgWrite src cmp dac data => Sys2Proof.Machine.execCmCfgWrite src cmp dac data s
  | .swGo src => Sys2Proof.Machine.execSwGo src s
  | .swatchTestDone meas => Sys2Proof.Machine.execSwatchTestDone meas s
  | .swatchAd3Timeout => Sys2Proof.Machine.execSwatchAd3Timeout s
  | .sliceStep slice => Sys2Proof.Machine.execSliceStep slice s
  | .sliceStartEdge slice => Sys2Proof.Machine.execSliceStartEdge slice s
  | .ctGstart src slices => Sys2Proof.Machine.execCtGstart src slices s
  | .sliceSyncEdge slice => Sys2Proof.Machine.execSliceSyncEdge slice s
  | .ctShctlForce src slice hold => Sys2Proof.Machine.execCtShctlForce src slice hold s
  | .ctShadowWrite src slice which data => Sys2Proof.Machine.execCtShadowWrite src slice which data s
  | .captureEdge ch rise => Sys2Proof.Machine.execCaptureEdge ch rise s
  | .cpDataPop src ch => Sys2Proof.Machine.execCpDataPop src ch s
  | .qdTransition qd a b => Sys2Proof.Machine.execQdTransition qd a b s
  | .qdIndexEdge edge => Sys2Proof.Machine.execQdIndexEdge edge s
  | .legRefEdge leg => Sys2Proof.Machine.execLegRefEdge leg s
  | .deadTimeExpire leg side => Sys2Proof.Machine.execDeadTimeExpire leg side s
  | .blankWindowEnd leg => Sys2Proof.Machine.execBlankWindowEnd leg s
  | .lgArmArm src leg => Sys2Proof.Machine.execLgArmArm src leg s
  | .lgArmNow src leg => Sys2Proof.Machine.execLgArmNow src leg s
  | .lgArmDisarm src leg => Sys2Proof.Machine.execLgArmDisarm src leg s
  | .lgArmSwtrip src leg => Sys2Proof.Machine.execLgArmSwtrip src leg s
  | .legExtTrip leg => Sys2Proof.Machine.execLegExtTrip leg s
  | .bgArm src groups => Sys2Proof.Machine.execBgArm src groups s
  | .lgCfgWrite src leg dt data => Sys2Proof.Machine.execLgCfgWrite src leg dt data s
  | .strobeBurstStart => Sys2Proof.Machine.execStrobeBurstStart s
  | .strobeActivate strobe => Sys2Proof.Machine.execStrobeActivate strobe s
  | .strobeWidthEnd strobe => Sys2Proof.Machine.execStrobeWidthEnd strobe s
  | .rowTrigger row => Sys2Proof.Machine.execRowTrigger row s
  | .stitch ecc => Sys2Proof.Machine.execStitch ecc s
  | .resultReceive => Sys2Proof.Machine.execResultReceive s
  | .expressStitch ecc => Sys2Proof.Machine.execExpressStitch ecc s
  | .leSwap src high slots => Sys2Proof.Machine.execLeSwap src high slots s
  | .leClr src high slots => Sys2Proof.Machine.execLeClr src high slots s
  | .ltPreload src table freeze => Sys2Proof.Machine.execLtPreload src table freeze s
  | .ltSnap src table freeze => Sys2Proof.Machine.execLtSnap src table freeze s
  | .ltCopyDone table => Sys2Proof.Machine.execLtCopyDone table s
  | .hdsCommit src slots => Sys2Proof.Machine.execHdsCommit src slots s
  | .hdsCtrlWrite src data => Sys2Proof.Machine.execHdsCtrlWrite src data s
  | .lineStart => Sys2Proof.Machine.execLineStart s
  | .hdsGoLine src => Sys2Proof.Machine.execHdsGoLine src s
  | .planeShiftDone => Sys2Proof.Machine.execPlaneShiftDone s
  | .latchPulseStart => Sys2Proof.Machine.execLatchPulseStart s
  | .latchPulseEnd => Sys2Proof.Machine.execLatchPulseEnd s
  | .hcuInWrWrite src data => Sys2Proof.Machine.execHcuInWrWrite src data s
  | .hcuLineProcess => Sys2Proof.Machine.execHcuLineProcess s
  | .hcuSlotPoll => Sys2Proof.Machine.execHcuSlotPoll s
  | .hcuCommit => Sys2Proof.Machine.execHcuCommit s
  | .hcuErrClear src => Sys2Proof.Machine.execHcuErrClear src s
  | .hcuHistClr src data => Sys2Proof.Machine.execHcuHistClr src data s
  | .dkFire src dk => Sys2Proof.Machine.execDkFire src dk s
  | .dkPulseEnd dk => Sys2Proof.Machine.execDkPulseEnd dk s
  | .dkCoolEnd dk => Sys2Proof.Machine.execDkCoolEnd dk s
  | .fetchRefillDone t parity => Sys2Proof.Machine.execFetchRefillDone t parity s
  | .loadResponse t parity => Sys2Proof.Machine.execLoadResponse t parity s
  | .storeBufferDrain t => Sys2Proof.Machine.execStoreBufferDrain t s
  | .storeResponse t => Sys2Proof.Machine.execStoreResponse t s
  | .divideDone t => Sys2Proof.Machine.execDivideDone t s
  | .asyncException t => Sys2Proof.Machine.execAsyncException t s
  | .threadWatchdogExpire t => Sys2Proof.Machine.execThreadWatchdogExpire t s
  | .wdKick src basic threads => Sys2Proof.Machine.execWdKick src basic threads s
  | .tcDfaultClear src core threads => Sys2Proof.Machine.execTcDfaultClear src core threads s
  | .ccInvIcAll src => Sys2Proof.Machine.execCcInvIcAll src s
  | .ccInvRcAll src => Sys2Proof.Machine.execCcInvRcAll src s
  | .ccInvIcRange src => Sys2Proof.Machine.execCcInvIcRange src s
  | .ccInvRcRange src => Sys2Proof.Machine.execCcInvRcRange src s
  | .ccInvDone core => Sys2Proof.Machine.execCcInvDone core s
  | .add t rd ra rb => Sys2Proof.Machine.execAdd t rd ra rb s
  | .sub t rd ra rb => Sys2Proof.Machine.execSub t rd ra rb s
  | .and_ t rd ra rb => Sys2Proof.Machine.execAnd t rd ra rb s
  | .or_ t rd ra rb => Sys2Proof.Machine.execOr t rd ra rb s
  | .xor_ t rd ra rb => Sys2Proof.Machine.execXor t rd ra rb s
  | .andn t rd ra rb => Sys2Proof.Machine.execAndn t rd ra rb s
  | .shl t rd ra rb => Sys2Proof.Machine.execShl t rd ra rb s
  | .shr t rd ra rb => Sys2Proof.Machine.execShr t rd ra rb s
  | .sar t rd ra rb => Sys2Proof.Machine.execSar t rd ra rb s
  | .ror t rd ra rb => Sys2Proof.Machine.execRor t rd ra rb s
  | .slt t rd ra rb => Sys2Proof.Machine.execSlt t rd ra rb s
  | .sltu t rd ra rb => Sys2Proof.Machine.execSltu t rd ra rb s
  | .min t rd ra rb => Sys2Proof.Machine.execMin t rd ra rb s
  | .max t rd ra rb => Sys2Proof.Machine.execMax t rd ra rb s
  | .minu t rd ra rb => Sys2Proof.Machine.execMinu t rd ra rb s
  | .maxu t rd ra rb => Sys2Proof.Machine.execMaxu t rd ra rb s
  | .mul t rd ra rb => Sys2Proof.Machine.execMul t rd ra rb s
  | .mulh t rd ra rb => Sys2Proof.Machine.execMulh t rd ra rb s
  | .mulhu t rd ra rb => Sys2Proof.Machine.execMulhu t rd ra rb s
  | .mulq t rd ra rb => Sys2Proof.Machine.execMulq t rd ra rb s
  | .mulx t rd ra rb => Sys2Proof.Machine.execMulx t rd ra rb s
  | .div t rd ra rb => Sys2Proof.Machine.execDiv t rd ra rb s
  | .divu t rd ra rb => Sys2Proof.Machine.execDivu t rd ra rb s
  | .rem t rd ra rb => Sys2Proof.Machine.execRem t rd ra rb s
  | .remu t rd ra rb => Sys2Proof.Machine.execRemu t rd ra rb s
  | .adds t rd ra rb => Sys2Proof.Machine.execAdds t rd ra rb s
  | .subs t rd ra rb => Sys2Proof.Machine.execSubs t rd ra rb s
  | .addus t rd ra rb => Sys2Proof.Machine.execAddus t rd ra rb s
  | .subus t rd ra rb => Sys2Proof.Machine.execSubus t rd ra rb s
  | .negs t rd ra => Sys2Proof.Machine.execNegs t rd ra s
  | .abss t rd ra => Sys2Proof.Machine.execAbss t rd ra s
  | .sats t rd ra n => Sys2Proof.Machine.execSats t rd ra n s
  | .satu t rd ra n => Sys2Proof.Machine.execSatu t rd ra n s
  | .shls t rd ra rb => Sys2Proof.Machine.execShls t rd ra rb s
  | .extu t rd ra p w => Sys2Proof.Machine.execExtu t rd ra p w s
  | .exts t rd ra p w => Sys2Proof.Machine.execExts t rd ra p w s
  | .ins t rd ra p w => Sys2Proof.Machine.execIns t rd ra p w s
  | .clz t rd ra => Sys2Proof.Machine.execClz t rd ra s
  | .popc t rd ra => Sys2Proof.Machine.execPopc t rd ra s
  | .rev8 t rd ra => Sys2Proof.Machine.execRev8 t rd ra s
  | .swapw t rd ra rb => Sys2Proof.Machine.execSwapw t rd ra rb s
  | .addw t rd ra rb => Sys2Proof.Machine.execAddw t rd ra rb s
  | .swapd t rd ra rb => Sys2Proof.Machine.execSwapd t rd ra rb s
  | .addd t rd ra rb => Sys2Proof.Machine.execAddd t rd ra rb s
  | .addi t rd ra imm => Sys2Proof.Machine.execAddi t rd ra imm s
  | .andi t rd ra imm => Sys2Proof.Machine.execAndi t rd ra imm s
  | .ori t rd ra imm => Sys2Proof.Machine.execOri t rd ra imm s
  | .xori t rd ra imm => Sys2Proof.Machine.execXori t rd ra imm s
  | .slti t rd ra imm => Sys2Proof.Machine.execSlti t rd ra imm s
  | .sltiu t rd ra imm => Sys2Proof.Machine.execSltiu t rd ra imm s
  | .shi t rd ra kind n => Sys2Proof.Machine.execShi t rd ra kind n s
  | .lui t rd imm => Sys2Proof.Machine.execLui t rd imm s
  | .li t rd imm => Sys2Proof.Machine.execLi t rd imm s
  | .jal t rd imm => Sys2Proof.Machine.execJal t rd imm s
  | .jalr t rd ra imm => Sys2Proof.Machine.execJalr t rd ra imm s
  | .br t cond ra rb disp => Sys2Proof.Machine.execBr t cond ra rb disp s
  | .brz t cond ra disp => Sys2Proof.Machine.execBrz t cond ra disp s
  | .ldb t rd ra imm => Sys2Proof.Machine.execLdb t rd ra imm s
  | .ldbu t rd ra imm => Sys2Proof.Machine.execLdbu t rd ra imm s
  | .ldh t rd ra imm => Sys2Proof.Machine.execLdh t rd ra imm s
  | .ldhu t rd ra imm => Sys2Proof.Machine.execLdhu t rd ra imm s
  | .ldw t rd ra imm => Sys2Proof.Machine.execLdw t rd ra imm s
  | .ldp t rd ra imm => Sys2Proof.Machine.execLdp t rd ra imm s
  | .stb t rd ra imm => Sys2Proof.Machine.execStb t rd ra imm s
  | .sth t rd ra imm => Sys2Proof.Machine.execSth t rd ra imm s
  | .stw t rd ra imm => Sys2Proof.Machine.execStw t rd ra imm s
  | .stp t rd ra imm => Sys2Proof.Machine.execStp t rd ra imm s
  | .mfs t rd num => Sys2Proof.Machine.execMfs t rd num s
  | .mts t ra num => Sys2Proof.Machine.execMts t ra num s
  | .trap t num => Sys2Proof.Machine.execTrap t num s
  | .retx t => Sys2Proof.Machine.execRetx t s
  | .sync t => Sys2Proof.Machine.execSync t s
  | .tend t => Sys2Proof.Machine.execTend t s
  | .twait t => Sys2Proof.Machine.execTwait t s
  | .brk t num => Sys2Proof.Machine.execBrk t num s
  | .ibuf t => Sys2Proof.Machine.execIbuf t s
  | .nop t => Sys2Proof.Machine.execNop t s
  | .illegalInstruction t word => Sys2Proof.Machine.execIllegalInstruction t word s
  | .eventPost ev => Sys2Proof.Machine.execEventPost ev s
  | .dspPost src basic task ticket => Sys2Proof.Machine.execDspPost src basic task ticket s
  | .contextSaveDone t => Sys2Proof.Machine.execContextSaveDone t s
  | .taskDispatch => Sys2Proof.Machine.execTaskDispatch s
  | .loadWindowEnd core => Sys2Proof.Machine.execLoadWindowEnd core s
  | .dspRecover src task => Sys2Proof.Machine.execDspRecover src task s
  | .dspCtrlEn src en => Sys2Proof.Machine.execDspCtrlEn src en s
  | .mpuLock src defEn => Sys2Proof.Machine.execMpuLock src defEn s
  | .senseLineChange line copy level => Sys2Proof.Machine.execSenseLineChange line copy level s
  | .spWindowClassify => Sys2Proof.Machine.execSpWindowClassify s
  | .spReseedDone => Sys2Proof.Machine.execSpReseedDone s
  | .spRateInterval => Sys2Proof.Machine.execSpRateInterval s
  | .spSplit src => Sys2Proof.Machine.execSpSplit src s
  | .spRejoin src => Sys2Proof.Machine.execSpRejoin src s
  | .spSplitHinge => Sys2Proof.Machine.execSpSplitHinge s
  | .spRejoinHinge => Sys2Proof.Machine.execSpRejoinHinge s
  | .spDegrade src => Sys2Proof.Machine.execSpDegrade src s
  | .spInjC src => Sys2Proof.Machine.execSpInjC src s
  | .spInjI src => Sys2Proof.Machine.execSpInjI src s
  | .spReplayApply => Sys2Proof.Machine.execSpReplayApply s
  | .dcDoorbell src ch ticket => Sys2Proof.Machine.execDcDoorbell src ch ticket s
  | .descriptorFetched ch => Sys2Proof.Machine.execDescriptorFetched ch s
  | .dmaReadResponse ch => Sys2Proof.Machine.execDmaReadResponse ch s
  | .dmaWriteResponse ch => Sys2Proof.Machine.execDmaWriteResponse ch s
  | .descriptorComplete ch => Sys2Proof.Machine.execDescriptorComplete ch s
  | .dmaPaceRequest source => Sys2Proof.Machine.execDmaPaceRequest source s
  | .dcRingRdWrite src ch data => Sys2Proof.Machine.execDcRingRdWrite src ch data s
  | .dcStop src ch => Sys2Proof.Machine.execDcStop src ch s
  | .dcStopped ch => Sys2Proof.Machine.execDcStopped ch s
  | .dcClear src ch => Sys2Proof.Machine.execDcClear src ch s
  | .dcCfgWrite src ch data => Sys2Proof.Machine.execDcCfgWrite src ch data s
  | .dcNextWrite src ch data => Sys2Proof.Machine.execDcNextWrite src ch data s
  | .dmaMidWrite src ch mid => Sys2Proof.Machine.execDmaMidWrite src ch mid s
  | .dmaMidLock src => Sys2Proof.Machine.execDmaMidLock src s
  | .cxFeedWrite src ctx place size data => Sys2Proof.Machine.execCxFeedWrite src ctx place size data s
  | .cxStart src ctx => Sys2Proof.Machine.execCxStart src ctx s
  | .cxFinish src ctx => Sys2Proof.Machine.execCxFinish src ctx s
  | .cxPreset src ctx code => Sys2Proof.Machine.execCxPreset src ctx code s
  | .cxConfigWrite src ctx which data => Sys2Proof.Machine.execCxConfigWrite src ctx which data s
  | .cxFrameStart path => Sys2Proof.Machine.execCxFrameStart path s
  | .cxAppend link => Sys2Proof.Machine.execCxAppend link s
  | .cxStrip link frame => Sys2Proof.Machine.execCxStrip link frame s
  | .cxScrubPeriod ctx => Sys2Proof.Machine.execCxScrubPeriod ctx s
  | .cxScrubPassEnd ctx => Sys2Proof.Machine.execCxScrubPassEnd ctx s
  | .cxSlice => Sys2Proof.Machine.execCxSlice s
  | .ptTxPush src port data n ep ticket => Sys2Proof.Machine.execPtTxPush src port data n ep ticket s
  | .txPushTimeout who => Sys2Proof.Machine.execTxPushTimeout who s
  | .ptTxStream src port ep data => Sys2Proof.Machine.execPtTxStream src port ep data s
  | .ptRxPop src port ep => Sys2Proof.Machine.execPtRxPop src port ep s
  | .usbOutToken addr ep ping toggle data => Sys2Proof.Machine.execUsbOutToken addr ep ping toggle data s
  | .usbInToken addr ep acked => Sys2Proof.Machine.execUsbInToken addr ep acked s
  | .usbSetup addr data => Sys2Proof.Machine.execUsbSetup addr data s
  | .usbVbusRise => Sys2Proof.Machine.execUsbVbusRise s
  | .usbVbusFall => Sys2Proof.Machine.execUsbVbusFall s
  | .usbBusReset hs => Sys2Proof.Machine.execUsbBusReset hs s
  | .usbSuspend => Sys2Proof.Machine.execUsbSuspend s
  | .usbResume => Sys2Proof.Machine.execUsbResume s
  | .usbRwake src connect hsEn => Sys2Proof.Machine.execUsbRwake src connect hsEn s
  | .usbRwakeEnd => Sys2Proof.Machine.execUsbRwakeEnd s
  | .usbEpcfgWrite src ep data => Sys2Proof.Machine.execUsbEpcfgWrite src ep data s
  | .ethFrameReceive frame => Sys2Proof.Machine.execEthFrameReceive frame s
  | .ethPauseRepeat => Sys2Proof.Machine.execEthPauseRepeat s
  | .ethPauseReceive quanta => Sys2Proof.Machine.execEthPauseReceive quanta s
  | .ethPauseExpire => Sys2Proof.Machine.execEthPauseExpire s
  | .ethFrameTransmit => Sys2Proof.Machine.execEthFrameTransmit s
  | .ethFrameSent collision => Sys2Proof.Machine.execEthFrameSent collision s
  | .ethMdioCmd src data => Sys2Proof.Machine.execEthMdioCmd src data s
  | .ethMdioDone data => Sys2Proof.Machine.execEthMdioDone data s
  | .uartCharReceive u data framing parity brk => Sys2Proof.Machine.execUartCharReceive u data framing parity brk s
  | .uartCharTransmit u cts => Sys2Proof.Machine.execUartCharTransmit u cts s
  | .uartCharSent u => Sys2Proof.Machine.execUartCharSent u s
  | .modTransactionStart => Sys2Proof.Machine.execModTransactionStart s
  | .modBlockStart => Sys2Proof.Machine.execModBlockStart s
  | .modTransactionDone rx => Sys2Proof.Machine.execModTransactionDone rx s
  | .modRdyTimeout rx => Sys2Proof.Machine.execModRdyTimeout rx s
  | .modIrqFall => Sys2Proof.Machine.execModIrqFall s
  | .slDataReceive frame => Sys2Proof.Machine.execSlDataReceive frame s
  | .slCreditReceive frame => Sys2Proof.Machine.execSlCreditReceive frame s
  | .slHelloReceive frame => Sys2Proof.Machine.execSlHelloReceive frame s
  | .slDataSend => Sys2Proof.Machine.execSlDataSend s
  | .slCreditTimeout => Sys2Proof.Machine.execSlCreditTimeout s
  | .slHelloTimer => Sys2Proof.Machine.execSlHelloTimer s
  | .slLinkTimeout => Sys2Proof.Machine.execSlLinkTimeout s
  | .nvmRead src offset size word ecc => Sys2Proof.Machine.execNvmRead src offset size word ecc s
  | .nvmWrite src offset size data fail => Sys2Proof.Machine.execNvmWrite src offset size data fail s
  | .eccBucketRoll => Sys2Proof.Machine.execEccBucketRoll s
  | .nvmTallySave src => Sys2Proof.Machine.execNvmTallySave src s
  | .nvmTallySaveTimer => Sys2Proof.Machine.execNvmTallySaveTimer s
  | .keyCommit src slot ticket => Sys2Proof.Machine.execKeyCommit src slot ticket s
  | .keyCommitVerified => Sys2Proof.Machine.execKeyCommitVerified s
  | .keyCommitWritten fail => Sys2Proof.Machine.execKeyCommitWritten fail s
  | .ctrRaise src ctr value => Sys2Proof.Machine.execCtrRaise src ctr value s
  | .ctrRaiseDone n fail0 fail1 => Sys2Proof.Machine.execCtrRaiseDone n fail0 fail1 s
  | .eventLogWrite => Sys2Proof.Machine.execEventLogWrite s
  | .logSearchDone => Sys2Proof.Machine.execLogSearchDone s
  | .crHash src => Sys2Proof.Machine.execCrHash src s
  | .crVerify src => Sys2Proof.Machine.execCrVerify src s
  | .crImage src kind => Sys2Proof.Machine.execCrImage src kind s
  | .crRevoke src => Sys2Proof.Machine.execCrRevoke src s
  | .crCommandDone => Sys2Proof.Machine.execCrCommandDone s
  | .tapReset => Sys2Proof.Machine.execTapReset s
  | .tapExtest cells => Sys2Proof.Machine.execTapExtest cells s
  | .tapSamplePreload cells => Sys2Proof.Machine.execTapSamplePreload cells s
  | .tapIdcode => Sys2Proof.Machine.execTapIdcode s
  | .tapClamp => Sys2Proof.Machine.execTapClamp s
  | .tapHighz => Sys2Proof.Machine.execTapHighz s
  | .tapDbgAcc => Sys2Proof.Machine.execTapDbgAcc s
  | .tapBypass => Sys2Proof.Machine.execTapBypass s
  | .tapStackReset => Sys2Proof.Machine.execTapStackReset s
  | .tapDbgAuth => Sys2Proof.Machine.execTapDbgAuth s
  | .dbgAuthSubmit dr => Sys2Proof.Machine.execDbgAuthSubmit dr s
  | .dbgAuthVerified => Sys2Proof.Machine.execDbgAuthVerified s
  | .dbgAuthLockoutEnd => Sys2Proof.Machine.execDbgAuthLockoutEnd s
  | .dbgAccGo dr => Sys2Proof.Machine.execDbgAccGo dr s
  | .dbgAccResponse => Sys2Proof.Machine.execDbgAccResponse s
  | .dbgHalt src high threads => Sys2Proof.Machine.execDbgHalt src high threads s
  | .dbgHalted t => Sys2Proof.Machine.execDbgHalted t s
  | .dbgResume src high threads => Sys2Proof.Machine.execDbgResume src high threads s
  | .dbgStep src high threads => Sys2Proof.Machine.execDbgStep src high threads s
  | .dbgRegAccess src reg write data => Sys2Proof.Machine.execDbgRegAccess src reg write data s
  | .tstLock src => Sys2Proof.Machine.execTstLock src s
  | .tstFuseProg src fuses => Sys2Proof.Machine.execTstFuseProg src fuses s
  | .testEnRise => Sys2Proof.Machine.execTestEnRise s
  | .nvmTallySaveDone => Sys2Proof.Machine.execNvmTallySaveDone s
  | .slHeaderError => Sys2Proof.Machine.execSlHeaderError s

end Sys2Proof.Machine
end

