-- ==== Sys2Proof/Safety.lean ====
section
/-!
DEFINITION. What counts as a safe run of the device, in the terms the statements use: every state is plain data in its one
canonical form, no command stops the machine, and what a command leaves alone.
-/
namespace Sys2Proof.Machine

/-- The state is in its canonical form: the register file and the queues list their keys in rising order, no empty queue is
listed, memory is canonical (`memWf`), and the words without good check bits are listed in rising order. Two states in
canonical form that agree in everything that can be read agree in these lists too. -/
structure Canon (s : State) : Prop where
  regs : s.regs.Pairwise fun a b => Key.lt a.1 b.1 = true
  queues : s.queues.Pairwise fun a b => Key.lt a.1 b.1 = true
  queuesFull : ∀ e ∈ s.queues, e.2 ≠ []
  mem : memWf s.mem
  bad : s.bad.Pairwise fun a b => a < b

/-- The command runs to a next state: the device neither faults nor refuses. -/
def Completes (c : Instr) (s : State) : Prop := ∃ t, exec c s = .next t

/-- From `s` to `t` no register field changes but those of `l`, and no queue but those of `q`. -/
structure OnlyRegs (l : List Fld) (q : List Nat) (s t : State) : Prop where
  fields : ∀ g : Fld, g.id < 1399 → (∀ f ∈ l, f.id ≠ g.id) → ∀ i j, t.rd g i j = s.rd g i j
  queues : ∀ n, n < 100 → n ∉ q → ∀ i j, t.q n i j = s.q n i j

/-- From `s` to `t` no register field changes but those of `l`, no queue but those of `q`, and no byte of memory. -/
structure Only (l : List Fld) (q : List Nat) (s t : State) : Prop where
  regs : OnlyRegs l q s t
  memory : ∀ a, t.byte a = s.byte a

/-- From `s` to `t` no register field changes but those of `l` and what domain `d` holds (R181). -/
def OnlyDomain (l : List Fld) (d : Nat) (s t : State) : Prop :=
  ∀ g : Fld, g.id < 1399 → (∀ f ∈ l, f.id ≠ g.id) → ∀ i j, (∀ e, homeOf g.id i ≠ .at e d) → t.rd g i j = s.rd g i j

/-- What the end of a domain's draining changes besides what the domain holds: the answers to its requests, the tags, its clock requests,
the route destinations and its own state (R172, R173, R177, R191, R748). -/
def switchFields : List Fld := [F.STK_TALLY1_ABSORB_C, F.XR_TAGS_MAX, F.XR_LOST_LOST_REPLY, F.FAB_DUP_COUNT, F.FAB_DUP_LAST_MID,
  F.FAB_DUP_LAST_BLOCK, F.FAB_ERR_COUNT, F.PTM_CLKSTAT_GRANT, F.LK_TXSEQ, F.RT_LEVEL, F.RT_EDGE, F.TAG_BUSY, F.TAG_MID, F.TAG_TMO,
  F.TAG_ADDR, F.TAG_OP, F.TAG_SINCE, F.TAG_BUNDLE, F.TAG_SIZE, F.TAG_DATA, F.TAG_DOM, F.CLK_HOLD, F.CLK_RUN, F.DOM_STATE, F.DOM_FORCED]

/-- The command answers a next state of which `p` holds. -/
def Ends (c : Instr) (s : State) (p : State → Prop) : Prop := ∃ t, exec c s = .next t ∧ p t

/-- The command answers a next state of which `p` holds, and changes no field but those of `l`, no queue but those of `q`. -/
def Moves (c : Instr) (l : List Fld) (q : List Nat) (s : State) (p : State → Prop) : Prop :=
  ∃ t, exec c s = .next t ∧ OnlyRegs l q s t ∧ p t

/-- The same, and memory reads as before. -/
def Does (c : Instr) (l : List Fld) (q : List Nat) (s : State) (p : State → Prop) : Prop :=
  ∃ t, exec c s = .next t ∧ Only l q s t ∧ p t

/-! The thread cores. -/

/-- Copy `u` can issue the word `w` now: R424's conditions hold, a store has an entry to go to, and the MPU allows the fetch. -/
structure Ready (s : State) (u w : Nat) : Prop where
  issues : canIssue s u w = true
  room : storeWaits s u w = false
  allowed : mpuCheck s u .fetch (s.rd F.PC u) = none

/-- General register `r` of copy `u` as a 32-bit value. -/
def greg (s : State) (u r : Nat) : BitVec 32 := BitVec.ofNat 32 (s.rd F.GPR u r)

/-- The spec's `sat32` (12_instruction_set.md). -/
def satW (x : Int) : BitVec 32 := BitVec.ofInt 32 (max (-2 ^ 31) (min (2 ^ 31 - 1) x))

/-- What an issue itself updates: the tallies of R460, the waits of R515 and R516, and the single step of R707. -/
def issueFields : List Fld := [F.TC_ISSUED_COUNT, F.ISSUED_NOW, F.STAMP_LIVE, F.WAIT_LAST_WAIT, F.WAIT_MAX_WAIT,
  F.STEPPING, F.HALT_REQ, F.HREASON]

/-- The compute signatures of the supervisor pair and the injected fault they take (R556, R557, R576). -/
def sigFields : List Fld := [F.SIG_CM, F.SIG_CC, F.INJ_C]

/-- What an instruction that touches only registers leaves: every field outside `l`, every queue, memory, the store buffers,
the requests held and the latest answer. -/
structure Quiet (l : List Fld) (s t : State) : Prop where
  only : Only l [] s t
  stores : t.stores = s.stores
  held : t.held = s.held
  resp : t.resp = s.resp

/-- The PC of copy `u` becomes `pc`, and no other copy's PC changes. -/
def GoesTo (s t : State) (u : Nat) (pc : BitVec 32) : Prop :=
  t.rd F.PC u = pc.toNat ∧ ∀ v, v ≠ u → t.rd F.PC v = s.rd F.PC v

/-- General register `r` of copy `u` becomes `v`, and no other general register changes. -/
def Writes (s t : State) (u r : Nat) (v : BitVec 32) : Prop :=
  t.rd F.GPR u r = v.toNat ∧ ∀ x k, x ≠ u ∨ k ≠ r → t.rd F.GPR x k = s.rd F.GPR x k

/-- The PC of copy `u` as a 32-bit value. -/
def pcOf (s : State) (u : Nat) : BitVec 32 := BitVec.ofNat 32 (s.rd F.PC u)

/-- The instruction writes `v` to `rd` of copy `u` and goes on to `pc`; nothing else changes but what an issue updates. -/
def Retires (c : Instr) (s : State) (u rd : Nat) (v pc : BitVec 32) : Prop :=
  ∃ t, exec c s = .next t ∧ Writes s t u rd v ∧ GoesTo s t u pc ∧
    Quiet ([F.GPR, F.PC] ++ issueFields ++ sigFields) s t

/-- R447: copy `u` has entered its handler for `cause`, to return to `xpc` with the status it had in `s`. -/
structure Entered (s t : State) (u cause info addr xpc : Nat) : Prop where
  xpc : t.rd F.XPC u = xpc
  xsr : t.rd F.XSR u = s.rd F.TSR u
  tsr : t.rd F.TSR u = 2
  cause : t.rd F.XCAUSE u = cause
  info : t.rd F.XINFO u = info
  addr : t.rd F.XADDR u = addr
  pc : t.rd F.PC u = s.rd F.XVEC (cacheOf u)
  gprs : ∀ x k, t.rd F.GPR x k = s.rd F.GPR x k
  others : ∀ v, v ≠ u → ∀ g ∈ [F.PC, F.XPC, F.XSR, F.TSR, F.XCAUSE, F.XINFO, F.XADDR], t.rd g v = s.rd g v

/-- The registers an exception entry writes (R447). -/
def excFields : List Fld := [F.PC, F.XPC, F.XSR, F.TSR, F.XCAUSE, F.XINFO, F.XADDR]

/-- The command takes an exception of copy `u` in place of an effect of its own. -/
def Excepts (c : Instr) (s : State) (u cause info addr xpc : Nat) : Prop :=
  ∃ t, exec c s = .next t ∧ Entered s t u cause info addr xpc ∧
    Quiet (excFields ++ issueFields ++ sigFields ++ [F.MPU_FAULTS_COUNT]) s t

/-- The instruction's result is `v`: it goes to `rd`, and the copy goes on to `pc`; where `rd` is g15 and `v` is below the stack
limit, STACKLIM is raised instead and no register is written (R449, R451). -/
def Results (c : Instr) (s : State) (u rd : Nat) (v pc : BitVec 32) : Prop :=
  (stackRefused s u rd v.toNat = false → Retires c s u rd v pc) ∧
  (stackRefused s u rd v.toNat = true → exl s u = false → Excepts c s u 0xF 0 v.toNat (s.rd F.PC u))

/-- A format-A instruction `mk` of group `op`, function `f`, writes `g ra rb` to `rd`. -/
def Computes (op f : Nat) (mk : Fin 48 → Fin 16 → Fin 16 → Fin 16 → Instr) (g : BitVec 32 → BitVec 32 → BitVec 32) : Prop :=
  ∀ (s : State) (u : Fin 48) (rd ra rb : Fin 16), Ready s u (encA op rd ra rb 0 f) →
    Results (mk u rd ra rb) s u rd (g (greg s u ra) (greg s u rb)) (pcOf s u + 4)

/-- A format-A instruction of one operand. -/
def Maps (op f : Nat) (mk : Fin 48 → Fin 16 → Fin 16 → Instr) (g : BitVec 32 → BitVec 32) : Prop :=
  ∀ (s : State) (u : Fin 48) (rd ra : Fin 16), Ready s u (encA op rd ra 0 0 f) →
    Results (mk u rd ra) s u rd (g (greg s u ra)) (pcOf s u + 4)

/-- A format-I instruction writes `g ra imm18` to `rd`. -/
def MapsImm (op : Nat) (mk : Fin 48 → Fin 16 → Fin 16 → BitVec 18 → Instr) (g : BitVec 32 → BitVec 18 → BitVec 32) : Prop :=
  ∀ (s : State) (u : Fin 48) (rd ra : Fin 16) (imm : BitVec 18), Ready s u (encI op rd ra imm.toNat) →
    Results (mk u rd ra imm) s u rd (g (greg s u ra) imm) (pcOf s u + 4)

/-- A divide `mk` of function `f`: with a divisor other than zero the core's divider takes it, to write `g ra rb` to `rd` later
(R430); a divisor of zero raises DIVZERO, with the registers as they were (R447, R449, R467). -/
def Divides (f : Nat) (mk : Fin 48 → Fin 16 → Fin 16 → Fin 16 → Instr) (g : BitVec 32 → BitVec 32 → BitVec 32) : Prop :=
  ∀ (s : State) (u : Fin 48) (rd ra rb : Fin 16), Ready s u (encA 2 rd ra rb 0 f) →
    (greg s u rb ≠ 0 → stackRefused s u rd (g (greg s u ra) (greg s u rb)).toNat = false →
      ∃ t, exec (mk u rd ra rb) s = .next t ∧ t.on F.DIV_PEND u = true ∧ t.rd F.DIV_RD u = rd ∧
        t.rd F.DIV_RES u = (g (greg s u ra) (greg s u rb)).toNat ∧ GoesTo s t u (pcOf s u + 4) ∧
        Quiet ([F.PC, F.DIV_PEND, F.DIV_RD, F.DIV_RES] ++ issueFields) s t) ∧
    (greg s u rb = 0 → exl s u = false → Excepts (mk u rd ra rb) s u 0xC 0 0 (s.rd F.PC u))

/-- Whether condition `c` of BR and BRZ holds (R480). -/
def takenIf (c : Nat) (a b : BitVec 32) : Bool :=
  match c with
  | 0 => a == b | 1 => a != b | 2 => a.slt b | 3 => !a.slt b | 4 => a.ult b | 5 => !a.ult b
  | 6 => a &&& b != 0 | _ => a &&& b == 0

/-- The instruction does nothing but send copy `u` on to `pc`. -/
def Jumps (c : Instr) (s : State) (u : Nat) (pc : BitVec 32) : Prop :=
  ∃ t, exec c s = .next t ∧ GoesTo s t u pc ∧ Quiet ([F.PC] ++ issueFields) s t

/-- R454, R520: copy `u` has met `cause` while in a handler: the thread has stopped, its bit of TC_DFAULT is set, TC_DF records both
causes and the PC, event EV060 + c is on its way for core c (EV013 for the supervisor pair), and the task is FAULTED. -/
structure DoublyFaulted (s t : State) (u cause : Nat) : Prop where
  stopped : t.on F.DFAULTED u = true
  noTask : t.on F.HASTASK (globOf u) = false
  threads : t.rd F.TC_DFAULT_THREADS (coreOf u) = s.rd F.TC_DFAULT_THREADS (coreOf u) ||| 2 ^ laneOf u
  first : t.rd F.TC_DF_FIRST (coreOf u) (laneOf u) = s.rd F.XCAUSE u
  second : t.rd F.TC_DF_SECOND (coreOf u) (laneOf u) = cause
  pc : t.rd F.TC_DF_PC_PC (coreOf u) (laneOf u) = s.rd F.PC u
  event : (if coreOf u < 4 then 60 + coreOf u else 13) ∈ t.events
  task : t.rd F.DSP_TSTAT_STATE (s.rd F.TID_TASK u) = 4
  gprs : ∀ x k, t.rd F.GPR x k = s.rd F.GPR x k

/-- An MTS that writes `v` to field `f` at indices `i`, `j`, goes on, and changes nothing else but what an issue updates (R484). -/
def SetsSystem (c : Instr) (s : State) (u : Nat) (f : Fld) (i j v : Nat) : Prop :=
  ∃ t, exec c s = .next t ∧ t.rd f i j = v ∧ (∀ x y, x ≠ i ∨ y ≠ j → t.rd f x y = s.rd f x y) ∧ GoesTo s t u (pcOf s u + 4) ∧
    Quiet ([f, F.PC] ++ issueFields) s t

/-- The dispatcher can write 32 bytes at `a` of an SRAM bank (R506). -/
def CanSave (s : State) (a : Nat) : Prop :=
  dieAnswers s (.unit 41) a = true ∧ fwRefuses s (.unit 41) 1 a = none ∧ (∃ b, targetOf a = .sram b) ∧ memWriteFault s (targetOf a) a 32 = none

/-- What a copy holds of its outstanding load or atomic operation (R439). -/
def ldFields : List Fld := [F.LD_PEND, F.LD_RD, F.LD_ADDR, F.LD_SIZE, F.LD_SIGN, F.LD_OP, F.LD_DATA, F.LD_PC]

/-- Copy `u` waits for the answer to a request of `size` bytes at `a` for `rd`: `op` 0 a load, 1 a swap, 2 an add. -/
structure Awaits (s t : State) (u rd : Nat) (a : BitVec 32) (size op : Nat) (sign : Bool) : Prop where
  pend : t.on F.LD_PEND u = true
  rd : t.rd F.LD_RD u = rd
  addr : t.rd F.LD_ADDR u = a.toNat
  size : 2 ^ t.rd F.LD_SIZE u = size
  op : t.rd F.LD_OP u = op
  sign : t.on F.LD_SIGN u = sign
  pc : t.rd F.LD_PC u = s.rd F.PC u
  others : ∀ v, v ≠ u → ∀ g ∈ ldFields, t.rd g v = s.rd g v

/-- A load `mk` of major opcode `op` asks for `size` bytes at ra + sext(imm18) and goes on (R439, R471); a misaligned address raises
ALIGN_LD (R472), one the MPU denies MPU_LOAD (R529). SP_SENSE is not one of these addresses for the supervisor pair (R554). -/
def Loads (op size : Nat) (sign : Bool) (mk : Fin 48 → Fin 16 → Fin 16 → BitVec 18 → Instr) : Prop :=
  ∀ (s : State) (u : Fin 48) (rd ra : Fin 16) (imm : BitVec 18), Ready s u (encI op rd ra imm.toNat) → (size = 8 → rd.val % 2 = 0) →
    let a := greg s u ra + imm.signExtend 32
    (a.toNat % size = 0 → mpuCheck s u .load a.toNat = none → u.val < 32 ∨ a.toNat ≠ spSenseAddr ∨ size ≠ 4 →
      ∃ t, exec (mk u rd ra imm) s = .next t ∧ Awaits s t u rd a size 0 sign ∧ GoesTo s t u (pcOf s u + 4) ∧
        Quiet (ldFields ++ [F.PC] ++ issueFields ++ sigFields) s t) ∧
    (a.toNat % size ≠ 0 → exl s u = false → Excepts (mk u rd ra imm) s u 3 0 a.toNat (s.rd F.PC u)) ∧
    (∀ r, a.toNat % size = 0 → mpuCheck s u .load a.toNat = some r → exl s u = false →
      Excepts (mk u rd ra imm) s u 6 r a.toNat (s.rd F.PC u))

/-- The value of `rd` after a load of `size` bytes, at most 4, that read `v` (R471). -/
def loadVal (size : Nat) (sign : Bool) (v : Nat) : BitVec 32 :=
  if sign then (BitVec.ofNat (8 * size) v).signExtend 32 else (BitVec.ofNat (8 * size) v).setWidth 32

/-- The data of a store of `size` bytes from `rd`, for 8 bytes from `rd` and `rd + 1` (R471). -/
def storeVal (s : State) (u rd size : Nat) : Nat :=
  if size = 8 then (greg s u rd).toNat + (greg s u (rd + 1)).toNat * 2 ^ 32 else (greg s u rd).toNat % 2 ^ (8 * size)

/-- Where an address of a core's own local memory lies in the one address space (R147, R438). -/
def localAlias (u a : Nat) : Nat := 0x40100000 + coreOf u * 0x10000 + (a - 0xE0000000)

/-- A store `mk` of major opcode `op`: to another address than the core's own local memory it enters the store buffer behind the
others (R440, R441); in the core's own local memory it is made at once (R438, R440); ALIGN_ST and MPU_STORE as for loads. A store to
NVM drops the line from the core's read cache (R434). -/
def Stores (op size : Nat) (mk : Fin 48 → Fin 16 → Fin 16 → BitVec 18 → Instr) : Prop :=
  ∀ (s : State) (u : Fin 48) (rd ra : Fin 16) (imm : BitVec 18), Ready s u (encI op rd ra imm.toNat) → (size = 8 → rd.val % 2 = 0) →
    let a := greg s u ra + imm.signExtend 32
    (a.toNat % size = 0 → mpuCheck s u .store a.toNat = none → ownLocal u a.toNat = false → isChecker s u = false →
      ∃ t, exec (mk u rd ra imm) s = .next t ∧ GoesTo s t u (pcOf s u + 4) ∧
        t.stores = s.stores ++ [⟨u, s.rd F.TID_TASK u, a.toNat, size, storeVal s u rd size, userLevel s u, false, none⟩] ∧
        (∀ x ∈ t.q Q.rcache (cacheOf u) (a.toNat / 32 % 128), inNvm a.toNat = true → x % 2 ^ 27 ≠ a.toNat / 32) ∧
        (∀ i j, inNvm a.toNat = false ∨ i ≠ cacheOf u ∨ j ≠ a.toNat / 32 % 128 → t.q Q.rcache i j = s.q Q.rcache i j) ∧
        Only ([F.PC] ++ issueFields ++ sigFields) [Q.rcache] s t) ∧
    (a.toNat % size = 0 → mpuCheck s u .store a.toNat = none → ownLocal u a.toNat = true →
      memWriteFault s (.localMem (coreOf u)) (localAlias u a.toNat) size = none →
      ∃ t, exec (mk u rd ra imm) s = .next t ∧ GoesTo s t u (pcOf s u + 4) ∧ t.stores = s.stores ∧
        (∀ j, j < size → t.byte (localAlias u a.toNat + j) = BitVec.ofNat 8 (storeVal s u rd size / 2 ^ (8 * j))) ∧
        (∀ x, x < localAlias u a.toNat ∨ localAlias u a.toNat + size ≤ x → t.byte x = s.byte x) ∧
        OnlyRegs ([F.PC] ++ issueFields) [] s t) ∧
    (a.toNat % size ≠ 0 → exl s u = false → Excepts (mk u rd ra imm) s u 4 0 a.toNat (s.rd F.PC u)) ∧
    (∀ r, a.toNat % size = 0 → mpuCheck s u .store a.toNat = some r → exl s u = false →
      Excepts (mk u rd ra imm) s u 7 r a.toNat (s.rd F.PC u))

/-- An atomic operation `mk` of function `f` on `size` bytes at ra (R476 to R478). -/
def Atomics (f size : Nat) (mk : Fin 48 → Fin 16 → Fin 16 → Fin 16 → Instr) : Prop :=
  ∀ (s : State) (u : Fin 48) (rd ra rb : Fin 16), Ready s u (encA 5 rd ra rb 0 f) →
    (size = 8 → rd.val % 2 = 0 ∧ rb.val % 2 = 0) →
    ((greg s u ra).toNat % size = 0 → mpuCheck s u .atomic (greg s u ra).toNat = none →
      ∃ t, exec (mk u rd ra rb) s = .next t ∧ Awaits s t u rd (greg s u ra) size (f % 2 + 1) false ∧
        t.rd F.LD_DATA u = storeVal s u rb size ∧ GoesTo s t u (pcOf s u + 4) ∧
        Quiet (ldFields ++ [F.PC] ++ issueFields ++ sigFields) s t) ∧
    ((greg s u ra).toNat % size ≠ 0 → exl s u = false → Excepts (mk u rd ra rb) s u 4 0 (greg s u ra).toNat (s.rd F.PC u)) ∧
    (∀ r, (greg s u ra).toNat % size = 0 → mpuCheck s u .atomic (greg s u ra).toNat = some r → exl s u = false →
      Excepts (mk u rd ra rb) s u 7 r (greg s u ra).toNat (s.rd F.PC u))

/-- Copy `u` has a request of `n` bytes outstanding to an SRAM bank that can serve it now, `op` 0 a read, 1 a swap, 2 an add. -/
structure AsksSram (s : State) (u op n : Nat) : Prop where
  pend : s.on F.LD_PEND u = true
  master : isChecker s u = false ∧ masterLive s (threadMaster u) = true
  kind : s.rd F.LD_OP u = op
  size : 2 ^ s.rd F.LD_SIZE u = n
  aligned : s.rd F.LD_ADDR u % n = 0
  ordered : loadWaits s u = false
  first : mustWait s (loadRequest s u) = false
  alone : leadsPair s u = true → s.on F.LDX_OK u = false
  up : cUp s = true
  bank : ∃ k, targetOf (s.rd F.LD_ADDR u) = .sram k ∧ s.rd F.DOM_STATE (44 + k) = 2
  allowed : fwRefuses s (threadMaster u) (if op = 0 then 0 else op + 2) (s.rd F.LD_ADDR u) = none
  good : s.bad = []

/-- What the answer to a load updates besides the register. -/
def answerFields : List Fld := [F.LD_PEND, F.XR_TAGS_MAX, F.LDX_OK, F.LDX_CODE, F.LDX_DATA, F.LDX_MISS]

/-! Requests of the fabric (R11, R24, R151, R159, R164, R750). -/

/-- The request sets out now and its target's die answers: its master runs and has nothing ahead of it, and the links have room. -/
structure SetsOut (s : State) (r : Held) : Prop where
  live : masterLive s r.who = true
  first : mustWait s r = false
  links : linkHolds s r = false
  answers : dieAnswers s r.who r.addr = true

/-! The register writes (R149, R166, R168, R750). -/

/-- The request that `src` makes for the register at offset `off` of instance `i` of block `b` gets to it now: its master runs and has
nothing ahead of it (R151, R159), and the links, the die, the firewalls, the block's own refusals, the power domain, the width and the
holds of R166 let it pass; it is no duplicate of a ticketed write that took effect (R168). -/
structure Lands (s : State) (src : Source) (op : Nat) (b : Blk) (i off v : Nat) : Prop where
  live : masterLive s src.who = true
  first : mustWait s (regRequest src op b i off v) = false
  reaches : ∃ row k, gate s (regRequest src op b i off v) = .reg ⟨b, i, off⟩ row k ∧
    (op = 1 → isDuplicate s (regRequest src op b i off v) ⟨b, i, off⟩ row = false)

/-- The request that `src` makes sets out now and passes the die and the firewalls, and its address lies at offset `off` of instance
`i` of block `b`; what the place itself refuses is still open. -/
structure Meets (s : State) (src : Source) (op : Nat) (b : Blk) (i off v : Nat) : Prop where
  setsOut : SetsOut s (regRequest src op b i off v)
  passes : fwRefuses s src.who op (regAddr b i off) = none
  place : locate src.who (regAddr b i off) = some ⟨b, i, off⟩

/-- The write of `v` that `src` makes at offset `off` of the check-value units meets nothing that holds it back: it reaches the block,
whose Expert window is not locked and whose domain is powered, no live load is on its way, and no feed write waits in context `x`. -/
structure MeetsContext (s : State) (src : Source) (x off v : Nat) : Prop where
  meets : Meets s src 1 .cx 0 off v
  unlocked : s.on F.EXP_LOCK (lockNum ⟨.cx, 0, off⟩) = false
  powered : s.rd F.DOM_STATE (locDomain ⟨.cx, 0, off⟩) = 2
  settled : s.rd F.PAT_LIVE_STAT_STATE ≠ 2
  drained : cxWaiting s x = []

/-- The request is answered `c`, and nothing changes but the counts of answers and the flits that the links carry. -/
def Refused (c : Instr) (s : State) (code : Code) : Prop :=
  ∃ t, exec c s = .next t ∧ t.resp = ⟨code, false, 0⟩ ∧ Only [F.FAB_ERR_COUNT, F.XR_TAGS_MAX, F.LK_TXSEQ] [Q.retry] s t

end Sys2Proof.Machine
end

