-- ==== Sys2Proof/Certificates/Slice0/Obligations.lean ====
section
/-!
DEFINITION. The statements for the provers. A statement of an instruction or a command says where it completes, what it then does
and, through `Does`, `Moves`, `Only`, `Quiet` or `Retires` (Sys2Proof/Safety.lean), what it leaves alone: every register
field but those listed, every queue but those listed and, but for `Moves` and `OnlyRegs`, memory.
-/
open Sys2Proof Sys2Proof.Machine

/-- One step takes the command at the front of the queue and runs it with the queue's rest. -/
def Obligations.StepRunsTheFrontCommand : Prop :=
  ∀ (c : Instr) (rest : List Instr) (s : State), s.pending = c :: rest → step s = exec c { s with pending := rest }

/-- With no command waiting a step lets 500 ps pass (the model's choice, log entry 1; R425, R445, R198, R56): the cores that are clocked
count their cycles, a microsecond's end counts the thread watchdogs down, a millisecond's end the progress watchdog, and nothing else. -/
def Obligations.AnIdleStepLetsTimePass : Prop :=
  ∀ s : State, s.pending = [] → ∃ t, step s = .next t ∧ t.time = s.time + 1 ∧ t.pending = [] ∧
    Only [F.PTM_THROTTLE_TIME_MS, F.TC_BUBBLES_COUNT, F.WD_COUNT_COUNT, F.PWD_LEFT, F.CYC, F.WIN_CYC, F.WIN_ISSUE, F.WIN_BUSY,
      F.ISSUED_NOW, F.SP_WCYC] [] s t ∧
    (∀ c, c < 6 → t.rd F.CYC c = if coreClocked s c = true ∧ (s.time + 1) % coreCycle s c = 0 then (s.rd F.CYC c + 1) % 2 ^ F.CYC.w
      else s.rd F.CYC c) ∧
    (∀ k, k < 40 → (s.time + 1) % 2000 = 0 → cUp s = true → s.rd F.PTM_STATE_CUR ≤ 1 → s.on F.HASTASK k = true → s.on F.HALTED k = false →
      s.on F.WD_PERIOD_PERIOD (k / 8) (k % 8) = true →
        t.rd F.WD_COUNT_COUNT (k / 8) (k % 8) = s.rd F.WD_COUNT_COUNT (k / 8) (k % 8) - 1) ∧
    ((s.time + 1) % 2000000 = 0 → s.on F.PWD_RUN = true → s.rd F.PTM_STATE_CUR ≤ 1 → t.rd F.PWD_LEFT = s.rd F.PWD_LEFT - 1) ∧
    ((s.time + 1) % 2000 ≠ 0 → (∀ c, c < 6 → coreClocked s c = false) → t = { s with time := s.time + 1 })

/-- The reset state: canonical, no command waiting, every field at its reset value, both upper dies off, and memory empty (what empty
memory reads as is the model's choice, log entry 3). -/
def Obligations.ResetStateIsCanonicalAndHoldsTheResetValues : Prop :=
  Canon State.reset ∧ State.reset.pending = [] ∧ State.reset.held = [] ∧ State.reset.stores = [] ∧ State.reset.events = [] ∧
  (∀ (f : Fld) (i j : Nat), State.reset.rd f i j = f.rst % 2 ^ f.w) ∧ (∀ n i j, State.reset.q n i j = []) ∧
  State.reset.rd F.STK_DIESTATE_C_STATE = 0 ∧ State.reset.rd F.STK_DIESTATE_M_STATE = 0 ∧ State.reset.on F.RST_CAUSE_POR = true ∧
  State.reset.rd F.XR_CFG_TMO = 100 ∧ State.reset.rd F.PTM_TEMP_TS_B = 0x80 ∧ State.reset.rd F.LG_TRIPCFG_OC_CMP = 31 ∧
  State.reset.rd F.QD_MAX_MAX = 0xFFFFFF ∧ State.reset.rd F.HDS_GEOM_DOTS = 1024 ∧ State.reset.rd F.DSP_LOADCFG_N = 20 ∧
  State.reset.rd F.SP_CFG_WINDOW = 4096 ∧ State.reset.rd F.ETH_PAUSE_PAUSE_TIME = 0xFFFF ∧ State.reset.rd F.TAP_IR = 2 ∧
  State.reset.rd F.TST_LOCK_STATE = 0

/-- Every step keeps the canonical form of the state: the register file, the queues, memory and the words without good check bits. -/
def Obligations.EveryStepKeepsTheCanonicalForm : Prop :=
  ∀ s t : State, Canon s → step s = .next t → Canon t

/-- Every command completes in every state, and leaves the queue of waiting commands as it is. -/
def Obligations.EveryCommandCompletesAndLeavesTheQueue : Prop :=
  ∀ (c : Instr) (s : State), Ends c s fun t => t.pending = s.pending

/-- R8, R10, R50, R149, R165, R166: a write of a register without effects of its own writes its RW fields, clears its W1C bits at ones and its
tallies at any value, and nothing else but the levels and edges of the route destinations, the holds of the pads and the flits that carry it;
a write that its die, a firewall, its block, its domain or the register map refuses changes nothing but the counts and flits. The blocks
named are those whose registers have no further effect when written. -/
def Obligations.RegisterAndTallyWritesActFieldByField : Prop :=
  (∀ (s : State) (src : Source) (a : BitVec 32) (n : Fin 6) (v : BitVec 256) (i : Instr) (l : Loc) (row : RegRow) (k : Nat) (g : FieldRow),
    i ∈ [.registerWrite src a n v, .tallyWrite src a n v] → masterLive s src.who = true →
    mustWait s ⟨src.who, src.priv, 1, a.toNat, 2 ^ n.val, v.toNat % 2 ^ (8 * 2 ^ n.val)⟩ = false →
    gate s ⟨src.who, src.priv, 1, a.toNat, 2 ^ n.val, v.toNat % 2 ^ (8 * 2 ^ n.val)⟩ = .reg l row k →
    l.b ∈ [Blk.aon, .xr, .fab, .stump, .fw, .st, .cp, .qd, .sramc, .log, .rt, .phy] → ticketed row = false →
      ((fieldsOf row).map fun r => r.f.id).Nodup →
    g ∈ fieldsOf row → Ends i s fun t => t.resp = ⟨.ok, false, 0⟩ ∧
      Only ((fieldsOf row).map (·.f) ++ [F.XR_TAGS_MAX, F.PAD_HOLD, F.PAD_LEVEL, F.LK_TXSEQ, F.RT_LEVEL, F.RT_EDGE]) [Q.retry] s t ∧
      let x := fieldIdx l.b l.i k g.f
      let w := v.toNat % 2 ^ (8 * 2 ^ n.val) / 2 ^ g.lo % 2 ^ g.f.w
      (g.f.id ∉ [F.XR_TAGS_MAX.id, F.PAD_HOLD.id, F.PAD_LEVEL.id, F.LK_TXSEQ.id, F.RT_LEVEL.id, F.RT_EDGE.id] →
        (g.acc = .rw → t.rd g.f x.1 x.2 = w) ∧
        (g.acc = .w1c → t.rd g.f x.1 x.2 = clearBits (s.rd g.f x.1 x.2) w) ∧
        (g.acc = .tl → t.rd g.f x.1 x.2 = g.f.rst % 2 ^ g.f.w) ∧
        (g.acc = .ro → t.rd g.f x.1 x.2 = s.rd g.f x.1 x.2))) ∧
  (∀ (s : State) (src : Source) (a : BitVec 32) (n : Fin 6) (v : BitVec 256) (i : Instr),
    i ∈ [.registerWrite src a n v, .tallyWrite src a n v] → masterLive s src.who = true →
    let r : Held := ⟨src.who, src.priv, 1, a.toNat, 2 ^ n.val, v.toNat % 2 ^ (8 * 2 ^ n.val)⟩
    mustWait s r = false → linkHolds s r = false →
    (dieAnswers s src.who a.toNat = false → Refused i s .absent) ∧
    (∀ f, dieAnswers s src.who a.toNat = true → fwRefuses s src.who 1 a.toNat = some f → Ends i s fun t =>
      t.resp = ⟨.firewall, false, 0⟩ ∧
      Only [F.FW_DENY_COUNT_COUNT, F.FW_STAT_MID, F.FW_STAT_WRITE, F.FW_STAT_NEW, F.FW_DENY_ADDR_ADDR, F.FAB_ERR_COUNT, F.XR_TAGS_MAX,
        F.LK_TXSEQ] [Q.retry] s t) ∧
    (∀ l, dieAnswers s src.who a.toNat = true → fwRefuses s src.who 1 a.toNat = none →
      targetOf a.toNat = .block ∨ targetOf a.toNat = .unmapped →
      locate src.who a.toNat = some l → l.off < 0xF00 →
      (lockRefuses s l = true → Refused i s .firewall) ∧
      (placeRefuses s r l = false → placeState s l = 0 → Refused i s .pdown) ∧
      (placeRefuses s r l = false → placeState s l = 2 → regAt l = none → (l.b = .hds → l.off < 0x800 ∨ 0xC00 ≤ l.off) →
        (l.b = .cx → l.off < 0x600 ∨ 0x800 ≤ l.off) → Refused i s .decode)) ∧
    (dieAnswers s src.who a.toNat = true → fwRefuses s src.who 1 a.toNat = none → targetOf a.toNat = .block →
      locate src.who a.toNat = none →
      Refused i s .decode))

/-- R57, R182 to R185, R187, R189 to R191, R203, R214, R215: a rail that rises becomes good and one that falls is good no more, whatever else
follows; what R183 gives for VUSB33 and VDDA; the bank detector and the supply-drop warning; the oscillators and the PLLs; an optional
clock is granted once its source is stable and requested, and stops when the last request goes. -/
def Obligations.RailsOscillatorsAndClocksAreRecorded : Prop :=
  (∀ (s : State) (r : Rail) (b : Bool), Does (.railRise r b) [F.STK_DIESTATE_TIER, F.SU_TIER_CAUSE, F.PTM_SUPPLY_GOOD, F.LG_STAT_STATE,
    F.LG_TALLY_SWALLOW, F.ST_STAT_ACTIVE, F.ST_STAT_CUT, F.HDS_SLOT_FULL, F.HDS_SLOT_NEXT, F.HDS_SLOT_BUSY, F.HDS_SLOT_PLANE,
      F.HDS_TALLY1_INH_LINES, F.HDS_LINES_COUNT, F.TST_STAT_TESTMODE, F.TIER0_ONLY, F.LK_TXSEQ, F.RT_EDGE, F.DOM_STATE, F.PWR_EN,
        F.LG_SIDE, F.LG_DTRUN, F.LG_BLANKING, F.LG_GROUPARM, F.ORPHAN_RUN, F.ST_DELAYED, F.ST_INBURST, F.ROW_DUE, F.HDS_PHASE,
          F.HDS_BURSTING] [Q.retry] s fun t => railGood t r = true) ∧
  (∀ (s : State) (r : Rail), railGood s r = true → Ends (.railFall r) s fun t => railGood t r = false) ∧
  (∀ s : State, railGood s .vusb33 = true → Ends (.railFall .vusb33) s fun t =>
    t.rd F.DOM_STATE 39 = 0 ∧ t.rd F.DOM_STATE 121 = 0 ∧ t.events = s.events ++ [3] ∧
      t.rd F.PTM_WAKE_CAUSE_SRC = s.rd F.PTM_WAKE_CAUSE_SRC) ∧
  (∀ s : State, railGood s .vdda = true → s.on F.BINDOFF = false → Ends (.railFall .vdda) s fun t =>
    t.on F.BINDOFF = true ∧ t.rd F.STK_DIESTATE_TIER = 0 ∧ t.rd F.SU_TIER_CAUSE = 0xE ∧ t.rd F.SU_TIER_BO_SRC = 2) ∧
  (∀ (s : State) (v18 : Bool), railGood s .vddioA = true → Does (.bankDetect v18) [F.PTM_SUPPLY_V18, F.BANK_A_MISMATCH, F.BANK_HIZ]
    [] s fun t =>
    t.on F.PTM_SUPPLY_V18 = v18 ∧
      (s.on F.PRE_CAST = false → s.on F.BANK_A_V18 ≠ v18 → t.on F.BANK_A_MISMATCH = true)) ∧
  (∀ s : State, s.on F.PTM_SUPPLY_DROP_WARN = false → Does .supplyDropWarning [F.PTM_STATE_REFUSE, F.PTM_STATE_ABORTED,
    F.PTM_STATE_REQ_REQ, F.PTM_WAKE_CAUSE_SRC, F.PTM_SUPPLY_DROP_WARN, F.PTM_DROP_COUNT_COUNT, F.LK_TXSEQ, F.DOM_STATE, F.ENTRY_REQ]
      [Q.retry] s fun t =>
    t.on F.PTM_SUPPLY_DROP_WARN = true ∧ t.events = s.events ++ [2] ∧
      t.rd F.PTM_DROP_COUNT_COUNT = min (s.rd F.PTM_DROP_COUNT_COUNT + 1) (2 ^ F.PTM_DROP_COUNT_COUNT.w - 1)) ∧
  (∀ s : State, bUp s = true → Does .hsxoStable [F.HSXO_ON, F.HSXO_SELECT] [] s fun t => t.on F.HSXO_ON = true ∧
    (s.on F.PLL_LOCKED = true → s.on F.PTM_CLKSTAT_REF = false → t.on F.HSXO_SELECT 0 0 = true ∧ t.on F.HSXO_SELECT 0 1 = true)) ∧
  (∀ s : State, bUp s = true → s.on F.HSXO_ON = false → Does .hsxoStartTimeout [F.SU_TIER_HSXO_FAIL, F.LEDGER_CAUSES, F.LEDGER_PENDING]
    [] s fun t =>
    t.on F.SU_TIER_HSXO_FAIL = true ∧ (t.rd F.LEDGER_CAUSES).testBit 7 = true) ∧
  (∀ s : State, s.on F.PTM_CLKSTAT_REF = true → Does .hsxoStop [F.SU_TIER_HSXO_FAIL, F.LEDGER_CAUSES, F.PTM_CLKSTAT_GRANT,
    F.LEDGER_PENDING, F.HSXO_ON, F.HSXO_SELECT, F.CLK_RUN] [] s fun t =>
    t.on F.HSXO_ON = false ∧ t.on F.SU_TIER_HSXO_FAIL = true ∧ (t.rd F.LEDGER_CAUSES).testBit 7 = true) ∧
  (∀ s : State, bUp s = true → Does .pllLock [F.PTM_CLKSTAT_PLL, F.PTM_CLKSTAT_REF, F.PLL_LOCKED] [] s fun t =>
    t.on F.PLL_LOCKED = true ∧ t.on F.PTM_CLKSTAT_REF = s.on F.HSXO_ON ∧
      (s.on F.PTM_STATE_ONFRC = false → t.on F.PTM_CLKSTAT_PLL = true)) ∧
  (∀ s : State, s.on F.HSXO_SELECT 0 0 = true → Does .pllRefMoveDone [F.PTM_CLKSTAT_REF, F.HSXO_SELECT] [] s fun t =>
    t.rd F.PTM_CLKSTAT_REF = s.rd F.HSXO_SELECT 0 1 ∧ t.on F.HSXO_SELECT 0 0 = false) ∧
  (∀ s : State, s.on F.PLL_LOCKED = true → s.on F.BINDOFF = false → Ends .plltLossOfLock s fun t =>
    t.on F.BINDOFF = true ∧ t.rd F.SU_TIER_BO_SRC = 3) ∧
  (∀ s : State, s.on F.LSXO_FIT = true → Does .lsxoFail [F.PTM_CLKSTAT_LSXO_FAIL] [] s fun t =>
    t.on F.PTM_CLKSTAT_LSXO_FAIL = true ∧ t.rd F.LEDGER_CAUSES = s.rd F.LEDGER_CAUSES) ∧
  (∀ s : State, s.on F.PTM_STATE_ONFRC = true → s.on F.PLL_LOCKED = true → Ends .fastNapPllSwitch s fun t =>
    t.on F.PTM_STATE_ONFRC = false ∧ t.on F.PTM_CLKSTAT_PLL = true ∧ t.rd F.ROW_HELD = 0) ∧
  (∀ s : State, s.on F.PTM_STATE_ONFRC = true → s.on F.PLL_LOCKED = true → s.rd F.ROW_HELD = 0 →
    Does .fastNapPllSwitch [F.PTM_STATE_ONFRC, F.PTM_CLKSTAT_PLL, F.ROW_HELD] [] s fun t => t.on F.PTM_STATE_ONFRC = false ∧
      t.on F.PTM_CLKSTAT_PLL = true) ∧
  (∀ (s : State) (c : Fin 4) (d : Fin 136), Does (.clockRequest c (some d)) [F.PTM_CLKREQ_REQ, F.CLK_HOLD] [] s fun t =>
    t.on F.CLK_HOLD c.val d.val = true) ∧
  (∀ (s : State) (c : Fin 4), Does (.clockRequest c none) [F.PTM_CLKREQ_REQ, F.CLK_HOLD] [] s fun t =>
    (t.rd F.PTM_CLKREQ_REQ).testBit c.val = true) ∧
  (∀ (s : State) (c : Fin 4), clockHeld s c.val = true → clockReady s c.val = true → Does (.clockGrant c) [F.PTM_CLKSTAT_GRANT,
    F.CLK_RUN] [] s fun t =>
    (t.rd F.PTM_CLKSTAT_GRANT).testBit c.val = true ∧ t.on F.CLK_RUN c.val = true) ∧
  (∀ (s : State) (c : Fin 4) (d : Fin 136), Does (.clockRelease c (some d)) [F.PTM_CLKREQ_REQ, F.PTM_CLKSTAT_GRANT, F.CLK_HOLD,
    F.CLK_RUN] [] s fun t =>
    t.on F.CLK_HOLD c.val d.val = false ∧
      ((∀ e : Nat, e ≠ d.val → s.on F.CLK_HOLD c.val e = false) →
        t.on F.CLK_RUN c.val = false ∧ (t.rd F.PTM_CLKSTAT_GRANT).testBit c.val = false)) ∧
  (∀ (s : State) (c : Fin 4), Does (.clockRelease c none) [F.PTM_CLKREQ_REQ, F.PTM_CLKSTAT_GRANT, F.CLK_HOLD, F.CLK_RUN] [] s fun t =>
    (t.rd F.PTM_CLKREQ_REQ).testBit c.val = false)

/-- R193, R195, R196, R200, R203, R217, R39, R94, R209: power-state entry, refusal and wake; the end of the supply-drop warning;
loss of PLLC; the die sensors and the count of hot minutes. -/
def Obligations.PowerStatesFollowRequestsAndWakes : Prop :=
  (∀ s : State, s.on F.ENTRY_REQ = true → anyTask s = true → Does .stateEntryTaskTimeout [F.PTM_STATE_REFUSE, F.PTM_STATE_REQ_REQ,
    F.ENTRY_REQ] [] s fun t =>
    t.rd F.PTM_STATE_REFUSE = 3 ∧ t.rd F.PTM_STATE_REQ_REQ = 0 ∧ t.rd F.ENTRY_REQ = 0) ∧
  (∀ s : State, s.rd F.PTM_STATE_REQ_REQ = 1 → s.rd F.PTM_STATE_CUR = 0 → anyTask s = false → anyReady s = false →
    Does .dozeEnter [F.PTM_STATE_CUR, F.PTM_STATE_REFUSE, F.PTM_STATE_REQ_REQ, F.ENTRY_REQ] [] s fun t =>
      (s.on F.PTM_SUPPLY_DROP_WARN = false → t.rd F.PTM_STATE_CUR = 1) ∧
      (s.on F.PTM_SUPPLY_DROP_WARN = true → t.rd F.PTM_STATE_CUR = 0 ∧ t.rd F.PTM_STATE_REFUSE = 4 ∧ t.rd F.PTM_STATE_REQ_REQ = 0)) ∧
  (∀ (s : State) (b : Fin 12), (s.rd F.PTM_WAKE_EN_EN).testBit b.val = true → s.on F.ENTRY_REQ = false →
    s.rd F.PTM_STATE_CUR = 1 → Does (.wakeEvent b) [F.PTM_STATE_CUR, F.PTM_STATE_LAST, F.PTM_STATE_REFUSE, F.PTM_STATE_ABORTED,
      F.PTM_STATE_REQ_REQ, F.PTM_WAKE_CAUSE_SRC, F.DOM_STATE, F.ENTRY_REQ, F.WAKE_PEND, F.WAKING, F.PWR_EN] [] s fun t =>
      t.rd F.PTM_STATE_CUR = 0 ∧ t.rd F.PTM_STATE_LAST = 1 ∧ (t.rd F.PTM_WAKE_CAUSE_SRC).testBit b.val = true) ∧
  (∀ (s : State) (b : Fin 12), (s.rd F.PTM_WAKE_EN_EN).testBit b.val = true → entryLate s = true → Does (.wakeEvent b) [F.PTM_STATE_CUR,
    F.PTM_STATE_LAST, F.PTM_STATE_REFUSE, F.PTM_STATE_ABORTED, F.PTM_STATE_REQ_REQ, F.PTM_WAKE_CAUSE_SRC, F.DOM_STATE, F.ENTRY_REQ,
      F.WAKE_PEND, F.WAKING, F.PWR_EN] [] s fun t =>
    t.rd F.ENTRY_REQ = 0 ∧ t.rd F.PTM_STATE_REQ_REQ = 0 ∧ t.rd F.PTM_STATE_REFUSE = entryBlock s (s.rd F.ENTRY_REQ) ∧
      t.rd F.PTM_STATE_ABORTED = s.rd F.PTM_STATE_ABORTED) ∧
  (∀ (s : State) (b : Fin 12), (s.rd F.PTM_WAKE_EN_EN).testBit b.val = true → s.on F.ENTRY_REQ = true → entryLate s = false →
    wakeAllowed s (s.rd F.ENTRY_REQ) b.val = true → Does (.wakeEvent b) [F.PTM_STATE_CUR, F.PTM_STATE_LAST, F.PTM_STATE_REFUSE,
      F.PTM_STATE_ABORTED, F.PTM_STATE_REQ_REQ, F.PTM_WAKE_CAUSE_SRC, F.DOM_STATE, F.ENTRY_REQ, F.WAKE_PEND, F.WAKING, F.PWR_EN]
        [] s fun t =>
      t.rd F.ENTRY_REQ = 0 ∧ t.on F.PTM_STATE_ABORTED = true ∧ t.rd F.PTM_STATE_REQ_REQ = 0 ∧
        (t.rd F.PTM_WAKE_CAUSE_SRC).testBit b.val = true) ∧
  (∀ s : State, s.on F.ENTRY_REQ = true → anyTask s = false → s.rd F.KEY_STAT_STATE ≠ 3 → entryLate s = false →
    Ends .stateEntryComplete s fun t => t.rd F.PTM_STATE_CUR = s.rd F.ENTRY_REQ ∧ t.rd F.ENTRY_REQ = 0 ∧
      t.on F.PLL_LOCKED = false ∧ (s.rd F.ENTRY_REQ = 4 → t.on F.PWR_EN = false)) ∧
  (∀ s : State, s.on F.PTM_SUPPLY_DROP_WARN = true → dropCmp s = false → s.rd F.KEY_STAT_STATE ≠ 1 →
    Does .supplyDropClear [F.PTM_SUPPLY_DROP_WARN, F.KEY_STAT_STATE, F.LK_TXSEQ] [Q.retry, Q.keyRec] s fun t =>
    t.on F.PTM_SUPPLY_DROP_WARN = false ∧ t.events = s.events ++ [2]) ∧
  (∀ s : State, s.on F.PLL_LOCKED = true → Ends .pllcLossOfLock s fun t =>
    t.on F.PLL_LOCKED = false ∧ t.on F.PTM_CLKSTAT_PLL = false ∧ t.rd F.STK_DIESTATE_C_STATE ≤ 1 ∧
      t.rd F.STK_DIESTATE_M_STATE ≤ 1) ∧
  (∀ (s : State) (b m c0 c1 : BitVec 8), s.rd F.PTM_STATE_CUR ≤ 2 → bUp s = true → Ends (.tempConversion b m c0 c1) s fun t =>
    t.rd F.PTM_TEMP_TS_B = b.toNat ∧ t.rd F.PTM_TEMP_TS_M = (if mUp s then m.toNat else 0x80) ∧
      t.rd F.PTM_TEMP_TS_C0 = (if cUp s then c0.toNat else 0x80) ∧ t.rd F.PTM_TEMP_TS_C1 = (if cUp s then c1.toNat else 0x80)) ∧
  (∀ s : State, s.rd F.PTM_TEMP_TS_B ≠ 0x80 → 115 < signedOf 8 (s.rd F.PTM_TEMP_TS_B) → Does .hotTimeMinute [F.LEDGER_CAUSES,
    F.HOT_TIME_MINUTES, F.LEDGER_PENDING, F.HOT_SINCE] [] s fun t =>
    t.rd F.HOT_TIME_MINUTES = min (s.rd F.HOT_TIME_MINUTES + 1) (2 ^ F.HOT_TIME_MINUTES.w - 1))

/-- R171 to R175, R207, R208, R629: a domain drains, its open requests are answered ABORT, it is switched off, or comes on or
fails to; a request held too long is answered by why it was held. -/
def Obligations.DomainsDrainSwitchAndAnswerHeldRequests : Prop :=
  (∀ (s : State) (d : Fin 136), drainDue s d.val = true → (domCtrl s d.val = true → entryLate s = false) →
    Ends (.domainDrainStart d) s fun t => t.rd F.DOM_STATE d.val = 3) ∧
  (∀ (s : State) (d : Fin 136), s.rd F.DOM_STATE d.val = 3 → Does (.drainAbortTimeout d) [F.STK_TALLY1_ABSORB_C, F.XR_TAGS_MAX,
    F.XR_LOST_LOST_REPLY, F.FAB_DUP_COUNT, F.FAB_DUP_LAST_MID, F.FAB_DUP_LAST_BLOCK, F.FAB_ERR_COUNT, F.LK_TXSEQ, F.TAG_BUSY, F.TAG_MID,
      F.TAG_TMO, F.TAG_ADDR, F.TAG_OP, F.TAG_SINCE, F.TAG_BUNDLE, F.TAG_SIZE, F.TAG_DATA, F.TAG_DOM] [Q.retry] s fun t =>
    (∀ r ∈ t.held, heldDomain r ≠ d.val) ∧ ∀ k, s.on F.TAG_BUSY k = true → k < 4096 → tagTo s d.val k = true →
      t.on F.TAG_BUSY k = false) ∧
  (∀ (s : State) (d : Fin 136), s.rd F.DOM_STATE d.val = 3 → domCtrl s d.val = false → s.rd F.KEY_STAT_STATE ≠ 3 →
    s.held = [] → loadsOf s d.val = [] →
    Ends (.domainSwitchOff d true) s fun t => t.rd F.DOM_STATE d.val = 0 ∧ t.on F.DOM_FORCED d.val = true ∧
      OnlyDomain switchFields d s t) ∧
  (∀ (s : State) (d : Fin 136), s.rd F.DOM_STATE d.val = 3 → domCtrl s d.val = false → s.rd F.KEY_STAT_STATE ≠ 3 →
    s.held = [] → domainBusy s d.val = false →
    Ends (.domainSwitchOff d false) s fun t => t.rd F.DOM_STATE d.val = 0 ∧ t.on F.DOM_FORCED d.val = false ∧
      OnlyDomain switchFields d s t) ∧
  (∀ (s : State) (d : Fin 136), s.rd F.DOM_STATE d.val = 3 → domCtrl s d.val = true → domRailsGood s d.val = true →
    s.on F.ENTRY_REQ = false → s.rd F.PTM_STATE_CUR ≤ 1 → s.rd F.KEY_STAT_STATE ≠ 3 → s.held = [] → loadsOf s d.val = [] →
    Ends (.domainSwitchOff d true) s fun t => t.rd F.DOM_STATE d.val = 1 ∧ OnlyDomain switchFields d s t) ∧
  (∀ (s : State) (d : Fin 136), s.rd F.DOM_STATE d.val = 1 → domRailsGood s d.val = true → (∀ e ∈ domDeps d.val, domOn s e = true) →
    s.held = [] → Does (.domainOn d) [F.RT_LEVEL, F.RT_EDGE, F.DOM_STATE] [] s fun t => t.rd F.DOM_STATE d.val = 2 ∧ t.held = []) ∧
  (∀ (s : State) (d : Fin 136), s.rd F.DOM_STATE d.val = 1 → s.on F.WAKING = false → s.held = [] →
    Moves (.domainOnTimeout d) [F.STK_TALLY1_ABSORB_C, F.LEDGER_CAUSES, F.XR_TAGS_MAX, F.XR_LOST_LOST_REPLY, F.FAB_DUP_COUNT,
      F.FAB_DUP_LAST_MID, F.FAB_DUP_LAST_BLOCK, F.FAB_ERR_COUNT, F.PTM_DOM_ERR_DOMAIN, F.PTM_DOM_ERR_CODE, F.PTM_DOM_ERR_NEW,
        F.DSP_ERR_TASK, F.DSP_ERR_CODE, F.DSP_ERR_NEW, F.TRC_WR_WR, F.TRC_CFG_EN, F.TRC_LOST_COUNT, F.DSP_TSTAT_STATE,
          F.DSP_TSTAT_PENDING, F.DSP_TSTAT_SAVED, F.FW_STAT_MID, F.FW_STAT_WRITE, F.FW_STAT_NEW, F.FW_DENY_ADDR_ADDR,
            F.FW_DENY_COUNT_COUNT, F.SP_STAT_MODE, F.SP_STAT_RESEEDING, F.SP_STAT_HCODE, F.SP_EVT_HINGE_REF, F.SP_EVT_DEGRADED,
              F.NVM_ECC_UNC_COUNT, F.NVM_ERR_ADDR_ADDR, F.LK_TXSEQ, F.LEDGER_PENDING, F.DOM_STATE, F.HASTASK, F.DFAULTED, F.OLD_W0,
                F.HINGE_KIND, F.HINGE_FROM, F.HINGE_HELD, F.HINGE_SEEN, F.PAGE_TALLY] [Q.retry, Q.log] s fun t =>
                  t.rd F.DOM_STATE d.val = 0 ∧
      t.rd F.PTM_DOM_ERR_DOMAIN = d.val ∧ t.rd F.PTM_DOM_ERR_CODE = 4) ∧
  (∀ (s : State) (m : Fin 64) (r : Held), s.held = [r] → r.who = .unit m → gate s r = .hold .power →
    masterLive s (.unit m) = true → Moves (.powerupHoldTimeout (.unit m)) [F.STK_TALLY1_ABSORB_C, F.LEDGER_CAUSES, F.XR_TAGS_MAX,
      F.XR_LOST_LOST_REPLY, F.FAB_DUP_COUNT, F.FAB_DUP_LAST_MID, F.FAB_DUP_LAST_BLOCK, F.FAB_ERR_COUNT, F.TC_DFAULT_THREADS,
        F.TC_DF_FIRST, F.TC_DF_SECOND, F.TC_DF_PC_PC, F.DSP_ERR_TASK, F.DSP_ERR_CODE, F.DSP_ERR_NEW, F.TRC_WR_WR, F.TRC_CFG_EN,
          F.TRC_LOST_COUNT, F.DSP_TSTAT_STATE, F.DSP_TSTAT_PENDING, F.DSP_TSTAT_SAVED, F.FW_STAT_MID, F.FW_STAT_WRITE, F.FW_STAT_NEW,
            F.FW_DENY_ADDR_ADDR, F.FW_DENY_COUNT_COUNT, F.DMA_HALTED_HALTED, F.DC_STAT_STATE, F.DC_DONE_BYTES, F.DC_ERR_ADDR_ADDR,
              F.DC_ERR_RESP, F.DC_ERR_DIR, F.DC_ERR_PHASE, F.PT_TALLY_TX_FULL, F.NVM_ECC_UNC_COUNT, F.NVM_ERR_ADDR_ADDR, F.LK_TXSEQ,
                F.LEDGER_PENDING, F.HASTASK, F.GPR, F.PC, F.TSR, F.XSR, F.XPC, F.XCAUSE, F.XINFO, F.XADDR, F.DFAULTED, F.LD_PEND,
                  F.LDX_OK, F.LDX_CODE, F.LDX_DATA, F.LDX_MISS, F.OLD_W0, F.SIG_CM, F.SIG_CC, F.INJ_C, F.DC_STOPREQ, F.PAGE_TALLY,
                    F.ACC_BUSY, F.ACC_RDATA, F.ACC_RCODE] [Q.retry, Q.log] s fun t =>
      t.held = [] ∧ t.resp = ⟨.pdown, false, 0⟩) ∧
  (∀ (s : State) (m : Fin 64) (r : Held), s.held = [r] → r.who = .unit m → gate s r = .hold .live →
    masterLive s (.unit m) = true → Moves (.busyHoldTimeout (.unit m)) [F.STK_TALLY1_ABSORB_C, F.LEDGER_CAUSES, F.XR_TAGS_MAX,
      F.XR_LOST_LOST_REPLY, F.FAB_DUP_COUNT, F.FAB_DUP_LAST_MID, F.FAB_DUP_LAST_BLOCK, F.FAB_ERR_COUNT, F.TC_DFAULT_THREADS,
        F.TC_DF_FIRST, F.TC_DF_SECOND, F.TC_DF_PC_PC, F.DSP_ERR_TASK, F.DSP_ERR_CODE, F.DSP_ERR_NEW, F.TRC_WR_WR, F.TRC_CFG_EN,
          F.TRC_LOST_COUNT, F.DSP_TSTAT_STATE, F.DSP_TSTAT_PENDING, F.DSP_TSTAT_SAVED, F.FW_STAT_MID, F.FW_STAT_WRITE, F.FW_STAT_NEW,
            F.FW_DENY_ADDR_ADDR, F.FW_DENY_COUNT_COUNT, F.DMA_HALTED_HALTED, F.DC_STAT_STATE, F.DC_DONE_BYTES, F.DC_ERR_ADDR_ADDR,
              F.DC_ERR_RESP, F.DC_ERR_DIR, F.DC_ERR_PHASE, F.PT_TALLY_TX_FULL, F.NVM_ECC_UNC_COUNT, F.NVM_ERR_ADDR_ADDR, F.LK_TXSEQ,
                F.LEDGER_PENDING, F.HASTASK, F.GPR, F.PC, F.TSR, F.XSR, F.XPC, F.XCAUSE, F.XINFO, F.XADDR, F.DFAULTED, F.LD_PEND,
                  F.LDX_OK, F.LDX_CODE, F.LDX_DATA, F.LDX_MISS, F.OLD_W0, F.SIG_CM, F.SIG_CC, F.INJ_C, F.DC_STOPREQ, F.PAGE_TALLY,
                    F.ACC_BUSY, F.ACC_RDATA, F.ACC_RCODE] [Q.retry, Q.log] s fun t =>
      t.held = [] ∧ t.resp = ⟨.busy, false, 0⟩) ∧
  (∀ (s : State) (m : Fin 64) (r : Held) (l : Loc), s.held = [r] → r.who = .unit m → gate s r = .hold .room →
    locate r.who r.addr = some l → masterLive s (.unit m) = true → Moves (.txPushTimeout (.unit m)) [F.STK_TALLY1_ABSORB_C,
      F.LEDGER_CAUSES, F.XR_TAGS_MAX, F.XR_LOST_LOST_REPLY, F.FAB_DUP_COUNT, F.FAB_DUP_LAST_MID, F.FAB_DUP_LAST_BLOCK, F.FAB_ERR_COUNT,
        F.TC_DFAULT_THREADS, F.TC_DF_FIRST, F.TC_DF_SECOND, F.TC_DF_PC_PC, F.DSP_ERR_TASK, F.DSP_ERR_CODE, F.DSP_ERR_NEW, F.TRC_WR_WR,
          F.TRC_CFG_EN, F.TRC_LOST_COUNT, F.DSP_TSTAT_STATE, F.DSP_TSTAT_PENDING, F.DSP_TSTAT_SAVED, F.FW_STAT_MID, F.FW_STAT_WRITE,
            F.FW_STAT_NEW, F.FW_DENY_ADDR_ADDR, F.FW_DENY_COUNT_COUNT, F.DMA_HALTED_HALTED, F.DC_STAT_STATE, F.DC_DONE_BYTES,
              F.DC_ERR_ADDR_ADDR, F.DC_ERR_RESP, F.DC_ERR_DIR, F.DC_ERR_PHASE, F.PT_TALLY_TX_FULL, F.NVM_ECC_UNC_COUNT,
                F.NVM_ERR_ADDR_ADDR, F.LK_TXSEQ, F.LEDGER_PENDING, F.HASTASK, F.GPR, F.PC, F.TSR, F.XSR, F.XPC, F.XCAUSE, F.XINFO,
                  F.XADDR, F.DFAULTED, F.LD_PEND, F.LDX_OK, F.LDX_CODE, F.LDX_DATA, F.LDX_MISS, F.OLD_W0, F.SIG_CM, F.SIG_CC, F.INJ_C,
                    F.DC_STOPREQ, F.PAGE_TALLY, F.ACC_BUSY, F.ACC_RDATA, F.ACC_RCODE] [Q.retry, Q.log] s fun t =>
      t.held = [] ∧ t.resp = ⟨.abort, false, 0⟩ ∧ t.rd F.PT_TALLY_TX_FULL (portOf l.b l.i) =
        min (s.rd F.PT_TALLY_TX_FULL (portOf l.b l.i) + 1) (2 ^ F.PT_TALLY_TX_FULL.w - 1))

/-- R14, R16, R17, R28: the site codes and the fuses decide whether the device is confined to Tier 0 and which upper dies are
absent; with both dies present and no lane failing, the links train. -/
def Obligations.FusesAndTrainingDecideWhichDiesTakePart : Prop :=
  (∀ (s : State) (site : BitVec 3) (f : BFuses), bUp s = true → s.on F.BINDOFF = false →
    Does (.bDieFuseRead site f) [F.STK_DIESTATE_TIER, F.STK_DIESTATE_STRAP_B, F.STK_ID_B_ID, F.BUNDLE_SPARES, F.LANE_MAP_PHYS_0,
      F.LANE_MAP_VALID_0, F.LANE_MAP_PHYS_1, F.LANE_MAP_VALID_1, F.LANE_MAP_PHYS_2, F.LANE_MAP_VALID_2, F.LANE_MAP_PHYS_3,
        F.LANE_MAP_VALID_3, F.LANE_MAP_FUSED, F.SU_TIER_CAUSE, F.ECC_LIM_ECC_LIM, F.WEAR_LIM_WEAR_LIM, F.HOT_LIM_HOT_LIM,
          F.SP_LIM_SP_LIM, F.LG_STAT_STATE, F.LG_TALLY_SWALLOW, F.ST_STAT_ACTIVE, F.ST_STAT_CUT, F.HDS_SLOT_FULL, F.HDS_SLOT_NEXT,
            F.HDS_SLOT_BUSY, F.HDS_SLOT_PLANE, F.HDS_TALLY1_INH_LINES, F.HDS_LINES_COUNT, F.TST_LOCK_STATE, F.TST_FUSE_DBG_FUSE,
              F.FUSE_VALID, F.FUSE_STACK_ID, F.FUSE_SEAL, F.FUSE_ROOT_HASH, F.FUSE_ROOT_EPOCH, F.FUSE_ROOT_REVOKE, F.FUSE_DBG,
                F.FUSE_ECC_LIM, F.FUSE_WEAR_LIM, F.FUSE_HOT_LIM, F.FUSE_SP_LIM, F.TIER0_ONLY, F.LK_TXSEQ, F.RT_EDGE, F.LG_SIDE,
                  F.LG_DTRUN, F.LG_BLANKING, F.LG_GROUPARM, F.ORPHAN_RUN, F.ST_DELAYED, F.ST_INBURST, F.ROW_DUE, F.HDS_PHASE,
                    F.HDS_BURSTING] [Q.retry] s fun t =>
    t.on F.FUSE_VALID = true ∧ t.rd F.STK_ID_B_ID = f.stackId.toNat ∧ t.rd F.STK_DIESTATE_STRAP_B = site.toNat ∧
      (site ≠ 1 ∨ f.stackId = 0 ∨ f.stackId = BitVec.allOnes 64 → t.on F.TIER0_ONLY = true) ∧
      (site = 1 → f.stackId ≠ 0 → f.stackId ≠ BitVec.allOnes 64 → t.rd F.TIER0_ONLY = s.rd F.TIER0_ONLY)) ∧
  (∀ (s : State) (c m : BitVec 3) (ci mi : BitVec 64), s.on F.FUSE_VALID = true → bUp s = true → s.on F.TIER0_ONLY = false →
    Does (.upperFuseRead c m ci mi) [F.STK_DIESTATE_TIER, F.STK_DIESTATE_C_STATE, F.STK_DIESTATE_M_STATE, F.STK_DIESTATE_STRAP_C,
      F.STK_DIESTATE_STRAP_M, F.STK_DIESTATE_LAST_C_CAUSE, F.STK_DIESTATE_LAST_M_CAUSE, F.STK_ID_C_ID, F.STK_ID_M_ID, F.SU_TIER_CAUSE,
        F.LG_STAT_STATE, F.LG_TALLY_SWALLOW, F.ST_STAT_ACTIVE, F.ST_STAT_CUT, F.HDS_SLOT_FULL, F.HDS_SLOT_NEXT, F.HDS_SLOT_BUSY,
          F.HDS_SLOT_PLANE, F.HDS_TALLY1_INH_LINES, F.HDS_LINES_COUNT, F.TIER0_ONLY, F.C_ABSENT, F.M_ABSENT, F.LK_TXSEQ, F.RT_EDGE,
            F.LG_SIDE, F.LG_DTRUN, F.LG_BLANKING, F.LG_GROUPARM, F.ORPHAN_RUN, F.ST_DELAYED, F.ST_INBURST, F.ROW_DUE, F.HDS_PHASE,
              F.HDS_BURSTING] [Q.retry] s fun t =>
      (c = 2 → ci.toNat = s.rd F.FUSE_STACK_ID → ci ≠ 0 → ci ≠ BitVec.allOnes 64 → t.rd F.STK_DIESTATE_C_STATE = 1) ∧
      (c ≠ 2 → t.rd F.STK_DIESTATE_C_STATE = 0 ∧ t.rd F.STK_DIESTATE_LAST_C_CAUSE = 4) ∧
      (c = 2 → ci.toNat ≠ s.rd F.FUSE_STACK_ID → t.rd F.STK_DIESTATE_C_STATE = 0 ∧ t.rd F.STK_DIESTATE_LAST_C_CAUSE = 5) ∧
      (m = 4 → mi.toNat = s.rd F.FUSE_STACK_ID → mi ≠ 0 → mi ≠ BitVec.allOnes 64 → t.rd F.STK_DIESTATE_M_STATE = 1) ∧
      (m ≠ 4 → t.rd F.STK_DIESTATE_M_STATE = 0 ∧ t.rd F.STK_DIESTATE_LAST_M_CAUSE = 4) ∧
      (m = 4 → mi.toNat ≠ s.rd F.FUSE_STACK_ID → t.rd F.STK_DIESTATE_M_STATE = 0 ∧ t.rd F.STK_DIESTATE_LAST_M_CAUSE = 5)) ∧
  (∀ s : State, s.on F.PLL_LOCKED = true → s.on F.FUSE_VALID = true → s.on F.TIER0_ONLY = false → s.on F.BINDOFF = false →
    s.rd F.STK_DIESTATE_C_STATE = 1 → s.rd F.STK_DIESTATE_M_STATE = 1 → Ends (.linkTrainingDone []) s fun t =>
      t.rd F.STK_DIESTATE_C_STATE = (if s.on F.SU_TIER_GIVE_UP = true then 1 else 2) ∧ t.rd F.STK_DIESTATE_M_STATE = 2)

/-- R20, R21, R23, R24, R36: acceptance in sequence, the acknowledgements, go-back-N and the heartbeat flits. -/
def Obligations.LinkEndsAcceptInSequenceAndAcknowledge : Prop :=
  (∀ (s : State) (e : Fin 64) (f : BitVec 256), 2 ≤ s.rd F.BUNDLE_STATE (e.val / 2) → farUp s (e.val / 2) = true →
    lcrc f.toNat = bits f.toNat 255 240 → flitKind f.toNat ≤ 8 → sequenced (flitKind f.toNat) = true →
    flitKind f.toNat ≠ 6 → flitKind f.toNat ≠ 7 → f.toNat % 256 = s.rd F.LK_EXPECT e.val → s.held = [] →
    Does (.flitReceive e f) [F.BUNDLE_CRC_ERR, F.BUNDLE_RETRY, F.BUNDLE_DUP, F.XR_SHADOW_ERR_COUNT, F.LK_EXPECT, F.LK_SKIP,
      F.LK_UNACKED, F.LK_LAST_ACC, F.LK_ACK_OUT, F.LK_NAK_OUT, F.LK_NAKS, F.LK_ACKS, F.LK_RESENT, F.HB_SEEN, F.CRC_PEND] [Q.retry,
        Q.crcTimes] s fun t => t.rd F.LK_EXPECT e.val = (s.rd F.LK_EXPECT e.val + 1) % 256 ∧
      t.rd F.LK_LAST_ACC e.val = f.toNat % 256 ∧ t.on F.LK_SKIP e.val = false) ∧
  (∀ (s : State) (e : Fin 64) (f : BitVec 256), 2 ≤ s.rd F.BUNDLE_STATE (e.val / 2) → farUp s (e.val / 2) = true →
    lcrc f.toNat ≠ bits f.toNat 255 240 → s.held = [] → Does (.flitReceive e f) [F.BUNDLE_CRC_ERR, F.BUNDLE_RETRY, F.BUNDLE_DUP,
      F.XR_SHADOW_ERR_COUNT, F.LK_EXPECT, F.LK_SKIP, F.LK_UNACKED, F.LK_LAST_ACC, F.LK_ACK_OUT, F.LK_NAK_OUT, F.LK_NAKS, F.LK_ACKS,
        F.LK_RESENT, F.HB_SEEN, F.CRC_PEND] [Q.retry, Q.crcTimes] s fun t =>
      t.rd F.LK_EXPECT e.val = s.rd F.LK_EXPECT e.val ∧ t.on F.LK_SKIP e.val = true ∧
        t.rd F.LK_NAK_OUT e.val = s.rd F.LK_EXPECT e.val ∧
        t.rd F.BUNDLE_CRC_ERR (e.val / 2) = min (s.rd F.BUNDLE_CRC_ERR (e.val / 2) + 1) (2 ^ F.BUNDLE_CRC_ERR.w - 1)) ∧
  (∀ (s : State) (e : Fin 64) (q : BitVec 8) (old rest : List Nat) (f : Nat), s.q Q.retry e.val = old ++ f :: rest →
    f % 256 = q.toNat → (∀ g ∈ old, g % 256 ≠ q.toNat) → old.length < 64 → farUp s (e.val / 2) = true → s.held = [] →
    Does (.ackReceive e q) [] [Q.retry] s fun t => t.q Q.retry e.val = rest) ∧
  (∀ (s : State) (e : Fin 64) (q : BitVec 8), farUp s (e.val / 2) = true → Does (.nakReceive e q) [F.BUNDLE_RETRY, F.LK_RESENT]
    [] s fun t =>
    t.rd F.LK_RESENT e.val = q.toNat ∧
    t.rd F.BUNDLE_RETRY (e.val / 2) = min (s.rd F.BUNDLE_RETRY (e.val / 2) + 1) (2 ^ F.BUNDLE_RETRY.w - 1)) ∧
  (∀ (s : State) (e : Fin 64), s.on F.LK_UNACKED e.val = true → Does (.ackTimerExpire e) [F.LK_UNACKED, F.LK_ACK_OUT, F.LK_ACKS]
    [] s fun t =>
    t.on F.LK_UNACKED e.val = false ∧ t.rd F.LK_ACK_OUT e.val = s.rd F.LK_LAST_ACC e.val) ∧
  (∀ s : State, cUp s = true → s.on F.HB_SUSPENDED = false → Does .heartbeatSend [F.LK_TXSEQ] [Q.retry] s fun t =>
    ∀ b ∈ controlBundles s, (s.q Q.retry (2 * b + 1)).length < 64 →
      (t.q Q.retry (2 * b + 1)).length = (s.q Q.retry (2 * b + 1)).length + 1)

/-- R30, R31, R37, R38, R41, R45, R685: missed heartbeats, loss of an upper die and what it does to writes in progress, the orphan timer,
and the run-time lane test. -/
def Obligations.LossesAndLaneTestsAreDeclared : Prop :=
  (∀ s : State, cUp s = true → s.on F.HB_SUSPENDED = false → s.on F.HB_SEEN = false → Does .heartbeatPeriodMiss [F.STK_TALLY0_HB_MISS,
    F.HB_SEEN] [] s fun t =>
    t.rd F.STK_TALLY0_HB_MISS = min (s.rd F.STK_TALLY0_HB_MISS + 1) (2 ^ F.STK_TALLY0_HB_MISS.w - 1)) ∧
  (∀ s : State, cUp s = true → s.on F.HB_SUSPENDED = false → s.on F.HB_SEEN = false → Ends .heartbeatTimeout s fun t =>
    t.rd F.STK_DIESTATE_C_STATE = 1 ∧ t.rd F.STK_DIESTATE_LAST_C_CAUSE = 1 ∧ t.on F.STK_EVT_C_LOST = true ∧
      t.on F.RST_CAUSE_CLOSS = true) ∧
  (∀ s : State, mUp s = true → s.on F.HB_SUSPENDED 1 = false → Ends .mLinkSilentTimeout s fun t =>
    t.rd F.STK_DIESTATE_M_STATE = 1 ∧ t.rd F.STK_DIESTATE_LAST_M_CAUSE = 1 ∧ t.on F.STK_EVT_M_LOST = true ∧
      t.on F.RST_CAUSE_MLOSS = true ∧ 6 ∈ t.events) ∧
  (∀ (s : State) (k : Fin 16), s.rd F.LG_STAT_STATE k.val = 3 → s.on F.ORPHAN_RUN k.val = true →
    Does (.orphanTimeout k) [F.LG_STAT_STATE, F.LG_TALLY_SWALLOW, F.LG_SIDE, F.LG_DTRUN, F.LG_BLANKING, F.LG_GROUPARM, F.ORPHAN_RUN]
      [] s fun t => t.rd F.LG_STAT_STATE k.val = 0 ∧ t.on F.ORPHAN_RUN k.val = false) ∧
  (∀ (s : State) (l : Fin 2) (k : Nat), s.on F.LBIST_CFG_EN = true → s.on F.LT_ACTIVE l.val = false →
    trigBundle s l.val = none → flitRoom s (2 * (nextLane s l.val).1) 1 = true →
    s.rd F.BUNDLE_STATE (nextLane s l.val).1 = 2 → laneInUse s (nextLane s l.val).1 (nextLane s l.val).2 = true →
    freeSpare s (nextLane s l.val).1 = some k → retrying s (nextLane s l.val).1 = false →
    Does (.laneTestStart l) [F.STK_TALLY0_LBIST_SKIP, F.LK_TXSEQ, F.CRC_PEND, F.LT_BUNDLE, F.LT_TEST_BUNDLE, F.LT_TEST_LANE, F.LT_LANE,
      F.LT_SPARE, F.LT_SWITCH, F.LT_ACTIVE, F.LT_TRIG, F.LT_TRIG_LANE] [Q.retry] s fun t => t.on F.LT_ACTIVE l.val = true ∧
      t.rd F.LT_TEST_BUNDLE l.val = (nextLane s l.val).1 % 2 ^ F.LT_TEST_BUNDLE.w ∧
      t.rd F.LT_TEST_LANE l.val = (nextLane s l.val).2 % 2 ^ F.LT_TEST_LANE.w) ∧
  (∀ (s : State) (l : Fin 2), s.on F.LT_ACTIVE l.val = true → Does (.laneTestDone l true) [F.STK_EVT_LANE_REP, F.BUNDLE_SPARES,
    F.LANE_MAP_PHYS_0, F.LANE_MAP_VALID_0, F.LANE_MAP_PHYS_1, F.LANE_MAP_VALID_1, F.LANE_MAP_PHYS_2, F.LANE_MAP_VALID_2,
      F.LANE_MAP_PHYS_3, F.LANE_MAP_VALID_3, F.LANE_MAP_FUSED, F.LEDGER_CAUSES, F.LK_TXSEQ, F.LT_SPARE, F.LT_SWITCH, F.LT_ACTIVE,
        F.LANE_BAD, F.LEDGER_PENDING] [Q.retry] s fun t =>
    t.on F.LT_ACTIVE l.val = false ∧ t.on F.STK_EVT_LANE_REP = true ∧ 4 ∈ t.events) ∧
  (∀ (s : State) (l : Fin 2), s.on F.LT_ACTIVE l.val = true → Does (.laneTestDone l false) [F.STK_EVT_LANE_REP, F.BUNDLE_SPARES,
    F.LANE_MAP_PHYS_0, F.LANE_MAP_VALID_0, F.LANE_MAP_PHYS_1, F.LANE_MAP_VALID_1, F.LANE_MAP_PHYS_2, F.LANE_MAP_VALID_2,
      F.LANE_MAP_PHYS_3, F.LANE_MAP_VALID_3, F.LANE_MAP_FUSED, F.LEDGER_CAUSES, F.LK_TXSEQ, F.LT_SPARE, F.LT_SWITCH, F.LT_ACTIVE,
        F.LANE_BAD, F.LEDGER_PENDING] [Q.retry] s fun t =>
    t.on F.LT_ACTIVE l.val = false ∧ t.rd F.STK_EVT_LANE_REP = s.rd F.STK_EVT_LANE_REP) ∧
  (∀ s : State, mUp s = true → s.on F.HB_SUSPENDED 1 = false → (∀ n, n < 8 → s.on F.CTR_RAISING n = false) →
    (∀ k ∈ busyTags s, tagWrites s k = false) → s.rd F.KEY_STAT_STATE ≠ 3 → Ends .mLinkSilentTimeout s fun t => ∀ x,
      t.byte x = s.byte x) ∧
  (∀ s : State, mUp s = true → s.on F.HB_SUSPENDED 1 = false → (∀ n, n < 8 → s.on F.CTR_RAISING n = false) →
    (∀ k ∈ busyTags s, tagWrites s k = false) → s.rd F.KEY_STAT_STATE = 3 → (s.q Q.keyRec).length = 9 →
      Ends .mLinkSilentTimeout s fun t => t.rd F.KEY_STAT_RESULT = 5 ∧
      let a := keyCopyAddr (s.rd F.KC_SLOT) (if keyWinner s (s.rd F.KC_SLOT) = some 0 then 1 else 0)
      (∀ x, x < a ∨ a + 80 ≤ x → t.byte x = s.byte x) ∧ ∀ j, j < 8 → t.byte (a + 72 + j) = s.byte (a + 72 + j)) ∧
  (∀ (s : State) (n : Nat), mUp s = true → s.on F.HB_SUSPENDED 1 = false → n < 8 → s.on F.CTR_RAISING n = true →
    (∀ k ∈ busyTags s, tagWrites s k = false) →
    s.rd F.KEY_STAT_STATE ≠ 3 → (∀ k, k < 8 → k ≠ n → s.on F.CTR_RAISING k = false) → Ends .mLinkSilentTimeout s fun t =>
      t.on F.CTR_RAISING n = false ∧ ∀ x, x < ctrAddr n 0 ∨ ctrAddr n 0 + 16 ≤ x → t.byte x = s.byte x)

/-- R153, R154, R157, R164, R165: a header takes a free tag with the timeout then in force and is placed on a bundle, or waits in order; a
tag's timeout is answered ABORT and counted; a reply frees its tag or is counted as lost; a SHADOW request writes its shadow register or is
counted. -/
def Obligations.TagsAreTakenTimedAndFreed : Prop :=
  (∀ (s : State) (src : Source) (op : BitVec 4) (a : BitVec 32) (n : Fin 6) (v : BitVec 256) (k : Nat), masterLive s src.who = true →
    crosses src.who a.toNat = true → op ≠ 2 → atInterface s (reqOf src op.toNat a.toNat (2 ^ n.val) v.toNat) = false →
    dieAnswers s src.who a.toNat = true → fwRefuses s src.who op.toNat a.toNat = none → freeTagOf s = some k →
    Does (.headerArrive src op a ⟨n, v⟩) [F.STK_TALLY1_ABSORB_C, F.XR_TAGS_MAX, F.XR_LOST_LOST_REPLY, F.FAB_DUP_COUNT,
      F.FAB_DUP_LAST_MID, F.FAB_DUP_LAST_BLOCK, F.FAB_ERR_COUNT, F.FW_STAT_MID, F.FW_STAT_WRITE, F.FW_STAT_NEW, F.FW_DENY_ADDR_ADDR,
        F.FW_DENY_COUNT_COUNT, F.LK_TXSEQ, F.TAG_BUSY, F.TAG_MID, F.TAG_TMO, F.TAG_ADDR, F.TAG_OP, F.TAG_SINCE, F.TAG_N, F.TAG_BUNDLE,
          F.TAG_SIZE, F.TAG_DATA, F.TAG_DOM] [Q.retry, Q.headers] s fun t =>
      t.on F.TAG_BUSY k = true ∧ t.rd F.TAG_ADDR k = a.toNat ∧ t.rd F.TAG_OP k = op.toNat ∧ t.rd F.TAG_SIZE k = n.val ∧
        t.rd F.TAG_TMO k = max 20 (s.rd F.XR_CFG_TMO) ∧ t.resp = s.resp ∧
        ∀ l ∈ linksOf src.who a.toNat, ∀ b, bundleFor s l (midOf s src.who) a.toNat = some b → t.rd F.TAG_BUNDLE k l = b + 1) ∧
  (∀ (s : State) (src : Source) (op : BitVec 4) (a : BitVec 32) (n : Fin 6) (v : BitVec 256), masterLive s src.who = true →
    crosses src.who a.toNat = true → op ≠ 2 → atInterface s (reqOf src op.toNat a.toNat (2 ^ n.val) v.toNat) = false →
    dieAnswers s src.who a.toNat = true → fwRefuses s src.who op.toNat a.toNat = none → freeTagOf s = none →
    Does (.headerArrive src op a ⟨n, v⟩) [F.STK_TALLY1_ABSORB_C, F.XR_TAGS_MAX, F.XR_LOST_LOST_REPLY, F.FAB_DUP_COUNT,
      F.FAB_DUP_LAST_MID, F.FAB_DUP_LAST_BLOCK, F.FAB_ERR_COUNT, F.FW_STAT_MID, F.FW_STAT_WRITE, F.FW_STAT_NEW, F.FW_DENY_ADDR_ADDR,
        F.FW_DENY_COUNT_COUNT, F.LK_TXSEQ, F.TAG_BUSY, F.TAG_MID, F.TAG_TMO, F.TAG_ADDR, F.TAG_OP, F.TAG_SINCE, F.TAG_N, F.TAG_BUNDLE,
          F.TAG_SIZE, F.TAG_DATA, F.TAG_DOM] [Q.retry, Q.headers] s fun t => t.resp = s.resp ∧
      t.q Q.headers = s.q Q.headers ++ [headerWord (reqOf src op.toNat a.toNat (2 ^ n.val) v.toNat)]) ∧
  (∀ (s : State) (h k : Nat) (rest : List Nat), s.q Q.headers = h :: rest → freeTagOf s = some k →
    dieAnswers s (headerOf h).who (headerOf h).addr = true → Does .heldHeaderTagged [F.STK_TALLY1_ABSORB_C, F.XR_TAGS_MAX,
      F.XR_LOST_LOST_REPLY, F.FAB_DUP_COUNT, F.FAB_DUP_LAST_MID, F.FAB_DUP_LAST_BLOCK, F.FAB_ERR_COUNT, F.LK_TXSEQ, F.TAG_BUSY,
        F.TAG_MID, F.TAG_TMO, F.TAG_ADDR, F.TAG_OP, F.TAG_SINCE, F.TAG_N, F.TAG_BUNDLE, F.TAG_SIZE, F.TAG_DATA, F.TAG_DOM] [Q.retry,
          Q.headers] s fun t => t.q Q.headers = rest ∧
      t.on F.TAG_BUSY k = true ∧ t.rd F.TAG_MID k = h % 256 ∧ t.rd F.TAG_ADDR k = h / 2 ^ 16 % 2 ^ 32) ∧
  (∀ (s : State) (h k : Nat) (rest : List Nat), s.q Q.headers = h :: rest → freeTagOf s = some k → h % 256 ≠ lostCode →
    dieAnswers s (headerOf h).who (headerOf h).addr = false → masterThere s (headerOf h).who = true →
    Does .heldHeaderTagged [F.STK_TALLY1_ABSORB_C, F.XR_TAGS_MAX, F.XR_LOST_LOST_REPLY, F.FAB_DUP_COUNT, F.FAB_DUP_LAST_MID,
      F.FAB_DUP_LAST_BLOCK, F.FAB_ERR_COUNT, F.LK_TXSEQ, F.TAG_BUSY, F.TAG_MID, F.TAG_TMO, F.TAG_ADDR, F.TAG_OP, F.TAG_SINCE, F.TAG_N,
        F.TAG_BUNDLE, F.TAG_SIZE, F.TAG_DATA, F.TAG_DOM] [Q.retry, Q.headers] s fun t => t.q Q.headers = rest ∧
          t.on F.TAG_BUSY k = false ∧ t.resp = ⟨.absent, false, 0⟩) ∧
  (∀ (s : State) (k : BitVec 12), s.on F.TAG_BUSY k.toNat = true → s.rd F.TAG_MID k.toNat ≠ lostCode →
    s.rd F.TAG_SINCE k.toNat + 2000 * s.rd F.TAG_TMO k.toNat ≤ s.time → s.held = [] → Does (.tagTimeout k) [F.STK_TALLY1_ABSORB_C,
      F.XR_TAGS_MAX, F.XR_LOST_LOST_REPLY, F.XR_LATE_LATE, F.FAB_DUP_COUNT, F.FAB_DUP_LAST_MID, F.FAB_DUP_LAST_BLOCK, F.FAB_ERR_COUNT,
        F.LK_TXSEQ, F.TAG_BUSY, F.TAG_MID, F.TAG_TMO, F.TAG_ADDR, F.TAG_OP, F.TAG_SINCE, F.TAG_BUNDLE, F.TAG_SIZE, F.TAG_DATA, F.TAG_DOM]
          [Q.retry] s fun t =>
      t.on F.TAG_BUSY k.toNat = false ∧ t.resp = ⟨.abort, false, 0⟩ ∧
        t.rd F.XR_LATE_LATE = min (s.rd F.XR_LATE_LATE + 1) (2 ^ F.XR_LATE_LATE.w - 1)) ∧
  (∀ (s : State) (k : BitVec 12) (c : Fin 8) (d : Bool) (v : BitVec 256), s.on F.TAG_BUSY k.toNat = true →
    s.time < s.rd F.TAG_SINCE k.toNat + 2000 * s.rd F.TAG_TMO k.toNat → s.rd F.TAG_OP k.toNat ≤ 4 →
    masterThere s (masterAt (s.rd F.TAG_MID k.toNat)) = true → s.rd F.TAG_MID k.toNat ≠ lostCode →
    cDomainLive s (s.rd F.TAG_DOM k.toNat) = true → s.held = [] → Moves (.responseReceive k c d v) [F.STK_TALLY1_ABSORB_C,
      F.LEDGER_CAUSES, F.XR_TAGS_MAX, F.XR_LOST_LOST_REPLY, F.XR_LATE_LATE, F.FAB_DUP_COUNT, F.FAB_DUP_LAST_MID, F.FAB_DUP_LAST_BLOCK,
        F.FAB_ERR_COUNT, F.NVM_ECC_UNC_COUNT, F.LK_TXSEQ, F.LEDGER_PENDING, F.TAG_BUSY, F.TAG_MID, F.TAG_TMO, F.TAG_ADDR, F.TAG_OP,
          F.TAG_SINCE, F.TAG_BUNDLE, F.TAG_SIZE, F.TAG_DATA, F.TAG_DOM, F.PAGE_TALLY] [Q.retry] s fun t =>
      t.on F.TAG_BUSY k.toNat = false ∧ t.resp = ⟨codeOf c.val, d, if c = 0 then v.toNat else 0⟩ ∧
        (tagWrites s k.toNat = false → ∀ x, t.byte x = s.byte x)) ∧
  (∀ (s : State) (k : BitVec 12) (c : Fin 8) (d : Bool) (v : BitVec 256), s.on F.TAG_BUSY k.toNat = false → s.held = [] →
    Does (.responseReceive k c d v) [F.XR_LOST_LOST_REPLY] [] s fun t => t.resp = s.resp ∧
      t.rd F.XR_LOST_LOST_REPLY = min (s.rd F.XR_LOST_LOST_REPLY + 1) (2 ^ F.XR_LOST_LOST_REPLY.w - 1)) ∧
  (∀ (s : State) (sh : Shadow) (rest : List Shadow) (n j : Nat), s.shadows = sh :: rest → shadowDue s = true →
    sliceShadowAt sh.addr = some (n, j) → j < 4 → domOn s (15 + n / 2) = true → Does .shadowWrite [F.XR_SHADOW_ERR_COUNT,
      F.CT_PERIOD_PERIOD, F.CT_PERIOD_ACT_PERIOD, F.CT_CMP_SH_VALUE, F.CT_CMP_SH_FINE, F.CT_CMP_ACT_VALUE, F.CT_CMP_ACT_FINE,
        F.CT_CMP_ACT_EVDIR, F.CT_TALLY_SH_COLL, F.ST_WIDTH_TICKS, F.ST_WIDTH_FINE, F.CT_SHWRIT, F.CT_SHADOW_TICK] [] s fun t =>
      t.shadows = rest ∧ t.rd F.CT_CMP_SH_VALUE n j = sh.data % 2 ^ F.CT_CMP_SH_VALUE.w ∧ t.resp = s.resp) ∧
  (∀ (s : State) (sh : Shadow) (rest : List Shadow), s.shadows = sh :: rest → shadowDue s = true →
    sliceShadowAt sh.addr = none → strobeWidthAt sh.addr = none → Does .shadowWrite [F.XR_SHADOW_ERR_COUNT, F.CT_PERIOD_PERIOD,
      F.CT_PERIOD_ACT_PERIOD, F.CT_CMP_SH_VALUE, F.CT_CMP_SH_FINE, F.CT_CMP_ACT_VALUE, F.CT_CMP_ACT_FINE, F.CT_CMP_ACT_EVDIR,
        F.CT_TALLY_SH_COLL, F.ST_WIDTH_TICKS, F.ST_WIDTH_FINE, F.CT_SHWRIT, F.CT_SHADOW_TICK] [] s fun t =>
      t.shadows = rest ∧ t.resp = s.resp ∧
        t.rd F.XR_SHADOW_ERR_COUNT = min (s.rd F.XR_SHADOW_ERR_COUNT + 1) (2 ^ F.XR_SHADOW_ERR_COUNT.w - 1))

/-- R158, R159, R161, R165, R166: requests to SRAM with good check bits read, write and update memory in one piece; a request
whose die does not answer, or that a firewall refuses, changes nothing but the counts. -/
def Obligations.MemoryRequestsReadWriteAndUpdateSram : Prop :=
  (∀ (s : State) (src : Source) (a : BitVec 32) (n : Fin 6) (k : Nat), SetsOut s (reqOf src 0 a.toNat (2 ^ n.val) 0) →
    targetOf a.toNat = .sram k → s.rd F.DOM_STATE (44 + k) = 2 → fwRefuses s src.who 0 a.toNat = none →
    alignedReq a.toNat (2 ^ n.val) = true → s.bad = [] → Ends (.memoryRead src a n 0) s fun t =>
      t.resp = ⟨.ok, false, s.mget a.toNat (2 ^ n.val)⟩ ∧ Only [F.XR_TAGS_MAX, F.LK_TXSEQ] [Q.retry] s t) ∧
  (∀ (s : State) (src : Source) (a : BitVec 32) (n : Fin 6) (v : BitVec 256) (k : Nat),
    SetsOut s (reqOf src 1 a.toNat (2 ^ n.val) v.toNat) →
    targetOf a.toNat = .sram k → s.rd F.DOM_STATE (44 + k) = 2 → fwRefuses s src.who 1 a.toNat = none →
    alignedReq a.toNat (2 ^ n.val) = true → s.bad = [] → Ends (.memoryWrite src a n v) s fun t =>
      t.resp = ⟨.ok, false, 0⟩ ∧ OnlyRegs [F.XR_TAGS_MAX, F.LK_TXSEQ] [Q.retry] s t ∧
        (∀ j, j < 2 ^ n.val → t.byte (a.toNat + j) = BitVec.ofNat 8 (v.toNat / 2 ^ (8 * j))) ∧
        (∀ x, x < a.toNat ∨ a.toNat + 2 ^ n.val ≤ x → t.byte x = s.byte x)) ∧
  (∀ (s : State) (src : Source) (a : BitVec 32) (wide : Bool) (v : BitVec 64) (k : Nat),
    SetsOut s (reqOf src 3 a.toNat (if wide then 8 else 4) v.toNat) →
    targetOf a.toNat = .sram k → s.rd F.DOM_STATE (44 + k) = 2 → fwRefuses s src.who 3 a.toNat = none →
    alignedReq a.toNat (if wide then 8 else 4) = true → s.bad = [] → Ends (.atomicSwap src a wide v) s fun t =>
      t.resp = ⟨.ok, false, s.mget a.toNat (if wide then 8 else 4)⟩ ∧ OnlyRegs [F.XR_TAGS_MAX, F.LK_TXSEQ] [Q.retry] s t ∧
        (∀ j, j < (if wide then 8 else 4) → t.byte (a.toNat + j) = BitVec.ofNat 8 (v.toNat / 2 ^ (8 * j))) ∧
        (∀ x, x < a.toNat ∨ a.toNat + (if wide then 8 else 4) ≤ x → t.byte x = s.byte x)) ∧
  (∀ (s : State) (src : Source) (a : BitVec 32) (wide : Bool) (v : BitVec 64) (k : Nat),
    SetsOut s (reqOf src 4 a.toNat (if wide then 8 else 4) v.toNat) →
    targetOf a.toNat = .sram k → s.rd F.DOM_STATE (44 + k) = 2 → fwRefuses s src.who 4 a.toNat = none →
    alignedReq a.toNat (if wide then 8 else 4) = true → s.bad = [] → Ends (.atomicAdd src a wide v) s fun t =>
      t.resp = ⟨.ok, false, s.mget a.toNat (if wide then 8 else 4)⟩ ∧ OnlyRegs [F.XR_TAGS_MAX, F.LK_TXSEQ] [Q.retry] s t ∧
        (∀ j, j < (if wide then 8 else 4) → t.byte (a.toNat + j) =
          BitVec.ofNat 8 ((s.mget a.toNat (if wide then 8 else 4) + v.toNat) / 2 ^ (8 * j))) ∧
        (∀ x, x < a.toNat ∨ a.toNat + (if wide then 8 else 4) ≤ x → t.byte x = s.byte x)) ∧
  (∀ (s : State) (src : Source) (a : BitVec 32) (n : Fin 6) (v : BitVec 256), masterLive s src.who = true →
    mustWait s (reqOf src 1 a.toNat (2 ^ n.val) v.toNat) = false → linkHolds s (reqOf src 1 a.toNat (2 ^ n.val) v.toNat) = false →
    dieAnswers s src.who a.toNat = false → Ends (.memoryWrite src a n v) s fun t =>
      t.resp = ⟨.absent, false, 0⟩ ∧ Only [F.FAB_ERR_COUNT, F.LK_TXSEQ] [Q.retry] s t) ∧
  (∀ (s : State) (src : Source) (a : BitVec 32) (n : Fin 6) (v : BitVec 256) (f : Nat),
    SetsOut s (reqOf src 1 a.toNat (2 ^ n.val) v.toNat) →
    fwRefuses s src.who 1 a.toNat = some f → s.on F.FW_STAT_NEW f = false → Ends (.memoryWrite src a n v) s fun t =>
      t.resp = ⟨.firewall, false, 0⟩ ∧ t.rd F.FW_DENY_ADDR_ADDR f = a.toNat ∧ t.on F.FW_STAT_NEW f = true ∧ ∀ x, t.byte x = s.byte x)

/-- R46, R52, R53, R56, R58, R63, R69, R73, R131, R697: the reset pin, TRST_N and the progress watchdog; an upper die comes up; the ROM's
self-check, its image check, cast-on, and the entry of firmware at Tier 2. -/
def Obligations.ResetsAndStartUpClimbTheTiers : Prop :=
  (∀ (s : State) (ns : BitVec 32), railGood s .vdd33 = true → 1000 ≤ ns.toNat → Ends (.resetNLow ns) s fun t =>
    t.on F.RST_CAUSE_PIN = true ∧ t.held = [] ∧ t.stores = []) ∧
  (∀ (s : State) (ns : BitVec 32), ns.toNat < 250 → Ends (.resetNLow ns) s fun t => t = s) ∧
  (∀ s : State, Does .trstNLow [F.TAP_IR, F.BSR_DRIVE] [] s fun t => t.rd F.TAP_IR = 2 ∧ t.on F.BSR_DRIVE = false) ∧
  (∀ s : State, cUp s = true → s.on F.PWD_RUN = true → s.on F.PWD_LEFT = false → s.rd F.PTM_STATE_CUR ≤ 1 →
    Ends .progressWatchdogExpire s fun t => t.rd F.STK_DIESTATE_C_STATE = 1 ∧ t.rd F.STK_DIESTATE_LAST_C_CAUSE = 2 ∧
      t.on F.RST_CAUSE_PWD = true ∧ t.rd F.PWD_LEFT = s.rd F.PWD_CFG_PERIOD % 2 ^ F.PWD_LEFT.w) ∧
  (∀ (s : State) (b : Fin 4), mayRelease s = true → s.rd F.STK_DIESTATE_C_STATE = 2 → s.on F.TIER0_ONLY = false →
    s.on F.SU_TIER_GIVE_UP = false → railGood s .vcore = true → Ends (.upperDieRelease .c b) s fun t =>
      cUp t = true ∧ t.on F.SU_TIER_ROM_PHASE = true ∧ t.rd F.SU_TIER_BOOT_STRAP = b.val ∧ t.on F.HASTASK 0 = true ∧
        t.rd F.PC 0 = 0) ∧
  (∀ (s : State) (b : Fin 4), mayRelease s = true → s.rd F.STK_DIESTATE_M_STATE = 2 → s.on F.M_RETURN = false →
    Ends (.upperDieRelease .m b) s fun t => mUp t = true) ∧
  (∀ s : State, mayRelease s = true → s.rd F.STK_DIESTATE_M_STATE = 2 → s.on F.M_RETURN = true → cUp s = true →
    Ends .mDieReturn s fun t => mUp t = true ∧ t.on F.M_RETURN = false ∧ 7 ∈ t.events) ∧
  (∀ (s : State) (bank : Bool), romRuns s 1 = true → warmPath s = false → Ends (.romSelfCheck false bank) s fun t =>
    t.on F.SU_TIER_GIVE_UP = true ∧ t.rd F.SU_TIER_CAUSE = 5 ∧ t.rd F.STK_DIESTATE_TIER = 0 ∧ cUp t = false) ∧
  (∀ s : State, romRuns s 1 = true → warmPath s = false → s.on F.M_ABSENT = false → s.rd F.SU_TIER_BOOT_STRAP = 0 →
    Ends (.romSelfCheck true true) s fun t => t.rd F.ROM_STAGE = 2) ∧
  (∀ (s : State) (i : Nat), romRuns s 2 = true → warmPath s = false → s.on F.ROM_MLOST = false → s.on F.M_ABSENT = false →
    mUp s = true → nextSlot s = some i → Does .romImageCheck [F.STK_DIESTATE_TIER, F.SU_TIER_CAUSE, F.SU_TIER_RECOVER,
      F.SU_TIER_ROM_PHASE, F.BOOT_LOG_PA, F.BOOT_LOG_PB, F.BOOT_LOG_FA, F.BOOT_LOG_FB, F.PTM_CLKREQ_REQ, F.LG_STAT_STATE,
        F.LG_TALLY_SWALLOW, F.ST_STAT_ACTIVE, F.ST_STAT_CUT, F.HDS_SLOT_FULL, F.HDS_SLOT_NEXT, F.HDS_SLOT_BUSY, F.HDS_SLOT_PLANE,
          F.HDS_TALLY1_INH_LINES, F.HDS_LINES_COUNT, F.CR_STAT_PARTIAL, F.CR_STAT_EPOCH_NEW, F.PT_CTRL_EN, F.PT_CTRL_RX_EN,
            F.PT_CTRL_TX_EN, F.USB_CTRL_CONNECT, F.USB_EPCFG_EN, F.USB_EPCFG_IN, F.USB_EPCFG_INTR, F.USB_EPCFG_DOUBLE, F.USB_EPCFG_BASE,
              F.USB_EPCFG_MAXPKT, F.NVM_ECC_UNC_COUNT, F.NVM_ERR_ADDR_ADDR, F.LK_TXSEQ, F.ROM_STAGE, F.CHOSEN_PAT, F.PAT_FOUND,
                F.CHOSEN_FW, F.IMG_TRIED, F.REC_PADS, F.REC_MODE, F.RT_EDGE, F.CLK_HOLD, F.LG_SIDE, F.LG_DTRUN, F.LG_BLANKING,
                  F.LG_GROUPARM, F.ORPHAN_RUN, F.ST_DELAYED, F.ST_INBURST, F.ROW_DUE, F.HDS_PHASE, F.HDS_BURSTING] [Q.retry,
                    Q.log] s fun t =>
      t.on F.IMG_TRIED i = true ∧
      ((slotCheck s i).code = 1 → i < 2 → t.rd F.CHOSEN_PAT = i ∧ t.on F.PAT_FOUND = true) ∧
      ((slotCheck s i).code = 1 → 2 ≤ i → t.rd F.ROM_STAGE = 3)) ∧
  (∀ s : State, romRuns s 3 = true → s.on F.PAT_ACTIVE_VALID = false → s.on F.SU_TIER_RECOVER = false →
    (castFull (s.down F.CAST_FAILED) (slotAddr (s.rd F.CHOSEN_PAT)) (s.rd F.CHOSEN_PAT) none).on F.CAST_FAILED = false →
    Ends (.castOn none) s fun t => t.on F.PAT_ACTIVE_VALID = true ∧ t.on F.PRE_CAST = false ∧ t.on F.FW_LIVE = true) ∧
  (∀ s : State, romRuns s 4 = true → Moves .firmwareEntry [F.STK_DIESTATE_TIER, F.SU_TIER_CAUSE, F.SU_TIER_FW_SLOT, F.SU_TIER_RECOVER,
    F.SU_TIER_ROM_PHASE, F.WD_COUNT_COUNT, F.DSP_TSTAT_STATE, F.DSP_TSTAT_THREAD, F.MPU_ATTR_EN, F.RELEASED, F.ROM_STAGE, F.HASTASK,
      F.GPR, F.PC, F.TSR, F.TID_TASK, F.FB_LINE, F.LD_PEND, F.DIV_PEND, F.SYNCING, F.WDX_PEND, F.SG_PEND, F.LDX_OK, F.TASK0_BOOT]
        [] s fun t =>
    t.rd F.STK_DIESTATE_TIER = 2 ∧ t.on F.HASTASK 0 = true ∧ t.rd F.ROM_STAGE = 6 ∧
      t.rd F.PC 0 = s.mget (slotAddr (2 + s.rd F.CHOSEN_FW) + 0x14) 4 / 4 * 4 ∧
      (∀ r, 0 < r → r < 16 → t.rd F.GPR 0 r = 0) ∧ t.rd F.TSR 0 = 0)

/-- R80, R81, R87, R88, R96, R201, R204: recovery, the tombstone, the ledger record, and the wake from a power state. -/
def Obligations.RecoveryTombstoneAndWakeFollowTheirRules : Prop :=
  (∀ s : State, recoveryOffers s false = true → s.rd F.REC_PORT = 0 → s.on F.TS_STAT_BUSY = false → s.on F.TS_REQ = false →
    Does .recoveryPrompt [F.PTM_CLKREQ_REQ, F.PT_CTRL_EN, F.PT_CTRL_RX_EN, F.PT_CTRL_TX_EN, F.USB_CTRL_CONNECT, F.USB_EPCFG_EN,
      F.USB_EPCFG_IN, F.USB_EPCFG_INTR, F.USB_EPCFG_DOUBLE, F.USB_EPCFG_BASE, F.USB_EPCFG_MAXPKT, F.REC_PROMPTS, F.CLK_HOLD] [Q.usb,
        Q.romOut] s fun t => t.rd F.REC_PROMPTS = min (s.rd F.REC_PROMPTS + 1) (2 ^ F.REC_PROMPTS.w - 1) ∧
      t.q Q.romOut 1 = [0x50, 0x4B, 0x52, 0x51]) ∧
  (∀ (s : State) (l : List (BitVec 8)), recoveryOffers s false = true → s.rd F.REC_PORT = 0 → s.q Q.recovery 1 = [] →
    l.length < 4 → Moves (.recoveryImageReceive false l) [F.BOOT_LOG_REC, F.BOOT_LOG_ROLLBACK_SKIP, F.WD_COUNT_COUNT, F.DSP_CTRL_EN,
      F.DSP_TASKEN_EN, F.DSP_TSTAT_STATE, F.DSP_TSTAT_THREAD, F.MPU_ATTR_EN, F.CR_STAT_PARTIAL, F.CR_STAT_EPOCH_NEW, F.RELEASED,
        F.ROM_STAGE, F.REC_PORT, F.REC_PADS, F.REC_ANSWER, F.REC_MODE, F.HASTASK, F.GPR, F.PC, F.TSR, F.TID_TASK, F.FB_LINE, F.LD_PEND,
          F.DIV_PEND, F.SYNCING, F.WDX_PEND, F.SG_PEND, F.LDX_OK, F.TASK0_BOOT] [Q.usb, Q.log, Q.recovery, Q.romOut] s fun t =>
      t.q Q.recovery 1 = l.map (·.toNat) ∧ t.rd F.REC_ANSWER = s.rd F.REC_ANSWER) ∧
  (∀ (s : State) (l : List (BitVec 8)), recoveryOffers s false = true → s.rd F.REC_PORT = 0 → s.q Q.recovery 1 = [] →
    4 ≤ l.length → 57344 < ofBytes (l.take 4) → Moves (.recoveryImageReceive false l) [F.BOOT_LOG_REC, F.BOOT_LOG_ROLLBACK_SKIP,
      F.WD_COUNT_COUNT, F.DSP_CTRL_EN, F.DSP_TASKEN_EN, F.DSP_TSTAT_STATE, F.DSP_TSTAT_THREAD, F.MPU_ATTR_EN, F.CR_STAT_PARTIAL,
        F.CR_STAT_EPOCH_NEW, F.RELEASED, F.ROM_STAGE, F.REC_PORT, F.REC_PADS, F.REC_ANSWER, F.REC_MODE, F.HASTASK, F.GPR, F.PC, F.TSR,
          F.TID_TASK, F.FB_LINE, F.LD_PEND, F.DIV_PEND, F.SYNCING, F.WDX_PEND, F.SG_PEND, F.LDX_OK, F.TASK0_BOOT] [Q.usb, Q.log,
            Q.recovery, Q.romOut] s fun t =>
      t.rd F.REC_ANSWER = 4 ∧ t.q Q.romOut 1 = [4] ∧ t.q Q.recovery 1 = [] ∧ t.rd F.REC_PORT = 0) ∧
  (∀ s : State, s.on F.REC_MODE = true → Does .recoveryTransferTimeout [F.REC_PORT] [Q.recovery] s fun t =>
    t.q Q.recovery 1 = [] ∧ t.q Q.recovery 2 = [] ∧ t.rd F.REC_PORT = 0) ∧
  (∀ s : State, s.on F.TS_STAT_BUSY = false → s.rd F.PTM_STATE_CUR ≠ 4 → s.rd F.STK_DIESTATE_TIER ≠ 2 →
    Does .tombstoneBreak [F.REC_PORT, F.TS_REQ] [Q.recovery] s fun t => t.on F.TS_REQ = true) ∧
  (∀ s : State, s.on F.TS_REQ = true → s.on F.TS_STAT_BUSY = false → Does .tombstoneSendStart [F.TS_STAT_BUSY, F.TS_REQ]
    [Q.tombstone] s fun t =>
    t.on F.TS_STAT_BUSY = true ∧ t.on F.TS_REQ = false ∧ (t.q Q.tombstone).length = 48) ∧
  (∀ s : State, s.on F.TS_STAT_BUSY = true → Does .tombstoneSent [F.TS_STAT_BUSY, F.TS_STAT_COUNT] [Q.tombstone] s fun t =>
    t.on F.TS_STAT_BUSY = false ∧
    t.q Q.tombstone = [] ∧ t.rd F.TS_STAT_COUNT = min (s.rd F.TS_STAT_COUNT + 1) (2 ^ F.TS_STAT_COUNT.w - 1)) ∧
  (∀ s : State, s.on F.LEDGER_PENDING = true → mUp s = true → s.on F.PTM_SUPPLY_DROP_WARN = false →
    Does .ledgerRecordWrite [F.LEDGER_PENDING] [Q.log] s fun t => t.on F.LEDGER_PENDING = false ∧
      (t.q Q.log).length = (s.q Q.log).length + 1) ∧
  (∀ s : State, warmPath s = true → romRuns s 1 = true → Ends (.hibernateConfigCheck true) s fun t => t.rd F.ROM_STAGE = 2) ∧
  (∀ s : State, warmPath s = true → romRuns s 1 = true → Ends (.hibernateConfigCheck false) s fun t =>
    t.on F.RST_CAUSE_SOFT = true) ∧
  (∀ s : State, s.on F.WAKING = true → s.rd F.PTM_STATE_CUR = 2 → Ends .wakeResume s fun t =>
    t.rd F.PTM_STATE_CUR = 0 ∧ 3 ∈ t.events ∧ t.rd F.PTM_WAKE_CAUSE_SRC = s.rd F.PTM_WAKE_CAUSE_SRC ||| s.rd F.WAKE_PEND)

/-- R249, R250, R260, R265: an ADC sequence starts, waits or is counted as overrun; a conversion's end turns the level of the selected
input into a code, 0 V to VREF onto the 4,096 codes with the highest code above VREF, writes the result with its stamp and sends the
RESULT flit; an amplifier becomes ready. -/
def Obligations.ConversionsStartAndDeliverResults : Prop :=
  (∀ (s : State) (n : Fin 4), edgeAt s (2 * n.val + 1) true = true → clkTRuns s n.val = true → adLive s n.val = true →
    s.on F.AD_SEQ_B_TRIG_EN n.val = true → s.on F.AD_SEQ n.val 1 = false → s.on F.AD_SEQ n.val 0 = false →
    Does (.adcTrigger n 1) [F.AD_STATUS_BUSY_A, F.AD_STATUS_BUSY_B, F.AD_STATUS_OVR_A, F.AD_STATUS_OVR_B, F.AD_TALLY_TRIG_LOST,
      F.AD_TALLY_PREEMPT, F.RT_EDGE, F.AD_SEQ, F.AD_STEP_NOW, F.AD_OVS_N, F.AD_ACC, F.AD_PAIRED, F.AD_LEN_A, F.AD_LEN_B, F.AD_CONT,
        F.AD_STEPF] [] s fun t => t.rd F.AD_SEQ n.val 1 = 1 ∧ t.on F.AD_STATUS_BUSY_B n.val = true ∧
      t.rd F.AD_STEP_NOW n.val 1 = 4) ∧
  (∀ (s : State) (n : Fin 4), edgeAt s (2 * n.val + 1) true = true → clkTRuns s n.val = true → adLive s n.val = true →
    s.on F.AD_SEQ_B_TRIG_EN n.val = true → s.on F.AD_SEQ n.val 1 = true → Does (.adcTrigger n 1) [F.AD_STATUS_BUSY_A,
      F.AD_STATUS_BUSY_B, F.AD_STATUS_OVR_A, F.AD_STATUS_OVR_B, F.AD_TALLY_TRIG_LOST, F.AD_TALLY_PREEMPT, F.RT_EDGE, F.AD_SEQ,
        F.AD_STEP_NOW, F.AD_OVS_N, F.AD_ACC, F.AD_PAIRED, F.AD_LEN_A, F.AD_LEN_B, F.AD_CONT, F.AD_STEPF] [] s fun t =>
      t.on F.AD_STATUS_OVR_B n.val = true ∧ t.rd F.AD_SEQ n.val 1 = s.rd F.AD_SEQ n.val 1 ∧
      t.rd F.AD_TALLY_TRIG_LOST n.val = min (s.rd F.AD_TALLY_TRIG_LOST n.val + 1) (2 ^ F.AD_TALLY_TRIG_LOST.w - 1)) ∧
  (∀ v : Int, (vref ≤ v → adCode v = 4095) ∧ (v ≤ 0 → adCode v = 0) ∧ (0 ≤ v → v < vref →
    Int.ofNat (adCode v) * vref ≤ v * 4096 ∧ v * 4096 < (Int.ofNat (adCode v) + 1) * vref)) ∧
  (∀ (s : State) (n : Fin 4) (j : Fin 2) (uv : BitVec 32), domOn s n.val = true → s.rd F.AD_SEQ n.val j.val = 1 →
    (j = 1 → s.rd F.AD_SEQ n.val 0 ≠ 1) → bits (s.rd F.AD_STEPF n.val (s.rd F.AD_STEP_NOW n.val j.val)) 8 6 = 0 →
    s.rd F.AD_OVS_N n.val j.val = 0 → s.rd F.AD_ACC n.val j.val = 0 → Does (.adcConversionEnd n uv) [F.AD_STATUS_BUSY_A,
      F.AD_STATUS_BUSY_B, F.AD_STATUS_CHERR, F.AD_STATUS_DMA_OVR, F.AD_RES_VALUE, F.AD_RES_STAMP, F.LG_STAT_STATE, F.LG_TALLY_SWALLOW,
        F.ST_STAT_ACTIVE, F.ST_STAT_CUT, F.HDS_SLOT_FULL, F.HDS_SLOT_NEXT, F.HDS_SLOT_BUSY, F.HDS_SLOT_PLANE, F.HDS_TALLY1_INH_LINES,
          F.HDS_LINES_COUNT, F.YK_STAT_YANK, F.YK_STAT_RUN, F.YK_LAST_Y, F.YK_COUNT_COUNT, F.LK_TXSEQ, F.RT_LEVEL, F.RT_EDGE, F.AD_SEQ,
            F.AD_STEP_NOW, F.AD_OVS_N, F.AD_ACC, F.AD_DMA_REQ, F.AD_LAST, F.AD_LEN_A, F.AD_LEN_B, F.AD_CONT, F.AD_STEPF, F.LG_SIDE,
              F.LG_DTRUN, F.LG_BLANKING, F.LG_GROUPARM, F.ORPHAN_RUN, F.ST_DELAYED, F.ST_INBURST, F.ROW_DUE, F.HDS_PHASE,
                F.HDS_BURSTING, F.HDS_INH] [Q.retry] s fun t =>
      let c := adCode (anLevel s (adInput s n.val (s.rd F.AD_STEPF n.val (s.rd F.AD_STEP_NOW n.val j.val) % 64)) uv.toInt)
      t.rd F.AD_RES_VALUE n.val (s.rd F.AD_STEP_NOW n.val j.val) = 16 * c ∧
      t.rd F.AD_RES_STAMP n.val (s.rd F.AD_STEP_NOW n.val j.val) = s.stamp % 2 ^ 16 ∧
      ((s.rd F.AD_STEPF n.val (s.rd F.AD_STEP_NOW n.val j.val)).testBit 9 = true → cUp s = true →
        t.results = s.results ++ [⟨n.val, s.rd F.AD_STEPF n.val (s.rd F.AD_STEP_NOW n.val j.val) % 64, 16 * c,
          s.stamp, some (bits (s.rd F.AD_STEPF n.val (s.rd F.AD_STEP_NOW n.val j.val)) 15 10)⟩])) ∧
  (∀ (s : State) (a : Fin 8), s.on F.CA_CFG_EN a.val = true → domOn s (5 + a.val / 2) = true → Does (.csaReady a) [F.CA_OK] [] s fun t =>
    t.on F.CA_OK a.val = true)

/-- R268, R269, R271, R279, R281: a comparator's raw output from the level of its input, with its hysteresis; the majority filter; and the
end of a swatch test. -/
def Obligations.ComparatorsFilterAndSwatchTestsEnd : Prop :=
  (∀ (s : State) (c : Fin 24) (v : Int), s.on F.CM_CFG_POL c.val = false →
    ((s.rd F.CM_RAW_RAW).testBit c.val = false →
      cmCompare s c.val v = decide (Int.ofNat (s.rd F.CM_DAC_CODE c.val) * vref < v * 1024)) ∧
    ((s.rd F.CM_RAW_RAW).testBit c.val = true →
      cmCompare s c.val v = decide (Int.ofNat (s.rd F.CM_DAC_CODE c.val) * vref < (v + cmHyst s c.val) * 1024))) ∧
  (∀ (s : State) (c : Fin 24) (uv : BitVec 32), cmLive s c.val = true → cmFrozen s c.val = false →
    Does (.comparatorCrossing c uv) [F.FAULT_CAUSE_TRIP, F.CM_RAW_RAW, F.LG_STAT_STATE, F.LG_STAT_OC, F.LG_STAT_HS, F.LG_STAT_EXT,
      F.LG_STAT_SW, F.LG_TALLY_TRIPS, F.LG_TALLY_SWALLOW, F.BG_STAT_TRIPPED, F.BG_STAT_BRAKE_FB, F.TRIP_FIRST_LEG, F.TRIP_FIRST_KIND,
        F.TRIP_FIRST_TIED, F.TRIP_FIRST_VALID, F.TRIP_FIRST_STAMP_STAMP, F.TRIP_FIRST_MASK_MASK, F.ST_STAT_ACTIVE, F.ST_STAT_CUT,
          F.HDS_SLOT_FULL, F.HDS_SLOT_NEXT, F.HDS_SLOT_BUSY, F.HDS_SLOT_PLANE, F.HDS_TALLY1_INH_LINES, F.HDS_LINES_COUNT, F.LK_TXSEQ,
            F.RT_LEVEL, F.RT_EDGE, F.SW_PENDING_RAW, F.TRIP_TICK, F.LG_SIDE, F.LG_DTRUN, F.LG_BLANKING, F.LG_OCREC, F.LG_GROUPARM,
              F.ORPHAN_RUN, F.ST_DELAYED, F.ST_INBURST, F.ROW_DUE, F.HDS_PHASE, F.HDS_BURSTING, F.HDS_INH] [Q.retry] s fun t =>
      (t.rd F.CM_RAW_RAW).testBit c.val = cmCompare s c.val (anLevel s (cmInput s c.val) uv.toInt)) ∧
  (∀ (s : State) (c : Fin 24) (uv : BitVec 32), cmLive s c.val = true → cmFrozen s c.val = true →
    Does (.comparatorCrossing c uv) [F.FAULT_CAUSE_TRIP, F.CM_RAW_RAW, F.LG_STAT_STATE, F.LG_STAT_OC, F.LG_STAT_HS, F.LG_STAT_EXT,
      F.LG_STAT_SW, F.LG_TALLY_TRIPS, F.LG_TALLY_SWALLOW, F.BG_STAT_TRIPPED, F.BG_STAT_BRAKE_FB, F.TRIP_FIRST_LEG, F.TRIP_FIRST_KIND,
        F.TRIP_FIRST_TIED, F.TRIP_FIRST_VALID, F.TRIP_FIRST_STAMP_STAMP, F.TRIP_FIRST_MASK_MASK, F.ST_STAT_ACTIVE, F.ST_STAT_CUT,
          F.HDS_SLOT_FULL, F.HDS_SLOT_NEXT, F.HDS_SLOT_BUSY, F.HDS_SLOT_PLANE, F.HDS_TALLY1_INH_LINES, F.HDS_LINES_COUNT, F.LK_TXSEQ,
            F.RT_LEVEL, F.RT_EDGE, F.SW_PENDING_RAW, F.TRIP_TICK, F.LG_SIDE, F.LG_DTRUN, F.LG_BLANKING, F.LG_OCREC, F.LG_GROUPARM,
              F.ORPHAN_RUN, F.ST_DELAYED, F.ST_INBURST, F.ROW_DUE, F.HDS_PHASE, F.HDS_BURSTING, F.HDS_INH] [Q.retry] s fun t =>
      t.on F.SW_PENDING_RAW = cmCompare s c.val (anLevel s (cmInput s c.val) uv.toInt) ∧
      t.rd F.CM_RAW_RAW = s.rd F.CM_RAW_RAW) ∧
  (∀ (s : State) (c : Fin 24), domOn s (cmDomain c.val) = true → (s.rd F.PTM_SUPPLY_GOOD).testBit 3 = true →
    cmFrozen s c.val = false → (c.val < 22 → clkTRuns s (cmDomain c.val) = true) → Does (.comparatorFilterSample c) [F.PTM_STATE_REFUSE,
      F.PTM_STATE_ABORTED, F.PTM_STATE_REQ_REQ, F.PTM_WAKE_CAUSE_SRC, F.PTM_SUPPLY_DROP_WARN, F.PTM_DROP_COUNT_COUNT, F.CM_COND_COND,
        F.CM_LATCHED_LATCHED, F.ST_STAT_ACTIVE, F.ST_STAT_CUT, F.HDS_SLOT_FULL, F.HDS_SLOT_NEXT, F.HDS_SLOT_BUSY, F.HDS_SLOT_PLANE,
          F.HDS_TALLY1_INH_LINES, F.HDS_LINES_COUNT, F.LK_TXSEQ, F.RT_LEVEL, F.RT_EDGE, F.DOM_STATE, F.ENTRY_REQ, F.CM_HIST, F.CM_WAIT,
            F.ST_DELAYED, F.ST_INBURST, F.ROW_DUE, F.HDS_PHASE, F.HDS_BURSTING, F.HDS_INH] [Q.retry] s fun t =>
      t.rd F.CM_HIST c.val = (2 * s.rd F.CM_HIST c.val + bnat ((s.rd F.CM_RAW_RAW).testBit c.val)) % 512 ∧
      (t.rd F.CM_COND_COND).testBit c.val =
        decide (cmWindowN s c.val < 2 * popCount (cmWindowN s c.val) (t.rd F.CM_HIST c.val))) ∧
  (∀ (s : State) (m : BitVec 12), s.on F.SW_STAT_BUSY = true → s.rd F.SW_TEST = 2 → Does (.swatchTestDone m) [F.FAULT_CAUSE_TRIP,
    F.LEDGER_CAUSES, F.CM_DAC_CODE, F.CM_RAW_RAW, F.SW_STAT_BUSY, F.SW_STAT_RESULT, F.SW_RESULT_MEAS, F.SW_RESULT_EXPECT,
      F.SW_FAIL_FAIL, F.LG_STAT_STATE, F.LG_STAT_OC, F.LG_STAT_HS, F.LG_STAT_EXT, F.LG_STAT_SW, F.LG_TALLY_TRIPS, F.LG_TALLY_SWALLOW,
        F.BG_STAT_TRIPPED, F.BG_STAT_BRAKE_FB, F.TRIP_FIRST_LEG, F.TRIP_FIRST_KIND, F.TRIP_FIRST_TIED, F.TRIP_FIRST_VALID,
          F.TRIP_FIRST_STAMP_STAMP, F.TRIP_FIRST_MASK_MASK, F.ST_STAT_ACTIVE, F.ST_STAT_CUT, F.HDS_SLOT_FULL, F.HDS_SLOT_NEXT,
            F.HDS_SLOT_BUSY, F.HDS_SLOT_PLANE, F.HDS_TALLY1_INH_LINES, F.HDS_LINES_COUNT, F.LK_TXSEQ, F.LEDGER_PENDING, F.RT_LEVEL,
              F.RT_EDGE, F.SW_FROZEN, F.TRIP_TICK, F.LG_SIDE, F.LG_DTRUN, F.LG_BLANKING, F.LG_OCREC, F.LG_GROUPARM, F.ORPHAN_RUN,
                F.ST_DELAYED, F.ST_INBURST, F.ROW_DUE, F.HDS_PHASE, F.HDS_BURSTING, F.HDS_INH] [Q.retry] s fun t =>
    t.on F.SW_STAT_BUSY = false ∧ t.on F.SW_FROZEN = false ∧ t.rd F.SW_RESULT_MEAS = m.toNat ∧ t.rd F.SW_RESULT_EXPECT = 512 ∧
      96 ∈ t.events ∧ t.rd F.CM_DAC_CODE (s.rd F.SW_CMP) = s.rd F.SW_CODE ∧
      t.rd F.SW_STAT_RESULT = (if m.toNat ≤ 518 ∧ 506 ≤ m.toNat then 0 else 1)) ∧
  (∀ s : State, s.on F.SW_STAT_BUSY = true → s.rd F.SW_TEST = 4 → ad3Idle s = false → Does .swatchAd3Timeout [F.FAULT_CAUSE_TRIP,
    F.CM_DAC_CODE, F.CM_RAW_RAW, F.SW_STAT_BUSY, F.SW_STAT_RESULT, F.LG_STAT_STATE, F.LG_STAT_OC, F.LG_STAT_HS, F.LG_STAT_EXT,
      F.LG_STAT_SW, F.LG_TALLY_TRIPS, F.LG_TALLY_SWALLOW, F.BG_STAT_TRIPPED, F.BG_STAT_BRAKE_FB, F.TRIP_FIRST_LEG, F.TRIP_FIRST_KIND,
        F.TRIP_FIRST_TIED, F.TRIP_FIRST_VALID, F.TRIP_FIRST_STAMP_STAMP, F.TRIP_FIRST_MASK_MASK, F.ST_STAT_ACTIVE, F.ST_STAT_CUT,
          F.HDS_SLOT_FULL, F.HDS_SLOT_NEXT, F.HDS_SLOT_BUSY, F.HDS_SLOT_PLANE, F.HDS_TALLY1_INH_LINES, F.HDS_LINES_COUNT, F.LK_TXSEQ,
            F.RT_LEVEL, F.RT_EDGE, F.SW_FROZEN, F.TRIP_TICK, F.LG_SIDE, F.LG_DTRUN, F.LG_BLANKING, F.LG_OCREC, F.LG_GROUPARM,
              F.ORPHAN_RUN, F.ST_DELAYED, F.ST_INBURST, F.ROW_DUE, F.HDS_PHASE, F.HDS_BURSTING, F.HDS_INH] [Q.retry] s fun t =>
    t.on F.SW_STAT_BUSY = false ∧ t.rd F.SW_STAT_RESULT = 4 ∧ 96 ∈ t.events)

/-- R395, R397, R398, R415: a line starts from the full slot, or is counted; the shift, the latch pulse and the burst of a plane;
the end of a dot-kicker pulse and of its cooling. -/
def Obligations.LinesFirePlaneByPlane : Prop :=
  (∀ (s : State) (p : Nat) (ps : List Nat), edgeAt s 80 true = true → clkTRuns s 34 = true → s.on F.HDS_CTRL_EN = true →
    domOn s 34 = true →
    s.on F.HDS_SLOT_BUSY = false → (s.rd F.HDS_SLOT_FULL).testBit (s.rd F.HDS_SLOT_NEXT) = true →
    onesOf (s.rd F.HDS_PLANES_PEN) 4 = p :: ps → Does .lineStart [F.HDS_SLOT_FULL, F.HDS_SLOT_NEXT, F.HDS_SLOT_BUSY, F.HDS_SLOT_PLANE,
      F.HDS_TALLY0_LINE_OVR, F.HDS_TALLY0_UNDERRUN, F.HDS_TALLY1_INH_LINES, F.HDS_LINES_COUNT, F.LK_TXSEQ, F.RT_EDGE, F.ROW_DUE,
        F.HDS_PHASE, F.HDS_NEXTPLANE, F.HDS_SHIFTED, F.HDS_G_DOTS, F.HDS_G_LANES2, F.HDS_G_PEN, F.HDS_G_MUL, F.HDS_WCAP, F.HDS_INH]
          [Q.retry] s fun t => t.on F.HDS_SLOT_BUSY = true ∧
      t.rd F.HDS_SLOT_PLANE = p ∧ t.rd F.HDS_PHASE = 1 ∧ t.rd F.HDS_SLOT_NEXT = s.rd F.HDS_SLOT_NEXT) ∧
  (∀ s : State, edgeAt s 80 true = true → clkTRuns s 34 = true → s.on F.HDS_CTRL_EN = true → domOn s 34 = true →
    s.on F.HDS_SLOT_BUSY = true →
    Does .lineStart [F.HDS_SLOT_FULL, F.HDS_SLOT_NEXT, F.HDS_SLOT_BUSY, F.HDS_SLOT_PLANE, F.HDS_TALLY0_LINE_OVR, F.HDS_TALLY0_UNDERRUN,
      F.HDS_TALLY1_INH_LINES, F.HDS_LINES_COUNT, F.LK_TXSEQ, F.RT_EDGE, F.ROW_DUE, F.HDS_PHASE, F.HDS_NEXTPLANE, F.HDS_SHIFTED,
        F.HDS_G_DOTS, F.HDS_G_LANES2, F.HDS_G_PEN, F.HDS_G_MUL, F.HDS_WCAP, F.HDS_INH] [Q.retry] s fun t =>
          t.rd F.HDS_TALLY0_LINE_OVR = min (s.rd F.HDS_TALLY0_LINE_OVR + 1) (2 ^ F.HDS_TALLY0_LINE_OVR.w - 1) ∧
      t.events = s.events ++ [101]) ∧
  (∀ s : State, edgeAt s 80 true = true → clkTRuns s 34 = true → s.on F.HDS_CTRL_EN = true → domOn s 34 = true →
    s.on F.HDS_SLOT_BUSY = false →
    (s.rd F.HDS_SLOT_FULL).testBit (s.rd F.HDS_SLOT_NEXT) = false → Does .lineStart [F.HDS_SLOT_FULL, F.HDS_SLOT_NEXT, F.HDS_SLOT_BUSY,
      F.HDS_SLOT_PLANE, F.HDS_TALLY0_LINE_OVR, F.HDS_TALLY0_UNDERRUN, F.HDS_TALLY1_INH_LINES, F.HDS_LINES_COUNT, F.LK_TXSEQ, F.RT_EDGE,
        F.ROW_DUE, F.HDS_PHASE, F.HDS_NEXTPLANE, F.HDS_SHIFTED, F.HDS_G_DOTS, F.HDS_G_LANES2, F.HDS_G_PEN, F.HDS_G_MUL, F.HDS_WCAP,
          F.HDS_INH] [Q.retry] s fun t =>
      t.rd F.HDS_TALLY0_UNDERRUN = min (s.rd F.HDS_TALLY0_UNDERRUN + 1) (2 ^ F.HDS_TALLY0_UNDERRUN.w - 1) ∧
      t.events = s.events ++ [101]) ∧
  (∀ s : State, s.rd F.HDS_PHASE = 1 → s.rd F.HDS_G_DOTS ≤ 1024 → Does .planeShiftDone [F.HDS_PHASE, F.HDS_SHIFTED, F.HDS_LANE,
    F.HDS_SHIFTREG] [] s fun t => t.rd F.HDS_PHASE = 2 ∧
    t.on F.HDS_SHIFTED = true ∧
    t.rd F.HDS_SHIFTREG = hdsPlane s (s.rd F.HDS_SLOT_NEXT) (s.rd F.HDS_NEXTPLANE) % 2 ^ s.rd F.HDS_G_DOTS) ∧
  (∀ s : State, s.rd F.HDS_PHASE = 2 → s.on F.HDS_BURSTING = false → Does .latchPulseStart [F.HDS_PHASE, F.HDS_LATCHED] [] s fun t =>
    t.rd F.HDS_PHASE = 3 ∧ t.rd F.HDS_LATCHED = s.rd F.HDS_SHIFTREG) ∧
  (∀ (s : State) (n : Fin 8), s.rd F.HDS_PHASE = 3 → domOn s 33 = true → (s.rd F.ST_CTRL_EN).testBit n.val = true →
    (s.rd F.ST_STAT_ACTIVE).testBit n.val = false → Does .latchPulseEnd [F.ST_TALLY_ST_OVERRUN, F.ST_TALLY_CLAMP, F.HDS_SLOT_FULL,
      F.HDS_SLOT_NEXT, F.HDS_SLOT_BUSY, F.HDS_SLOT_PLANE, F.HDS_TALLY1_INH_LINES, F.HDS_LINES_COUNT, F.LK_TXSEQ, F.RT_EDGE, F.ST_WTICK,
        F.ST_WFINE, F.ST_DELAYED, F.ST_INBURST, F.ST_PLANE, F.ROW_DUE, F.HDS_PHASE, F.HDS_BURSTING, F.HDS_NEXTPLANE, F.HDS_SHIFTED,
          F.HDS_WCAP, F.HDS_W, F.HDS_INH] [Q.retry] s fun t =>
      t.on F.ST_INBURST n.val = true ∧ t.on F.ST_DELAYED n.val = true ∧ t.on F.HDS_BURSTING = true ∧
      (∀ k, nextPlane s (s.rd F.HDS_NEXTPLANE + 1) = some k → t.rd F.HDS_PHASE = 1 ∧ t.rd F.HDS_SLOT_PLANE = k) ∧
      (nextPlane s (s.rd F.HDS_NEXTPLANE + 1) = none → t.rd F.HDS_PHASE = 4)) ∧
  (∀ (s : State) (d : Fin 2), (s.rd F.DK_STAT_ACTIVE).testBit d.val = true → Does (.dkPulseEnd d) [F.DK_STAT_ACTIVE, F.DK_STAT_COOLING,
    F.LK_TXSEQ] [Q.retry] s fun t =>
    (t.rd F.DK_STAT_ACTIVE).testBit d.val = false ∧ t.events = s.events ++ [105] ∧
      (s.on F.DK_CFG_OFF_MS d.val = true → (t.rd F.DK_STAT_COOLING).testBit d.val = true)) ∧
  (∀ (s : State) (d : Fin 2), Does (.dkCoolEnd d) [F.DK_STAT_COOLING] [] s fun t => (t.rd F.DK_STAT_COOLING).testBit d.val = false)

/-- R290, R294, R295: the count of a slice in up, down and one-shot mode, its period event, and its start and synchronise edges;
R306, R310, R312: captures, quadrature steps and the index. -/
def Obligations.SlicesCountAndCapturesQueue : Prop :=
  (∀ (s : State) (n : Fin 16), ctUpper s n.val = false → ctLive s n.val = true → s.on F.CT_CTRL_RUN n.val = true →
    s.on F.CT_SYNC n.val = false → ctPaired s n.val = false → Does (.sliceStep n) [F.CM_LATCHED_LATCHED, F.CT_CTRL_RUN,
      F.CT_COUNT_COUNT, F.CT_COUNT_DIR, F.CT_PERIOD_ACT_PERIOD, F.CT_CMP_ACT_VALUE, F.CT_CMP_ACT_FINE, F.CT_CMP_ACT_EVDIR,
        F.LG_STAT_STATE, F.LG_TALLY_SWALLOW, F.LK_TXSEQ, F.RT_LEVEL, F.RT_EDGE, F.CM_WAIT, F.CT_SHWRIT, F.CT_SYNC, F.CT_REFV, F.LG_REF,
          F.LG_SIDE, F.LG_DTRUN, F.LG_BLANKING, F.LG_GROUPARM, F.ORPHAN_RUN, F.ROW_DUE] [Q.retry] s fun t =>
      (s.rd F.CT_CFG_MODE n.val = 0 ∨ s.rd F.CT_CFG_MODE n.val = 3 → t.rd F.CT_COUNT_COUNT n.val =
        if max 2 (s.rd F.CT_PERIOD_ACT_PERIOD n.val) ≤ s.rd F.CT_COUNT_COUNT n.val then 0
        else s.rd F.CT_COUNT_COUNT n.val + 1) ∧
      (s.rd F.CT_CFG_MODE n.val = 1 → t.rd F.CT_COUNT_COUNT n.val =
        if s.rd F.CT_COUNT_COUNT n.val = 0 then max 2 (s.rd F.CT_PERIOD_ACT_PERIOD n.val)
        else s.rd F.CT_COUNT_COUNT n.val - 1) ∧
      (s.rd F.CT_CFG_MODE n.val = 3 → t.rd F.CT_COUNT_COUNT n.val = max 2 (s.rd F.CT_PERIOD_ACT_PERIOD n.val) →
        t.on F.CT_CTRL_RUN n.val = false) ∧
      (s.rd F.CT_CFG_MODE n.val = 0 → s.on F.CT_EVT_PSTART n.val = true → t.rd F.CT_COUNT_COUNT n.val = 0 →
        16 + n.val ∈ t.events)) ∧
  (∀ (s : State) (n : Fin 16), edgeAt s (32 + n.val) true = true → s.on F.CT_CTRL_START_EN n.val = true →
    ctLive s n.val = true → ctUpper s n.val = false → Does (.sliceStartEdge n) [F.CT_CTRL_RUN, F.RT_EDGE] [] s fun t =>
      t.on F.CT_CTRL_RUN n.val = true) ∧
  (∀ (s : State) (n : Fin 16), edgeAt s (16 + n.val) true = true → s.on F.CT_CTRL_SYNC_EN n.val = true →
    ctLive s n.val = true → ctUpper s n.val = false → Does (.sliceSyncEdge n) [F.RT_EDGE, F.CT_SYNC] [] s fun t =>
      t.on F.CT_SYNC n.val = true) ∧
  (∀ (s : State) (n : Fin 16) (r : Bool), captureEdgeWanted s n.val (pinSees s (32 + n.val) r) = true →
    domOn s (23 + n.val / 4) = true → clkTRuns s (23 + n.val / 4) = true → s.on F.CP_CFG_SRC n.val = false →
    (s.q Q.capture n.val).length < 4 → Does (.captureEdge n r) [F.LG_STAT_STATE, F.LG_TALLY_SWALLOW, F.CP_STAT_OVF, F.QD_POS_POS,
      F.QD_POS_DIR, F.QD_ERR_COUNT, F.CUT_STAT_HOMED, F.LK_TXSEQ, F.RT_EDGE, F.LG_SIDE, F.LG_DTRUN, F.LG_BLANKING, F.LG_GROUPARM,
        F.ORPHAN_RUN, F.QD_AB, F.ROW_DUE] [Q.retry, Q.capture] s fun t =>
      t.q Q.capture n.val = s.q Q.capture n.val ++ [captureTime s n.val + bnat (pinSees s (32 + n.val) r) * 2 ^ 24] ∧
      t.rd F.CP_STAT_OVF = s.rd F.CP_STAT_OVF) ∧
  (∀ (s : State) (n : Fin 16) (r : Bool), captureEdgeWanted s n.val r = true → domOn s (23 + n.val / 4) = true →
    clkTRuns s (23 + n.val / 4) = true → s.on F.CP_CFG_SRC n.val = true → edgeAt s (48 + n.val) r = true →
    (s.q Q.capture n.val).length < 4 → Does (.captureEdge n r) [F.LG_STAT_STATE, F.LG_TALLY_SWALLOW, F.CP_STAT_OVF, F.QD_POS_POS,
      F.QD_POS_DIR, F.QD_ERR_COUNT, F.CUT_STAT_HOMED, F.LK_TXSEQ, F.RT_EDGE, F.LG_SIDE, F.LG_DTRUN, F.LG_BLANKING, F.LG_GROUPARM,
        F.ORPHAN_RUN, F.QD_AB, F.ROW_DUE] [Q.retry, Q.capture] s fun t =>
      t.q Q.capture n.val = s.q Q.capture n.val ++ [captureTime s n.val + bnat r * 2 ^ 24]) ∧
  (∀ (s : State) (n : Fin 16) (r : Bool), captureEdgeWanted s n.val (pinSees s (32 + n.val) r) = true →
    domOn s (23 + n.val / 4) = true → clkTRuns s (23 + n.val / 4) = true → s.on F.CP_CFG_SRC n.val = false →
    4 ≤ (s.q Q.capture n.val).length →
    Does (.captureEdge n r) [F.LG_STAT_STATE, F.LG_TALLY_SWALLOW, F.CP_STAT_OVF, F.QD_POS_POS, F.QD_POS_DIR, F.QD_ERR_COUNT,
      F.CUT_STAT_HOMED, F.LK_TXSEQ, F.RT_EDGE, F.LG_SIDE, F.LG_DTRUN, F.LG_BLANKING, F.LG_GROUPARM, F.ORPHAN_RUN, F.QD_AB, F.ROW_DUE]
        [Q.retry, Q.capture] s fun t =>
      t.q Q.capture n.val = s.q Q.capture n.val ∧ (t.rd F.CP_STAT_OVF).testBit n.val = true) ∧
  (∀ (s : State) (q : Fin 2) (a b : Bool), domOn s 27 = true → clkTRuns s 27 = true → s.on F.QD_CFG_EN q.val = true →
    let ab := bnat (pinSees s (32 + 2 * q.val) a) + 2 * bnat (pinSees s (33 + 2 * q.val) b)
    let fwd := decide (qdNext (s.rd F.QD_AB q.val) = ab) != s.on F.QD_CFG_SWAP q.val
    s.rd F.QD_AB q.val ≠ ab → s.rd F.QD_AB q.val + ab ≠ 3 → Does (.qdTransition q a b) [F.LG_STAT_STATE, F.LG_TALLY_SWALLOW,
      F.CP_STAT_OVF, F.QD_POS_POS, F.QD_POS_DIR, F.QD_ERR_COUNT, F.CUT_STAT_HOMED, F.LK_TXSEQ, F.RT_EDGE, F.LG_SIDE, F.LG_DTRUN,
        F.LG_BLANKING, F.LG_GROUPARM, F.ORPHAN_RUN, F.QD_AB, F.ROW_DUE] [Q.retry, Q.capture] s fun t =>
      t.rd F.QD_AB q.val = ab ∧ t.rd F.QD_ERR_COUNT q.val = s.rd F.QD_ERR_COUNT q.val ∧
      (fwd = true → t.on F.QD_POS_DIR q.val = false ∧ t.rd F.QD_POS_POS q.val =
        if s.rd F.QD_MAX_MAX q.val ≤ s.rd F.QD_POS_POS q.val then 0 else s.rd F.QD_POS_POS q.val + 1) ∧
      (fwd = false → t.on F.QD_POS_DIR q.val = true ∧ t.rd F.QD_POS_POS q.val =
        if s.rd F.QD_POS_POS q.val = 0 then s.rd F.QD_MAX_MAX q.val else s.rd F.QD_POS_POS q.val - 1)) ∧
  (∀ (s : State) (q : Fin 2) (l : Bool), domOn s 27 = true → clkTRuns s 27 = true → s.on F.QD_CFG_EN q.val = true →
    s.rd F.PIN_CFG_FUNC (16 + q.val) = 5 → pinSees s (16 + q.val) l = true →
    s.on F.QD_CFG_IDX_EN q.val = true → s.on F.QD_CFG_IDX_RST q.val = true → Does (.qdIndexEdge ⟨q, l⟩) [F.QD_POS_POS,
      F.QD_IDXPOS_IDXPOS, F.LK_TXSEQ, F.RT_EDGE, F.ROW_DUE] [Q.retry] s fun t =>
      t.rd F.QD_IDXPOS_IDXPOS q.val = s.rd F.QD_POS_POS q.val ∧ t.rd F.QD_POS_POS q.val = 0)

/-- R313, R321, R322, R332: REF edges and dead time, the end of blanking, the external trip, and a strobe's burst. -/
def Obligations.LegsTripAndStrobesFire : Prop :=
  (∀ (s : State) (k : Fin 16), domOn s (28 + k.val / 4) = true → Does (.legRefEdge k) [F.LG_TALLY_SWALLOW, F.LG_REF, F.LG_SIDE,
    F.LG_DTRUN, F.LG_BLANKING] [] s fun t =>
    t.on F.LG_REF k.val 0 = (legWant s k.val).1 ∧ t.on F.LG_REF k.val 1 = (legWant s k.val).2 ∧
      t.rd F.LG_STAT_STATE k.val = s.rd F.LG_STAT_STATE k.val) ∧
  (∀ (s : State) (k : Fin 16), domOn s (28 + k.val / 4) = true → 2 ≤ s.rd F.LG_STAT_STATE k.val →
    (legWant s k.val).1 = false → Does (.legRefEdge k) [F.LG_TALLY_SWALLOW, F.LG_REF, F.LG_SIDE, F.LG_DTRUN, F.LG_BLANKING] [] s fun t =>
      t.on F.LG_SIDE k.val 0 = false) ∧
  (∀ (s : State) (k : Fin 16) (j : Fin 2), s.on F.LG_DTRUN k.val j.val = true → Does (.deadTimeExpire k j) [F.LG_SIDE, F.LG_DTRUN,
    F.LG_BLANKING] [] s fun t =>
    t.on F.LG_DTRUN k.val j.val = false ∧ t.on F.LG_SIDE k.val j.val = true) ∧
  (∀ (s : State) (k : Fin 16), s.on F.LG_BLANKING k.val = true → rawOf s (s.rd F.LG_TRIPCFG_OC_CMP k.val) = true →
    Does (.blankWindowEnd k) [F.FAULT_CAUSE_TRIP, F.LG_STAT_STATE, F.LG_STAT_OC, F.LG_STAT_HS, F.LG_STAT_EXT, F.LG_STAT_SW,
      F.LG_STAT_BLANKED, F.LG_TALLY_TRIPS, F.LG_TALLY_BLANKED, F.LG_TALLY_SWALLOW, F.BG_STAT_TRIPPED, F.BG_STAT_BRAKE_FB,
        F.TRIP_FIRST_LEG, F.TRIP_FIRST_KIND, F.TRIP_FIRST_TIED, F.TRIP_FIRST_VALID, F.TRIP_FIRST_STAMP_STAMP, F.TRIP_FIRST_MASK_MASK,
          F.LK_TXSEQ, F.RT_LEVEL, F.RT_EDGE, F.TRIP_TICK, F.LG_SIDE, F.LG_DTRUN, F.LG_BLANKING, F.LG_OCREC, F.LG_GROUPARM, F.ORPHAN_RUN]
            [Q.retry] s fun t => t.on F.LG_STAT_OC k.val = true) ∧
  (∀ (s : State) (k : Fin 16), s.on F.LG_BLANKING k.val = true → rawOf s (s.rd F.LG_TRIPCFG_OC_CMP k.val) = false →
    s.on F.LG_OCREC k.val = true → Does (.blankWindowEnd k) [F.FAULT_CAUSE_TRIP, F.LG_STAT_STATE, F.LG_STAT_OC, F.LG_STAT_HS,
      F.LG_STAT_EXT, F.LG_STAT_SW, F.LG_STAT_BLANKED, F.LG_TALLY_TRIPS, F.LG_TALLY_BLANKED, F.LG_TALLY_SWALLOW, F.BG_STAT_TRIPPED,
        F.BG_STAT_BRAKE_FB, F.TRIP_FIRST_LEG, F.TRIP_FIRST_KIND, F.TRIP_FIRST_TIED, F.TRIP_FIRST_VALID, F.TRIP_FIRST_STAMP_STAMP,
          F.TRIP_FIRST_MASK_MASK, F.LK_TXSEQ, F.RT_LEVEL, F.RT_EDGE, F.TRIP_TICK, F.LG_SIDE, F.LG_DTRUN, F.LG_BLANKING, F.LG_OCREC,
            F.LG_GROUPARM, F.ORPHAN_RUN] [Q.retry] s fun t => t.on F.LG_BLANKING k.val = false ∧
      t.on F.LG_STAT_BLANKED k.val = true ∧ t.rd F.LG_STAT_STATE k.val = s.rd F.LG_STAT_STATE k.val ∧
      t.rd F.LG_TALLY_BLANKED k.val = min (s.rd F.LG_TALLY_BLANKED k.val + 1) (2 ^ F.LG_TALLY_BLANKED.w - 1)) ∧
  (∀ (s : State) (k : Fin 16), edgeAt s (64 + k.val) true = true → s.on F.LG_CFG_EXT_EN k.val = true →
    domOn s (28 + k.val / 4) = true → Does (.legExtTrip k) [F.FAULT_CAUSE_TRIP, F.LG_STAT_STATE, F.LG_STAT_OC, F.LG_STAT_HS,
      F.LG_STAT_EXT, F.LG_STAT_SW, F.LG_TALLY_TRIPS, F.LG_TALLY_SWALLOW, F.BG_STAT_TRIPPED, F.BG_STAT_BRAKE_FB, F.TRIP_FIRST_LEG,
        F.TRIP_FIRST_KIND, F.TRIP_FIRST_TIED, F.TRIP_FIRST_VALID, F.TRIP_FIRST_STAMP_STAMP, F.TRIP_FIRST_MASK_MASK, F.LK_TXSEQ,
          F.RT_LEVEL, F.RT_EDGE, F.TRIP_TICK, F.LG_SIDE, F.LG_DTRUN, F.LG_BLANKING, F.LG_GROUPARM, F.ORPHAN_RUN] [Q.retry] s fun t =>
            t.on F.LG_STAT_EXT k.val = true) ∧
  (∀ (s : State) (n : Fin 8), edgeAt s 81 true = true → clkTRuns s 33 = true → s.on F.ST_CTRL_ROUTE_EN = true → domOn s 33 = true →
    (s.rd F.ST_CTRL_EN).testBit n.val = true → (s.rd F.ST_STAT_ACTIVE).testBit n.val = false →
    Does .strobeBurstStart [F.ST_TALLY_ST_OVERRUN, F.ST_TALLY_CLAMP, F.RT_EDGE, F.ST_WTICK, F.ST_WFINE, F.ST_DELAYED, F.ST_INBURST,
      F.ST_PLANE, F.ROW_DUE] [] s fun t => t.on F.ST_DELAYED n.val = true ∧ t.on F.ST_INBURST n.val = true ∧
      t.rd F.ST_WTICK n.val = min (s.rd F.ST_WIDTH_TICKS n.val) (s.rd F.ST_LIMIT_LIMIT)) ∧
  (∀ (s : State) (n : Fin 8), s.on F.ST_DELAYED n.val = true → strobesInhibited s = false →
    Does (.strobeActivate n) [F.ST_STAT_ACTIVE, F.HDS_SLOT_FULL, F.HDS_SLOT_NEXT, F.HDS_SLOT_BUSY, F.HDS_SLOT_PLANE,
      F.HDS_TALLY1_INH_LINES, F.HDS_LINES_COUNT, F.LK_TXSEQ, F.RT_EDGE, F.ST_DELAYED, F.ST_INBURST, F.ROW_DUE, F.HDS_PHASE,
        F.HDS_BURSTING] [Q.retry] s fun t => t.on F.ST_DELAYED n.val = false ∧ (t.rd F.ST_STAT_ACTIVE).testBit n.val = true) ∧
  (∀ (s : State) (n : Fin 8), s.on F.ST_DELAYED n.val = true → strobesInhibited s = true →
    Does (.strobeActivate n) [F.ST_STAT_ACTIVE, F.HDS_SLOT_FULL, F.HDS_SLOT_NEXT, F.HDS_SLOT_BUSY, F.HDS_SLOT_PLANE,
      F.HDS_TALLY1_INH_LINES, F.HDS_LINES_COUNT, F.LK_TXSEQ, F.RT_EDGE, F.ST_DELAYED, F.ST_INBURST, F.ROW_DUE, F.HDS_PHASE,
        F.HDS_BURSTING] [Q.retry] s fun t => t.on F.ST_DELAYED n.val = false ∧ t.rd F.ST_STAT_ACTIVE = s.rd F.ST_STAT_ACTIVE) ∧
  (∀ (s : State) (n : Fin 8), (s.rd F.ST_STAT_ACTIVE).testBit n.val = true → Does (.strobeWidthEnd n) [F.ST_STAT_ACTIVE,
    F.HDS_SLOT_FULL, F.HDS_SLOT_NEXT, F.HDS_SLOT_BUSY, F.HDS_SLOT_PLANE, F.HDS_TALLY1_INH_LINES, F.HDS_LINES_COUNT, F.LK_TXSEQ,
      F.RT_EDGE, F.ST_INBURST, F.ROW_DUE, F.HDS_PHASE, F.HDS_BURSTING] [Q.retry] s fun t =>
    (t.rd F.ST_STAT_ACTIVE).testBit n.val = false ∧ t.on F.ST_INBURST n.val = false)

/-- R203, R342, R351 (law PI), R354, R357, R361, R362, R370: row triggers, RESULT flits, the PI law with a constant reference and no
output-stage feature in Q16.16, a slot that is off, and the end of a table copy. -/
def Obligations.LoopEngineStitchesItsSlots : Prop :=
  (∀ (s : State) (r : Fin 16), rowMay s r.val = true → cUp s = true → (s.rd F.LE_ROWEN_EN).testBit r.val = true → domOn s 35 = true →
    s.on F.PTM_STATE_ONFRC = false → leLive s = true → rowN s r.val ≠ 0 →
    (s.rd F.LE_ROWSTAT_PENDING).testBit r.val = false → s.on F.LE_ROWSTAT_ACTIVE = false → Ends (.rowTrigger r) s fun t =>
      (t.rd F.LE_ROWSTAT_PENDING).testBit r.val = true ∧ t.events = s.events ++ [240 + r.val]) ∧
  (∀ (s : State) (r : Fin 16), rowMay s r.val = true → cUp s = true → (s.rd F.LE_ROWEN_EN).testBit r.val = true → domOn s 35 = true →
    s.on F.PTM_STATE_ONFRC = false → leLive s = true → (s.rd F.LE_ROWSTAT_PENDING).testBit r.val = true →
    Ends (.rowTrigger r) s fun t => t.on F.LE_EVT_ROW_OVR = true ∧ t.events = s.events ++ [240 + r.val, 176] ∧
      t.rd F.LE_TALLY0_ROW_OVR = min (s.rd F.LE_TALLY0_ROW_OVR + 1) (2 ^ F.LE_TALLY0_ROW_OVR.w - 1)) ∧
  (∀ (s : State) (r : Fin 16), rowMay s r.val = true → cUp s = true → (s.rd F.LE_ROWEN_EN).testBit r.val = true → domOn s 35 = true →
    s.on F.PTM_STATE_ONFRC = true → s.on F.PTM_CLKSTAT_PLL = false → Ends (.rowTrigger r) s fun t =>
      (t.rd F.ROW_HELD).testBit r.val = true ∧ t.rd F.LE_ROWSTAT_PENDING = s.rd F.LE_ROWSTAT_PENDING ∧ t.events = s.events) ∧
  (∀ (s : State) (n : Nat), leLive s = true → readyExpress s = some n → s.bad = [] →
    s.rd F.LE_SLOT_CFG_LAW n = 1 → s.on F.LE_SLOT_STAT_ECC_OFF n = false → s.on F.LE_SLOT_CFG_FMT n = false →
    s.rd F.LE_SLOT_CFG1_MEAS n = 0xFF → leP s n 1 = 0xFF → (s.rd F.LE_CLR0_CLR).testBit n = false →
    (s.rd F.LE_CLR1_CLR).testBit (n - 32) = false →
    -(2 ^ 63) ≤ lePI s n 16 * lePI s n 0 + sw s n 0 * 2 ^ 16 + lePI s n 17 * lePI s n 0 →
    lePI s n 16 * lePI s n 0 + sw s n 0 * 2 ^ 16 + lePI s n 17 * lePI s n 0 < 2 ^ 63 →
    Ends (.expressStitch 0) s fun t => t.on F.LE_READY n = false ∧
      t.rd F.LE_Y n = patternOf 32 (clampInt (lePI s n 4) (lePI s n 5)
        (sat32 (roundShift (lePI s n 16 * lePI s n 0 + sw s n 0 * 2 ^ 16 + lePI s n 17 * lePI s n 0) 16))) ∧
      (s.rd F.LE_CLAMP n = 0 → sw t n 0 = sat32 (roundShift (sw s n 0 * 2 ^ 16 + lePI s n 17 * lePI s n 0) 16))) ∧
  (∀ s : State, leLive s = true → readyExpress s = none → s.on F.LE_ROWSTAT_ACTIVE = true →
    rowSlot s (s.rd F.LE_ROWSTAT_ROW) (s.rd F.LE_POS) < 48 →
    s.rd F.LE_SLOT_CFG_LAW (rowSlot s (s.rd F.LE_ROWSTAT_ROW) (s.rd F.LE_POS)) = 0 → s.rd F.LE_CLR0_CLR = 0 →
    s.rd F.LE_CLR1_CLR = 0 → s.rd F.PAT_LIVE_STAT_STATE ≠ 3 → Ends (.stitch 0) s fun t =>
      t.shadows = s.shadows ∧ (∀ n, t.rd F.LE_Y n = s.rd F.LE_Y n) ∧
      (s.rd F.LE_POS + 1 < rowN s (s.rd F.LE_ROWSTAT_ROW) →
        t.rd F.LE_POS = s.rd F.LE_POS + 1 ∧ t.on F.LE_ROWSTAT_ACTIVE = true) ∧
      (rowN s (s.rd F.LE_ROWSTAT_ROW) ≤ s.rd F.LE_POS + 1 →
        t.rd F.LE_POS = 0 ∧ t.on F.LE_ROWSTAT_ACTIVE = false)) ∧
  (∀ (s : State) (r : Result) (rest : List Result) (n : Nat), s.results = r :: rest → r.slot = some n → n < 48 →
    domOn s 114 = true → resultDue s = true → Does .resultReceive [F.LE_EVT_XOVR, F.LE_TALLY0_XOVR, F.LE_LATCH, F.LE_FRESH, F.LE_NEWRES,
      F.LE_READY, F.LE_READY_AT] [] s fun t => t.results = rest ∧
      t.rd F.LE_LATCH n r.ad = r.value % 2 ^ F.LE_LATCH.w ∧ t.on F.LE_FRESH n r.ad = true ∧
      (s.on F.LE_SLOT_CFG_EXPRESS n = true → s.on F.LE_READY n = false → s.rd F.LE_SLOT_CFG1_XTRIG n % 16 ≠ 0 →
        (∀ j, j < 4 → (s.rd F.LE_SLOT_CFG1_XTRIG n % 16).testBit j = true → j = r.ad ∨ s.on F.LE_FRESH n j = true) →
        t.on F.LE_READY n = true)) ∧
  (∀ (s : State) (k : Fin 4), s.on F.LE_COPY k.val = true → s.on F.LE_TBUSY_SNAP k.val = false →
    s.on F.LE_TBUSY_PRE k.val = true → s.rd F.LE_LT_CTL_LEN k.val ≤ 1024 → Moves (.ltCopyDone k) [F.LE_LT_CTL_BUSY, F.LK_TXSEQ,
      F.LE_TBUSY_PRE, F.LE_TBUSY_SNAP, F.LE_COPY] [Q.retry] s fun t =>
      t.on F.LE_LT_CTL_BUSY k.val = false ∧ t.on F.LE_TBUSY_PRE k.val = false ∧ t.events = s.events ++ [177] ∧
      (∀ i, i < s.rd F.LE_LT_CTL_LEN k.val → t.mget (ltValue k.val i) 4 = s.mget (ltPreload k.val i) 4) ∧
      (∀ a, a < ltValue k.val 0 ∨ ltValue k.val (s.rd F.LE_LT_CTL_LEN k.val) ≤ a → t.byte a = s.byte a))

/-- R404, R408: the half-tone unit takes a line, waits for a free slot, and commits it. -/
def Obligations.HalfToneUnitTakesAndCommitsLines : Prop :=
  (∀ s : State, hcuLive s = true → s.on F.HCU_HELD = false → s.rd F.HCU_IN_RD_RD ≠ s.rd F.HCU_IN_WR_WR →
    linesWait s 44 (hcuLineAddr s) (hcuWords s) = false → engineWaits s 44 0 hdsSlotAddr 4 0 = false →
    (engineLines (s.up F.HCU_STAT_BUSY) 44 (hcuLineAddr s) (hcuWords s)).2.2 = none → Ends .hcuLineProcess s fun t =>
      t.rd F.HCU_CUR =
        ofBytes (engineLines (s.up F.HCU_STAT_BUSY) 44 (hcuLineAddr s) (hcuWords s)).2.1 % 2 ^ hcuDots s) ∧
  (∀ (s : State) (c : Code), hcuLive s = true → s.on F.HCU_HELD = false → s.rd F.HCU_IN_RD_RD ≠ s.rd F.HCU_IN_WR_WR →
    linesWait s 44 (hcuLineAddr s) (hcuWords s) = false → engineWaits s 44 0 hdsSlotAddr 4 0 = false →
    (engineLines (s.up F.HCU_STAT_BUSY) 44 (hcuLineAddr s) (hcuWords s)).2.2 = some c → Ends .hcuLineProcess s fun t =>
      t.on F.HCU_STAT_ERR = true ∧ t.rd F.HCU_STAT_ECODE = 1 ∧ t.rd F.HCU_STAT_RESP = c.num ∧
        t.on F.HCU_STAT_BUSY = false ∧ 102 ∈ t.events) ∧
  (∀ s : State, hcuLive s = true → s.rd F.HCU_HELD = 1 → engineWaits s 44 0 hdsSlotAddr 4 0 = false →
    okay (agentAccess s 44 0 hdsSlotAddr 4 0) = true →
    (agentAccess s 44 0 hdsSlotAddr 4 0).resp.data.testBit (s.rd F.HCU_SLOT) = true → Ends .hcuSlotPoll s fun t =>
      t.rd F.HCU_HELD = 1 ∧ t.rd F.HCU_CUR = s.rd F.HCU_CUR ∧ ∀ a, t.byte a = s.byte a) ∧
  (∀ s : State, hcuLive s = true → s.rd F.HCU_HELD = 2 →
    engineWaits s 44 1 hdsCommitAddr 4 (2 ^ s.rd F.HCU_SLOT) = false →
    okay (agentAccess s 44 1 hdsCommitAddr 4 (2 ^ s.rd F.HCU_SLOT)) = true → Ends .hcuCommit s fun t =>
      t.rd F.HCU_HELD = 0 ∧ t.on F.HCU_STAT_BUSY = false ∧ t.rd F.HCU_SLOT = 1 - s.rd F.HCU_SLOT ∧
      t.rd F.HCU_H1 = s.rd F.HCU_CUR ∧ t.rd F.HCU_H2 = s.rd F.HCU_H1 ∧
      (s.on F.HCU_CTRL_EVT = true → 103 ∈ t.events)) ∧
  (∀ s : State, hcuLive s = true → s.rd F.HCU_HELD = 2 →
    engineWaits s 44 1 hdsCommitAddr 4 (2 ^ s.rd F.HCU_SLOT) = false →
    okay (agentAccess s 44 1 hdsCommitAddr 4 (2 ^ s.rd F.HCU_SLOT)) = false → Ends .hcuCommit s fun t =>
      t.on F.HCU_STAT_ERR = true ∧ t.rd F.HCU_STAT_ECODE = 3 ∧ t.rd F.HCU_IN_RD_RD = s.rd F.HCU_IN_RD_RD)

/-- R616, R617, R618, R620, R621: check contexts on a serial-link frame, scrub passes, the choice of the next context, and a feed write
that has waited. -/
def Obligations.CheckContextsFollowFramesAndPasses : Prop :=
  (∀ (s : State) (x : Nat), cxOn s 3 = some x → s.rd F.SL_STAGE 0 = 1 → Does (.cxFrameStart 2) [F.CX_STAT_FRAME, F.CX_VALUE_S, F.CX_RDY,
    F.MOD_STAGE, F.SL_STAGE] [] s fun t =>
    t.on F.CX_STAT_FRAME x = true ∧ t.rd F.SL_STAGE 0 = 2 ∧ t.rd F.CX_VALUE_S x = cxCut s x (s.rd F.CX_INIT_INIT x)) ∧
  (∀ (s : State) (x : Nat), cxOn s 3 = some x → s.rd F.SL_STAGE 0 = 2 → Does (.cxAppend true) [F.CX_STAT_FRAME, F.CX_VALUE_S,
    F.CX_RESULT_RESULT, F.CX_RDY, F.CX_OUT, F.CX_OUTN, F.TX_ACTIVE, F.MOD_STAGE, F.SL_STAGE] [Q.frames] s fun t =>
    t.on F.CX_STAT_FRAME x = false ∧ t.rd F.CX_OUTN x = cxBytes s x ∧
      t.rd F.CX_RESULT_RESULT x = cxResult (cxFold s x (byteList (s.q Q.frames 5 0))) x) ∧
  (∀ (s : State) (x : Nat) (l : List (BitVec 8)), cxOn s 4 = some x → s.rd F.SL_STAGE 1 = 2 → l.length < cxBytes s x →
    Does (.cxStrip true l) [F.CX_STAT_MISMATCH, F.CX_STAT_FRAME, F.CX_VALUE_S, F.CX_RESULT_RESULT, F.CX_TALLY_MISMATCHES,
      F.CX_TALLY_RUNT, F.LK_TXSEQ, F.CX_RDY, F.CX_SRES, F.MOD_STAGE, F.SL_STAGE] [Q.retry, Q.frames] s fun t =>
        t.on F.CX_STAT_MISMATCH x = true ∧ t.on F.CX_STAT_FRAME x = false ∧
      t.rd F.CX_TALLY_RUNT x = min (s.rd F.CX_TALLY_RUNT x + 1) (2 ^ F.CX_TALLY_RUNT.w - 1) ∧
      t.rd F.CX_TALLY_MISMATCHES x = min (s.rd F.CX_TALLY_MISMATCHES x + 1) (2 ^ F.CX_TALLY_MISMATCHES.w - 1) ∧
      t.q Q.frames 5 1 = []) ∧
  (∀ (s : State) (x : Nat) (l : List (BitVec 8)), cxOn s 4 = some x → s.rd F.SL_STAGE 1 = 2 → cxBytes s x ≤ l.length →
    s.on F.CX_CFG_ORDER x = false →
    ofBytes (l.drop (l.length - cxBytes s x)) = cxResult (cxFold s x (l.take (l.length - cxBytes s x))) x →
    Does (.cxStrip true l) [F.CX_STAT_MISMATCH, F.CX_STAT_FRAME, F.CX_VALUE_S, F.CX_RESULT_RESULT, F.CX_TALLY_MISMATCHES,
      F.CX_TALLY_RUNT, F.LK_TXSEQ, F.CX_RDY, F.CX_SRES, F.MOD_STAGE, F.SL_STAGE] [Q.retry, Q.frames] s fun t =>
        t.rd F.CX_STAT_MISMATCH x = s.rd F.CX_STAT_MISMATCH x ∧
      t.rd F.CX_TALLY_MISMATCHES x = s.rd F.CX_TALLY_MISMATCHES x ∧
      t.q Q.frames 5 1 = (l.take (l.length - cxBytes s x)).map (·.toNat)) ∧
  (∀ (s : State) (x : Fin 16), masterLive s (.unit 45) = true → cxMode s x.val = 3 → s.on F.CX_SCRUB_PERIOD_MS x.val = true →
    s.on F.CX_PASS x.val = false → Does (.cxScrubPeriod x) [F.CX_STAT_BUSY, F.CX_STAT_DONE, F.CX_STAT_MATCH, F.CX_STAT_MISMATCH,
      F.CX_VALUE_S, F.CX_TALLY_SCRUB_LATE, F.CX_PASS] [] s fun t => t.on F.CX_PASS x.val = true ∧
      t.on F.CX_STAT_BUSY x.val = true ∧ t.on F.CX_STAT_DONE x.val = false) ∧
  (∀ (s : State) (x : Fin 16), masterLive s (.unit 45) = true → cxMode s x.val = 3 → s.on F.CX_SCRUB_PERIOD_MS x.val = true →
    s.on F.CX_PASS x.val = true → Does (.cxScrubPeriod x) [F.CX_STAT_BUSY, F.CX_STAT_DONE, F.CX_STAT_MATCH, F.CX_STAT_MISMATCH,
      F.CX_VALUE_S, F.CX_TALLY_SCRUB_LATE, F.CX_PASS] [] s fun t => t.rd F.CX_TALLY_SCRUB_LATE x.val =
      min (s.rd F.CX_TALLY_SCRUB_LATE x.val + 1) (2 ^ F.CX_TALLY_SCRUB_LATE.w - 1)) ∧
  (∀ (s : State) (x : Fin 16), masterLive s (.unit 45) = true → s.on F.CX_PASS x.val = true →
    s.rd F.CX_SCRUB_LEN_LEN x.val = 0 → Ends (.cxScrubPassEnd x) s fun t => t.on F.CX_PASS x.val = false ∧
      t.on F.CX_STAT_BUSY x.val = false ∧ t.on F.CX_STAT_DONE x.val = true ∧
      t.rd F.CX_RESULT_RESULT x.val = cxResult s x.val) ∧
  (∀ s : State, cxPortReady s ((s.rd F.CX_NEXT + 1) % 16) = true → s.held = [] → Does .cxSlice [F.CX_NEXT, F.CX_RDY] [] s fun t =>
    t.rd F.CX_NEXT = (s.rd F.CX_NEXT + 1) % 16) ∧
  (∀ (s : State) (x : Fin 16), (∀ y : Fin 16, y ≠ x → cxPortReady s y.val = false) → cxPortReady s x.val = true →
    s.held = [] → Does .cxSlice [F.CX_NEXT, F.CX_RDY] [] s fun t => t.rd F.CX_NEXT = x.val ∧ t.on F.CX_RDY x.val = false) ∧
  (∀ (s : State) (x : Fin 16), s.held = [] → (∀ y : Fin 16, cxPortReady s y.val = false ∧ (y ≠ x → s.on F.CX_PASS y.val = false)) →
    s.on F.CX_PASS x.val = true → Does .cxSlice [F.CX_NEXT, F.CX_RDY] [] s fun t => t.rd F.CX_NEXT = x.val) ∧
  (∀ (s : State) (x : Fin 16) (r : Held), (∀ y : Fin 16, cxPortReady s y.val = false) → s.held = [r] →
    feedOf r = some x.val → r.size ≤ 32 → masterThere s r.who = true → Does .cxSlice [F.STK_TALLY1_ABSORB_C, F.XR_TAGS_MAX,
      F.XR_LOST_LOST_REPLY, F.FAB_DUP_COUNT, F.FAB_DUP_LAST_MID, F.FAB_DUP_LAST_BLOCK, F.FAB_ERR_COUNT, F.CX_VALUE_S, F.LK_TXSEQ,
        F.CX_NEXT] [Q.retry] s fun t =>
      t.held = [] ∧ t.resp = ⟨.ok, false, 0⟩ ∧ t.rd F.CX_NEXT = x.val ∧
      t.rd F.CX_VALUE_S x.val = crcFold (cxWidth s x.val) (cxCut s x.val (s.rd F.CX_POLY_POLY x.val)) (s.on F.CX_CFG_REFIN x.val)
        (cxCut s x.val (s.rd F.CX_VALUE_S x.val)) (toBytes r.size r.data))

/-- R498, R502, R507, R517: what a post does to its task, how a free thread takes a task, the end of a context save, and the
end of a load window. -/
def Obligations.TasksArePostedDispatchedAndSaved : Prop :=
  (∀ (s : State) (e : Fin 256), eventDue s e.val = true → cUp s = true → domOn s 116 = true → s.on F.BIND_EN e.val = true →
    Moves (.eventPost e) [F.STK_TALLY1_ABSORB_C, F.LEDGER_CAUSES, F.XR_TAGS_MAX, F.XR_LOST_LOST_REPLY, F.FAB_DUP_COUNT,
      F.FAB_DUP_LAST_MID, F.FAB_DUP_LAST_BLOCK, F.FAB_ERR_COUNT, F.PTM_STATE_CUR, F.PTM_STATE_LAST, F.PTM_WAKE_CAUSE_DISPATCH,
        F.DSP_QDEPTH_MAX, F.DSP_PREEMPTS_COUNT, F.DSP_SIGNALS_COUNT, F.DSP_COALESCE_COUNT, F.DSP_DROPPED_COUNT, F.DSP_ERR_TASK,
          F.DSP_ERR_CODE, F.DSP_ERR_NEW, F.TRC_WR_WR, F.TRC_CFG_EN, F.TRC_LOST_COUNT, F.DSP_TSTAT_STATE, F.DSP_TSTAT_PENDING,
            F.DSP_TSTAT_SIGNALLED, F.FW_STAT_MID, F.FW_STAT_WRITE, F.FW_STAT_NEW, F.FW_DENY_ADDR_ADDR, F.FW_DENY_COUNT_COUNT,
              F.NVM_ECC_UNC_COUNT, F.NVM_ERR_ADDR_ADDR, F.LK_TXSEQ, F.LEDGER_PENDING, F.SG_PEND, F.SG_INFO, F.POST_STAMP, F.PEND_STAMP,
                F.STAMP_LIVE, F.SAVE_FOR, F.TASK_NEW, F.PAGE_TALLY] [Q.retry, Q.ready, Q.log] s fun t =>
      (taskState s (s.rd F.BIND_TASK e.val) = 0 ∨ taskState s (s.rd F.BIND_TASK e.val) = 3 →
        taskEnabled s (s.rd F.BIND_TASK e.val) = true → taskState t (s.rd F.BIND_TASK e.val) = 1) ∧
      (taskState s (s.rd F.BIND_TASK e.val) = 1 → taskEnabled s (s.rd F.BIND_TASK e.val) = true →
        taskState t (s.rd F.BIND_TASK e.val) = 1 ∧
        t.rd F.DSP_COALESCE_COUNT = min (s.rd F.DSP_COALESCE_COUNT + 1) (2 ^ F.DSP_COALESCE_COUNT.w - 1)) ∧
      (taskState s (s.rd F.BIND_TASK e.val) = 2 → taskEnabled s (s.rd F.BIND_TASK e.val) = true →
        taskRerun s (s.rd F.BIND_TASK e.val) = true → t.on F.DSP_TSTAT_PENDING (s.rd F.BIND_TASK e.val) = true) ∧
      (taskState s (s.rd F.BIND_TASK e.val) = 4 ∨ taskEnabled s (s.rd F.BIND_TASK e.val) = false →
        taskState t (s.rd F.BIND_TASK e.val) = taskState s (s.rd F.BIND_TASK e.val) ∧
        t.rd F.DSP_DROPPED_COUNT = min (s.rd F.DSP_DROPPED_COUNT + 1) (2 ^ F.DSP_DROPPED_COUNT.w - 1))) ∧
  (∀ (s : State) (k t0 : Nat), cUp s = true → domOn s 116 = true → s.on F.DSP_CTRL_EN = true → romHolds s = false →
    nextTask s = some k →
    ((List.range 40).find? fun t => threadFree s t && mayRun s k t) = some t0 → s.on F.DSP_TSTAT_SAVED k = false →
    Moves .taskDispatch [F.STK_TALLY1_ABSORB_C, F.LEDGER_CAUSES, F.XR_TAGS_MAX, F.XR_LOST_LOST_REPLY, F.FAB_DUP_COUNT,
      F.FAB_DUP_LAST_MID, F.FAB_DUP_LAST_BLOCK, F.FAB_ERR_COUNT, F.PTM_STATE_CUR, F.PTM_STATE_LAST, F.PTM_WAKE_CAUSE_DISPATCH,
        F.STK_LIM_LIMIT, F.WD_COUNT_COUNT, F.DSP_PREEMPTS_COUNT, F.DSP_SIGNALS_COUNT, F.DSP_ERR_TASK, F.DSP_ERR_CODE, F.DSP_ERR_NEW,
          F.TRC_WR_WR, F.TRC_CFG_EN, F.TRC_LOST_COUNT, F.DSP_TSTAT_STATE, F.DSP_TSTAT_PENDING, F.DSP_TSTAT_SAVED, F.DSP_TSTAT_SIGNALLED,
            F.DSP_TSTAT_THREAD, F.FW_STAT_MID, F.FW_STAT_WRITE, F.FW_STAT_NEW, F.FW_DENY_ADDR_ADDR, F.FW_DENY_COUNT_COUNT,
              F.NVM_ECC_UNC_COUNT, F.NVM_ERR_ADDR_ADDR, F.LK_TXSEQ, F.LEDGER_PENDING, F.HASTASK, F.GPR, F.PC, F.TSR, F.XSR, F.XPC,
                F.XCAUSE, F.XINFO, F.XADDR, F.TID_TASK, F.TRMASK, F.SCRATCH, F.FB_LINE, F.LD_PEND, F.DIV_PEND, F.SYNCING, F.WDX_PEND,
                  F.SG_PEND, F.SG_INFO, F.LDX_OK, F.SAVE_FOR, F.TASK_NEW, F.OLD_W0, F.TASK0_BOOT, F.PAGE_TALLY] [Q.retry, Q.ready,
                    Q.log] s fun t => taskState t k = 2 ∧ t.rd F.DSP_TSTAT_THREAD k = t0 ∧ t.on F.HASTASK t0 = true ∧
      t.rd F.PC (mainOf s t0) = 4 * s.rd F.TASK_W1_ENTRY k ∧ t.rd F.GPR (mainOf s t0) 0 = s.rd F.TASK_W3_ARG k ∧
      t.rd F.GPR (mainOf s t0) 15 = s.rd F.TASK_W2_SP k ∧ ∀ r, 0 < r → r < 15 → t.rd F.GPR (mainOf s t0) r = 0) ∧
  (∀ (s : State) (u : Fin 40), s.on F.SAVE_FOR u.val = true → (∀ v ∈ copiesOf s u.val, s.on F.LD_PEND v = false) →
    (∀ v ∈ copiesOf s u.val, s.on F.DIV_PEND v = false) → saveHeld s = false →
      s.on F.DSP_TSTAT_SAVED (s.rd F.SAVE_FOR u.val - 1) = false →
    runningTask s u.val ≠ s.rd F.SAVE_FOR u.val - 1 → Moves (.contextSaveDone u) [F.STK_TALLY1_ABSORB_C, F.LEDGER_CAUSES, F.XR_TAGS_MAX,
      F.XR_LOST_LOST_REPLY, F.FAB_DUP_COUNT, F.FAB_DUP_LAST_MID, F.FAB_DUP_LAST_BLOCK, F.FAB_ERR_COUNT, F.PTM_STATE_CUR,
        F.PTM_STATE_LAST, F.PTM_WAKE_CAUSE_DISPATCH, F.STK_LIM_LIMIT, F.WD_COUNT_COUNT, F.DSP_QDEPTH_MAX, F.DSP_PREEMPTS_COUNT,
          F.DSP_SIGNALS_COUNT, F.DSP_ERR_TASK, F.DSP_ERR_CODE, F.DSP_ERR_NEW, F.TRC_WR_WR, F.TRC_CFG_EN, F.TRC_LOST_COUNT,
            F.DSP_TSTAT_STATE, F.DSP_TSTAT_PENDING, F.DSP_TSTAT_SAVED, F.DSP_TSTAT_SIGNALLED, F.DSP_TSTAT_THREAD, F.FW_STAT_MID,
              F.FW_STAT_WRITE, F.FW_STAT_NEW, F.FW_DENY_ADDR_ADDR, F.FW_DENY_COUNT_COUNT, F.NVM_ECC_UNC_COUNT, F.NVM_ERR_ADDR_ADDR,
                F.LK_TXSEQ, F.LEDGER_PENDING, F.HASTASK, F.GPR, F.PC, F.TSR, F.XSR, F.XPC, F.XCAUSE, F.XINFO, F.XADDR, F.TID_TASK,
                  F.TRMASK, F.SCRATCH, F.FB_LINE, F.LD_PEND, F.DIV_PEND, F.SYNCING, F.WDX_PEND, F.SG_PEND, F.SG_INFO, F.LDX_OK,
                    F.SAVE_FOR, F.TASK_NEW, F.OLD_W0, F.TASK0_BOOT, F.PAGE_TALLY] [Q.retry, Q.ready, Q.log] s fun t =>
      taskState t (s.rd F.SAVE_FOR u.val - 1) = 2 ∧ t.on F.HASTASK u.val = true) ∧
  (∀ (s : State) (c : Fin 5), 2 ^ loadN s ≤ s.rd F.WIN_CYC c.val → Does (.loadWindowEnd c) [F.DSP_LOAD_ISSUE, F.DSP_LOAD_BUSY,
    F.WIN_CYC, F.WIN_ISSUE, F.WIN_BUSY] [] s fun t =>
    t.rd F.DSP_LOAD_ISSUE c.val = min 65535 (s.rd F.WIN_ISSUE c.val / 2 ^ (loadN s - 16)) ∧
    t.rd F.DSP_LOAD_BUSY c.val = min 65535 (s.rd F.WIN_BUSY c.val / 2 ^ (loadN s - 13)) ∧
    t.rd F.WIN_CYC c.val = 0 ∧ t.rd F.WIN_ISSUE c.val = 0 ∧ t.rd F.WIN_BUSY c.val = 0)

/-- R553, R558, R560, R561, R568, R569, R575: the supervisor pair's sense lines, window classes, re-seed, rate interval, the two
hinges and the replay of debug writes. -/
def Obligations.SupervisorPairComparesAndHinges : Prop :=
  (∀ (s : State) (n : Fin 16) (b : Bool), cUp s = true → Does (.senseLineChange n 0 b) [F.SENSE_M, F.SENSE_C] [] s fun t =>
    (t.rd F.SENSE_M).testBit n.val = senseLevel s n.val b ∧ t.rd F.SENSE_C = s.rd F.SENSE_C) ∧
  (∀ s : State, s.rd F.SP_STAT_MODE = 0 → s.on F.SP_STAT_RESEEDING = false → cUp s = true → domOn s 112 = true →
    s.rd F.SP_CFG_WINDOW ≤ s.rd F.SP_WCYC → Ends .spWindowClassify s fun t =>
      (windowClass s = 0 → t.on F.SP_STAT_RESEEDING = false ∧ t.rd F.SP_WCYC = 0 ∧ t.rd F.SIG_CM = 0xFFFFFFFF ∧
        t.rd F.SIG_CC = 0xFFFFFFFF ∧ t.rd F.SP_WINDOWS_COUNT = min (s.rd F.SP_WINDOWS_COUNT + 1) (2 ^ F.SP_WINDOWS_COUNT.w - 1)) ∧
      (windowClass s = 1 → s.rd F.SP_RATE_COUNT + 1 < max 1 (s.rd F.SP_DIVCFG_DIV_LIM) →
        t.on F.SP_STAT_RESEEDING = true ∧ t.rd F.SP_STAT_LAST = 1 ∧ t.rd F.SP_SIG_IM_SIG = s.rd F.SIG_IM ∧
        t.rd F.SP_TALLY0_DIVERGE = min (s.rd F.SP_TALLY0_DIVERGE + 1) (2 ^ F.SP_TALLY0_DIVERGE.w - 1)) ∧
      (windowClass s = 2 → s.rd F.SP_CFG_REACT = 0 → t.on F.SP_STAT_RESEEDING = true ∧ t.rd F.SP_STAT_LAST = 2 ∧
        t.on F.SP_EVT_MISMATCH = true ∧ 9 ∈ t.events ∧ t.on F.FAULT_CAUSE_SP_MISMATCH = true)) ∧
  (∀ s : State, s.on F.SP_STAT_RESEEDING = true → loadsOpen s mainCopies = false → s.rd F.HINGE_HELD = 0 →
    Ends .spReseedDone s fun t => t.on F.SP_STAT_RESEEDING = false ∧ ∀ u : Fin 8,
      t.rd F.PC (40 + u.val) = s.rd F.PC (32 + u.val) ∧ ∀ r : Fin 16, t.rd F.GPR (40 + u.val) r.val = s.rd F.GPR (32 + u.val) r.val) ∧
  (∀ s : State, Does .spRateInterval [F.SP_RATE_COUNT, F.RATE_AGE] [] s fun t => (s.rd F.SP_DIVCFG_RATE_MS ≤ s.rd F.RATE_AGE →
    t.rd F.SP_RATE_COUNT = 0 ∧ t.rd F.RATE_AGE = 0) ∧
    (s.rd F.RATE_AGE < s.rd F.SP_DIVCFG_RATE_MS → t.rd F.SP_RATE_COUNT = s.rd F.SP_RATE_COUNT)) ∧
  (∀ s : State, s.rd F.SP_STAT_MODE = 3 → s.rd F.HINGE_KIND = 1 → s.on F.SP_STAT_RESEEDING = false →
    loadsOpen s (mainCopies ++ mainCopies.map (· + 8)) = false → s.on F.HINGE_SEEN = false → windowClass s = 0 →
    Ends .spSplitHinge s fun t => t.rd F.SP_STAT_MODE = 1 ∧ t.on F.SP_EVT_HINGE_DONE = true ∧ 11 ∈ t.events) ∧
  (∀ s : State, s.rd F.SP_STAT_MODE = 3 → s.rd F.HINGE_KIND = 2 → loadsOpen s [32, 33, 34, 35, 44, 45, 46, 47] = false →
    s.stores = [] → Ends .spRejoinHinge s fun t => t.rd F.SP_STAT_MODE = 0 ∧ 11 ∈ t.events ∧
      t.rd F.SIG_CM = 0xFFFFFFFF ∧ (∀ (u : Fin 4) (r : Fin 16), t.rd F.GPR (40 + u.val) r.val = s.rd F.GPR (32 + u.val) r.val) ∧
      (∀ (u : Fin 4) (r : Fin 16), t.rd F.GPR (36 + u.val) r.val = s.rd F.GPR (44 + u.val) r.val)) ∧
  (∀ (s : State) (e : Nat) (r : List Nat), s.q Q.replay = e :: r → s.held = [] → e / 2 ^ 8 % 2 ^ 24 < 16 →
    Does .spReplayApply [F.GPR, F.PC, F.TSR, F.XSR, F.XPC, F.XCAUSE, F.XINFO, F.XADDR, F.XVEC, F.TRMASK, F.CYC, F.SCRATCH, F.FB_LINE]
      [Q.replay] s fun t => t.q Q.replay = r ∧
      t.rd F.GPR (40 + e % 256) (e / 2 ^ 8 % 2 ^ 24) = e / 2 ^ 32 % 2 ^ 32)

/-- R584, R591, R593, R595, R603: a channel fetches and checks a descriptor, moves data through its buffer, completes the
descriptor in write-back mode, is paced and stopped; a failed fetch halts it. -/
def Obligations.ChannelsFetchMoveAndComplete : Prop :=
  (∀ (s : State) (n : Fin 32), dcState s n.val = 1 → dcWaits s n.val (dcFetchRequest s n.val) = false →
    targetOf (32 * s.rd F.DC_NEXT_NEXT n.val) = .sram ((32 * s.rd F.DC_NEXT_NEXT n.val - 0x20000000) / 0x10000) →
    okay (dcServe s n.val (dcFetchRequest s n.val)) = true →
    ((dcServe s n.val (dcFetchRequest s n.val)).resp.data).testBit 96 = true → Ends (.descriptorFetched n) s fun t =>
      t.rd F.DC_CUR_CUR n.val = s.rd F.DC_NEXT_NEXT n.val ∧
      t.rd F.DC_SRC n.val = (dcServe s n.val (dcFetchRequest s n.val)).resp.data % 2 ^ 32 ∧
      t.rd F.DC_DST n.val = (dcServe s n.val (dcFetchRequest s n.val)).resp.data / 2 ^ 32 % 2 ^ 32 ∧
      t.rd F.DC_LEN n.val = (dcServe s n.val (dcFetchRequest s n.val)).resp.data / 2 ^ 64 % 2 ^ 24 + 1 ∧
      t.rd F.DC_STAT_STATE n.val = (if t.rd F.DC_STAT_STATUS n.val = 1 then 2 else 3) ∧
      t.rd F.DC_RDONE n.val = 0 ∧ t.rd F.DC_WDONE n.val = 0) ∧
  (∀ (s : State) (n : Fin 32), dcState s n.val = 1 → dcWaits s n.val (dcFetchRequest s n.val) = false →
    okay (dcServe s n.val (dcFetchRequest s n.val)) = false → Ends (.descriptorFetched n) s fun t =>
      t.rd F.DC_STAT_STATE n.val = 5 ∧ t.rd F.DC_ERR_PHASE n.val = 1 ∧
      t.rd F.DC_ERR_RESP n.val = (dcServe s n.val (dcFetchRequest s n.val)).resp.code.num ∧
      (t.rd F.DMA_HALTED_HALTED).testBit n.val = true ∧ 224 ∈ t.events) ∧
  (∀ (s : State) (n : Fin 32) (a z k : Nat), dcState s n.val = 2 → dcRuns s n.val = true → dcCtl s n.val 12 = false →
    dcNextRead s n.val = some (a, z) → dcWaits s n.val (dcRequest n.val 0 a z 0) = false → targetOf a = .sram k →
    okay (dcServe s n.val (dcRequest n.val 0 a z 0)) = true → Ends (.dmaReadResponse n) s fun t =>
      t.q Q.dmaBuf n.val = s.q Q.dmaBuf n.val ++ (s.bytes a z).map (·.toNat) ∧
      t.rd F.DC_RDONE n.val = (s.rd F.DC_RDONE n.val + z) % 2 ^ F.DC_RDONE.w ∧ ∀ x, t.byte x = s.byte x) ∧
  (∀ (s : State) (n : Fin 32) (a z k : Nat) (now later : List Nat), dcState s n.val = 2 → dcRuns s n.val = true →
    dcNextWrite s n.val = some (a, z) → s.q Q.dmaBuf n.val = now ++ later → now.length = z → (∀ b ∈ now, b < 256) →
    targetOf a = .sram k →
    dcWaits s n.val (dcRequest n.val 1 a z (ofBytes (now.map (BitVec.ofNat 8)))) = false →
    okay (dcServe s n.val (dcRequest n.val 1 a z (ofBytes (now.map (BitVec.ofNat 8))))) = true →
    Ends (.dmaWriteResponse n) s fun t => t.q Q.dmaBuf n.val = later ∧ (t.bytes a z).map (·.toNat) = now ∧
      (∀ x, x < a ∨ a + z ≤ x → t.byte x = s.byte x) ∧
      t.rd F.DC_WDONE n.val = (s.rd F.DC_WDONE n.val + z) % 2 ^ F.DC_WDONE.w) ∧
  (∀ (s : State) (n : Fin 32) (k : Nat), dcState s n.val = 3 → dcCtl s n.val 9 = false → dcCtl s n.val 11 = false →
    s.rd F.DC_STAT_STATUS n.val = 1 → dcWaits s n.val (dcRequest n.val 1 (dcCurAddr s n.val + 0xC) 4 0) = false →
    targetOf (dcCurAddr s n.val) = .sram k →
    (dcPut s n.val (dcCurAddr s n.val + 0x14) 4 (dcStatusWord s n.val)).2 = true →
    (dcPut (dcPut s n.val (dcCurAddr s n.val + 0x14) 4 (dcStatusWord s n.val)).1 n.val (dcCurAddr s n.val + 0xC) 4
      (dcCtrlWord s n.val)).2 = true → Ends (.descriptorComplete n) s fun t =>
      t.rd F.DC_STAT_STATE n.val = 1 ∧ t.rd F.DC_NEXT_NEXT n.val = s.rd F.DC_DNEXT n.val / 32 ∧
      t.mget (dcCurAddr s n.val + 0xC) 4 = dcCtrlWord s n.val % 2 ^ 32 ∧
      (dcCtl s n.val 10 = true → 192 + n.val ∈ t.events)) ∧
  (∀ (s : State) (k : Fin 8), edgeAt s (440 + k.val) true = true → cUp s = true →
    Does (.dmaPaceRequest ⟨32 + k.val, by omega⟩) [F.RT_EDGE, F.AD_DMA_REQ, F.DC_PACEGO, F.DC_REQ] [] s fun t =>
      t.on F.DC_REQ k.val = true) ∧
  (∀ (s : State) (n : Fin 32), s.on F.DC_STOPREQ n.val = true → Does (.dcStopped n) [F.DC_STAT_STATE, F.DC_DONE_BYTES, F.DC_STOPREQ]
    [] s fun t =>
    t.rd F.DC_STAT_STATE n.val = 4 ∧ t.on F.DC_STOPREQ n.val = false ∧ t.rd F.DC_DONE_BYTES n.val = s.rd F.DC_WDONE n.val)

/-- R135, R136, R143: a delta that verifies is loaded, one that does not is rejected with its code, and the switch times out. -/
def Obligations.LivePatternsVerifyLoadAndTimeOut : Prop :=
  (∀ (s : State) (c : Code), crAlive s = true → crServing s 3 = true → s.rd F.PAT_LIVE_STAT_STATE = 1 →
    crWaits s (s.rd F.LIVE_DELTA) (crImageSpan s .delta (s.rd F.LIVE_DELTA)) = false →
    (crRead (crLeave s) (s.rd F.LIVE_DELTA) (crImageSpan s .delta (s.rd F.LIVE_DELTA))).2 = some c →
    Moves .liveVerifyDone [F.STK_TALLY1_ABSORB_C, F.LEDGER_CAUSES, F.PAT_REJECT_CODE, F.PAT_REJECT_TYPE, F.PAT_REJECT_SOURCE,
      F.PAT_REJECT_OFF_OFFSET, F.PAT_LIVE_STAT_STATE, F.PAT_LIVE_STAT_RESULT, F.XR_TAGS_MAX, F.XR_LOST_LOST_REPLY, F.FAB_DUP_COUNT,
        F.FAB_DUP_LAST_MID, F.FAB_DUP_LAST_BLOCK, F.FAB_ERR_COUNT, F.FW_STAT_MID, F.FW_STAT_WRITE, F.FW_STAT_NEW, F.FW_DENY_ADDR_ADDR,
          F.FW_DENY_COUNT_COUNT, F.CR_STAT_BUSY, F.CR_STAT_PARTIAL, F.CR_STAT_EPOCH_NEW, F.NVM_ECC_UNC_COUNT, F.NVM_ERR_ADDR_ADDR,
            F.LK_TXSEQ, F.LEDGER_PENDING, F.PAGE_TALLY, F.CR_USER] [Q.retry, Q.log, Q.delta] s fun t => t.rd F.PAT_LIVE_STAT_STATE = 5 ∧
              t.rd F.PAT_LIVE_STAT_RESULT = 7 ∧ t.q Q.delta = []) ∧
  (∀ (s u : State), crAlive s = true → crServing s 3 = true → s.rd F.PAT_LIVE_STAT_STATE = 1 →
    crWaits s (s.rd F.LIVE_DELTA) (crImageSpan s .delta (s.rd F.LIVE_DELTA)) = false →
    crRead (crLeave s) (s.rd F.LIVE_DELTA) (crImageSpan s .delta (s.rd F.LIVE_DELTA)) = (u, none) →
    (imgCheck u .delta (s.rd F.LIVE_DELTA) 0x40000 false).code ≠ 1 → Moves .liveVerifyDone [F.STK_TALLY1_ABSORB_C, F.LEDGER_CAUSES,
      F.PAT_REJECT_CODE, F.PAT_REJECT_TYPE, F.PAT_REJECT_SOURCE, F.PAT_REJECT_OFF_OFFSET, F.PAT_LIVE_STAT_STATE, F.PAT_LIVE_STAT_RESULT,
        F.XR_TAGS_MAX, F.XR_LOST_LOST_REPLY, F.FAB_DUP_COUNT, F.FAB_DUP_LAST_MID, F.FAB_DUP_LAST_BLOCK, F.FAB_ERR_COUNT, F.FW_STAT_MID,
          F.FW_STAT_WRITE, F.FW_STAT_NEW, F.FW_DENY_ADDR_ADDR, F.FW_DENY_COUNT_COUNT, F.CR_STAT_BUSY, F.CR_STAT_PARTIAL,
            F.CR_STAT_EPOCH_NEW, F.NVM_ECC_UNC_COUNT, F.NVM_ERR_ADDR_ADDR, F.LK_TXSEQ, F.LEDGER_PENDING, F.PAGE_TALLY, F.CR_USER]
              [Q.retry, Q.log, Q.delta] s fun t =>
      t.rd F.PAT_LIVE_STAT_STATE = 5 ∧
      t.rd F.PAT_LIVE_STAT_RESULT = (imgCheck u .delta (s.rd F.LIVE_DELTA) 0x40000 false).code % 2 ^ F.PAT_LIVE_STAT_RESULT.w) ∧
  (∀ (s u : State) (fs : List Frame) (m : Nat), crAlive s = true → crServing s 3 = true → s.rd F.PAT_LIVE_STAT_STATE = 1 →
    crWaits s (s.rd F.LIVE_DELTA) (crImageSpan s .delta (s.rd F.LIVE_DELTA)) = false →
    crRead (crLeave s) (s.rd F.LIVE_DELTA) (crImageSpan s .delta (s.rd F.LIVE_DELTA)) = (u, none) →
    (imgCheck u .delta (s.rd F.LIVE_DELTA) 0x40000 false).code = 1 →
    deltaRefusal (signatureNoted u (imgCheck u .delta (s.rd F.LIVE_DELTA) 0x40000 false)) (s.rd F.LIVE_DELTA) = 0 →
    checkPass (signatureNoted u (imgCheck u .delta (s.rd F.LIVE_DELTA) 0x40000 false)) (s.rd F.LIVE_DELTA) true = .ok fs m →
    Moves .liveVerifyDone [F.STK_TALLY1_ABSORB_C, F.LEDGER_CAUSES, F.PAT_REJECT_CODE, F.PAT_REJECT_TYPE, F.PAT_REJECT_SOURCE,
      F.PAT_REJECT_OFF_OFFSET, F.PAT_LIVE_STAT_STATE, F.PAT_LIVE_STAT_RESULT, F.XR_TAGS_MAX, F.XR_LOST_LOST_REPLY, F.FAB_DUP_COUNT,
        F.FAB_DUP_LAST_MID, F.FAB_DUP_LAST_BLOCK, F.FAB_ERR_COUNT, F.FW_STAT_MID, F.FW_STAT_WRITE, F.FW_STAT_NEW, F.FW_DENY_ADDR_ADDR,
          F.FW_DENY_COUNT_COUNT, F.CR_STAT_BUSY, F.CR_STAT_PARTIAL, F.CR_STAT_EPOCH_NEW, F.NVM_ECC_UNC_COUNT, F.NVM_ERR_ADDR_ADDR,
            F.LK_TXSEQ, F.LEDGER_PENDING, F.PAGE_TALLY, F.CR_USER] [Q.retry, Q.log, Q.delta] s fun t => t.rd F.PAT_LIVE_STAT_STATE = 2 ∧
              t.rd F.PAT_LIVE_STAT_RESULT = 1 ∧
      t.q Q.delta = packFrames fs) ∧
  (∀ s : State, s.rd F.PAT_LIVE_STAT_STATE = 2 → s.held = [] → Does .liveLoadDone [F.PAT_LIVE_STAT_STATE] [] s fun t =>
    t.rd F.PAT_LIVE_STAT_STATE = 3 ∧ t.held = []) ∧
  (∀ s : State, s.rd F.PAT_LIVE_STAT_STATE = 3 → Does .liveSwitchTimeout [F.PAT_REJECT_CODE, F.PAT_REJECT_TYPE, F.PAT_REJECT_SOURCE,
    F.PAT_REJECT_OFF_OFFSET, F.PAT_LIVE_STAT_STATE, F.PAT_LIVE_STAT_RESULT] [Q.delta] s fun t => t.rd F.PAT_LIVE_STAT_STATE = 5 ∧
    t.rd F.PAT_LIVE_STAT_RESULT = 9 ∧ t.rd F.PAT_REJECT_CODE = 0x46 ∧ t.q Q.delta = [])

/-- R466: the integer group computes rd from ra and rb; shifts use rb[4:0]; results wrap modulo 2^32. -/
def Obligations.IntegerGroupComputesItsTable : Prop :=
  Computes 1 0 .add (fun a b => a + b) ∧
  Computes 1 1 .sub (fun a b => a - b) ∧
  Computes 1 2 .and_ (fun a b => a &&& b) ∧
  Computes 1 3 .or_ (fun a b => a ||| b) ∧
  Computes 1 4 .xor_ (fun a b => a ^^^ b) ∧
  Computes 1 5 .andn (fun a b => a &&& ~~~b) ∧
  Computes 1 6 .shl (fun a b => a <<< (b.toNat % 32)) ∧
  Computes 1 7 .shr (fun a b => a >>> (b.toNat % 32)) ∧
  Computes 1 8 .sar (fun a b => a.sshiftRight (b.toNat % 32)) ∧
  Computes 1 9 .ror (fun a b => a.rotateRight (b.toNat % 32)) ∧
  Computes 1 10 .slt (fun a b => if a.slt b then 1 else 0) ∧
  Computes 1 11 .sltu (fun a b => if a.ult b then 1 else 0) ∧
  Computes 1 12 .min (fun a b => if b.slt a then b else a) ∧
  Computes 1 13 .max (fun a b => if a.slt b then b else a) ∧
  Computes 1 14 .minu (fun a b => if b.ult a then b else a) ∧
  Computes 1 15 .maxu (fun a b => if a.ult b then b else a)

/-- R430, R467: the multiply functions write rd; a divide is taken by the core's divider, which writes rd when it is done; a
divide by zero raises DIVZERO (cause 0xC) and leaves rd unchanged. -/
def Obligations.MultiplyAndDivideGroupFollowsItsTable : Prop :=
  Computes 2 0 .mul (fun a b => a * b) ∧
  Computes 2 1 .mulh (fun a b => (a.signExtend 64 * b.signExtend 64).extractLsb' 32 32) ∧
  Computes 2 2 .mulhu (fun a b => (a.setWidth 64 * b.setWidth 64).extractLsb' 32 32) ∧
  Computes 2 3 .mulq (fun a b => satW ((a.toInt * b.toInt + 2 ^ 30) >>> 31)) ∧
  Computes 2 4 .mulx (fun a b => satW ((a.toInt * b.toInt + 2 ^ 15) >>> 16)) ∧
  Divides 8 .div BitVec.sdiv ∧ Divides 9 .divu BitVec.udiv ∧ Divides 10 .rem BitVec.srem ∧ Divides 11 .remu BitVec.umod ∧
  (∀ (s : State) (u : Fin 48), s.on F.DIV_PEND u = true →
    ∃ t, exec (.divideDone u) s = .next t ∧ Writes s t u (s.rd F.DIV_RD u) (BitVec.ofNat 32 (s.rd F.DIV_RES u)) ∧
      t.on F.DIV_PEND u = false ∧ Quiet ([F.GPR, F.DIV_PEND] ++ sigFields) s t)

/-- R468, R469: the saturating group, and the bit-field group with place `p` and width `w + 1`; what their tables reserve is no
encoding. -/
def Obligations.SaturatingAndBitFieldGroupsComputeTheirTables : Prop :=
  Computes 3 0 .adds (fun a b => satW (a.toInt + b.toInt)) ∧
  Computes 3 1 .subs (fun a b => satW (a.toInt - b.toInt)) ∧
  Computes 3 2 .addus (fun a b => BitVec.ofNat 32 (min (a.toNat + b.toNat) (2 ^ 32 - 1))) ∧
  Computes 3 3 .subus (fun a b => BitVec.ofInt 32 (max ((a.toNat : Int) - b.toNat) 0)) ∧
  Maps 3 4 .negs (fun a => satW (-a.toInt)) ∧
  Maps 3 5 .abss (fun a => satW a.toInt.natAbs) ∧
  Computes 3 8 .shls (fun a b => satW (a.toInt * 2 ^ (b.toNat % 32))) ∧
  (∀ (s : State) (u : Fin 48) (rd ra : Fin 16) (n : Fin 32), Ready s u (encA 3 rd ra 0 n 6) →
    let v := BitVec.ofInt 32 (max (-2 ^ n.val) (min (2 ^ n.val - 1) (greg s u ra).toInt))
    Results (.sats u rd ra n) s u rd v (pcOf s u + 4)) ∧
  (∀ (s : State) (u : Fin 48) (rd ra : Fin 16) (n : Fin 32), Ready s u (encA 3 rd ra 0 n 7) →
    let v := BitVec.ofInt 32 (max 0 (min (2 ^ (n.val + 1) - 1) (greg s u ra).toInt))
    Results (.satu u rd ra n) s u rd v (pcOf s u + 4)) ∧
  (∀ w : Nat, opOf w = 3 → 9 ≤ fnOf w ∨ (fnOf w ≠ 6 ∧ fnOf w ≠ 7 ∧ auxOf w ≠ 0) → legalWord w = false) ∧
  (∀ (s : State) (u : Fin 48) (rd ra : Fin 16) (p w : Fin 32), p.val + w.val < 32 →
    Ready s u (encA 4 rd ra 0 (p.val * 32 + w.val) 0) → let v := ((greg s u ra).extractLsb' p.val (w.val + 1)).setWidth 32
    Results (.extu u rd ra p w) s u rd v (pcOf s u + 4)) ∧
  (∀ (s : State) (u : Fin 48) (rd ra : Fin 16) (p w : Fin 32), p.val + w.val < 32 →
    Ready s u (encA 4 rd ra 0 (p.val * 32 + w.val) 1) → let v := ((greg s u ra).extractLsb' p.val (w.val + 1)).signExtend 32
    Results (.exts u rd ra p w) s u rd v (pcOf s u + 4)) ∧
  (∀ (s : State) (u : Fin 48) (rd ra : Fin 16) (p w : Fin 32) (v : BitVec 32), p.val + w.val < 32 →
    Ready s u (encA 4 rd ra 0 (p.val * 32 + w.val) 2) →
    (∀ j, j < 32 → v.getLsbD j = if p.val ≤ j ∧ j ≤ p.val + w.val then (greg s u ra).getLsbD (j - p.val) else (greg s u rd).getLsbD j) →
    Results (.ins u rd ra p w) s u rd v (pcOf s u + 4)) ∧
  Maps 4 3 .clz BitVec.clz ∧ Maps 4 4 .popc BitVec.cpop ∧
  Maps 4 5 .rev8 (fun a => a.extractLsb' 0 8 ++ a.extractLsb' 8 8 ++ a.extractLsb' 16 8 ++ a.extractLsb' 24 8) ∧
  (∀ w : Nat, opOf w = 4 → 6 ≤ fnOf w ∨ (fnOf w < 3 ∧ 32 < bits w 13 9 + bits w 8 4 + 1) ∨ (3 ≤ fnOf w ∧ auxOf w ≠ 0) →
    legalWord w = false)

/-- R470: the immediate instructions. -/
def Obligations.ImmediatesComputeAsStated : Prop :=
  MapsImm 0x08 .addi (fun a n => a + n.signExtend 32) ∧
  MapsImm 0x09 .andi (fun a n => a &&& n.setWidth 32) ∧
  MapsImm 0x0A .ori (fun a n => a ||| n.setWidth 32) ∧
  MapsImm 0x0B .xori (fun a n => a ^^^ n.setWidth 32) ∧
  MapsImm 0x0C .slti (fun a n => if a.slt (n.signExtend 32) then 1 else 0) ∧
  MapsImm 0x0D .sltiu (fun a n => if a.ult (n.signExtend 32) then 1 else 0) ∧
  (∀ (s : State) (u : Fin 48) (rd ra : Fin 16) (k : Fin 4) (n : Fin 32), Ready s u (encI 0x0E rd ra (k.val * 32 + n.val)) →
    let a := greg s u ra
    let v := if k = 0 then a <<< n.val else if k = 1 then a >>> n.val else if k = 2 then a.sshiftRight n.val else a.rotateRight n.val
    Results (.shi u rd ra k n) s u rd v (pcOf s u + 4)) ∧
  (∀ (s : State) (u : Fin 48) (rd : Fin 16) (n : BitVec 22), Ready s u (encL 0x10 rd n.toNat) →
    let v := n.setWidth 32 <<< 10
    Results (.lui u rd n) s u rd v (pcOf s u + 4)) ∧
  (∀ (s : State) (u : Fin 48) (rd : Fin 16) (n : BitVec 22), Ready s u (encL 0x13 rd n.toNat) →
    let v := n.signExtend 32
    Results (.li u rd n) s u rd v (pcOf s u + 4)) ∧
  (∀ w : Nat, opOf w = 0x0E → 128 ≤ imm18Of w → legalWord w = false)

/-- R462, R480, R481: branches, JAL and JALR. -/
def Obligations.TransfersOfControlReachTheirTargets : Prop :=
  (∀ (s : State) (u : Fin 48) (c : Fin 8) (ra rb : Fin 16) (d : BitVec 14), Ready s u (encB 0x14 c ra rb d.toNat) →
    takenIf c (greg s u ra) (greg s u rb) = true → Jumps (.br u c ra rb d) s u (pcOf s u + d.signExtend 32 * 4)) ∧
  (∀ (s : State) (u : Fin 48) (c : Fin 8) (ra rb : Fin 16) (d : BitVec 14), Ready s u (encB 0x14 c ra rb d.toNat) →
    takenIf c (greg s u ra) (greg s u rb) = false → Jumps (.br u c ra rb d) s u (pcOf s u + 4)) ∧
  (∀ (s : State) (u : Fin 48) (c : Fin 8) (ra : Fin 16) (d : BitVec 14), Ready s u (encB 0x15 c ra 0 d.toNat) →
    takenIf c (greg s u ra) 0 = true → Jumps (.brz u c ra d) s u (pcOf s u + d.signExtend 32 * 4)) ∧
  (∀ (s : State) (u : Fin 48) (c : Fin 8) (ra : Fin 16) (d : BitVec 14), Ready s u (encB 0x15 c ra 0 d.toNat) →
    takenIf c (greg s u ra) 0 = false → Jumps (.brz u c ra d) s u (pcOf s u + 4)) ∧
  (∀ (s : State) (u : Fin 48) (rd : Fin 16) (n : BitVec 22), Ready s u (encL 0x11 rd n.toNat) →
    Results (.jal u rd n) s u rd (pcOf s u + 4) ((pcOf s u + n.signExtend 32 * 4) &&& ~~~3)) ∧
  (∀ (s : State) (u : Fin 48) (rd ra : Fin 16) (n : BitVec 18), Ready s u (encI 0x12 rd ra n.toNat) →
    Results (.jalr u rd ra n) s u rd (pcOf s u + 4) ((greg s u ra + n.signExtend 32) &&& ~~~3))

/-- R447, R448, R449, R452, R487, R529, R708: a word that is no encoding, TRAP, BRK, and a fetch the MPU denies enter the handler
with their cause and details. -/
def Obligations.ExceptionsEnterTheHandler : Prop :=
  (∀ (s : State) (u : Fin 48) (w : BitVec 32), Ready s u w.toNat → legalWord w.toNat = false → exl s u = false →
    Excepts (.illegalInstruction u w) s u 1 w.toNat 0 (s.rd F.PC u)) ∧
  (∀ (s : State) (u : Fin 48) (n : BitVec 10), Ready s u (encS 2 n.toNat 0 0) → exl s u = false →
    Excepts (.trap u n) s u 9 n.toNat 0 (pcOf s u + 4).toNat) ∧
  (∀ (s : State) (u : Fin 48) (n : BitVec 10), Ready s u (encS 7 n.toNat 0 0) → exl s u = false →
    s.on F.DBG_CTRL_BRK_HALT = false ∨ isOpen s = false → Excepts (.brk u n) s u 0xD n.toNat 0 (s.rd F.PC u)) ∧
  (∀ (s : State) (u : Fin 48) (n : BitVec 10), Ready s u (encS 7 n.toNat 0 0) → isChecker s u = false →
    s.on F.DBG_CTRL_BRK_HALT = true → isOpen s = true → ∃ t, exec (.brk u n) s = .next t ∧
      t.on F.HALT_REQ (globOf u) = true ∧ t.rd F.HREASON (globOf u) = 3 ∧ t.rd F.HNUM (globOf u) = n.toNat ∧
      Quiet ([F.HNUM] ++ issueFields) s t) ∧
  (∀ (s : State) (u : Fin 48) (rd ra rb : Fin 16) (r : Nat), canIssue s u (encA 1 rd ra rb 0 0) = true → exl s u = false →
    mpuCheck s u .fetch (s.rd F.PC u) = some r → Excepts (.add u rd ra rb) s u 5 r (s.rd F.PC u) (s.rd F.PC u))

/-- R452, R454: the asynchronous causes are taken in the order WATCHDOG, NOTICE, DISPATCH; in a handler NOTICE and DISPATCH wait,
and a precise exception or a watchdog expiry is a double fault, which stops the thread and records both causes and the PC. -/
def Obligations.AsynchronousCausesAndDoubleFaults : Prop :=
  (∀ (s : State) (u : Fin 48), canAdvance s u = true → isChecker s u = false → exl s u = false → s.on F.WDX_PEND u = true →
    ∃ t, exec (.asyncException u) s = .next t ∧ Entered s t u 0xE 0 0 (s.rd F.PC u) ∧ t.on F.WDX_PEND u = false ∧
      Quiet (excFields ++ sigFields ++ [F.WDX_PEND]) s t) ∧
  (∀ (s : State) (u : Fin 48), canAdvance s u = true → isChecker s u = false → exl s u = false → s.on F.WDX_PEND u = false →
    s.on F.NT_PEND u = true → ∃ t, exec (.asyncException u) s = .next t ∧
      Entered s t u 0xB (s.rd F.NT_CODE u + s.rd F.NT_TASK u * 256) (s.rd F.NT_ADDR u) (s.rd F.PC u) ∧ t.on F.NT_PEND u = false ∧
      Quiet (excFields ++ sigFields ++ [F.NT_PEND, F.NT_CODE, F.NT_TASK, F.NT_ADDR]) s t) ∧
  (∀ (s : State) (u : Fin 48), canAdvance s u = true → isChecker s u = false → exl s u = false → s.on F.WDX_PEND u = false →
    s.on F.NT_PEND u = false → s.on F.SG_PEND u = true → ∃ t, exec (.asyncException u) s = .next t ∧
      Entered s t u 0xA (s.rd F.SG_INFO u) 0 (s.rd F.PC u) ∧ t.on F.SG_PEND u = false ∧
      Quiet (excFields ++ sigFields ++ [F.SG_PEND, F.SG_INFO]) s t) ∧
  (∀ (s : State) (u : Fin 48), exl s u = true → s.on F.WDX_PEND u = false → exec (.asyncException u) s = .next s) ∧
  (∀ (s : State) (u : Fin 48), canAdvance s u = true → isChecker s u = false → exl s u = true → s.on F.WDX_PEND u = true →
    ∃ t, exec (.asyncException u) s = .next t ∧ DoublyFaulted s t u 0xE) ∧
  (∀ (s : State) (u : Fin 48) (w : BitVec 32), Ready s u w.toNat → legalWord w.toNat = false → isChecker s u = false →
    exl s u = true → ∃ t, exec (.illegalInstruction u w) s = .next t ∧ DoublyFaulted s t u 1)

/-- R445, R484, R488, R536: MFS and MTS reach each system register at the level its row of the table allows; else PRIV (cause 2)
is raised with the instruction word. -/
def Obligations.SystemRegistersAreReadAndWritten : Prop :=
  (∀ (s : State) (u : Fin 48) (rd : Fin 16), ∀ e ∈ [(0, F.TSR), (1, F.XSR), (2, F.XPC), (3, F.XCAUSE), (4, F.XINFO), (5, F.XADDR), (8,
    F.TRMASK)],
    Ready s u (encS 0 e.1 0 rd) → userLevel s u = false →
    Results (.mfs u rd (BitVec.ofNat 10 e.1)) s u rd (BitVec.ofNat 32 (s.rd e.2 u)) (pcOf s u + 4)) ∧
  (∀ (s : State) (u : Fin 48) (rd : Fin 16), Ready s u (encS 0 6 0 rd) → userLevel s u = false →
    Results (.mfs u rd 6) s u rd (BitVec.ofNat 32 (s.rd F.XVEC (cacheOf u))) (pcOf s u + 4)) ∧
  (∀ (s : State) (u : Fin 48) (rd : Fin 16) (k : Fin 4), Ready s u (encS 0 (0x10 + k.val) 0 rd) → userLevel s u = false →
    Results (.mfs u rd (BitVec.ofNat 10 (0x10 + k.val))) s u rd (BitVec.ofNat 32 (s.rd F.SCRATCH u k)) (pcOf s u + 4)) ∧
  (∀ (s : State) (u : Fin 48) (rd : Fin 16), Ready s u (encS 0 7 0 rd) →
    Results (.mfs u rd 7) s u rd (BitVec.ofNat 32 (globOf u + 256 * s.rd F.TID_TASK u)) (pcOf s u + 4)) ∧
  (∀ (s : State) (u : Fin 48) (rd : Fin 16), Ready s u (encS 0 9 0 rd) →
    Results (.mfs u rd 9) s u rd (BitVec.ofNat 32 (s.rd F.CYC (cacheOf u))) (pcOf s u + 4)) ∧
  (∀ (s : State) (u : Fin 48) (rd : Fin 16) (n : BitVec 10), Ready s u (encS 0 n.toNat 0 rd) → sysReg n.toNat = true → n ≠ 7 →
    n ≠ 9 → userLevel s u = true → exl s u = false → Excepts (.mfs u rd n) s u 2 (encS 0 n.toNat 0 rd) 0 (s.rd F.PC u)) ∧
  (∀ (s : State) (u : Fin 48) (ra : Fin 16), ∀ e ∈ [(0, F.TSR), (1, F.XSR), (3, F.XCAUSE), (4, F.XINFO), (5, F.XADDR)],
    Ready s u (encS 1 e.1 ra 0) → userLevel s u = false →
    SetsSystem (.mts u ra (BitVec.ofNat 10 e.1)) s u e.2 u 0 ((greg s u ra).toNat % 2 ^ e.2.w)) ∧
  (∀ (s : State) (u : Fin 48) (ra : Fin 16), Ready s u (encS 1 2 ra 0) → userLevel s u = false →
    SetsSystem (.mts u ra 2) s u F.XPC u 0 (greg s u ra &&& ~~~3).toNat) ∧
  (∀ (s : State) (u : Fin 48) (ra : Fin 16), Ready s u (encS 1 6 ra 0) → userLevel s u = false →
    SetsSystem (.mts u ra 6) s u F.XVEC (cacheOf u) 0 (greg s u ra &&& ~~~3).toNat) ∧
  (∀ (s : State) (u : Fin 48) (ra : Fin 16), Ready s u (encS 1 8 ra 0) → userLevel s u = false → s.on F.MPU_LOCK_POL = false →
    SetsSystem (.mts u ra 8) s u F.TRMASK u 0 ((greg s u ra).toNat % 2 ^ 16)) ∧
  (∀ (s : State) (u : Fin 48) (ra : Fin 16), Ready s u (encS 1 9 ra 0) → userLevel s u = false →
    SetsSystem (.mts u ra 9) s u F.CYC (cacheOf u) 0 (greg s u ra).toNat) ∧
  (∀ (s : State) (u : Fin 48) (ra : Fin 16) (k : Fin 4), Ready s u (encS 1 (0x10 + k.val) ra 0) → userLevel s u = false →
    SetsSystem (.mts u ra (BitVec.ofNat 10 (0x10 + k.val))) s u F.SCRATCH u k (greg s u ra).toNat) ∧
  (∀ (s : State) (u : Fin 48) (ra : Fin 16) (n : BitVec 10), Ready s u (encS 1 n.toNat ra 0) → sysReg n.toNat = true →
    userLevel s u = true ∨ n = 7 ∨ n = 8 ∧ s.on F.MPU_LOCK_POL = true → exl s u = false →
    Excepts (.mts u ra n) s u 2 (encS 1 n.toNat ra 0) 0 (s.rd F.PC u))

/-- R443, R448, R482, R483, R509, R510: RETX restores the status and the PC; NOP, IBUF and SYNC go on; TEND ends the task; TWAIT
waits with the task's context saved, and is ILLEGAL in a handler. -/
def Obligations.SystemGroupActsAsItsTableSays : Prop :=
  (∀ (s : State) (u : Fin 48), Ready s u (encS 3 0 0 0) → userLevel s u = false → ∃ t, exec (.retx u) s = .next t ∧
    t.rd F.TSR u = s.rd F.XSR u ∧ GoesTo s t u (BitVec.ofNat 32 (s.rd F.XPC u)) ∧ Quiet ([F.TSR, F.PC] ++ issueFields) s t) ∧
  (∀ (s : State) (u : Fin 48), Ready s u (encS 3 0 0 0) → userLevel s u = true → exl s u = false →
    Excepts (.retx u) s u 2 (encS 3 0 0 0) 0 (s.rd F.PC u)) ∧
  (∀ (s : State) (u : Fin 48), Ready s u (encS 9 0 0 0) → Jumps (.nop u) s u (pcOf s u + 4)) ∧
  (∀ (s : State) (u : Fin 48), Ready s u (encS 8 0 0 0) → ∃ t, exec (.ibuf u) s = .next t ∧ t.rd F.FB_LINE u = 0 ∧
    GoesTo s t u (pcOf s u + 4) ∧ Quiet ([F.FB_LINE, F.PC] ++ issueFields) s t) ∧
  (∀ (s : State) (u : Fin 48), Ready s u (encS 4 0 0 0) → isChecker s u = false → ∃ t, exec (.sync u) s = .next t ∧
    (t.on F.SYNCING u = true ↔ ∃ e ∈ s.stores, e.thread = u) ∧ GoesTo s t u (pcOf s u + 4) ∧
    Quiet ([F.SYNCING, F.PC] ++ issueFields) s t) ∧
  (∀ (s : State) (u : Fin 48), Ready s u (encS 5 0 0 0) → isChecker s u = false →
    s.on F.DSP_TSTAT_PENDING (s.rd F.TID_TASK u) = false → ∃ t, exec (.tend u) s = .next t ∧ t.on F.HASTASK (globOf u) = false ∧
      t.rd F.DSP_TSTAT_STATE (s.rd F.TID_TASK u) = 0 ∧ (∀ x k, t.rd F.GPR x k = s.rd F.GPR x k) ∧ t.stores = s.stores) ∧
  (∀ (s : State) (u : Fin 48), Ready s u (encS 5 0 0 0) → isChecker s u = false →
    s.on F.DSP_TSTAT_PENDING (s.rd F.TID_TASK u) = true → ∃ t, exec (.tend u) s = .next t ∧ t.on F.HASTASK (globOf u) = false ∧
      t.rd F.DSP_TSTAT_STATE (s.rd F.TID_TASK u) = 1 ∧ t.on F.DSP_TSTAT_PENDING (s.rd F.TID_TASK u) = false) ∧
  (∀ (s : State) (u : Fin 48), Ready s u (encS 6 0 0 0) → isChecker s u = false → exl s u = false →
    (∀ n, n < 4 → CanSave s (saveAddr (s.rd F.TID_TASK u) + 32 * n)) → ∃ t, exec (.twait u) s = .next t ∧
      t.on F.HASTASK (globOf u) = false ∧ t.on F.DSP_TSTAT_SAVED (s.rd F.TID_TASK u) = true ∧
      t.on F.DSP_TSTAT_PENDING (s.rd F.TID_TASK u) = false ∧ t.rd F.DSP_TSTAT_STATE (s.rd F.TID_TASK u) =
        if s.on F.DSP_TSTAT_PENDING (s.rd F.TID_TASK u) then 1 else 3)

/-- R439, R471 to R473, R476 to R478, R529, R554: the loads and the atomic group ask for their one request, or raise their exception; an
LDW of SP_SENSE by the supervisor pair is served at once. -/
def Obligations.LoadsAndAtomicsAskForTheirBytes : Prop :=
  Loads 0x18 1 true .ldb ∧ Loads 0x19 1 false .ldbu ∧ Loads 0x1A 2 true .ldh ∧ Loads 0x1B 2 false .ldhu ∧
  Loads 0x1C 4 false .ldw ∧ Loads 0x1D 8 false .ldp ∧
  (∀ (s : State) (u : Fin 48) (rd ra : Fin 16) (imm : BitVec 18), Ready s u (encI 0x1C rd ra imm.toNat) → 32 ≤ u.val →
    greg s u ra + imm.signExtend 32 = BitVec.ofNat 32 spSenseAddr → mpuCheck s u .load spSenseAddr = none →
    let v := BitVec.ofNat 32 (s.rd (if u.val < 40 then F.SENSE_M else F.SENSE_C))
    stackRefused s u rd v.toNat = false → ∃ t, exec (.ldw u rd ra imm) s = .next t ∧ Writes s t u rd v ∧
      GoesTo s t u (pcOf s u + 4) ∧ Quiet ([F.GPR, F.PC, F.SIG_IM, F.SIG_IC, F.INJ_I] ++ issueFields ++ sigFields) s t) ∧
  Atomics 0 4 .swapw ∧ Atomics 1 4 .addw ∧ Atomics 2 8 .swapd ∧ Atomics 3 8 .addd

/-- R439, R449, R471, R473, R475 to R477: what the answer to a load or atomic operation of an SRAM bank does, and the exceptions of an
answer other than OK and of a value refused for g15. -/
def Obligations.AnswersCompleteLoadsAndAtomics : Prop :=
  (∀ (s : State) (u : Fin 48) (b : Bool) (n : Nat), n ≤ 4 → AsksSram s u 0 n →
    let v := loadVal n (s.on F.LD_SIGN u) (s.mget (s.rd F.LD_ADDR u) n)
    stackRefused s u (s.rd F.LD_RD u) v.toNat = false → ∃ t, exec (.loadResponse u b) s = .next t ∧
      Writes s t u (s.rd F.LD_RD u) v ∧ t.on F.LD_PEND u = false ∧ t.stores = s.stores ∧
      Only (F.GPR :: answerFields ++ sigFields) [] s t) ∧
  (∀ (s : State) (u : Fin 48) (b : Bool), AsksSram s u 0 8 →
    let v := s.mget (s.rd F.LD_ADDR u) 8
    stackRefused s u (s.rd F.LD_RD u + 1) (v / 2 ^ 32) = false → ∃ t, exec (.loadResponse u b) s = .next t ∧
      t.rd F.GPR u (s.rd F.LD_RD u) = v % 2 ^ 32 ∧ t.rd F.GPR u (s.rd F.LD_RD u + 1) = v / 2 ^ 32 ∧
      (∀ x k, x ≠ u ∨ k ≠ s.rd F.LD_RD u ∧ k ≠ s.rd F.LD_RD u + 1 → t.rd F.GPR x k = s.rd F.GPR x k) ∧
      t.on F.LD_PEND u = false ∧ Only (F.GPR :: answerFields ++ sigFields) [] s t) ∧
  (∀ (s : State) (u : Fin 48) (b : Bool) (n : Nat), n ≤ 4 → AsksSram s u 0 n →
    let v := loadVal n (s.on F.LD_SIGN u) (s.mget (s.rd F.LD_ADDR u) n)
    stackRefused s u (s.rd F.LD_RD u) v.toNat = true → exl s u = false → ∃ t, exec (.loadResponse u b) s = .next t ∧
      Entered s t u 0xF 0 v.toNat (s.rd F.LD_PC u) ∧ t.on F.LD_PEND u = false ∧
      Only (excFields ++ answerFields ++ sigFields) [] s t) ∧
  (∀ (s : State) (u : Fin 48) (b : Bool), s.on F.LD_PEND u = true → isChecker s u = false → leadsPair s u = false →
    loadWaits s u = false → masterLive s (threadMaster u) = true → mustWait s (loadRequest s u) = false →
    linkHolds s (loadRequest s u) = false → dieAnswers s (threadMaster u) (s.rd F.LD_ADDR u) = false →
    inNvm (s.rd F.LD_ADDR u) = false → ownLocal u (s.rd F.LD_ADDR u) = false → exl s u = false →
    ∃ t, exec (.loadResponse u b) s = .next t ∧ Entered s t u 8 1 (s.rd F.LD_ADDR u) (s.rd F.LD_PC u) ∧
      t.on F.LD_PEND u = false ∧ Only (excFields ++ answerFields ++ sigFields ++ [F.FAB_ERR_COUNT, F.LK_TXSEQ]) [Q.retry] s t) ∧
  (∀ (s : State) (u : Fin 48) (b : Bool) (op n : Nat), op = 1 ∨ op = 2 → n = 4 ∨ n = 8 → AsksSram s u op n →
    let a := s.rd F.LD_ADDR u
    let old := s.mget a n
    let new := if op = 1 then s.rd F.LD_DATA u else old + s.rd F.LD_DATA u
    (n = 4 → stackRefused s u (s.rd F.LD_RD u) old = false) → (n = 8 → stackRefused s u (s.rd F.LD_RD u + 1) (old / 2 ^ 32) = false) →
    ∃ t, exec (.loadResponse u b) s = .next t ∧ t.rd F.GPR u (s.rd F.LD_RD u) = old % 2 ^ 32 ∧
      (n = 8 → t.rd F.GPR u (s.rd F.LD_RD u + 1) = old / 2 ^ 32) ∧
      (∀ x k, x ≠ u ∨ k ≠ s.rd F.LD_RD u ∧ (n = 4 ∨ k ≠ s.rd F.LD_RD u + 1) → t.rd F.GPR x k = s.rd F.GPR x k) ∧
      (∀ j, j < n → t.byte (a + j) = BitVec.ofNat 8 (new / 2 ^ (8 * j))) ∧ (∀ x, x < a ∨ a + n ≤ x → t.byte x = s.byte x) ∧
      t.on F.LD_PEND u = false ∧ OnlyRegs (F.GPR :: answerFields ++ sigFields) [] s t)

/-- R434, R438, R440, R441, R444, R453, R471 to R473: the stores, their way to SRAM and the freeing of their entries. -/
def Obligations.StoresPassThroughTheStoreBuffer : Prop :=
  Stores 0x20 1 .stb ∧ Stores 0x21 2 .sth ∧ Stores 0x22 4 .stw ∧ Stores 0x23 8 .stp ∧
  (∀ (s : State) (u : Fin 48) (e : StoreEntry) (k : Nat), oldestStore s u = some e → e.thread = u → atLimit s u = false →
    mustWait s (storeRequest e) = false →
    masterLive s (threadMaster u) = true → cUp s = true → targetOf e.addr = .sram k → s.rd F.DOM_STATE (44 + k) = 2 →
    fwRefuses s (threadMaster u) 1 e.addr = none → alignedReq e.addr e.size = true → s.bad = [] →
    ∃ t, exec (.storeBufferDrain u) s = .next t ∧ t.stores = markIssued s.stores u ⟨.ok, false, 0⟩ ∧
      (∀ j, j < e.size → t.byte (e.addr + j) = BitVec.ofNat 8 (e.data / 2 ^ (8 * j))) ∧
      (∀ x, x < e.addr ∨ e.addr + e.size ≤ x → t.byte x = s.byte x) ∧ OnlyRegs [F.XR_TAGS_MAX] [] s t) ∧
  (∀ (s : State) (u : Fin 48) (e : StoreEntry) (r : Resp), (s.stores.find? fun x => x.thread == u.val) = some e →
    e.issued = true → e.answer = some r → ∃ t, exec (.storeResponse u) s = .next t ∧
      t.stores = s.stores.eraseP (fun x => x.thread == u.val) ∧
      (r.code = .ok → t.rd F.NT_PEND u = s.rd F.NT_PEND u) ∧
      (r.code ≠ .ok → t.on F.NT_PEND u = true) ∧
      (r.code ≠ .ok → s.on F.NT_PEND u = false → t.rd F.NT_CODE u = r.code.num ∧ t.rd F.NT_TASK u = e.task % 256 ∧
        t.rd F.NT_ADDR u = e.addr % 2 ^ 32) ∧
      (r.code ≠ .ok → s.on F.NT_PEND u = true → t.rd F.TC_TALLY_NOTICE_LOST (coreOf u) =
        min (s.rd F.TC_TALLY_NOTICE_LOST (coreOf u) + 1) (2 ^ F.TC_TALLY_NOTICE_LOST.w - 1) ∧ t.rd F.NT_CODE u = s.rd F.NT_CODE u) ∧
      Only [F.TC_TALLY_NOTICE_LOST, F.SYNCING, F.NT_PEND, F.NT_CODE, F.NT_TASK, F.NT_ADDR] [] s t)

/-- R432, R433, R436, R449, R529: a refill of the fetch buffer reads the line of the PC from SRAM or NVM, and raises MPU_FETCH or
BUS_LOAD on fetch where it cannot; R456, R457: a thread watchdog expires; R435: an invalidation ends. -/
def Obligations.FetchesWatchdogsAndInvalidationsEnd : Prop :=
  (∀ (s : State) (u : Fin 48) (b : Bool) (k : Nat), canAdvance s u = true → asyncDue s u = 0 → isChecker s u = false →
    s.rd F.FB_LINE u ≠ s.rd F.PC u / 32 + 1 → mpuCheck s u .fetch (s.rd F.PC u) = none → targetOf (s.rd F.PC u) = .sram k →
    targetOf (s.rd F.PC u / 32 * 32) = .sram k → s.rd F.DOM_STATE (44 + k) = 2 → lineWaits s u (s.rd F.PC u) = false →
      masterLive s (threadMaster u) = true →
    fwRefuses s (threadMaster u) 0 (s.rd F.PC u / 32 * 32) = none → s.bad = [] →
    ∃ t, exec (.fetchRefillDone u b) s = .next t ∧ t.rd F.FB_LINE u = s.rd F.PC u / 32 + 1 ∧
      t.rd F.FB_DATA u = s.mget (s.rd F.PC u / 32 * 32) 32 ∧ t.rd F.PC u = s.rd F.PC u ∧
      Only ([F.FB_LINE, F.FB_DATA, F.FB_REQ, F.XR_TAGS_MAX] ++ sigFields) [] s t) ∧
  (∀ (s : State) (u : Fin 48) (v : Nat), canAdvance s u = true → asyncDue s u = 0 → isChecker s u = false →
    s.rd F.FB_LINE u ≠ s.rd F.PC u / 32 + 1 → mpuCheck s u .fetch (s.rd F.PC u) = none → inNvm (s.rd F.PC u) = true →
    cacheBusy s u = false → s.on F.IC_CTRL_EN (coreOf u) = true →
    lineFind (s.q Q.icache (cacheOf u) (s.rd F.PC u / 32 % 256)) (s.rd F.PC u) = some v →
    ∃ t, exec (.fetchRefillDone u false) s = .next t ∧ t.rd F.FB_LINE u = s.rd F.PC u / 32 + 1 ∧ t.rd F.FB_DATA u = v % 2 ^ 256 ∧
      t.rd F.IC_HIT_COUNT (coreOf u) = min (s.rd F.IC_HIT_COUNT (coreOf u) + 1) (2 ^ F.IC_HIT_COUNT.w - 1) ∧
      Only [F.FB_LINE, F.FB_DATA, F.FB_REQ, F.IC_HIT_COUNT] [Q.icache] s t) ∧
  (∀ (s : State) (u : Fin 48) (b : Bool) (r : Nat), canAdvance s u = true → asyncDue s u = 0 → exl s u = false →
    s.rd F.FB_LINE u ≠ s.rd F.PC u / 32 + 1 → mpuCheck s u .fetch (s.rd F.PC u) = some r →
    Excepts (.fetchRefillDone u b) s u 5 r (s.rd F.PC u) (s.rd F.PC u)) ∧
  (∀ (s : State) (u : Fin 48) (b : Bool), canAdvance s u = true → asyncDue s u = 0 → exl s u = false →
    s.rd F.FB_LINE u ≠ s.rd F.PC u / 32 + 1 → mpuCheck s u .fetch (s.rd F.PC u) = none → fetchable u (s.rd F.PC u) = false →
    Excepts (.fetchRefillDone u b) s u 8 (6 + 256) (s.rd F.PC u) (s.rd F.PC u)) ∧
  (∀ (s : State) (k : Fin 40), s.rd F.WD_PERIOD_PERIOD (k.val / 8) (k.val % 8) ≠ 0 → s.rd F.WD_COUNT_COUNT (k.val / 8) (k.val % 8) = 0 →
    s.on F.HASTASK k = true → s.on F.HALTED k = false → s.rd F.PTM_STATE_CUR ≤ 1 → domOn s (threadDomain k) = true →
    Does (.threadWatchdogExpire k) [F.WD_COUNT_COUNT, F.WD_STAT_EXPIRED, F.WDX_PEND] [] s fun t => t.on F.WDX_PEND (mainOf s k) = true ∧
      t.rd F.WD_STAT_EXPIRED (k.val / 8) = s.rd F.WD_STAT_EXPIRED (k.val / 8) ||| 2 ^ (k.val % 8) ∧
      t.rd F.WD_COUNT_COUNT (k.val / 8) (k.val % 8) = s.rd F.WD_PERIOD_PERIOD (k.val / 8) (k.val % 8)) ∧
  (∀ (s : State) (c : Fin 6), s.on F.INV_KIND c = true → Does (.ccInvDone c) [F.CC_INV_BUSY, F.INV_KIND] [Q.icache, Q.rcache] s fun t =>
    t.rd F.INV_KIND c = 0 ∧
    (c.val < 5 → t.on F.CC_INV_BUSY c = false) ∧
    (s.rd F.INV_KIND c % 2 = 1 → ∀ k, k < 256 → t.q Q.icache c k = []) ∧
    (s.rd F.INV_KIND c / 2 % 2 = 1 → ∀ k, k < 128 → t.q Q.rcache c k = []) ∧
    (s.rd F.INV_KIND c % 2 = 0 → s.rd F.INV_KIND c / 4 % 2 = 1 → ∀ k, k < 256 → ∀ x ∈ t.q Q.icache c k,
      ¬(s.rd F.INV_BASE_BASE (min c.val 4) ≤ x % 2 ^ 27 ∧ x % 2 ^ 27 ≤ s.rd F.INV_LAST_LAST (min c.val 4))) ∧
    (s.rd F.INV_KIND c / 2 % 2 = 0 → s.rd F.INV_KIND c / 8 % 2 = 1 → ∀ k, k < 128 → ∀ x ∈ t.q Q.rcache c k,
      ¬(s.rd F.INV_BASE_BASE (min c.val 4) ≤ x % 2 ^ 27 ∧ x % 2 ^ 27 ≤ s.rd F.INV_LAST_LAST (min c.val 4))))

/-- R39, R52, R56, R72 to R74, R95: the ticketed and one-shot writes of the stack and start-up blocks. -/
def Obligations.StartUpRegistersActOnTheirWrites : Prop :=
  (∀ (s : State) (src : Source) (k : BitVec 16), Lands s src 1 .stk 0 0x128 (1 + tk k) → cUp s = true →
    Ends (.stkResetCRst src k) s fun t => t.rd F.STK_DIESTATE_C_STATE = 1 ∧ t.rd F.STK_DIESTATE_LAST_C_CAUSE = 2 ∧
      t.on F.STK_EVT_C_LOST = true ∧ t.on F.RST_CAUSE_CLOSS = true ∧ mUp t = mUp s) ∧
  (∀ (s : State) (src : Source) (k : BitVec 16), Lands s src 1 .stk 0 0x128 (2 + tk k) → mUp s = true →
    Ends (.stkResetMRst src k) s fun t => t.rd F.STK_DIESTATE_M_STATE = 1 ∧ t.rd F.STK_DIESTATE_LAST_M_CAUSE = 2 ∧
      t.on F.STK_EVT_M_LOST = true ∧ t.on F.RST_CAUSE_MLOSS = true ∧ cUp t = cUp s ∧ 6 ∈ t.events) ∧
  (∀ (s : State) (src : Source) (k : BitVec 16), Lands s src 1 .su 0 0x110 (1 + tk k) →
    Ends (.sysResetStack src k) s fun t => t.on F.RST_CAUSE_SOFT = true ∧ t.held = [] ∧ t.stores = [] ∧ cUp t = false ∧
      mUp t = false) ∧
  (∀ (s : State) (src : Source) (k : BitVec 16) (b : Bool), Lands s src 1 .su 0 (if b then 0x8 else 0x120) (1 + tk k) →
    Does (.pwdKick src b k) [F.XR_TAGS_MAX, F.LK_TXSEQ, F.PWD_LEFT, F.RT_LEVEL, F.RT_EDGE, F.PAD_HOLD, F.PAD_LEVEL] [Q.retry,
      Q.tickets] s fun t => t.resp = ⟨.ok, false, 0⟩ ∧
      t.rd F.PWD_LEFT = if s.on F.PWD_RUN then s.rd F.PWD_CFG_PERIOD % 2 ^ F.PWD_LEFT.w else s.rd F.PWD_LEFT) ∧
  (∀ (s : State) (src : Source), Lands s src 1 .su 0 0x100 (2 ^ 16) → cUp s = true → Ends (.giveUpWrite src) s fun t =>
    t.on F.SU_TIER_GIVE_UP = true ∧ t.rd F.STK_DIESTATE_C_STATE = 1 ∧ t.rd F.STK_DIESTATE_LAST_C_CAUSE = 2) ∧
  (∀ (s : State) (src : Source), Meets s src 1 .su 0 0x100 (2 ^ 16) → s.on F.SU_TIER_ROM_PHASE = false →
    Refused (.giveUpWrite src) s .firewall) ∧
  (∀ (s : State) (src : Source), Lands s src 1 .su 0 0x100 (2 ^ 19) → s.on F.SU_TIER_ROM_PHASE = true →
    Does (.romDoneWrite src) [F.SU_TIER_RECOVER, F.SU_TIER_ROM_PHASE, F.XR_TAGS_MAX, F.LK_TXSEQ, F.RT_LEVEL, F.RT_EDGE, F.PAD_HOLD,
      F.PAD_LEVEL] [Q.retry, Q.tickets] s fun t => t.on F.SU_TIER_ROM_PHASE = false ∧ t.on F.SU_TIER_RECOVER = false ∧
      t.resp = ⟨.ok, false, 0⟩) ∧
  (∀ (s : State) (src : Source), Lands s src 1 .su 0 0x100 (2 ^ 17) →
    Does (.recoverWrite src) [F.SU_TIER_RECOVER, F.XR_TAGS_MAX, F.LK_TXSEQ, F.RT_LEVEL, F.RT_EDGE, F.PAD_HOLD, F.PAD_LEVEL] [Q.retry,
      Q.tickets] s fun t => t.on F.SU_TIER_RECOVER = true ∧ t.resp = ⟨.ok, false, 0⟩) ∧
  (∀ (s : State) (src : Source) (m : BitVec 8) (k : BitVec 16), Lands s src 1 .su 0 0x138 (m.toNat + tk k) →
    Does (.ledgerClr src m k) [F.LEDGER_CAUSES, F.XR_TAGS_MAX, F.LK_TXSEQ, F.LEDGER_PENDING, F.RT_LEVEL, F.RT_EDGE, F.PAD_HOLD,
      F.PAD_LEVEL] [Q.retry, Q.tickets] s fun t => t.resp = ⟨.ok, false, 0⟩ ∧
      ∀ j, j < 8 → (t.rd F.LEDGER_CAUSES).testBit j = ((s.rd F.LEDGER_CAUSES).testBit j && !m.toNat.testBit j)) ∧
  (∀ (s : State) (src : Source) (m : BitVec 8) (k : BitVec 16), Meets s src 1 .su 0 0x138 (m.toNat + tk k) →
    s.rd F.TST_LOCK_STATE ≠ 0 → Refused (.ledgerClr src m k) s .firewall)

/-- R135, R141, R193, R195, R207: live re-patterns are started and cancelled, power states requested or refused, and domains switched. -/
def Obligations.PatternAndPowerRequestsAreTakenOrRefused : Prop :=
  (∀ (s : State) (src : Source) (k : BitVec 16), Lands s src 1 .pat 0 0x158 (1 + tk k) → livePending s = false →
    s.on F.LIVE_EN = true → (s.mget (liveAddr s + 6) 2).testBit 0 = true →
    Does (.patLiveGo src k) [F.PAT_REJECT_CODE, F.PAT_REJECT_TYPE, F.PAT_REJECT_SOURCE, F.PAT_REJECT_OFF_OFFSET, F.PAT_LIVE_STAT_STATE,
      F.PAT_LIVE_STAT_RESULT, F.XR_TAGS_MAX, F.CR_STAT_BUSY, F.LK_TXSEQ, F.LIVE_DELTA, F.LIVE_REFUSED, F.RT_LEVEL, F.RT_EDGE,
        F.PAD_HOLD, F.PAD_LEVEL, F.CR_USER] [Q.retry, Q.tickets, Q.delta] s fun t => t.rd F.PAT_LIVE_STAT_STATE = 1 ∧
          t.resp = ⟨.ok, false, 0⟩) ∧
  (∀ (s : State) (src : Source) (k : BitVec 16), Lands s src 1 .pat 0 0x158 (1 + tk k) → livePending s = true →
    Does (.patLiveGo src k) [F.PAT_REJECT_CODE, F.PAT_REJECT_TYPE, F.PAT_REJECT_SOURCE, F.PAT_REJECT_OFF_OFFSET, F.PAT_LIVE_STAT_STATE,
      F.PAT_LIVE_STAT_RESULT, F.XR_TAGS_MAX, F.CR_STAT_BUSY, F.LK_TXSEQ, F.LIVE_DELTA, F.LIVE_REFUSED, F.RT_LEVEL, F.RT_EDGE,
        F.PAD_HOLD, F.PAD_LEVEL, F.CR_USER] [Q.retry, Q.tickets, Q.delta] s fun t => t.rd F.PAT_REJECT_CODE = 0x44 ∧
      t.rd F.PAT_LIVE_STAT_STATE = s.rd F.PAT_LIVE_STAT_STATE ∧ t.rd F.PAT_LIVE_STAT_RESULT = s.rd F.PAT_LIVE_STAT_RESULT ∧
      t.rd F.LIVE_DELTA = s.rd F.LIVE_DELTA) ∧
  (∀ (s : State) (src : Source) (k : BitVec 16), Lands s src 1 .pat 0 0x158 (2 + tk k) → livePending s = true →
    (s.rd F.PAT_LIVE_STAT_STATE = 2 → s.held = []) → Does (.patLiveCancel src k) [F.PAT_REJECT_CODE, F.PAT_REJECT_TYPE,
      F.PAT_REJECT_SOURCE, F.PAT_REJECT_OFF_OFFSET, F.PAT_LIVE_STAT_STATE, F.PAT_LIVE_STAT_RESULT, F.XR_TAGS_MAX, F.CR_STAT_BUSY,
        F.LK_TXSEQ, F.RT_LEVEL, F.RT_EDGE, F.PAD_HOLD, F.PAD_LEVEL, F.CR_USER] [Q.retry, Q.tickets, Q.delta] s fun t =>
          t.rd F.PAT_REJECT_CODE = 0x47 ∧ t.rd F.PAT_LIVE_STAT_STATE = 5) ∧
  (∀ (s : State) (src : Source) (b : Bool), Lands s src 1 .ptm 0 0x104 (1 + 256 * bnat b) → s.on F.PTM_SUPPLY_DROP_WARN = false →
    Does (.stateReqDoze src b) [F.XR_TAGS_MAX, F.PTM_STATE_REFUSE, F.PTM_STATE_REQ_REQ, F.PTM_STATE_REQ_FAST_NAP, F.LK_TXSEQ,
      F.RT_LEVEL, F.RT_EDGE, F.ENTRY_REQ, F.PAD_HOLD, F.PAD_LEVEL] [Q.retry, Q.tickets] s fun t => t.rd F.PTM_STATE_REQ_REQ = 1 ∧
        t.rd F.PTM_STATE_REFUSE = 0 ∧
      t.on F.PTM_STATE_REQ_FAST_NAP = b) ∧
  (∀ (s : State) (src : Source) (b : Bool) (n : Nat) (c : Instr), (n, c) ∈ [(2, .stateReqNap src b), (3, .stateReqHibernate src b),
      (4, .stateReqShutdown src b)] → Lands s src 1 .ptm 0 0x104 (n + 256 * bnat b) → s.rd F.PTM_STATE_CUR = 0 →
    ∃ t, exec c s = .next t ∧ (entryRefusal s n = 0 → t.rd F.PTM_STATE_REQ_REQ = n ∧ t.rd F.ENTRY_REQ = n ∧ t.rd F.PTM_STATE_REFUSE = 0) ∧
    (entryRefusal s n ≠ 0 → t.rd F.PTM_STATE_REQ_REQ = 0 ∧ t.rd F.ENTRY_REQ = 0 ∧
      t.rd F.PTM_STATE_REFUSE = entryRefusal s n) ∧
    (anyArmed s = true → t.rd F.PTM_STATE_REFUSE = 1 ∧ t.rd F.PTM_STATE_REQ_REQ = 0)) ∧
  (∀ (s : State) (src : Source) (d : Fin 136), Lands s src 1 .ptm 0 (0x200 + 4 * (d.val / 32)) (domWord s d true) →
    domCtrl s d = false → domRefusal s d true = 0 → s.rd F.DOM_STATE d = 0 → domRailsGood s d = true →
    Does (.domCtrlOn src d) [F.XR_TAGS_MAX, F.PTM_DOM_CTRL_CTRL, F.PTM_DOM_ERR_DOMAIN, F.PTM_DOM_ERR_CODE, F.PTM_DOM_ERR_NEW,
      F.LK_TXSEQ, F.RT_LEVEL, F.RT_EDGE, F.DOM_STATE, F.PAD_HOLD, F.PAD_LEVEL] [Q.retry, Q.tickets] s fun t => domCtrl t d = true ∧
        t.rd F.DOM_STATE d = 1 ∧
      ∀ e, e ≠ d.val → e < 136 → domCtrl t e = domCtrl s e ∧ t.rd F.DOM_STATE e = s.rd F.DOM_STATE e) ∧
  (∀ (s : State) (src : Source) (d : Fin 136), Lands s src 1 .ptm 0 (0x200 + 4 * (d.val / 32)) (domWord s d false) →
    domCtrl s d = true → domRefusal s d false = 0 →
    Does (.domCtrlOff src d) [F.XR_TAGS_MAX, F.PTM_DOM_CTRL_CTRL, F.PTM_DOM_ERR_DOMAIN, F.PTM_DOM_ERR_CODE, F.PTM_DOM_ERR_NEW,
      F.LK_TXSEQ, F.RT_LEVEL, F.RT_EDGE, F.DOM_STATE, F.PAD_HOLD, F.PAD_LEVEL] [Q.retry, Q.tickets] s fun t => domCtrl t d = false ∧
        (∀ e, t.rd F.DOM_STATE e = s.rd F.DOM_STATE e) ∧
      ∀ e, e ≠ d.val → e < 136 → domCtrl t e = domCtrl s e) ∧
  (∀ (s : State) (src : Source) (d : Fin 136), Lands s src 1 .ptm 0 (0x200 + 4 * (d.val / 32)) (domWord s d true) →
    domCtrl s d = false → domRefusal s d true ≠ 0 →
    Does (.domCtrlOn src d) [F.XR_TAGS_MAX, F.PTM_DOM_CTRL_CTRL, F.PTM_DOM_ERR_DOMAIN, F.PTM_DOM_ERR_CODE, F.PTM_DOM_ERR_NEW,
      F.LK_TXSEQ, F.RT_LEVEL, F.RT_EDGE, F.DOM_STATE, F.PAD_HOLD, F.PAD_LEVEL] [Q.retry, Q.tickets] s fun t => domCtrl t d = false ∧
        t.on F.PTM_DOM_ERR_NEW = true ∧
      t.rd F.PTM_DOM_ERR_DOMAIN = d ∧ t.rd F.PTM_DOM_ERR_CODE = domRefusal s d true ∧ ∀ e, t.rd F.DOM_STATE e = s.rd F.DOM_STATE e)

/-- R250, R270, R279, R294, R300, R301, R309: the writes that trigger sequences, configure comparators, start a swatch test, start
slices and move their shadows, and the read that pops a capture. -/
def Obligations.AnalogAndTimingRegistersAct : Prop :=
  (∀ (s : State) (src : Source) (n : Fin 4), Lands s src 1 .ad n 0x10C 1 → adSecond s n = false → adLive s n = true →
    s.on F.AD_CFG_PAIR n = false → s.on F.AD_SEQ n 0 = false → Does (.adSwtrigA src n) [F.XR_TAGS_MAX, F.AD_STATUS_BUSY_A,
      F.AD_STATUS_BUSY_B, F.AD_STATUS_OVR_A, F.AD_STATUS_OVR_B, F.AD_TALLY_TRIG_LOST, F.AD_TALLY_PREEMPT, F.LK_TXSEQ, F.RT_LEVEL,
        F.RT_EDGE, F.PAD_HOLD, F.PAD_LEVEL, F.AD_SEQ, F.AD_STEP_NOW, F.AD_OVS_N, F.AD_ACC, F.AD_PAIRED, F.AD_LEN_A, F.AD_LEN_B,
          F.AD_CONT, F.AD_STEPF] [Q.retry, Q.tickets] s fun t =>
      t.rd F.AD_SEQ n 0 = 1 ∧ t.on F.AD_STATUS_BUSY_A n = true ∧ (s.rd F.AD_SEQ n 1 = 1 → t.rd F.AD_SEQ n 1 = 2)) ∧
  (∀ (s : State) (src : Source) (n : Fin 4), Lands s src 1 .ad n 0x10C 1 → adSecond s n = false → adLive s n = true →
    s.on F.AD_CFG_PAIR n = false → s.on F.AD_SEQ n 0 = true → Does (.adSwtrigA src n) [F.XR_TAGS_MAX, F.AD_STATUS_BUSY_A,
      F.AD_STATUS_BUSY_B, F.AD_STATUS_OVR_A, F.AD_STATUS_OVR_B, F.AD_TALLY_TRIG_LOST, F.AD_TALLY_PREEMPT, F.LK_TXSEQ, F.RT_LEVEL,
        F.RT_EDGE, F.PAD_HOLD, F.PAD_LEVEL, F.AD_SEQ, F.AD_STEP_NOW, F.AD_OVS_N, F.AD_ACC, F.AD_PAIRED, F.AD_LEN_A, F.AD_LEN_B,
          F.AD_CONT, F.AD_STEPF] [Q.retry, Q.tickets] s fun t =>
      t.rd F.AD_SEQ n 0 = s.rd F.AD_SEQ n 0 ∧ t.on F.AD_STATUS_OVR_A n = true) ∧
  (∀ (s : State) (src : Source) (n : Fin 4), Lands s src 1 .ad n 0x10C 2 → adLive s n = true → s.on F.AD_SEQ n 1 = false →
    Does (.adSwtrigB src n) [F.XR_TAGS_MAX, F.AD_STATUS_BUSY_A, F.AD_STATUS_BUSY_B, F.AD_STATUS_OVR_A, F.AD_STATUS_OVR_B,
      F.AD_TALLY_TRIG_LOST, F.AD_TALLY_PREEMPT, F.LK_TXSEQ, F.RT_LEVEL, F.RT_EDGE, F.PAD_HOLD, F.PAD_LEVEL, F.AD_SEQ, F.AD_STEP_NOW,
        F.AD_OVS_N, F.AD_ACC, F.AD_PAIRED, F.AD_LEN_A, F.AD_LEN_B, F.AD_CONT, F.AD_STEPF] [Q.retry, Q.tickets] s fun t =>
          t.on F.AD_STATUS_BUSY_B n = true ∧
      t.rd F.AD_SEQ n 1 = if s.on F.AD_SEQ n 0 then 3 else 1) ∧
  (∀ (s : State) (src : Source) (c : Fin 24) (v : BitVec 32), Lands s src 1 .cm 0 (0x100 + 4 * c.val) v.toNat →
    (cmLegUse s c && cmArmed s c) = false → Does (.cmCfgWrite src c false v) [F.FAULT_CAUSE_TRIP, F.XR_TAGS_MAX, F.CM_CFG_EN,
      F.CM_CFG_INSEL, F.CM_CFG_POL, F.CM_CFG_HYST, F.CM_CFG_FILT, F.CM_CFG_LATCH, F.CM_CFG_LSLICE, F.CM_CFG_EVT, F.CM_CFG_GATE_FILT,
        F.CM_RAW_RAW, F.CM_LATCHED_LATCHED, F.LG_STAT_STATE, F.LG_STAT_OC, F.LG_STAT_HS, F.LG_STAT_EXT, F.LG_STAT_SW, F.LG_TALLY_TRIPS,
          F.LG_TALLY_SWALLOW, F.BG_STAT_TRIPPED, F.BG_STAT_BRAKE_FB, F.TRIP_FIRST_LEG, F.TRIP_FIRST_KIND, F.TRIP_FIRST_TIED,
            F.TRIP_FIRST_VALID, F.TRIP_FIRST_STAMP_STAMP, F.TRIP_FIRST_MASK_MASK, F.ST_STAT_ACTIVE, F.ST_STAT_CUT, F.HDS_SLOT_FULL,
              F.HDS_SLOT_NEXT, F.HDS_SLOT_BUSY, F.HDS_SLOT_PLANE, F.HDS_TALLY1_INH_LINES, F.HDS_LINES_COUNT, F.LK_TXSEQ, F.RT_LEVEL,
                F.RT_EDGE, F.PAD_HOLD, F.PAD_LEVEL, F.CM_WAIT, F.TRIP_TICK, F.LG_SIDE, F.LG_DTRUN, F.LG_BLANKING, F.LG_OCREC,
                  F.LG_GROUPARM, F.ORPHAN_RUN, F.ST_DELAYED, F.ST_INBURST, F.ROW_DUE, F.HDS_PHASE, F.HDS_BURSTING, F.HDS_INH] [Q.retry,
                    Q.tickets] s fun t =>
      t.rd F.CM_CFG_EN c = v.toNat % 2 ∧ t.rd F.CM_CFG_INSEL c = v.toNat / 2 % 2 ^ F.CM_CFG_INSEL.w ∧
      t.rd F.CM_CFG_FILT c = v.toNat / 2 ^ 9 % 2 ^ F.CM_CFG_FILT.w ∧ t.rd F.CM_CFG_LATCH c = v.toNat / 2 ^ 12 % 2 ^ F.CM_CFG_LATCH.w) ∧
  (∀ (s : State) (src : Source) (c : Fin 24) (v : BitVec 32), Lands s src 1 .cm 0 (0x100 + 4 * c.val) v.toNat →
    (cmLegUse s c && cmArmed s c) = true → Does (.cmCfgWrite src c false v) [F.XR_TAGS_MAX, F.CM_REFUSED_COUNT, F.LK_TXSEQ, F.RT_LEVEL,
      F.RT_EDGE, F.PAD_HOLD, F.PAD_LEVEL] [Q.retry, Q.tickets] s fun t =>
      t.rd F.CM_REFUSED_COUNT = min (s.rd F.CM_REFUSED_COUNT + 1) (2 ^ F.CM_REFUSED_COUNT.w - 1)) ∧
  (∀ (s : State) (src : Source) (c : Fin 24) (v : BitVec 32), Lands s src 1 .cm 0 (0x200 + 4 * c.val) v.toNat → cmLegUse s c = false →
    Does (.cmCfgWrite src c true v) [F.XR_TAGS_MAX, F.CM_DAC_CODE, F.LK_TXSEQ, F.RT_LEVEL, F.RT_EDGE, F.PAD_HOLD, F.PAD_LEVEL] [Q.retry,
      Q.tickets] s fun t => t.rd F.CM_DAC_CODE c = v.toNat % 2 ^ F.CM_DAC_CODE.w) ∧
  (∀ (s : State) (src : Source) (c : Fin 24) (v : BitVec 32), Lands s src 1 .cm 0 (0x200 + 4 * c.val) v.toNat → cmLegUse s c = true →
    Does (.cmCfgWrite src c true v) [F.XR_TAGS_MAX, F.CM_REFUSED_COUNT, F.LK_TXSEQ, F.RT_LEVEL, F.RT_EDGE, F.PAD_HOLD, F.PAD_LEVEL]
      [Q.retry, Q.tickets] s fun _ => True) ∧
  (∀ (s : State) (src : Source), Lands s src 1 .sw 0 0x114 1 → s.rd F.SW_CFG_CMP < 24 → s.rd F.SW_CFG_TEST < 5 →
    Does (.swGo src) [F.XR_TAGS_MAX, F.SW_STAT_BUSY, F.SW_STAT_RESULT, F.LK_TXSEQ, F.RT_LEVEL, F.RT_EDGE, F.PAD_HOLD, F.PAD_LEVEL,
      F.SW_CMP, F.SW_TEST, F.SW_FROZEN, F.SW_CODE, F.SW_PENDING_RAW] [Q.retry, Q.tickets] s fun t => (swRefusal s = 0 →
        t.on F.SW_STAT_BUSY = true ∧ t.on F.SW_FROZEN = true ∧
        t.rd F.SW_CMP = s.rd F.SW_CFG_CMP ∧ t.rd F.SW_CODE = s.rd F.CM_DAC_CODE (s.rd F.SW_CFG_CMP)) ∧
      (swRefusal s ≠ 0 → t.rd F.SW_STAT_RESULT = swRefusal s ∧ t.rd F.SW_STAT_BUSY = s.rd F.SW_STAT_BUSY)) ∧
  (∀ (s : State) (src : Source) (m : BitVec 16), Lands s src 1 .ct 0 0x180 m.toNat → Does (.ctGstart src m) [F.XR_TAGS_MAX,
    F.CT_CTRL_RUN, F.LK_TXSEQ, F.RT_LEVEL, F.RT_EDGE, F.PAD_HOLD, F.PAD_LEVEL] [Q.retry, Q.tickets] s fun t =>
    ∀ n, t.on F.CT_CTRL_RUN n = (s.on F.CT_CTRL_RUN n || (decide (n < 16) && m.toNat.testBit n && domOn s (15 + n / 2)))) ∧
  (∀ (s : State) (src : Source) (n : Fin 16) (h : Bool), Lands s src 1 .ct n 0x118 (2 + bnat h) → ctPaired s n = false →
    Does (.ctShctlForce src n h) [F.XR_TAGS_MAX, F.CT_PERIOD_ACT_PERIOD, F.CT_SHCTL_HOLD, F.CT_CMP_ACT_VALUE, F.CT_CMP_ACT_FINE,
      F.CT_CMP_ACT_EVDIR, F.LK_TXSEQ, F.RT_LEVEL, F.RT_EDGE, F.PAD_HOLD, F.PAD_LEVEL, F.CT_SHWRIT] [Q.retry, Q.tickets] s fun t =>
        t.on F.CT_SHCTL_HOLD n = h ∧
      (∀ j, j < 4 → s.on F.CT_SHWRIT n j = true → t.rd F.CT_CMP_ACT_VALUE n j = s.rd F.CT_CMP_SH_VALUE n j ∧
        t.on F.CT_SHWRIT n j = false) ∧
      (s.on F.CT_SHWRIT n 4 = true → t.rd F.CT_PERIOD_ACT_PERIOD n = s.rd F.CT_PERIOD_PERIOD n)) ∧
  (∀ (s : State) (src : Source) (n : Fin 16) (j : Fin 4) (v : BitVec 32), Lands s src 1 .ct n (0x120 + 4 * j.val) v.toNat →
    s.rd F.CT_SHADOW_TICK n j ≠ s.tick + 1 →
    Does (.ctShadowWrite src n ⟨j.val, by omega⟩ v) [F.XR_TAGS_MAX, F.CT_PERIOD_ACT_PERIOD, F.CT_CMP_SH_VALUE, F.CT_CMP_SH_FINE,
      F.CT_CMP_SH_EVDIR, F.CT_CMP_ACT_VALUE, F.CT_CMP_ACT_FINE, F.CT_CMP_ACT_EVDIR, F.LK_TXSEQ, F.RT_LEVEL, F.RT_EDGE, F.PAD_HOLD,
        F.PAD_LEVEL, F.CT_SHWRIT, F.CT_SW_TICK] [Q.retry, Q.tickets] s fun t =>
      t.rd F.CT_CMP_SH_VALUE n j = v.toNat % 2 ^ 24 ∧
      (s.rd F.CT_CFG_LOAD (ctLead s n) ≠ 3 → t.on F.CT_SHWRIT n j = true ∧ t.rd F.CT_CMP_ACT_VALUE n j = s.rd F.CT_CMP_ACT_VALUE n j) ∧
      (s.rd F.CT_CFG_LOAD (ctLead s n) = 3 → s.on F.CT_SHCTL_HOLD (ctLead s n) = false →
        t.rd F.CT_CMP_ACT_VALUE n j = v.toNat % 2 ^ 24)) ∧
  (∀ (s : State) (src : Source) (n : Fin 16) (v : BitVec 32), Lands s src 1 .ct n 0x10C v.toNat → s.rd F.CT_SHADOW_TICK n 4 ≠ s.tick + 1 →
    Does (.ctShadowWrite src n 4 v) [F.XR_TAGS_MAX, F.CT_PERIOD_PERIOD, F.CT_PERIOD_ACT_PERIOD, F.CT_CMP_ACT_VALUE, F.CT_CMP_ACT_FINE,
      F.CT_CMP_ACT_EVDIR, F.LK_TXSEQ, F.RT_LEVEL, F.RT_EDGE, F.PAD_HOLD, F.PAD_LEVEL, F.CT_SHWRIT, F.CT_SW_TICK] [Q.retry,
        Q.tickets] s fun t =>
      t.rd F.CT_PERIOD_PERIOD n = v.toNat % 2 ^ F.CT_PERIOD_PERIOD.w) ∧
  (∀ (s : State) (src : Source) (n : Fin 16) (v : Nat) (rest : List Nat), Lands s src 0 .cp 0 (0x140 + 4 * n.val) 0 →
    s.q Q.capture n = v :: rest → v < 2 ^ 25 → Does (.cpDataPop src n) [F.XR_TAGS_MAX, F.LK_TXSEQ, F.RT_LEVEL, F.RT_EDGE, F.PAD_HOLD,
      F.PAD_LEVEL] [Q.retry, Q.tickets, Q.capture] s fun t =>
      t.resp = ⟨.ok, false, v + 2 ^ 25⟩ ∧ t.q Q.capture n = rest ∧ ∀ k, k ≠ n.val → t.q Q.capture k = s.q Q.capture k) ∧
  (∀ (s : State) (src : Source) (n : Fin 16), Lands s src 0 .cp 0 (0x140 + 4 * n.val) 0 → s.q Q.capture n = [] →
    Does (.cpDataPop src n) [F.XR_TAGS_MAX, F.LK_TXSEQ, F.RT_LEVEL, F.RT_EDGE, F.PAD_HOLD, F.PAD_LEVEL] [Q.retry, Q.tickets] s fun t =>
      t.resp = ⟨.ok, false, 0⟩)

/-- R75, R315 to R318, R321, R327: arming, disarming, tripping and configuring the legs and the groups. -/
def Obligations.LegsArmDisarmAndRefuse : Prop :=
  (∀ (s : State) (src : Source) (k : Fin 16), Lands s src 1 .lg k 0x110 1 → s.rd F.STK_DIESTATE_TIER = 2 →
    legGrouped s k = false → armBlock s k = 0 →
    s.rd F.LG_STAT_STATE k = 0 → Does (.lgArmArm src k) [F.XR_TAGS_MAX, F.LG_STAT_STATE, F.LG_STAT_ARM_ERR, F.LK_TXSEQ, F.RT_LEVEL,
      F.RT_EDGE, F.PAD_HOLD, F.PAD_LEVEL] [Q.retry, Q.tickets] s fun t =>
      t.rd F.LG_STAT_STATE k = 1 ∧ t.rd F.LG_STAT_ARM_ERR k = 0) ∧
  (∀ (s : State) (src : Source) (k : Fin 16) (now : Bool), Lands s src 1 .lg k 0x110 (if now then 5 else 1) →
    s.rd F.STK_DIESTATE_TIER = 2 →
    legTripped s k = true ∨ armBlock s k = 2 ∨ armBlock s k = 0 ∧ legGrouped s k = true →
    Does (if now then .lgArmNow src k else .lgArmArm src k) [F.XR_TAGS_MAX, F.LG_STAT_ARM_ERR, F.LK_TXSEQ, F.RT_LEVEL, F.RT_EDGE,
      F.PAD_HOLD, F.PAD_LEVEL] [Q.retry, Q.tickets] s fun t =>
      t.rd F.LG_STAT_ARM_ERR k = (if legTripped s k then 1 else if armBlock s k = 2 then 2 else 3)) ∧
  (∀ (s : State) (src : Source) (k : Fin 16), Lands s src 1 .lg k 0x110 5 → s.rd F.STK_DIESTATE_TIER = 2 →
    legGrouped s k = false → armBlock s k = 0 →
    Does (.lgArmNow src k) [F.XR_TAGS_MAX, F.LG_STAT_STATE, F.LG_STAT_ARM_ERR, F.LG_TALLY_SWALLOW, F.LK_TXSEQ, F.RT_LEVEL, F.RT_EDGE,
      F.PAD_HOLD, F.PAD_LEVEL, F.LG_REF, F.LG_SIDE, F.LG_DTRUN, F.LG_BLANKING, F.LG_GROUPARM, F.ORPHAN_RUN] [Q.retry,
        Q.tickets] s fun t => t.rd F.LG_STAT_STATE k = 2 ∧ t.rd F.LG_STAT_ARM_ERR k = 0) ∧
  (∀ (s : State) (src : Source) (k : Fin 16), Lands s src 1 .lg k 0x110 2 → Does (.lgArmDisarm src k) [F.XR_TAGS_MAX, F.LG_STAT_STATE,
    F.LG_TALLY_SWALLOW, F.LK_TXSEQ, F.RT_LEVEL, F.RT_EDGE, F.PAD_HOLD, F.PAD_LEVEL, F.LG_SIDE, F.LG_DTRUN, F.LG_BLANKING, F.LG_GROUPARM,
      F.ORPHAN_RUN] [Q.retry, Q.tickets] s fun t =>
    t.rd F.LG_STAT_STATE k = 0 ∧ t.on F.LG_GROUPARM k = false ∧
      (legSafe s k = (false, false) → t.on F.LG_SIDE k 0 = false ∧ t.on F.LG_SIDE k 1 = false)) ∧
  (∀ (s : State) (src : Source) (k : Fin 16), Lands s src 1 .lg k 0x110 8 → Does (.lgArmSwtrip src k) [F.FAULT_CAUSE_TRIP,
    F.XR_TAGS_MAX, F.LG_STAT_STATE, F.LG_STAT_OC, F.LG_STAT_HS, F.LG_STAT_EXT, F.LG_STAT_SW, F.LG_TALLY_TRIPS, F.LG_TALLY_SWALLOW,
      F.BG_STAT_TRIPPED, F.BG_STAT_BRAKE_FB, F.TRIP_FIRST_LEG, F.TRIP_FIRST_KIND, F.TRIP_FIRST_TIED, F.TRIP_FIRST_VALID,
        F.TRIP_FIRST_STAMP_STAMP, F.TRIP_FIRST_MASK_MASK, F.LK_TXSEQ, F.RT_LEVEL, F.RT_EDGE, F.PAD_HOLD, F.PAD_LEVEL, F.TRIP_TICK,
          F.LG_SIDE, F.LG_DTRUN, F.LG_BLANKING, F.LG_GROUPARM, F.ORPHAN_RUN] [Q.retry, Q.tickets] s fun t =>
    t.on F.LG_STAT_SW k = true ∧ t.rd F.LG_STAT_STATE k = 0 ∧
      (anyTripped s = false → t.rd F.TRIP_FIRST_LEG = k ∧ t.on F.TRIP_FIRST_VALID = true ∧ t.rd F.TRIP_FIRST_KIND = 8) ∧
      (legTripped s k = false → t.rd F.LG_TALLY_TRIPS k = min (s.rd F.LG_TALLY_TRIPS k + 1) (2 ^ F.LG_TALLY_TRIPS.w - 1))) ∧
  (∀ (s : State) (src : Source) (m : BitVec 6), Lands s src 1 .trip 0 0x140 m.toNat →
    s.rd F.STK_DIESTATE_TIER = 2 → Does (.bgArm src m) [F.XR_TAGS_MAX, F.LG_STAT_STATE, F.LG_STAT_ARM_ERR, F.LG_TALLY_SWALLOW,
      F.LK_TXSEQ, F.RT_LEVEL, F.RT_EDGE, F.PAD_HOLD, F.PAD_LEVEL, F.LG_REF, F.LG_SIDE, F.LG_DTRUN, F.LG_BLANKING, F.LG_GROUPARM,
        F.ORPHAN_RUN] [Q.retry, Q.tickets] s fun t =>
    ∀ g, g < 6 → m.toNat.testBit g = true →
      ((∃ k ∈ groupLegs s g, armBlock s k ≠ 0) → ∀ k ∈ groupLegs s g, t.rd F.LG_STAT_ARM_ERR k = 4 ∧
        t.rd F.LG_STAT_STATE k = s.rd F.LG_STAT_STATE k) ∧
      ((∀ k ∈ groupLegs s g, armBlock s k = 0) → ∀ k ∈ groupLegs s g, t.rd F.LG_STAT_ARM_ERR k = 0 ∧
        (s.rd F.LG_STAT_STATE k = 0 → t.rd F.LG_STAT_STATE k = 1 ∧ t.on F.LG_GROUPARM k = true))) ∧
  (∀ (s : State) (src : Source) (k : Fin 16) (v : BitVec 32), Lands s src 1 .lg k 0x100 v.toNat → s.rd F.LG_STAT_STATE k = 0 →
    Does (.lgCfgWrite src k false v) [F.XR_TAGS_MAX, F.LG_CFG_SLICE, F.LG_CFG_REF_MODE, F.LG_CFG_UA, F.LG_CFG_UB, F.LG_CFG_LMODE,
      F.LG_CFG_EXT_EN, F.LK_TXSEQ, F.RT_LEVEL, F.RT_EDGE, F.PAD_HOLD, F.PAD_LEVEL] [Q.retry, Q.tickets] s fun t =>
      t.rd F.LG_CFG_SLICE k = v.toNat % 16 ∧ t.rd F.LG_CFG_REF_MODE k = v.toNat / 2 ^ 4 % 4 ∧ t.rd F.LG_CFG_UA k = v.toNat / 2 ^ 6 % 4 ∧
      t.rd F.LG_CFG_UB k = v.toNat / 2 ^ 8 % 4 ∧ t.rd F.LG_CFG_LMODE k = v.toNat / 2 ^ 10 % 4 ∧
      t.rd F.LG_CFG_EXT_EN k = v.toNat / 2 ^ 12 % 2) ∧
  (∀ (s : State) (src : Source) (k : Fin 16) (v : BitVec 32), Lands s src 1 .lg k 0x104 v.toNat → s.rd F.LG_STAT_STATE k = 0 →
    Does (.lgCfgWrite src k true v) [F.XR_TAGS_MAX, F.LG_DT_DT_RISE, F.LG_DT_FINE_RISE, F.LG_DT_DT_FALL, F.LG_DT_FINE_FALL, F.LK_TXSEQ,
      F.RT_LEVEL, F.RT_EDGE, F.PAD_HOLD, F.PAD_LEVEL] [Q.retry, Q.tickets] s fun t =>
      t.rd F.LG_DT_DT_RISE k = v.toNat % 2 ^ F.LG_DT_DT_RISE.w ∧ t.rd F.LG_DT_DT_FALL k = v.toNat / 2 ^ 16 % 2 ^ F.LG_DT_DT_FALL.w) ∧
  (∀ (s : State) (src : Source) (k : Fin 16) (dt : Bool) (v : BitVec 32), Lands s src 1 .lg k (if dt then 0x104 else 0x100) v.toNat →
    s.rd F.LG_STAT_STATE k ≠ 0 → Does (.lgCfgWrite src k dt v) [F.XR_TAGS_MAX, F.LG_STAT_CFG_IGN, F.LK_TXSEQ, F.RT_LEVEL, F.RT_EDGE,
      F.PAD_HOLD, F.PAD_LEVEL] [Q.retry, Q.tickets] s fun t => t.on F.LG_STAT_CFG_IGN k = true)

/-- R370, R377, R379, R391, R392, R398, R404, R407, R413, R415, R418: the writes to the loop engine, the head data streamer, the yank
detector, the drawer kicks and the half-tone unit. -/
def Obligations.PrintAndLoopRegistersAct : Prop :=
  (∀ (s : State) (src : Source), Lands s src 1 .hds 0 0x14C 1 → Does (.yankClear src) [F.XR_TAGS_MAX, F.YK_STAT_YANK, F.YK_STAT_RUN,
    F.LK_TXSEQ, F.RT_LEVEL, F.RT_EDGE, F.PAD_HOLD, F.PAD_LEVEL] [Q.retry, Q.tickets] s fun t =>
    t.on F.YK_STAT_YANK = false ∧ (s.on F.YK_STAT_YANK = true → t.rd F.YK_STAT_RUN = 0)) ∧
  (∀ (s : State) (src : Source) (h : Bool) (v : BitVec 32), Lands s src 1 .le 0 (if h then 0x11C else 0x118) v.toNat →
    rowsIdle s = false →
    Does (.leSwap src h v) [F.XR_TAGS_MAX, F.LE_SWAP0_SWAP, F.LE_SWAP1_SWAP, F.LK_TXSEQ, F.RT_LEVEL, F.RT_EDGE, F.PAD_HOLD, F.PAD_LEVEL]
      [Q.retry, Q.tickets] s fun t => ∀ n, n < (if h then 16 else 32) →
      (t.rd (if h then F.LE_SWAP1_SWAP else F.LE_SWAP0_SWAP)).testBit n =
        ((s.rd (if h then F.LE_SWAP1_SWAP else F.LE_SWAP0_SWAP)).testBit n || v.toNat.testBit n)) ∧
  (∀ (s : State) (src : Source) (v : BitVec 32) (n : Fin 32), Lands s src 1 .le 0 0x118 v.toNat → rowsIdle s = true →
    v.toNat.testBit n = true → s.on F.LE_MID n = false →
    Does (.leSwap src false v) [F.XR_TAGS_MAX, F.LE_BANK0_BANK, F.LE_BANK1_BANK, F.LE_SWAP0_SWAP, F.LE_SWAP1_SWAP, F.LK_TXSEQ,
      F.RT_LEVEL, F.RT_EDGE, F.PAD_HOLD, F.PAD_LEVEL, F.LE_SWAP_DUE] [Q.retry, Q.tickets] s fun t =>
      (t.rd F.LE_SWAP0_SWAP).testBit n = false ∧ (t.rd F.LE_BANK0_BANK).testBit n = !(s.rd F.LE_BANK0_BANK).testBit n) ∧
  (∀ (s : State) (src : Source) (h : Bool) (v : BitVec 32), Lands s src 1 .le 0 (if h then 0x124 else 0x120) v.toNat →
    Does (.leClr src h v) [F.XR_TAGS_MAX, F.LE_CLR0_CLR, F.LE_CLR1_CLR, F.LK_TXSEQ, F.RT_LEVEL, F.RT_EDGE, F.PAD_HOLD, F.PAD_LEVEL]
      [Q.retry, Q.tickets] s fun t => ∀ n, n < (if h then 16 else 32) →
      (t.rd (if h then F.LE_CLR1_CLR else F.LE_CLR0_CLR)).testBit n =
        ((s.rd (if h then F.LE_CLR1_CLR else F.LE_CLR0_CLR)).testBit n || v.toNat.testBit n)) ∧
  (∀ (s : State) (src : Source) (k : Fin 4) (f : Bool), Lands s src 1 .le 0 (0x140 + 4 * k.val) (2 + bnat f) →
    Does (.ltPreload src k f) [F.XR_TAGS_MAX, F.LE_LT_CTL_FREEZE, F.LE_LT_CTL_BUSY, F.LK_TXSEQ, F.RT_LEVEL, F.RT_EDGE, F.PAD_HOLD,
      F.PAD_LEVEL, F.LE_TBUSY_PRE, F.LE_TBUSY_SNAP] [Q.retry, Q.tickets] s fun t => t.on F.LE_LT_CTL_BUSY k = true ∧
        t.on F.LE_LT_CTL_FREEZE k = f ∧
      (s.on F.LE_LT_CTL_BUSY k = false → t.on F.LE_TBUSY_PRE k = true ∧ t.on F.LE_TBUSY_SNAP k = false) ∧
      (s.on F.LE_LT_CTL_BUSY k = true → t.rd F.LE_TBUSY_PRE k = s.rd F.LE_TBUSY_PRE k ∧
        t.rd F.LE_TBUSY_SNAP k = s.rd F.LE_TBUSY_SNAP k)) ∧
  (∀ (s : State) (src : Source) (k : Fin 4) (f : Bool), Lands s src 1 .le 0 (0x140 + 4 * k.val) (4 + bnat f) →
    Does (.ltSnap src k f) [F.XR_TAGS_MAX, F.LE_LT_CTL_FREEZE, F.LE_LT_CTL_BUSY, F.LK_TXSEQ, F.RT_LEVEL, F.RT_EDGE, F.PAD_HOLD,
      F.PAD_LEVEL, F.LE_TBUSY_PRE, F.LE_TBUSY_SNAP] [Q.retry, Q.tickets] s fun t => t.on F.LE_LT_CTL_BUSY k = true ∧
        t.on F.LE_LT_CTL_FREEZE k = f ∧
      (s.on F.LE_LT_CTL_BUSY k = false → t.on F.LE_TBUSY_PRE k = false ∧ t.on F.LE_TBUSY_SNAP k = true)) ∧
  (∀ (s : State) (src : Source) (m : BitVec 2), Lands s src 1 .hds 0 0x124 m.toNat → Does (.hdsCommit src m) [F.XR_TAGS_MAX,
    F.HDS_SLOT_FULL, F.HDS_TALLY1_COMMIT_DUP, F.LK_TXSEQ, F.RT_LEVEL, F.RT_EDGE, F.PAD_HOLD, F.PAD_LEVEL] [Q.retry, Q.tickets] s fun t =>
    (∀ n, n < 2 → (t.rd F.HDS_SLOT_FULL).testBit n = ((s.rd F.HDS_SLOT_FULL).testBit n || m.toNat.testBit n)) ∧
    (s.rd F.HDS_SLOT_FULL &&& m.toNat = 0 → t.rd F.HDS_TALLY1_COMMIT_DUP = s.rd F.HDS_TALLY1_COMMIT_DUP) ∧
    (s.rd F.HDS_SLOT_FULL &&& m.toNat = 1 ∨ s.rd F.HDS_SLOT_FULL &&& m.toNat = 2 → t.rd F.HDS_TALLY1_COMMIT_DUP =
      min (s.rd F.HDS_TALLY1_COMMIT_DUP + 1) (2 ^ F.HDS_TALLY1_COMMIT_DUP.w - 1))) ∧
  (∀ (s : State) (src : Source) (v : BitVec 32), Lands s src 1 .hds 0 0x100 v.toNat →
    Does (.hdsCtrlWrite src v) [F.XR_TAGS_MAX, F.HDS_CTRL_EN, F.HDS_CTRL_OWNER, F.HDS_CTRL_WCOPY, F.HDS_CTRL_LINE_EVT, F.HDS_CTRL_ORDER,
      F.HDS_SLOT_FULL, F.HDS_SLOT_NEXT, F.HDS_SLOT_BUSY, F.HDS_SLOT_PLANE, F.LK_TXSEQ, F.RT_LEVEL, F.RT_EDGE, F.PAD_HOLD, F.PAD_LEVEL,
        F.HDS_PHASE, F.HDS_BURSTING, F.HDS_SHIFTED] [Q.retry, Q.tickets] s fun t =>
      t.rd F.HDS_CTRL_EN = v.toNat % 2 ∧ t.rd F.HDS_CTRL_OWNER = v.toNat / 2 % 2 ∧ t.rd F.HDS_CTRL_ORDER = v.toNat / 16 % 2 ∧
      (s.on F.HDS_CTRL_EN = false → v.toNat % 2 = 1 → t.rd F.HDS_SLOT_FULL = 0 ∧ t.rd F.HDS_SLOT_NEXT = 0) ∧
      (s.on F.HDS_CTRL_EN = true → v.toNat % 2 = 0 → t.on F.HDS_SLOT_BUSY = false ∧
        (s.on F.HDS_SLOT_BUSY = true → t.rd F.HDS_PHASE = 0))) ∧
  (∀ (s : State) (src : Source) (p : Nat) (ps : List Nat), Lands s src 1 .hds 0 0x128 1 → s.on F.HDS_CTRL_EN = true →
    s.on F.HDS_SLOT_BUSY = false → (s.rd F.HDS_SLOT_FULL).testBit (s.rd F.HDS_SLOT_NEXT) = true →
    onesOf (s.rd F.HDS_PLANES_PEN) 4 = p :: ps → Does (.hdsGoLine src) [F.XR_TAGS_MAX, F.HDS_SLOT_FULL, F.HDS_SLOT_NEXT,
      F.HDS_SLOT_BUSY, F.HDS_SLOT_PLANE, F.HDS_TALLY0_LINE_OVR, F.HDS_TALLY0_UNDERRUN, F.HDS_TALLY1_INH_LINES, F.HDS_LINES_COUNT,
        F.LK_TXSEQ, F.RT_LEVEL, F.RT_EDGE, F.PAD_HOLD, F.PAD_LEVEL, F.ROW_DUE, F.HDS_PHASE, F.HDS_NEXTPLANE, F.HDS_SHIFTED,
          F.HDS_G_DOTS, F.HDS_G_LANES2, F.HDS_G_PEN, F.HDS_G_MUL, F.HDS_WCAP, F.HDS_INH] [Q.retry, Q.tickets] s fun t =>
            t.on F.HDS_SLOT_BUSY = true ∧
      t.rd F.HDS_SLOT_PLANE = p ∧ t.rd F.HDS_PHASE = 1 ∧ t.rd F.HDS_SLOT_NEXT = s.rd F.HDS_SLOT_NEXT) ∧
  (∀ (s : State) (src : Source), Lands s src 1 .hds 0 0x128 1 → s.on F.HDS_CTRL_EN = true → s.on F.HDS_SLOT_BUSY = true →
    Does (.hdsGoLine src) [F.XR_TAGS_MAX, F.HDS_SLOT_FULL, F.HDS_SLOT_NEXT, F.HDS_SLOT_BUSY, F.HDS_SLOT_PLANE, F.HDS_TALLY0_LINE_OVR,
      F.HDS_TALLY0_UNDERRUN, F.HDS_TALLY1_INH_LINES, F.HDS_LINES_COUNT, F.LK_TXSEQ, F.RT_LEVEL, F.RT_EDGE, F.PAD_HOLD, F.PAD_LEVEL,
        F.ROW_DUE, F.HDS_PHASE, F.HDS_NEXTPLANE, F.HDS_SHIFTED, F.HDS_G_DOTS, F.HDS_G_LANES2, F.HDS_G_PEN, F.HDS_G_MUL, F.HDS_WCAP,
          F.HDS_INH] [Q.retry, Q.tickets] s fun t => 101 ∈ t.events ∧
      t.rd F.HDS_TALLY0_LINE_OVR = min (s.rd F.HDS_TALLY0_LINE_OVR + 1) (2 ^ F.HDS_TALLY0_LINE_OVR.w - 1)) ∧
  (∀ (s : State) (src : Source) (v : BitVec 32), Lands s src 1 .hcu 0 0x10C v.toNat → Does (.hcuInWrWrite src v) [F.XR_TAGS_MAX,
    F.HCU_IN_WR_WR, F.LK_TXSEQ, F.RT_LEVEL, F.RT_EDGE, F.PAD_HOLD, F.PAD_LEVEL] [Q.retry, Q.tickets] s fun t =>
    t.rd F.HCU_IN_WR_WR = v.toNat % 256) ∧
  (∀ (s : State) (src : Source), Lands s src 1 .hcu 0 0x114 2 → Does (.hcuErrClear src) [F.XR_TAGS_MAX, F.HCU_STAT_ERR, F.LK_TXSEQ,
    F.RT_LEVEL, F.RT_EDGE, F.PAD_HOLD, F.PAD_LEVEL] [Q.retry, Q.tickets] s fun t =>
    t.on F.HCU_STAT_ERR = false) ∧
  (∀ (s : State) (src : Source) (v : BitVec 32), Lands s src 1 .hcu 0 0x100 (putBit v.toNat 2 true) →
    Does (.hcuHistClr src v) [F.XR_TAGS_MAX, F.HCU_CTRL_EN, F.HCU_CTRL_PREHEAT, F.HCU_CTRL_EVT, F.HCU_STAT_BUSY, F.LK_TXSEQ, F.RT_LEVEL,
      F.RT_EDGE, F.PAD_HOLD, F.PAD_LEVEL, F.HCU_SLOT, F.HCU_H1, F.HCU_H2, F.HCU_HELD] [Q.retry, Q.tickets] s fun t =>
      t.rd F.HCU_H1 = 0 ∧ t.rd F.HCU_H2 = 0 ∧ t.rd F.HCU_CTRL_EN = v.toNat % 2) ∧
  (∀ (s : State) (src : Source) (d : Fin 2), Lands s src 1 .hds 0 (0x184 + 8 * d.val) 1 → Does (.dkFire src d) [F.XR_TAGS_MAX,
    F.DK_STAT_ACTIVE, F.DK_STAT_REFUSED, F.LK_TXSEQ, F.RT_LEVEL, F.RT_EDGE, F.PAD_HOLD, F.PAD_LEVEL] [Q.retry, Q.tickets] s fun t =>
    (s.rd F.DK_STAT_ACTIVE = 0 → (s.rd F.DK_STAT_COOLING).testBit d = false → dkAssigned s d = true → t.rd F.DK_STAT_ACTIVE = 2 ^ d.val ∧
      t.rd F.DK_STAT_REFUSED = s.rd F.DK_STAT_REFUSED) ∧
    (s.rd F.DK_STAT_ACTIVE ≠ 0 ∨ (s.rd F.DK_STAT_COOLING).testBit d = true ∨ dkAssigned s d = false →
      t.rd F.DK_STAT_ACTIVE = s.rd F.DK_STAT_ACTIVE ∧ (t.rd F.DK_STAT_REFUSED).testBit d = true))

/-- R435, R454, R456, R498, R520, R522, R535: the writes that kick watchdogs, clear double faults, invalidate caches, post and recover
tasks, enable the dispatcher and lock an MPU. Core 4 is the supervisor pair. -/
def Obligations.CoreAndDispatcherRegistersAct : Prop :=
  (∀ (s : State) (src : Source) (c : Fin 5) (b : Bool) (m : BitVec 8), Lands s src 1 .wd c (if b then 0 else 0x120) m.toNat →
    Does (.wdKick src b m) [F.XR_TAGS_MAX, F.WD_COUNT_COUNT, F.LK_TXSEQ, F.RT_LEVEL, F.RT_EDGE, F.PAD_HOLD, F.PAD_LEVEL] [Q.retry,
      Q.tickets] s fun t => ∀ k, k < 8 → t.rd F.WD_COUNT_COUNT c k =
      if m.toNat.testBit k then s.rd F.WD_PERIOD_PERIOD c k else s.rd F.WD_COUNT_COUNT c k) ∧
  (∀ (s : State) (src : Source) (c : Fin 5) (m : BitVec 8), Lands s src 1 .tc c 0x104 m.toNat →
    Does (.tcDfaultClear src c m) [F.XR_TAGS_MAX, F.TC_DFAULT_THREADS, F.LK_TXSEQ, F.RT_LEVEL, F.RT_EDGE, F.PAD_HOLD, F.PAD_LEVEL,
      F.DFAULTED] [Q.retry, Q.tickets] s fun t => ∀ k, k < 8 →
      (t.rd F.TC_DFAULT_THREADS c).testBit k = ((s.rd F.TC_DFAULT_THREADS c).testBit k && !m.toNat.testBit k) ∧
      (m.toNat.testBit k = true → t.on F.DFAULTED (8 * c.val + k) = false)) ∧
  (∀ (s : State) (src : Source) (c : Fin 5) (n : Nat) (i : Instr), (n, i) ∈ [(1, .ccInvIcAll src), (2, .ccInvRcAll src),
      (4, .ccInvIcRange src), (8, .ccInvRcRange src)] → Lands s src 1 .cc c 0x108 n → Does i [F.XR_TAGS_MAX, F.CC_INV_BUSY, F.LK_TXSEQ,
        F.RT_LEVEL, F.RT_EDGE, F.PAD_HOLD, F.PAD_LEVEL, F.INV_KIND] [Q.retry, Q.tickets] s fun t =>
    t.on F.CC_INV_BUSY c = true ∧ (s.on F.CC_INV_BUSY c = false → t.rd F.INV_KIND c = n) ∧
      (s.on F.CC_INV_BUSY c = true → t.rd F.INV_KIND c = s.rd F.INV_KIND c)) ∧
  (∀ (s : State) (src : Source) (b : Bool) (k : BitVec 8) (tk' : BitVec 16), Lands s src 1 .dsp 0 (if b then 0x8 else 0x108) (k.toNat + tk tk') →
    Ends (.dspPost src b k tk') s fun t =>
      (taskEnabled s k.toNat = true → taskState s k.toNat = 0 ∨ taskState s k.toNat = 3 → taskState t k.toNat = 1) ∧
      (taskEnabled s k.toNat = true → taskState s k.toNat = 1 → taskState t k.toNat = 1 ∧
        t.rd F.DSP_COALESCE_COUNT = min (s.rd F.DSP_COALESCE_COUNT + 1) (2 ^ F.DSP_COALESCE_COUNT.w - 1)) ∧
      (taskEnabled s k.toNat = true → taskState s k.toNat = 2 → taskRerun s k.toNat = true →
        taskState t k.toNat = 2 ∧ t.on F.DSP_TSTAT_PENDING k.toNat = true) ∧
      (taskState s k.toNat = 4 ∨ taskEnabled s k.toNat = false → taskState t k.toNat = taskState s k.toNat ∧
        t.rd F.DSP_DROPPED_COUNT = min (s.rd F.DSP_DROPPED_COUNT + 1) (2 ^ F.DSP_DROPPED_COUNT.w - 1))) ∧
  (∀ (s : State) (src : Source) (k : BitVec 8), Lands s src 1 .dsp 0 0x1B0 k.toNat → Does (.dspRecover src k) [F.XR_TAGS_MAX,
    F.DSP_TSTAT_STATE, F.LK_TXSEQ, F.RT_LEVEL, F.RT_EDGE, F.PAD_HOLD, F.PAD_LEVEL] [Q.retry, Q.tickets] s fun t =>
    taskState t k.toNat = (if taskState s k.toNat = 4 then 0 else taskState s k.toNat) ∧
      ∀ j, j ≠ k.toNat → taskState t j = taskState s j) ∧
  (∀ (s : State) (src : Source) (b : Bool), Lands s src 1 .dsp 0 0x100 (bnat b) → Ends (.dspCtrlEn src b) s fun t =>
    t.on F.DSP_CTRL_EN = b ∧ ∀ k, taskState t k = taskState s k) ∧
  (∀ (s : State) (src : Source) (c : Fin 5) (b : Bool), Lands s src 1 .mpu c 0x100 (2 + bnat b) →
    Does (.mpuLock src b) [F.XR_TAGS_MAX, F.MPU_CTRL_DEF_EN, F.MPU_CTRL_LOCK, F.LK_TXSEQ, F.RT_LEVEL, F.RT_EDGE, F.PAD_HOLD, F.PAD_LEVEL]
      [Q.retry, Q.tickets] s fun t => t.on F.MPU_CTRL_LOCK c = true ∧ t.on F.MPU_CTRL_DEF_EN c = b) ∧
  (∀ (s : State) (src : Source) (c : Fin 5) (b : Bool), Meets s src 1 .mpu c 0x100 (2 + bnat b) → s.on F.MPU_CTRL_LOCK c = true →
    Refused (.mpuLock src b) s .firewall)

/-- R564, R572, R576, R703, R707, R709, R712: the writes that ask for a hinge or for degraded, inject a mismatch, halt, resume and step
threads, reach a halted thread's registers, lock the debug state and program its fuses. -/
def Obligations.SupervisorAndDebugRegistersAct : Prop :=
  (∀ (s : State) (src : Source) (r : Bool) (i : Instr), i = (if r then .spRejoin src else .spSplit src) →
    Lands s src 1 .sp 0 0x20C (if r then 2 else 1) → s.on F.SP_STAT_RESEEDING = false → Ends i s fun t =>
      (r = false → s.rd F.SP_STAT_MODE = 0 → s.rd F.SP_CFG_WINDOW ≤ s.rd F.SP_WCYC → cUp s = true → domOn s 112 = true →
        windowClass s = 0 →
        t.rd F.SP_WINDOWS_COUNT = min (s.rd F.SP_WINDOWS_COUNT + 1) (2 ^ F.SP_WINDOWS_COUNT.w - 1) ∧ t.rd F.SP_WCYC = 0 ∧
        (hingeCode s r = 0 → t.rd F.SP_STAT_MODE = 3)) ∧
      (r = true ∨ s.rd F.SP_STAT_MODE ≠ 0 ∨ s.rd F.SP_WCYC < s.rd F.SP_CFG_WINDOW →
        (hingeCode s r = 0 → t.rd F.SP_STAT_MODE = 3 ∧ t.rd F.HINGE_FROM = s.rd F.SP_STAT_MODE) ∧
      (hingeCode s r ≠ 0 → t.rd F.SP_STAT_MODE = s.rd F.SP_STAT_MODE ∧ t.on F.SP_EVT_HINGE_REF = true ∧
        t.rd F.SP_STAT_HCODE = hingeCode s r ∧ 12 ∈ t.events))) ∧
  (∀ (s : State) (src : Source), Lands s src 1 .sp 0 0x208 1 → Does (.spDegrade src) [F.XR_TAGS_MAX, F.SP_STAT_MODE,
    F.SP_STAT_RESEEDING, F.SP_STAT_HCODE, F.SP_EVT_HINGE_REF, F.SP_EVT_DEGRADED, F.LK_TXSEQ, F.RT_LEVEL, F.RT_EDGE, F.PAD_HOLD,
      F.PAD_LEVEL, F.HINGE_KIND, F.HINGE_FROM, F.HINGE_HELD, F.HINGE_SEEN] [Q.retry, Q.tickets] s fun t =>
    (s.rd F.SP_STAT_MODE = 0 → s.rd F.HINGE_HELD = 0 → t.rd F.SP_STAT_MODE = 2 ∧ t.on F.SP_EVT_DEGRADED = true ∧ 14 ∈ t.events) ∧
    (s.rd F.SP_STAT_MODE = 1 ∨ s.rd F.SP_STAT_MODE = 3 → t.rd F.SP_STAT_MODE = s.rd F.SP_STAT_MODE ∧
      t.on F.SP_EVT_HINGE_REF = true ∧ t.rd F.SP_STAT_HCODE = 1)) ∧
  (∀ (s : State) (src : Source), Lands s src 1 .sp 0 0x208 2 → Does (.spInjC src) [F.XR_TAGS_MAX, F.LK_TXSEQ, F.RT_LEVEL, F.RT_EDGE,
    F.PAD_HOLD, F.PAD_LEVEL, F.INJ_C] [Q.retry, Q.tickets] s fun t => t.on F.INJ_C = true) ∧
  (∀ (s : State) (src : Source), Lands s src 1 .sp 0 0x208 4 → Does (.spInjI src) [F.XR_TAGS_MAX, F.LK_TXSEQ, F.RT_LEVEL, F.RT_EDGE,
    F.PAD_HOLD, F.PAD_LEVEL, F.INJ_I] [Q.retry, Q.tickets] s fun t => t.on F.INJ_I = true) ∧
  (∀ (s : State) (src : Source), s.rd F.TST_LOCK_STATE ≠ 0 → (Meets s src 1 .sp 0 0x208 2 → Refused (.spInjC src) s .firewall) ∧
    (Meets s src 1 .sp 0 0x208 4 → Refused (.spInjI src) s .firewall)) ∧
  (∀ (s : State) (src : Source) (h : Bool) (m : BitVec 32) (k : Nat), k < (if h then 8 else 32) → m.toNat.testBit k = true →
    Lands s src 1 .dbg 0 (if h then 0x104 else 0x100) m.toNat → s.on F.HALTED (bnat h * 32 + k) = false →
    Does (.dbgHalt src h m) [F.XR_TAGS_MAX, F.LK_TXSEQ, F.RT_LEVEL, F.RT_EDGE, F.PAD_HOLD, F.PAD_LEVEL, F.HALT_REQ, F.HREASON] [Q.retry,
      Q.tickets] s fun t => t.on F.HALT_REQ (bnat h * 32 + k) = true ∧ t.rd F.HREASON (bnat h * 32 + k) = 1) ∧
  (∀ (s : State) (src : Source) (h : Bool) (m : BitVec 32) (k : Nat), k < (if h then 8 else 32) → m.toNat.testBit k = true →
    Lands s src 1 .dbg 0 (if h then 0x10c else 0x108) m.toNat → Does (.dbgResume src h m) [F.XR_TAGS_MAX, F.LK_TXSEQ, F.RT_LEVEL,
      F.RT_EDGE, F.PAD_HOLD, F.PAD_LEVEL, F.HALTED] [Q.retry, Q.tickets] s fun t =>
      t.on F.HALTED (bnat h * 32 + k) = false) ∧
  (∀ (s : State) (src : Source) (h : Bool) (m : BitVec 32) (k : Nat), k < (if h then 8 else 32) → m.toNat.testBit k = true →
    Lands s src 1 .dbg 0 (if h then 0x114 else 0x110) m.toNat → s.on F.HALTED (bnat h * 32 + k) = true →
    Does (.dbgStep src h m) [F.XR_TAGS_MAX, F.LK_TXSEQ, F.RT_LEVEL, F.RT_EDGE, F.PAD_HOLD, F.PAD_LEVEL, F.HALTED, F.STEPPING] [Q.retry,
      Q.tickets] s fun t => t.on F.HALTED (bnat h * 32 + k) = false ∧ t.on F.STEPPING (bnat h * 32 + k) = true) ∧
  (∀ (s : State) (src : Source) (r : Fin 16) (v : BitVec 32), Lands s src 1 .dbg 0 (0x140 + 4 * r.val) v.toNat →
    Does (.dbgRegAccess src (r.castLE (by omega)) true v) [F.XR_TAGS_MAX, F.LK_TXSEQ, F.RT_LEVEL, F.RT_EDGE, F.PAD_HOLD, F.PAD_LEVEL,
      F.GPR] [Q.retry, Q.tickets, Q.replay] s fun t => Writes s t (mainOf s (dbgSel s)) r v) ∧
  (∀ (s : State) (src : Source) (v : BitVec 32), Lands s src 1 .dbg 0 0x128 v.toNat →
    Does (.dbgRegAccess src 16 true v) [F.XR_TAGS_MAX, F.LK_TXSEQ, F.RT_LEVEL, F.RT_EDGE, F.PAD_HOLD, F.PAD_LEVEL, F.PC, F.FB_LINE]
      [Q.retry, Q.tickets, Q.replay] s fun t => t.rd F.PC (mainOf s (dbgSel s)) = (v &&& ~~~3).toNat) ∧
  (∀ (s : State) (src : Source) (r : Fin 16) (v : BitVec 32), Lands s src 0 .dbg 0 (0x140 + 4 * r.val) 0 →
    Does (.dbgRegAccess src (r.castLE (by omega)) false v) [F.XR_TAGS_MAX, F.LK_TXSEQ, F.RT_LEVEL, F.RT_EDGE, F.PAD_HOLD, F.PAD_LEVEL]
      [Q.retry, Q.tickets] s fun t => t.resp = ⟨.ok, false, s.rd F.GPR (mainOf s (dbgSel s)) r⟩) ∧
  (∀ (s : State) (src : Source) (r : Fin 16) (v : BitVec 32), Meets s src 1 .dbg 0 (0x140 + 4 * r.val) v.toNat →
    40 ≤ dbgSel s ∨ s.on F.HALTED (dbgSel s) = false → Refused (.dbgRegAccess src (r.castLE (by omega)) true v) s .firewall) ∧
  (∀ (s : State) (src : Source), Lands s src 1 .tst 0 0x100 (2 ^ 8) → Does (.tstLock src) [F.XR_TAGS_MAX, F.TST_LOCK_STATE, F.LK_TXSEQ,
    F.RT_LEVEL, F.RT_EDGE, F.PAD_HOLD, F.PAD_LEVEL] [Q.retry, Q.tickets] s fun t =>
    t.rd F.TST_LOCK_STATE = if isOpen s then 1 else s.rd F.TST_LOCK_STATE) ∧
  (∀ (s : State) (src : Source) (f : BitVec 2), Lands s src 1 .tst 0 0x108 f.toNat → Does (.tstFuseProg src f) [F.XR_TAGS_MAX,
    F.TST_FUSE_DBG_FUSE, F.FUSE_DBG, F.LK_TXSEQ, F.RT_LEVEL, F.RT_EDGE, F.PAD_HOLD, F.PAD_LEVEL] [Q.retry, Q.tickets] s fun t =>
    (isOpen s = true → t.rd F.FUSE_DBG = s.rd F.FUSE_DBG % 4 ||| f.toNat) ∧ (isOpen s = false → t.rd F.FUSE_DBG = s.rd F.FUSE_DBG))

/-- R581, R586, R587, R597, R602, R603: the writes to the DMA channels' registers. -/
def Obligations.DmaRegistersAct : Prop :=
  (∀ (s : State) (src : Source) (n : Fin 32) (k : BitVec 16), Lands s src 1 .dmg (n.val / 8) (0x100 * (n.val % 8) + 0x108) (1 + tk k) →
    Does (.dcDoorbell src n k) [F.XR_TAGS_MAX, F.DC_STAT_STATE, F.DC_STAT_RESCAN, F.LK_TXSEQ, F.RT_LEVEL, F.RT_EDGE, F.PAD_HOLD,
      F.PAD_LEVEL] [Q.retry, Q.tickets] s fun t =>
      (s.on F.DC_CFG_EN n = true → dcState s n = 0 → dcState t n = 1) ∧
      (s.on F.DC_CFG_EN n = true → dcState s n = 1 ∨ dcState s n = 2 ∨ dcState s n = 3 ∨ dcState s n = 6 →
        t.on F.DC_STAT_RESCAN n = true ∧ dcState t n = dcState s n) ∧
      (s.on F.DC_CFG_EN n = false ∨ dcState s n = 4 ∨ dcState s n = 5 → dcState t n = dcState s n ∧
        t.rd F.DC_STAT_RESCAN n = s.rd F.DC_STAT_RESCAN n) ∧ t.resp = ⟨.ok, false, 0⟩) ∧
  (∀ (s : State) (src : Source) (n : Fin 32) (k : BitVec 16) (row : RegRow) (j : Nat), masterLive s src.who = true →
    mustWait s (regRequest src 1 .dmg (n.val / 8) (0x100 * (n.val % 8) + 0x108) (1 + tk k)) = false →
    gate s (regRequest src 1 .dmg (n.val / 8) (0x100 * (n.val % 8) + 0x108) (1 + tk k)) =
      .reg ⟨.dmg, n.val / 8, 0x100 * (n.val % 8) + 0x108⟩ row j →
    isDuplicate s (regRequest src 1 .dmg (n.val / 8) (0x100 * (n.val % 8) + 0x108) (1 + tk k))
      ⟨.dmg, n.val / 8, 0x100 * (n.val % 8) + 0x108⟩ row = true →
    ∃ t, exec (.dcDoorbell src n k) s = .next t ∧ t.resp = ⟨.ok, true, 0⟩ ∧
      t.rd F.DC_TALLY_DUP n = min (s.rd F.DC_TALLY_DUP n + 1) (2 ^ F.DC_TALLY_DUP.w - 1) ∧
      Only [F.DC_TALLY_DUP, F.XR_TAGS_MAX, F.FAB_DUP_COUNT, F.FAB_DUP_LAST_MID, F.FAB_DUP_LAST_BLOCK, F.LK_TXSEQ] [Q.retry] s t) ∧
  (∀ (s : State) (src : Source) (n : Fin 32), Lands s src 1 .dmg (n.val / 8) (0x100 * (n.val % 8) + 0x110) 1 →
    Does (.dcStop src n) [F.XR_TAGS_MAX, F.LK_TXSEQ, F.RT_LEVEL, F.RT_EDGE, F.PAD_HOLD, F.PAD_LEVEL, F.DC_STOPREQ] [Q.retry,
      Q.tickets] s fun t => t.on F.DC_STOPREQ n = (s.on F.DC_STOPREQ n || dcActive s n)) ∧
  (∀ (s : State) (src : Source) (n : Fin 32), Lands s src 1 .dmg (n.val / 8) (0x100 * (n.val % 8) + 0x110) 2 →
    Does (.dcClear src n) [F.XR_TAGS_MAX, F.DMA_HALTED_HALTED, F.DC_STAT_STATE, F.LK_TXSEQ, F.RT_LEVEL, F.RT_EDGE, F.PAD_HOLD,
      F.PAD_LEVEL, F.DC_CTLDONE] [Q.retry, Q.tickets, Q.dmaBuf] s fun t => t.rd F.DC_NEXT_NEXT n = s.rd F.DC_NEXT_NEXT n ∧
      (dcState s n = 4 ∨ dcState s n = 5 → dcState t n = 0 ∧ (t.rd F.DMA_HALTED_HALTED).testBit n = false) ∧
      (dcState s n ≠ 4 → dcState s n ≠ 5 → dcState t n = dcState s n)) ∧
  (∀ (s : State) (src : Source) (n : Fin 32) (v : BitVec 32), Lands s src 1 .dmg (n.val / 8) (0x100 * (n.val % 8) + 0x100) v.toNat →
    Does (.dcCfgWrite src n v) [F.XR_TAGS_MAX, F.DC_CFG_EN, F.DC_CFG_PRIO, F.DC_CFG_REQ_SRC, F.LK_TXSEQ, F.RT_LEVEL, F.RT_EDGE,
      F.PAD_HOLD, F.PAD_LEVEL, F.DC_STOPREQ] [Q.retry, Q.tickets] s fun t =>
      t.rd F.DC_CFG_EN n = v.toNat % 2 ∧ t.rd F.DC_CFG_REQ_SRC n = v.toNat / 2 ^ 8 % 2 ^ F.DC_CFG_REQ_SRC.w ∧ dcState t n = dcState s n ∧
      (s.on F.DC_CFG_EN n = true → v.toNat % 2 = 0 → dcActive s n = true → t.on F.DC_STOPREQ n = true)) ∧
  (∀ (s : State) (src : Source) (n : Fin 32) (v : BitVec 32), Lands s src 1 .dmg (n.val / 8) (0x100 * (n.val % 8) + 0x104) v.toNat →
    Does (.dcNextWrite src n v) [F.XR_TAGS_MAX, F.DC_NEXT_NEXT, F.LK_TXSEQ, F.RT_LEVEL, F.RT_EDGE, F.PAD_HOLD, F.PAD_LEVEL] [Q.retry,
      Q.tickets] s fun t => t.rd F.DC_NEXT_NEXT n = v.toNat / 32) ∧
  (∀ (s : State) (src : Source) (n : Fin 32) (v : BitVec 32), Meets s src 1 .dmg (n.val / 8) (0x100 * (n.val % 8) + 0x104) v.toNat →
    dcActive s n = true → Refused (.dcNextWrite src n v) s .firewall) ∧
  (∀ (s : State) (src : Source) (n : Fin 32) (v : BitVec 32), Lands s src 1 .dmg (n.val / 8) (0x100 * (n.val % 8) + 0x134) v.toNat →
    Does (.dcRingRdWrite src n v) [F.XR_TAGS_MAX, F.DC_STAT_STATE, F.DC_RING_RD_RD, F.LK_TXSEQ, F.RT_LEVEL, F.RT_EDGE, F.PAD_HOLD,
      F.PAD_LEVEL] [Q.retry, Q.tickets] s fun t => t.rd F.DC_RING_RD_RD n = v.toNat % 2 ^ F.DC_RING_RD_RD.w ∧
      dcState t n = if dcState s n = 6 ∧ dcRingFull t n = false then 3 else dcState s n) ∧
  (∀ (s : State) (src : Source) (n : Fin 32) (m : BitVec 6), Lands s src 1 .dma 0 (0x100 + 4 * n.val) m.toNat →
    Does (.dmaMidWrite src n m) [F.XR_TAGS_MAX, F.DMA_MID_MID, F.LK_TXSEQ, F.RT_LEVEL, F.RT_EDGE, F.PAD_HOLD, F.PAD_LEVEL] [Q.retry,
      Q.tickets] s fun t => t.rd F.DMA_MID_MID n = m.toNat ∧
      ∀ k, k ≠ n.val → t.rd F.DMA_MID_MID k = s.rd F.DMA_MID_MID k) ∧
  (∀ (s : State) (src : Source) (n : Fin 32) (m : BitVec 6), Meets s src 1 .dma 0 (0x100 + 4 * n.val) m.toNat →
    s.on F.DMA_CTRL_MID_LOCK = true ∨ dcActive s n = true → Refused (.dmaMidWrite src n m) s .firewall) ∧
  (∀ (s : State) (src : Source), Lands s src 1 .dma 0 0x180 1 → Does (.dmaMidLock src) [F.XR_TAGS_MAX, F.DMA_CTRL_MID_LOCK, F.LK_TXSEQ,
    F.RT_LEVEL, F.RT_EDGE, F.PAD_HOLD, F.PAD_LEVEL] [Q.retry, Q.tickets] s fun t =>
    t.on F.DMA_CTRL_MID_LOCK = true)

/-- R609 to R613: the writes to the check-value contexts. -/
def Obligations.CheckValueRegistersAct : Prop :=
  (∀ (s : State) (src : Source) (x : Fin 16), Lands s src 1 .cx 0 (0x108 + 64 * x.val) 1 → Does (.cxStart src x) [F.XR_TAGS_MAX,
    F.CX_STAT_BUSY, F.CX_STAT_DONE, F.CX_STAT_MATCH, F.CX_STAT_MISMATCH, F.CX_VALUE_S, F.LK_TXSEQ, F.RT_LEVEL, F.RT_EDGE, F.PAD_HOLD,
      F.PAD_LEVEL, F.CX_PASS] [Q.retry, Q.tickets] s fun t =>
    t.rd F.CX_VALUE_S x = cxCut s x (s.rd F.CX_INIT_INIT x) ∧ t.on F.CX_STAT_DONE x = false ∧ t.on F.CX_STAT_MATCH x = false ∧
      t.on F.CX_STAT_MISMATCH x = false ∧ (cxMode s x ≠ 3 → t.rd F.CX_STAT_BUSY x = s.rd F.CX_STAT_BUSY x)) ∧
  (∀ (s : State) (src : Source) (x : Fin 16), Lands s src 1 .cx 0 (0x108 + 64 * x.val) 2 → Does (.cxFinish src x) [F.XR_TAGS_MAX,
    F.CX_STAT_DONE, F.CX_STAT_MATCH, F.CX_STAT_MISMATCH, F.CX_RESULT_RESULT, F.LK_TXSEQ, F.RT_LEVEL, F.RT_EDGE, F.PAD_HOLD, F.PAD_LEVEL]
      [Q.retry, Q.tickets] s fun t =>
    t.rd F.CX_RESULT_RESULT x = cxResult s x % 2 ^ F.CX_RESULT_RESULT.w ∧ t.on F.CX_STAT_DONE x = true ∧
      t.rd F.CX_VALUE_S x = s.rd F.CX_VALUE_S x ∧
      (cxMode s x = 1 → cxResult s x % 2 ^ F.CX_RESULT_RESULT.w = cxCut s x (s.rd F.CX_EXPECT_EXPECT x) → t.on F.CX_STAT_MATCH x = true) ∧
      (cxMode s x = 1 → cxResult s x % 2 ^ F.CX_RESULT_RESULT.w ≠ cxCut s x (s.rd F.CX_EXPECT_EXPECT x) →
        t.on F.CX_STAT_MISMATCH x = true)) ∧
  (∀ (s : State) (src : Source) (x : Fin 16) (c : BitVec 3) (w p i o : Nat) (r : Bool), Lands s src 1 .cx 0 (0x10C + 64 * x.val) c.toNat →
    cxPresets c.toNat = some (w, p, i, r, o) → Does (.cxPreset src x c) [F.XR_TAGS_MAX, F.CX_CFG_WIDTH, F.CX_CFG_REFIN, F.CX_CFG_REFOUT,
      F.CX_CFG_ORDER, F.CX_POLY_POLY, F.CX_INIT_INIT, F.CX_XOROUT_XOROUT, F.CX_VALUE_S, F.LK_TXSEQ, F.RT_LEVEL, F.RT_EDGE, F.PAD_HOLD,
        F.PAD_LEVEL] [Q.retry, Q.tickets] s fun t =>
      t.rd F.CX_CFG_WIDTH x = (w - 1) % 2 ^ F.CX_CFG_WIDTH.w ∧ t.rd F.CX_POLY_POLY x = p % 2 ^ 64 ∧ t.rd F.CX_INIT_INIT x = i % 2 ^ 64 ∧
      t.on F.CX_CFG_REFIN x = r ∧ t.on F.CX_CFG_REFOUT x = r ∧ t.on F.CX_CFG_ORDER x = !r ∧ t.rd F.CX_XOROUT_XOROUT x = o % 2 ^ 64 ∧
      t.rd F.CX_VALUE_S x = i % 2 ^ 64 ∧ t.rd F.CX_CFG_MODE x = s.rd F.CX_CFG_MODE x) ∧
  (∀ (s : State) (src : Source) (x : Fin 16) (v : BitVec 64), Lands s src 1 .cx 0 (0x100 + 64 * x.val + 0) v.toNat →
    Does (.cxConfigWrite src x 0 v) [F.XR_TAGS_MAX, F.CX_CFG_WIDTH, F.CX_CFG_REFIN, F.CX_CFG_REFOUT, F.CX_CFG_MODE, F.CX_CFG_PORT,
      F.CX_CFG_ORDER, F.CX_CFG_EVT, F.LK_TXSEQ, F.RT_LEVEL, F.RT_EDGE, F.PAD_HOLD, F.PAD_LEVEL] [Q.retry, Q.tickets] s fun t =>
      t.rd F.CX_CFG_WIDTH x = v.toNat % 2 ^ F.CX_CFG_WIDTH.w ∧ t.rd F.CX_CFG_REFIN x = v.toNat / 2 ^ 6 % 2 ∧
      t.rd F.CX_CFG_MODE x = v.toNat / 2 ^ 8 % 2 ^ F.CX_CFG_MODE.w ∧ t.rd F.CX_CFG_PORT x = v.toNat / 2 ^ 16 % 2 ^ F.CX_CFG_PORT.w) ∧
  (∀ (s : State) (src : Source) (x : Fin 16) (v : BitVec 64), Lands s src 1 .cx 0 (0x110 + 64 * x.val) v.toNat →
    Does (.cxConfigWrite src x 1 v) [F.XR_TAGS_MAX, F.CX_POLY_POLY, F.LK_TXSEQ, F.RT_LEVEL, F.RT_EDGE, F.PAD_HOLD, F.PAD_LEVEL]
      [Q.retry, Q.tickets] s fun t => t.rd F.CX_POLY_POLY x = cxCut s x v.toNat) ∧
  (∀ (s : State) (src : Source) (x : Fin 16) (v : BitVec 64), Lands s src 1 .cx 0 (0x118 + 64 * x.val) v.toNat →
    Does (.cxConfigWrite src x 2 v) [F.XR_TAGS_MAX, F.CX_INIT_INIT, F.LK_TXSEQ, F.RT_LEVEL, F.RT_EDGE, F.PAD_HOLD, F.PAD_LEVEL]
      [Q.retry, Q.tickets] s fun t => t.rd F.CX_INIT_INIT x = cxCut s x v.toNat) ∧
  (∀ (s : State) (src : Source) (x : Fin 16) (v : BitVec 64), Lands s src 1 .cx 0 (0x120 + 64 * x.val) v.toNat →
    Does (.cxConfigWrite src x 3 v) [F.XR_TAGS_MAX, F.CX_XOROUT_XOROUT, F.LK_TXSEQ, F.RT_LEVEL, F.RT_EDGE, F.PAD_HOLD, F.PAD_LEVEL]
      [Q.retry, Q.tickets] s fun t => t.rd F.CX_XOROUT_XOROUT x = cxCut s x v.toNat) ∧
  (∀ (s : State) (src : Source) (x : Fin 16) (v : BitVec 64), Lands s src 1 .cx 0 (0x128 + 64 * x.val) v.toNat →
    Does (.cxConfigWrite src x 4 v) [F.XR_TAGS_MAX, F.CX_VALUE_S, F.LK_TXSEQ, F.RT_LEVEL, F.RT_EDGE, F.PAD_HOLD, F.PAD_LEVEL] [Q.retry,
      Q.tickets] s fun t => t.rd F.CX_VALUE_S x = cxCut s x v.toNat) ∧
  (∀ (s : State) (src : Source) (x : Fin 16) (v : BitVec 64), Meets s src 1 .cx 0 (0x110 + 64 * x.val) v.toNat →
    s.on F.CX_STAT_BUSY x = true ∨ s.on F.CX_STAT_FRAME x = true → Refused (.cxConfigWrite src x 1 v) s .firewall) ∧
  (∀ (s : State) (src : Source) (x : Fin 16) (p : Fin 32) (n : Fin 6) (v : BitVec 256), masterLive s src.who = true →
    mustWait s ⟨src.who, src.priv, 1, 0x40040600 + 32 * x.val + p.val, 2 ^ n.val, v.toNat⟩ = false →
    gate s ⟨src.who, src.priv, 1, 0x40040600 + 32 * x.val + p.val, 2 ^ n.val, v.toNat⟩ = .feed x →
    ∃ t, exec (.cxFeedWrite src x p n v) s = .next t ∧ t.resp = ⟨.ok, false, 0⟩ ∧
      Only [F.CX_VALUE_S, F.XR_TAGS_MAX, F.LK_TXSEQ] [Q.retry] s t ∧
      t.rd F.CX_VALUE_S x = crcFold (cxWidth s x) (cxCut s x (s.rd F.CX_POLY_POLY x)) (s.on F.CX_CFG_REFIN x)
        (cxCut s x (s.rd F.CX_VALUE_S x)) (toBytes (2 ^ n.val) v.toNat) % 2 ^ 64) ∧
  (∀ (s : State) (src : Source) (x : Fin 16) (p : Fin 32) (n : Fin 6) (v : BitVec 256),
    SetsOut s ⟨src.who, src.priv, 1, 0x40040600 + 32 * x.val + p.val, 2 ^ n.val, v.toNat⟩ →
      fwRefuses s src.who 1 (0x40040600 + 32 * x.val + p.val) = none →
    locate src.who (0x40040600 + 32 * x.val + p.val) = some ⟨.cx, 0, 0x600 + 32 * x.val + p.val⟩ → 2 ≤ cxMode s x →
    Refused (.cxFeedWrite src x p n v) s .firewall)

/-- R608 to R614, R621: a check-value context in an idle, powered block takes every command sent to it: START, FINISH, a preset, a write of
its configuration, and a feed write, which is folded at once where no port byte and no other feed write waits. -/
def Obligations.CheckValueCommandsComplete : Prop :=
  (∀ (s : State) (src : Source) (x : Fin 16), MeetsContext s src x (0x108 + 64 * x.val) 1 → cxMode s x ≠ 3 →
    ∃ t, exec (.cxStart src x) s = .next t ∧ t.resp = ⟨.ok, false, 0⟩ ∧ t.rd F.CX_VALUE_S x = cxCut s x (s.rd F.CX_INIT_INIT x) ∧
      t.on F.CX_STAT_DONE x = false ∧ t.on F.CX_STAT_MATCH x = false ∧ t.on F.CX_STAT_MISMATCH x = false) ∧
  (∀ (s : State) (src : Source) (x : Fin 16), MeetsContext s src x (0x108 + 64 * x.val) 1 → cxMode s x = 3 →
    ∃ t, exec (.cxStart src x) s = .next t ∧ t.resp = ⟨.ok, false, 0⟩ ∧ t.rd F.CX_VALUE_S x = cxCut s x (s.rd F.CX_INIT_INIT x) ∧
      t.on F.CX_PASS x = true ∧ t.on F.CX_STAT_BUSY x = true ∧ t.on F.CX_STAT_DONE x = false) ∧
  (∀ (s : State) (src : Source) (x : Fin 16), MeetsContext s src x (0x108 + 64 * x.val) 2 →
    ∃ t, exec (.cxFinish src x) s = .next t ∧ t.resp = ⟨.ok, false, 0⟩ ∧ t.on F.CX_STAT_DONE x = true ∧
      t.rd F.CX_RESULT_RESULT x = cxResult s x ∧ t.rd F.CX_VALUE_S x = s.rd F.CX_VALUE_S x) ∧
  (∀ (s : State) (src : Source) (x : Fin 16) (c : BitVec 3), MeetsContext s src x (0x10C + 64 * x.val) c.toNat → cxFixed s x = false →
    ∃ t, exec (.cxPreset src x c) s = .next t ∧ t.resp = ⟨.ok, false, 0⟩ ∧
      (∀ w p i r o, cxPresets c.toNat = some (w, p, i, r, o) → t.rd F.CX_CFG_WIDTH x = w - 1 ∧ t.rd F.CX_POLY_POLY x = p ∧
        t.rd F.CX_INIT_INIT x = i ∧ t.on F.CX_CFG_REFIN x = r ∧ t.on F.CX_CFG_REFOUT x = r ∧ t.on F.CX_CFG_ORDER x = !r ∧
        t.rd F.CX_XOROUT_XOROUT x = o ∧ t.rd F.CX_VALUE_S x = i) ∧
      (cxPresets c.toNat = none → ∀ g ∈ [F.CX_CFG_WIDTH, F.CX_POLY_POLY, F.CX_INIT_INIT, F.CX_XOROUT_XOROUT, F.CX_VALUE_S],
        t.rd g x = s.rd g x)) ∧
  (∀ (s : State) (src : Source) (x : Fin 16) (k : Fin 5) (v : BitVec 64),
    MeetsContext s src x (0x100 + 64 * x.val + (if k.val = 0 then 0 else 8 + 8 * k.val)) v.toNat → cxFixed s x = false →
    (k.val = 0 → cxBindTaken s x v.toNat = false) → ∃ t, exec (.cxConfigWrite src x k v) s = .next t ∧ t.resp = ⟨.ok, false, 0⟩ ∧
      (k.val = 0 → t.rd F.CX_CFG_WIDTH x = v.toNat % 64 ∧ t.rd F.CX_CFG_REFIN x = v.toNat / 2 ^ 6 % 2 ∧
        t.rd F.CX_CFG_REFOUT x = v.toNat / 2 ^ 7 % 2 ∧ t.rd F.CX_CFG_MODE x = v.toNat / 2 ^ 8 % 4 ∧
        t.rd F.CX_CFG_PORT x = v.toNat / 2 ^ 16 % 16 ∧ t.rd F.CX_CFG_ORDER x = v.toNat / 2 ^ 20 % 2 ∧
        t.rd F.CX_CFG_EVT x = v.toNat / 2 ^ 21 % 2) ∧
      (k.val = 1 → t.rd F.CX_POLY_POLY x = cxCut s x v.toNat) ∧ (k.val = 2 → t.rd F.CX_INIT_INIT x = cxCut s x v.toNat) ∧
      (k.val = 3 → t.rd F.CX_XOROUT_XOROUT x = cxCut s x v.toNat) ∧ (k.val = 4 → t.rd F.CX_VALUE_S x = cxCut s x v.toNat)) ∧
  (∀ (s : State) (src : Source) (x : Fin 16) (p : Fin 32) (n : Fin 6) (v : BitVec 256), 2 ^ n.val ∣ p.val →
    let r : Held := ⟨src.who, src.priv, 1, 0x40040600 + 32 * x.val + p.val, 2 ^ n.val, v.toNat⟩
    SetsOut s r → fwRefuses s src.who 1 r.addr = none → s.on F.EXP_LOCK (lockNum ⟨.cx, 0, 0x600⟩) = false →
    s.rd F.DOM_STATE (locDomain ⟨.cx, 0, 0x600⟩) = 2 → cxMode s x ≤ 1 → cxFeedWaits s x = false →
    ∃ t, exec (.cxFeedWrite src x p n v) s = .next t ∧ t.resp = ⟨.ok, false, 0⟩ ∧
      t.rd F.CX_VALUE_S x = (cxFold s x (toBytes (2 ^ n.val) v.toNat)).rd F.CX_VALUE_S x)

/-- R627, R628, R630, R634, R638, R646: pushes, streams and pops of the ports, and the writes that wake the USB host, configure an
endpoint and start a management frame. Ports are numbered as in R625: 0 USB, 1 ETH, 2 and 3 UART, 4 MOD, 5 SL. -/
def Obligations.PortRegistersAct : Prop :=
  (∀ (s : State) (src : Source) (p : Fin 6) (v : BitVec 32) (n : Fin 4) (e : Fin 8) (k : BitVec 16),
    Lands s src 1 (portBlk p) (portInst p) 0x110 (v.toNat + n.val * 2 ^ 32 + e.val * 2 ^ 35 + tk k) →
    Does (.ptTxPush src p v n e k) [F.XR_TAGS_MAX, F.LK_TXSEQ, F.RT_LEVEL, F.RT_EDGE, F.PAD_HOLD, F.PAD_LEVEL, F.USB_LEFT] [Q.retry,
      Q.tickets, Q.tx, Q.usb] s fun t => t.resp = ⟨.ok, false, 0⟩ ∧
      (p.val = 2 ∨ p.val = 3 ∨ p.val = 4 → t.q Q.tx p = s.q Q.tx p ++ numList (toBytes (n.val + 1) v.toNat)) ∧
      (p.val = 1 ∨ p.val = 5 → t.q Q.tx p = s.q Q.tx p ++ [v.toNat]) ∧
      (p.val = 0 → s.rd F.USB_LEFT (usbInOf e) = 0 → v.toNat % 2 ^ 16 ≠ 0 → t.rd F.USB_LEFT (usbInOf e) = v.toNat % 2 ^ 16)) ∧
  (∀ (s : State) (src : Source) (p : Fin 6) (e : Fin 8) (v : BitVec 32), p.val ≠ 0 →
    Lands s src 1 (portBlk p) (portInst p) 0x118 v.toNat →
    Does (.ptTxStream src p e v) [F.XR_TAGS_MAX, F.LK_TXSEQ, F.RT_LEVEL, F.RT_EDGE, F.PAD_HOLD, F.PAD_LEVEL, F.USB_LEFT] [Q.retry,
      Q.tickets, Q.tx, Q.usb] s fun t =>
      (p.val = 2 ∨ p.val = 3 ∨ p.val = 4 → t.q Q.tx p = s.q Q.tx p ++ numList (toBytes 4 v.toNat)) ∧
      (p.val = 1 ∨ p.val = 5 → t.q Q.tx p = s.q Q.tx p ++ [v.toNat])) ∧
  (∀ (s : State) (src : Source) (e : Fin 8) (v : BitVec 32), Lands s src 1 .usb 0 (0x1C0 + 4 * e.val) v.toNat →
    s.rd F.USB_LEFT (usbInOf e) = 0 → v.toNat % 2 ^ 16 ≠ 0 → Does (.ptTxStream src 0 e v) [F.XR_TAGS_MAX, F.LK_TXSEQ, F.RT_LEVEL,
      F.RT_EDGE, F.PAD_HOLD, F.PAD_LEVEL, F.USB_LEFT] [Q.retry, Q.tickets, Q.tx, Q.usb] s fun t =>
      t.rd F.USB_LEFT (usbInOf e) = v.toNat % 2 ^ 16) ∧
  (∀ (s : State) (src : Source) (p : Fin 6) (e : Fin 8) (w : Nat) (rest : List Nat), p.val ≠ 0 →
    Lands s src 0 (portBlk p) (portInst p) 0x11C 0 →
    s.q Q.rx p = w :: rest → Does (.ptRxPop src p e) [F.XR_TAGS_MAX, F.ETH_TALLY1_PAUSE_SENT, F.UART_STAT_RTS, F.SL_STAT_CRET_PEND,
      F.LK_TXSEQ, F.RT_LEVEL, F.RT_EDGE, F.PAD_HOLD, F.PAD_LEVEL, F.ETH_XOFF, F.ETH_PAUSE_OUT, F.UART_XOFF_DUE, F.SL_UNITS, F.SL_POS,
        F.SL_HEAD] [Q.retry, Q.tickets, Q.rx] s fun t => t.q Q.rx p = rest ∧
      (∀ k, k ≠ p.val → t.q Q.rx k = s.q Q.rx k) ∧
      t.resp = ⟨.ok, false, (if p.val = 2 ∨ p.val = 3 then w + 256 else w) % 2 ^ 32⟩) ∧
  (∀ (s : State) (src : Source) (p : Fin 6) (e : Fin 8), p.val ≠ 0 → Lands s src 0 (portBlk p) (portInst p) 0x11C 0 → s.q Q.rx p = [] →
    Does (.ptRxPop src p e) [F.XR_TAGS_MAX, F.LK_TXSEQ, F.RT_LEVEL, F.RT_EDGE, F.PAD_HOLD, F.PAD_LEVEL] [Q.retry, Q.tickets] s fun t =>
      t.resp = ⟨.ok, false, 0⟩) ∧
  (∀ (s : State) (src : Source) (e : Fin 8) (k : Nat) (rest : List Nat), Lands s src 0 .usb 0 (0x1E0 + 4 * e.val) 0 →
    s.q Q.usb e 1 = k :: rest →
    Does (.ptRxPop src 0 e) [F.XR_TAGS_MAX, F.LK_TXSEQ, F.RT_LEVEL, F.RT_EDGE, F.PAD_HOLD, F.PAD_LEVEL, F.USB_POS] [Q.retry, Q.tickets,
      Q.usb] s fun t => t.resp = ⟨.ok, false, k / 2 ^ (32 * s.rd F.USB_POS e) % 2 ^ 32⟩ ∧
      (1 + (k % 2 ^ 16 + 3) / 4 ≤ s.rd F.USB_POS e + 1 → t.q Q.usb e 1 = rest ∧ t.rd F.USB_POS e = 0) ∧
      (s.rd F.USB_POS e + 1 < 1 + (k % 2 ^ 16 + 3) / 4 → t.q Q.usb e 1 = k :: rest)) ∧
  (∀ (s : State) (src : Source) (c h : Bool), Lands s src 1 .usb 0 0x140 (4 + 2 * bnat h + bnat c) →
    Does (.usbRwake src c h) [F.XR_TAGS_MAX, F.USB_CTRL_CONNECT, F.USB_CTRL_HS_EN, F.LK_TXSEQ, F.RT_LEVEL, F.RT_EDGE, F.PAD_HOLD,
      F.PAD_LEVEL, F.USB_RWAKING] [Q.retry, Q.tickets] s fun t => t.on F.USB_CTRL_CONNECT = c ∧ t.on F.USB_CTRL_HS_EN = h ∧
      t.on F.USB_RWAKING = (s.on F.USB_RWAKING || s.on F.USB_STAT_SUSPENDED)) ∧
  (∀ (s : State) (src : Source) (e : Fin 7) (v : BitVec 32), Lands s src 1 .usb 0 (0x154 + 4 * e.val) v.toNat →
    Does (.usbEpcfgWrite src e v) [F.XR_TAGS_MAX, F.USB_EPCFG_EN, F.USB_EPCFG_IN, F.USB_EPCFG_INTR, F.USB_EPCFG_DOUBLE,
      F.USB_EPCFG_BASE, F.USB_EPCFG_MAXPKT, F.LK_TXSEQ, F.RT_LEVEL, F.RT_EDGE, F.PAD_HOLD, F.PAD_LEVEL] [Q.retry, Q.tickets] s fun t =>
      t.rd F.USB_EPCFG_EN 0 e = v.toNat % 2 ∧ t.rd F.USB_EPCFG_IN 0 e = v.toNat / 2 % 2 ∧
      t.rd F.USB_EPCFG_BASE 0 e = v.toNat / 2 ^ 4 % 2 ^ F.USB_EPCFG_BASE.w ∧
        t.rd F.USB_EPCFG_MAXPKT 0 e = v.toNat / 2 ^ 16 % 2 ^ F.USB_EPCFG_MAXPKT.w ∧
      ∀ k, k ≠ e.val → t.rd F.USB_EPCFG_EN 0 k = s.rd F.USB_EPCFG_EN 0 k ∧ t.rd F.USB_EPCFG_BASE 0 k = s.rd F.USB_EPCFG_BASE 0 k) ∧
  (∀ (s : State) (src : Source) (e : Fin 7) (v : BitVec 32), Meets s src 1 .usb 0 (0x154 + 4 * e.val) v.toNat →
    s.on F.USB_EPCFG_EN 0 e = true → v.toNat.testBit 0 = true → Refused (.usbEpcfgWrite src e v) s .firewall) ∧
  (∀ (s : State) (src : Source) (v : BitVec 32), Lands s src 1 .eth 0 0x160 v.toNat →
    Does (.ethMdioCmd src v) [F.XR_TAGS_MAX, F.ETH_MDIO_DATA_BUSY, F.ETH_MDIO_DATA_MDIO_OVR, F.LK_TXSEQ, F.RT_LEVEL, F.RT_EDGE,
      F.PAD_HOLD, F.PAD_LEVEL, F.MDIO_REGF] [Q.retry, Q.tickets] s fun t => t.on F.ETH_MDIO_DATA_BUSY = true ∧
      (s.on F.ETH_MDIO_DATA_BUSY = false → t.rd F.MDIO_REGF = v.toNat % 2 ^ F.MDIO_REGF.w) ∧
      (s.on F.ETH_MDIO_DATA_BUSY = true → t.on F.ETH_MDIO_DATA_MDIO_OVR = true ∧ t.rd F.MDIO_REGF = s.rd F.MDIO_REGF))

/-- R678, R681, R687, R693: the writes that save the tallies, commit a key record, raise a counter and give the crypto engine work. -/
def Obligations.NvmKeyAndCryptoRegistersStartTheirWork : Prop :=
  (∀ (s : State) (src : Source), Lands s src 1 .nvm 0 0x128 1 → Does (.nvmTallySave src) [F.XR_TAGS_MAX, F.NVM_STAT_TALLY_SAVING,
    F.LK_TXSEQ, F.RT_LEVEL, F.RT_EDGE, F.PAD_HOLD, F.PAD_LEVEL, F.TALLY_SEQ] [Q.retry, Q.tickets] s fun t =>
    t.on F.NVM_STAT_TALLY_SAVING = (s.on F.NVM_STAT_TALLY_SAVING || mUp s)) ∧
  (∀ (s : State) (src : Source) (k : Fin 4) (t' : BitVec 16), Lands s src 1 .key 0 0x190 (k.val + tk t') →
    Does (.keyCommit src k t') [F.XR_TAGS_MAX, F.CR_STAT_BUSY, F.KEY_STAT_STATE, F.KEY_STAT_OVERRUN, F.LK_TXSEQ, F.RT_LEVEL, F.RT_EDGE,
      F.PAD_HOLD, F.PAD_LEVEL, F.KC_SLOT, F.KC_VERIFY, F.CR_USER] [Q.retry, Q.tickets] s fun t =>
      (s.on F.KEY_STAT_STATE = false → t.rd F.KEY_STAT_STATE = 2 ∧ t.rd F.KC_SLOT = k ∧ t.on F.KC_VERIFY = true ∧
        t.on F.CR_STAT_BUSY = true) ∧
      (s.on F.KEY_STAT_STATE = true → t.on F.KEY_STAT_OVERRUN = true ∧ t.rd F.KEY_STAT_STATE = s.rd F.KEY_STAT_STATE ∧
        t.rd F.KC_SLOT = s.rd F.KC_SLOT)) ∧
  (∀ (s : State) (src : Source) (n : Fin 8) (v : BitVec 32), Lands s src 1 .key 0 (0x1E0 + 4 * n.val) v.toNat →
    Does (.ctrRaise src n v) [F.XR_TAGS_MAX, F.LK_TXSEQ, F.RT_LEVEL, F.RT_EDGE, F.PAD_HOLD, F.PAD_LEVEL, F.CTR_RAISING, F.CTR_V]
      [Q.retry, Q.tickets] s fun t => t.rd F.CTR_VALUE n = s.rd F.CTR_VALUE n ∧ t.resp = ⟨.ok, false, 0⟩ ∧
      (s.rd F.CTR_VALUE n < v.toNat → s.on F.CTR_RAISING n = false → t.on F.CTR_RAISING n = true ∧ t.rd F.CTR_V n = v.toNat) ∧
      (v.toNat ≤ s.rd F.CTR_VALUE n → t.rd F.CTR_RAISING n = s.rd F.CTR_RAISING n ∧ t.rd F.CTR_V n = s.rd F.CTR_V n)) ∧
  (∀ (s : State) (src : Source) (op : Nat) (i : Instr), (op, i) ∈ [(1, .crHash src), (2, .crVerify src), (4, .crRevoke src)] →
    Lands s src 1 .cr 0 0x100 op → Does i [F.XR_TAGS_MAX, F.CR_STAT_BUSY, F.CR_STAT_REFUSED, F.LK_TXSEQ, F.RT_LEVEL, F.RT_EDGE,
      F.PAD_HOLD, F.PAD_LEVEL, F.CR_OP, F.CR_KIND, F.CR_USER] [Q.retry, Q.tickets] s fun t =>
      (s.on F.CR_STAT_BUSY = false → t.on F.CR_STAT_BUSY = true ∧ t.rd F.CR_OP = op) ∧
      (s.on F.CR_STAT_BUSY = true → t.on F.CR_STAT_REFUSED = true ∧ t.rd F.CR_OP = s.rd F.CR_OP)) ∧
  (∀ (s : State) (src : Source) (kind : BitVec 3), Lands s src 1 .cr 0 0x100 (3 + 16 * kind.toNat) →
    Does (.crImage src kind) [F.XR_TAGS_MAX, F.CR_STAT_BUSY, F.CR_STAT_REFUSED, F.LK_TXSEQ, F.RT_LEVEL, F.RT_EDGE, F.PAD_HOLD,
      F.PAD_LEVEL, F.CR_OP, F.CR_KIND, F.CR_USER] [Q.retry, Q.tickets] s fun t => (s.on F.CR_STAT_BUSY = false →
        t.on F.CR_STAT_BUSY = true ∧ t.rd F.CR_OP = 3 ∧
        t.rd F.CR_KIND = kind.toNat) ∧
      (s.on F.CR_STAT_BUSY = true → t.on F.CR_STAT_REFUSED = true ∧ t.rd F.CR_OP = s.rd F.CR_OP))

/-- R166, R672 to R678: reads and writes of nonvolatile memory answer, correct and report, program their words in order and count the
wear of their page; the 24-hour count and the tally saves follow their timers. `r` is the request's address. -/
def Obligations.NonvolatileMemoryReadsProgramsAndCounts : Prop :=
  (∀ (s : State) (src : Source) (o : BitVec 25) (n : Fin 6) (w : Fin 4) (e : Fin 3),
    SetsOut s ⟨src.who, src.priv, 0, 0x10000000 + o.toNat, 2 ^ n.val, 0⟩ → s.rd F.DOM_STATE (128 + o.toNat / 0x400000) = 2 →
      fwRefuses s src.who 0 (0x10000000 + o.toNat) = none → o.toNat % 2 ^ n.val = 0 →
    8 * w.val < 2 ^ n.val → s.bad = [] →
    (e = 0 → Ends (.nvmRead src o n w e) s fun t => t.resp = ⟨.ok, false, s.mget (0x10000000 + o.toNat) (2 ^ n.val)⟩ ∧
      Only [F.XR_TAGS_MAX, F.LK_TXSEQ] [Q.retry] s t) ∧
    (e = 1 → Ends (.nvmRead src o n w e) s fun t => t.resp = ⟨.ok, false, s.mget (0x10000000 + o.toNat) (2 ^ n.val)⟩ ∧
      t.rd F.NVM_ECC_CORR_COUNT = min (s.rd F.NVM_ECC_CORR_COUNT + 1) (2 ^ F.NVM_ECC_CORR_COUNT.w - 1) ∧
      t.rd F.NVM_CORR_ADDR_ADDR = ((0x10000000 + o.toNat) / 8 * 8 + 8 * w.val) % 2 ^ F.NVM_CORR_ADDR_ADDR.w ∧
      t.rd F.ECC_BUCKET (s.rd F.ECC_BNOW) = min (s.rd F.ECC_BUCKET (s.rd F.ECC_BNOW) + 1) (2 ^ F.ECC_BUCKET.w - 1) ∧
      Only [F.NVM_ECC_CORR_COUNT, F.NVM_CORR_ADDR_ADDR, F.ECC_BUCKET, F.LEDGER_CAUSES, F.LEDGER_PENDING, F.XR_TAGS_MAX, F.LK_TXSEQ]
        [Q.retry] s t) ∧
    (e = 2 → Ends (.nvmRead src o n w e) s fun t => t.resp = ⟨.ecc, false, 0⟩ ∧ t.events = s.events ++ [97] ∧
      t.rd F.NVM_ECC_UNC_COUNT = min (s.rd F.NVM_ECC_UNC_COUNT + 1) (2 ^ F.NVM_ECC_UNC_COUNT.w - 1) ∧
      t.rd F.NVM_ERR_ADDR_ADDR = ((0x10000000 + o.toNat) / 8 * 8 + 8 * w.val) % 2 ^ F.NVM_ERR_ADDR_ADDR.w ∧
      t.q Q.log = s.q Q.log ++ [5] ∧
      Only [F.NVM_ECC_UNC_COUNT, F.NVM_ERR_ADDR_ADDR, F.FAB_ERR_COUNT, F.XR_TAGS_MAX, F.LK_TXSEQ] [Q.log, Q.retry] s t)) ∧
  (∀ (s : State) (src : Source) (o : BitVec 25) (n : Fin 6) (v : BitVec 256) (fail : Option (Fin 4)),
    SetsOut s ⟨src.who, src.priv, 1, 0x10000000 + o.toNat, 2 ^ n.val, v.toNat % 2 ^ (8 * 2 ^ n.val)⟩ →
      s.rd F.DOM_STATE (128 + o.toNat / 0x400000) = 2 → fwRefuses s src.who 1 (0x10000000 + o.toNat) = none →
    o.toNat % 2 ^ n.val = 0 → o.toNat < 0x1FC0000 → s.bad = [] → let a := 0x10000000 + o.toNat
    (fail = none → Ends (.nvmWrite src o n v fail) s fun t => t.resp = ⟨.ok, false, 0⟩ ∧
      (∀ j, j < 2 ^ n.val → t.byte (a + j) = BitVec.ofNat 8 (v.toNat / 2 ^ (8 * j))) ∧
      (∀ x, x < a ∨ a + 2 ^ n.val ≤ x → t.byte x = s.byte x) ∧
      t.rd F.PAGE_TALLY (o.toNat / 4096) = min (s.rd F.PAGE_TALLY (o.toNat / 4096) + if hotPart s then 4 else 1) (2 ^ 32 - 1) ∧
      (∀ p, p ≠ o.toNat / 4096 → t.rd F.PAGE_TALLY p = s.rd F.PAGE_TALLY p) ∧
      OnlyRegs [F.PAGE_TALLY, F.LEDGER_CAUSES, F.LEDGER_PENDING, F.XR_TAGS_MAX, F.LK_TXSEQ] [Q.retry] s t) ∧
    (∀ w : Fin 4, fail = some w → 8 * w.val < 2 ^ n.val → Ends (.nvmWrite src o n v fail) s fun t =>
      let x := a / 8 * 8 + 8 * w.val
      t.resp = ⟨.ecc, false, 0⟩ ∧
      t.rd F.NVM_ECC_UNC_COUNT = min (s.rd F.NVM_ECC_UNC_COUNT + 1) (2 ^ F.NVM_ECC_UNC_COUNT.w - 1) ∧
      (∀ j, j < 2 ^ n.val → a + j < x → t.byte (a + j) = BitVec.ofNat 8 (v.toNat / 2 ^ (8 * j))) ∧
      (∀ y, y < x ∨ x + 8 ≤ y → y < a ∨ x ≤ y → t.byte y = s.byte y) ∧
      OnlyRegs [F.PAGE_TALLY, F.LEDGER_CAUSES, F.LEDGER_PENDING, F.NVM_ECC_UNC_COUNT, F.FAB_ERR_COUNT, F.XR_TAGS_MAX, F.LK_TXSEQ]
        [Q.retry] s t)) ∧
  (∀ (s : State) (src : Source) (o : BitVec 25) (n : Fin 6) (v : BitVec 256) (fail : Option (Fin 4)),
    SetsOut s ⟨src.who, src.priv, 1, 0x10000000 + o.toNat, 2 ^ n.val, v.toNat % 2 ^ (8 * 2 ^ n.val)⟩ →
      fwRefuses s src.who 1 (0x10000000 + o.toNat) = none → 0x1FC0000 ≤ o.toNat →
    Refused (.nvmWrite src o n v fail) s .firewall) ∧
  (∀ s : State, Does .eccBucketRoll [F.ECC_BUCKET, F.ECC_BNOW] [] s fun t => t.rd F.ECC_BNOW = (s.rd F.ECC_BNOW + 1) % 24 ∧
    t.rd F.ECC_BUCKET ((s.rd F.ECC_BNOW + 1) % 24) = 0 ∧
    ∀ k, k ≠ (s.rd F.ECC_BNOW + 1) % 24 → t.rd F.ECC_BUCKET k = s.rd F.ECC_BUCKET k) ∧
  (∀ s : State, Does .nvmTallySaveTimer [F.NVM_STAT_TALLY_SAVING, F.TALLY_SEQ] [] s fun t =>
    t.on F.NVM_STAT_TALLY_SAVING = (s.on F.NVM_STAT_TALLY_SAVING || mUp s) ∧
    (mUp s = true → s.on F.NVM_STAT_TALLY_SAVING = false → t.rd F.TALLY_SEQ (if latestTally s = some 0 then 1 else 0) = 0)) ∧
  (∀ (s : State) (c : Nat), s.on F.NVM_STAT_TALLY_SAVING = true → c = (if latestTally s = some 0 then 1 else 0) →
    ((tallied s).map Prod.fst).Nodup → (∀ e ∈ tallied s, e.1 < 8192) → Moves .nvmTallySaveDone [F.LEDGER_CAUSES,
      F.NVM_STAT_TALLY_SAVING, F.LEDGER_PENDING, F.PAGE_TALLY, F.TALLY_SEQ] [] s fun t =>
      t.on F.NVM_STAT_TALLY_SAVING = false ∧
      (∀ e ∈ tallied s, ∀ j, j < 4 → t.byte (tallyAddr c + 4 * e.1 + j) = BitVec.ofNat 8 (e.2 / 2 ^ (8 * j))) ∧
      (∀ x, x < tallyAddr c ∨ tallyAddr c + 0x8000 ≤ x → t.byte x = s.byte x) ∧
      t.rd F.TALLY_SEQ c = ((match latestTally s with | some k => s.rd F.TALLY_SEQ k | none => 0) + 1) % 2 ^ F.TALLY_SEQ.w)

/-- R99, R681, R682, R684, R686, R687, R690, R692 to R694, R759: key commits, counter raises, event-log entries and the crypto engine's
commands end as their rules say. That a commit's reserved bits and STATE are looked at before its descriptor is the model's choice (log entry 25). -/
def Obligations.CommitsRaisesLogEntriesAndCryptoCommandsEnd : Prop :=
  (∀ s : State, s.rd F.KEY_STAT_STATE = 2 → s.on F.KC_VERIFY = true → crAlive s = true → crServing s 2 = true →
    Does .keyCommitVerified [F.CR_STAT_BUSY, F.KEY_STAT_STATE, F.KEY_STAT_RESULT, F.KC_VERIFY, F.CR_USER] [Q.keyRec] s fun t =>
      t.on F.KC_VERIFY = false ∧ t.rd F.CR_USER = s.rd F.CR_USER / 4 ∧
      (commitRefusal s (s.rd F.KC_SLOT) ≠ 0 → t.rd F.KEY_STAT_STATE = 0 ∧ t.q Q.keyRec = [] ∧
        t.rd F.KEY_STAT_RESULT = commitRefusal s (s.rd F.KC_SLOT)) ∧
      (commitRefusal s (s.rd F.KC_SLOT) = 0 → s.on F.PTM_SUPPLY_DROP_WARN = true → t.rd F.KEY_STAT_STATE = 1) ∧
      (commitRefusal s (s.rd F.KC_SLOT) = 0 → s.on F.PTM_SUPPLY_DROP_WARN = false → t.rd F.KEY_STAT_STATE = 3 ∧
        (t.q Q.keyRec).length = 9)) ∧
  (∀ s : State, (s.rd F.KEY_HDR_HDR / 2 ^ 48 % 4 = 0 ∨ s.rd F.KEY_HDR_HDR / 2 ^ 48 % 4 = 3 ∨ s.rd F.KEY_HDR_HDR / 2 ^ 52 % 2 ^ 12 ≠ 0 →
      commitRefusal s (s.rd F.KC_SLOT) = 7) ∧
    (s.rd F.KEY_HDR_HDR / 2 ^ 48 = 1 ∨ s.rd F.KEY_HDR_HDR / 2 ^ 48 = 2 → 1 < s.rd F.KEY_AUTH_DESC_DESC →
      commitRefusal s (s.rd F.KC_SLOT) = 2)) ∧
  (∀ (s : State) (c : Nat), s.rd F.KEY_STAT_STATE = 3 → (s.q Q.keyRec).length = 9 →
    c = (if keyWinner s (s.rd F.KC_SLOT) = some 0 then 1 else 0) → let a := keyCopyAddr (s.rd F.KC_SLOT) c
    (mUp s = true → s.bad = [] → Moves (.keyCommitWritten none) [F.LEDGER_CAUSES, F.NVM_ECC_UNC_COUNT, F.NVM_ERR_ADDR_ADDR,
      F.KEY_STAT_STATE, F.KEY_STAT_RESULT, F.KEY_SLOT_SEQ, F.KEY_SLOT_EPOCH, F.KEY_SLOT_STATE, F.KEY_SLOT_COPY, F.LK_TXSEQ,
        F.LEDGER_PENDING, F.PAGE_TALLY] [Q.retry, Q.log, Q.keyRec] s fun t => t.rd F.KEY_STAT_STATE = 0 ∧ t.rd F.KEY_STAT_RESULT = 1 ∧
          98 ∈ t.events ∧
      t.q Q.log = s.q Q.log ++ [3] ∧ (∀ i j, i < 9 → j < 8 →
        t.byte (a + 8 * i + j) = BitVec.ofNat 8 ((s.q Q.keyRec).getD i 0 / 2 ^ (8 * j))) ∧
      t.mget (a + 76) 4 = 0x4B524543 ∧ (∀ x, x < a ∨ a + 80 ≤ x → t.byte x = s.byte x) ∧
      ∀ d, keyWinner t (s.rd F.KC_SLOT) = some d → t.rd F.KEY_SLOT_COPY (s.rd F.KC_SLOT) = d ∧
        t.rd F.KEY_SLOT_SEQ (s.rd F.KC_SLOT) = t.mget (keyCopyAddr (s.rd F.KC_SLOT) d) 4) ∧
    (∀ f : Fin 10, Moves (.keyCommitWritten (some f)) [F.LEDGER_CAUSES, F.NVM_ECC_UNC_COUNT, F.NVM_ERR_ADDR_ADDR, F.KEY_STAT_STATE,
      F.KEY_STAT_RESULT, F.KEY_SLOT_SEQ, F.KEY_SLOT_EPOCH, F.KEY_SLOT_STATE, F.KEY_SLOT_COPY, F.LK_TXSEQ, F.LEDGER_PENDING, F.PAGE_TALLY]
        [Q.retry, Q.log, Q.keyRec] s fun t => t.rd F.KEY_STAT_STATE = 0 ∧ t.rd F.KEY_STAT_RESULT = 6 ∧
      (∀ x, x < a ∨ a + 8 * f.val + 8 ≤ x → t.byte x = s.byte x) ∧
      (∀ i j, i < f.val → i < 9 → j < 8 → t.byte (a + 8 * i + j) = BitVec.ofNat 8 ((s.q Q.keyRec).getD i 0 / 2 ^ (8 * j))) ∧
      ∀ k, t.rd F.KEY_SLOT_SEQ k = s.rd F.KEY_SLOT_SEQ k ∧ t.rd F.KEY_SLOT_STATE k = s.rd F.KEY_SLOT_STATE k)) ∧
  (∀ (s : State) (n : Fin 8) (b0 b1 : Bool), s.on F.CTR_RAISING n.val = true → mUp s = true →
    Moves (.ctrRaiseDone n b0 b1) [F.LEDGER_CAUSES, F.NVM_ECC_UNC_COUNT, F.NVM_ERR_ADDR_ADDR, F.KEY_STAT_CTRBAD, F.CTR_VALUE,
      F.LK_TXSEQ, F.LEDGER_PENDING, F.PAGE_TALLY, F.CTR_RAISING, F.CTR_V] [Q.retry, Q.log] s fun t =>
    t.on F.CTR_RAISING n.val = false ∧ 98 ∈ t.events ∧
    (b0 = false → b1 = false → t.rd F.CTR_VALUE n.val = s.rd F.CTR_V n.val) ∧
    (b0 = false ∨ b1 = false → s.rd F.CTR_V n.val ≤ t.rd F.CTR_VALUE n.val ∧ (t.rd F.KEY_STAT_CTRBAD).testBit n.val = false) ∧
    (t.q Q.log).getLast? = some (4 + t.rd F.CTR_VALUE n.val * 2 ^ 8 +
      (n.val + (if b0 then 2 ^ 8 else 0) + (if b1 then 2 ^ 9 else 0) + s.rd F.CTR_V n.val * 2 ^ 32) * 2 ^ 40)) ∧
  (∀ (s : State) (e : Nat) (rest : List Nat), mUp s = true → s.on F.LOG_FOUND = true → logHeld s = false → s.q Q.log = e :: rest →
    Moves .eventLogWrite [F.LEDGER_CAUSES, F.LOG_WR_WR, F.LOG_SEQ_SEQ, F.LEDGER_PENDING, F.PAGE_TALLY] [Q.log] s fun t =>
      let a := logAddr (s.rd F.LOG_WR_WR)
      t.q Q.log = rest ∧ t.rd F.LOG_WR_WR = (s.rd F.LOG_WR_WR + 1) % 4096 ∧ t.rd F.LOG_SEQ_SEQ = (s.rd F.LOG_SEQ_SEQ + 1) % 2 ^ 32 ∧
      t.mget a 4 = (s.rd F.LOG_SEQ_SEQ + 1) % 2 ^ 32 ∧ t.mget (a + 4) 4 = e % 256 ∧ t.mget (a + 8) 4 = s.secNow % 2 ^ 32 ∧
      t.mget (a + 16) 8 = e / 2 ^ 40 % 2 ^ 64 ∧ t.mget (a + 24) 4 = e / 2 ^ 8 % 2 ^ 32 ∧
      t.mget (a + 28) 4 = crc32c (t.bytes a 28) % 2 ^ 32 ∧ ∀ x, x < a ∨ a + 32 ≤ x → t.byte x = s.byte x) ∧
  (∀ s : State, mUp s = true → s.on F.LOG_FOUND = false → let l := (List.range 4096).filter (logEntryValid s)
    Does .logSearchDone [F.SU_TIER_LEDGER_SRC, F.LEDGER_CAUSES, F.HOT_TIME_MINUTES, F.LEDGER_TALLY_SP_COUNT, F.NVM_ECC_UNC_COUNT,
      F.NVM_ERR_ADDR_ADDR, F.LOG_WR_WR, F.LOG_SEQ_SEQ, F.LK_TXSEQ, F.LEDGER_PENDING, F.LOG_FOUND] [Q.retry, Q.log] s fun t =>
        t.on F.LOG_FOUND = true ∧ t.on F.SU_TIER_LEDGER_SRC = true ∧
      (latestEntry s l = none → t.rd F.LOG_WR_WR = 0 ∧ t.rd F.LOG_SEQ_SEQ = 0) ∧
      ∀ i, latestEntry s l = some i → t.rd F.LOG_WR_WR = (i + 1) % 4096 ∧ t.rd F.LOG_SEQ_SEQ = s.mget (logAddr i) 4) ∧
  (∀ s : State, logHeld s = true → Ends .eventLogWrite s fun t => t = s) ∧
  (∀ s : State, crAlive s = true → crServing s 1 = true → s.rd F.CR_OP = 1 → masterLive s (.unit 46) = true → s.bad = [] →
    crWaits s (s.rd F.CR_SRC_SRC) (s.rd F.CR_LEN_LEN) = false →
    (∀ l, s.rd F.CR_SRC_SRC / 32 ≤ l → l < (s.rd F.CR_SRC_SRC + s.rd F.CR_LEN_LEN + 31) / 32 →
      (∃ k, targetOf (32 * l) = .sram k ∧ s.rd F.DOM_STATE (44 + k) = 2) ∧ fwRefuses s (.unit 46) 0 (32 * l) = none) →
    Ends .crCommandDone s fun t => crDigest t = sha256 (s.bytes (s.rd F.CR_SRC_SRC) (s.rd F.CR_LEN_LEN)) % 2 ^ 256 ∧ 99 ∈ t.events ∧
      Only [F.CR_STAT_BUSY, F.CR_DIGEST_WORD, F.CR_OP, F.CR_KIND, F.CR_USER, F.XR_TAGS_MAX] [] s t) ∧
  (∀ s : State, crAlive s = true → crServing s 1 = true → s.rd F.CR_OP = 2 → Ends .crCommandDone s fun t => 99 ∈ t.events ∧
      t.rd F.CR_STAT_RESULT = (if (sigEpoch s (s.rd F.CR_KEYSLOT_DESC) (crDigest s) (crSig s 0) (crSig s 1)).isSome then 1 else 8) ∧
      Only [F.CR_STAT_BUSY, F.CR_STAT_RESULT, F.CR_OP, F.CR_KIND, F.CR_USER] [] s t) ∧
  (∀ s : State, crAlive s = true → crServing s 1 = true → s.rd F.CR_OP = 4 → let n := s.rd F.CR_KEYSLOT_DESC
    let ok := decide (n ≤ 1) && (sigEpoch s (1 - n) (sha256 (revokeMessage s n)) (crSig s 0) (crSig s 1)).isSome
    Ends .crCommandDone s fun t => 99 ∈ t.events ∧ t.rd F.CR_STAT_RESULT = (if ok then 1 else 8) ∧
      t.on F.FUSE_ROOT_REVOKE n = (s.on F.FUSE_ROOT_REVOKE n || ok) ∧
      Only [F.CR_STAT_BUSY, F.CR_STAT_RESULT, F.FUSE_ROOT_REVOKE, F.CR_OP, F.CR_KIND, F.CR_USER] [Q.log] s t)

/-- R630, R635 to R639: tokens, SETUP packets, VBUS, bus resets and suspends at the USB port. `USB_ANSWER` holds the answer: 1 ACK, 2 NAK,
3 NYET, 4 STALL, 5 data. -/
def Obligations.UsbTokensAndBusConditionsAct : Prop :=
  (∀ (s : State) (a : BitVec 7) (e : Fin 8) (ping g : Bool) (d : List (BitVec 8)), usbHears s a.toNat = true →
    usbOpen s e.val false = true →
    recoveryOffers s true = false → Does (.usbOutToken a e ping g d) [F.USB_EPSTAT_TOGGLE, F.USB_EPSTAT_NAKS, F.USB_TALLY_TOGGLE_DUP,
      F.LK_TXSEQ, F.USB_ADDR_PEND, F.USB_ADDR_ACT, F.USB_ANSWER] [Q.retry, Q.usb] s fun t =>
      (s.on F.USB_EPSTAT_STALL 0 e.val = true → t.rd F.USB_ANSWER = 4 ∧ t.q Q.usb e.val 1 = s.q Q.usb e.val 1) ∧
      (s.on F.USB_EPSTAT_STALL 0 e.val = false → ping = true → t.q Q.usb e.val 1 = s.q Q.usb e.val 1 ∧
        t.rd F.USB_ANSWER = if usbBufFree s e.val then 1 else 2) ∧
      (s.on F.USB_EPSTAT_STALL 0 e.val = false → ping = false → d.length ≤ usbMax s e.val → s.on F.USB_EPSTAT_TOGGLE 0 e.val ≠ g →
        t.rd F.USB_ANSWER = 1 ∧ t.q Q.usb e.val 1 = s.q Q.usb e.val 1 ∧
        t.rd F.USB_TALLY_TOGGLE_DUP = min (s.rd F.USB_TALLY_TOGGLE_DUP + 1) (2 ^ F.USB_TALLY_TOGGLE_DUP.w - 1)) ∧
      (s.on F.USB_EPSTAT_STALL 0 e.val = false → ping = false → d.length ≤ usbMax s e.val → s.on F.USB_EPSTAT_TOGGLE 0 e.val = g →
        usbBufFree s e.val = false → t.rd F.USB_ANSWER = 2 ∧ t.q Q.usb e.val 1 = s.q Q.usb e.val 1 ∧
        t.rd F.USB_EPSTAT_NAKS 0 e.val = min (s.rd F.USB_EPSTAT_NAKS 0 e.val + 1) (2 ^ F.USB_EPSTAT_NAKS.w - 1)) ∧
      (s.on F.USB_EPSTAT_STALL 0 e.val = false → ping = false → d.length ≤ usbMax s e.val → s.on F.USB_EPSTAT_TOGGLE 0 e.val = g →
        usbBufFree s e.val = true → t.q Q.usb e.val 1 = s.q Q.usb e.val 1 ++ [usbPacket d 0 e.val] ∧
        t.on F.USB_EPSTAT_TOGGLE 0 e.val = !g ∧ (t.rd F.USB_ANSWER = 1 ∨ t.rd F.USB_ANSWER = 3) ∧
        (s.on F.USB_STAT_HS = false → t.rd F.USB_ANSWER = 1) ∧ (s.on F.PT_CTRL_EVT_RX 0 = true → 178 ∈ t.events))) ∧
  (∀ (s : State) (a : BitVec 7) (e : Fin 8) (ping g : Bool) (d : List (BitVec 8)), recoveryOffers s true = true →
    Ends (.usbOutToken a e ping g d) s fun t => t.q Q.usb 1 1 = []) ∧
  (∀ (s : State) (a : BitVec 7) (e : Fin 8) (ack : Bool), usbHears s a.toNat = true → usbOpen s (usbInOf e.val) true = true →
    s.on F.USB_EPSTAT_STALL 0 e.val = false → s.held = [] → Does (.usbInToken a e ack) [F.XR_TAGS_MAX, F.USB_EPSTAT_TOGGLE,
      F.USB_EPSTAT_NAKS, F.LK_TXSEQ, F.RT_LEVEL, F.RT_EDGE, F.PAD_HOLD, F.PAD_LEVEL, F.USB_ADDR_PEND, F.USB_ADDR_ACT, F.USB_ANSWER,
        F.USB_IN_TGL] [Q.retry, Q.tickets, Q.usb] s fun t =>
      (s.q Q.usb (usbInOf e.val) 1 = [] ∨ s.on F.PT_CTRL_TX_EN 0 = false → t.rd F.USB_ANSWER = 2) ∧
      (∀ k rest, s.q Q.usb (usbInOf e.val) 1 = k :: rest → s.on F.PT_CTRL_TX_EN 0 = true → t.rd F.USB_ANSWER = 5 ∧
        t.q Q.usb (usbInOf e.val) 1 = (if ack then rest else k :: rest) ∧
        (e.val ≠ 0 → t.on F.USB_EPSTAT_TOGGLE 0 e.val = (s.on F.USB_EPSTAT_TOGGLE 0 e.val != ack)))) ∧
  (∀ (s : State) (a : BitVec 7) (d : BitVec 64), usbHears s a.toNat = true → Does (.usbSetup a d) [F.USB_ADDR_ADDR, F.USB_EPSTAT_TOGGLE,
    F.LK_TXSEQ, F.USB_ADDR_NEXT, F.USB_ADDR_PEND, F.USB_ANSWER, F.USB_POS, F.USB_LEFT, F.USB_IN_TGL] [Q.retry, Q.usb] s fun t =>
    t.rd F.USB_ANSWER = 1 ∧ t.q Q.usb 0 1 = [usbPacket (toBytes 8 d.toNat) 3 0] ∧ t.q Q.usb 0 0 = [] ∧ t.q Q.usb 8 0 = [] ∧
    (recoveryOffers s true = false → t.q Q.usb 8 1 = []) ∧
    (recoveryOffers s true = true → d.toNat % 2 ^ 16 = 0x680 → d.toNat / 2 ^ 24 % 2 ^ 8 = 1 →
      ∃ x, t.q Q.usb 8 1 = [usbPacket ((recoveryDevice x).take (d.toNat / 2 ^ 48)) 0 0]) ∧
    t.on F.USB_EPSTAT_TOGGLE 0 0 = true ∧ ∀ e b, e ≠ 0 → e ≠ 8 → t.q Q.usb e b = s.q Q.usb e b) ∧
  (∀ s : State, phyUp s 0 = true → cUp s = true → domOn s 121 = true → Does .usbVbusRise [F.PTM_CLKREQ_REQ, F.PT_CTRL_EN,
    F.PT_CTRL_RX_EN, F.PT_CTRL_TX_EN, F.USB_CTRL_CONNECT, F.USB_STAT_VBUS, F.USB_EPCFG_EN, F.USB_EPCFG_IN, F.USB_EPCFG_INTR,
      F.USB_EPCFG_DOUBLE, F.USB_EPCFG_BASE, F.USB_EPCFG_MAXPKT, F.CLK_HOLD] [] s fun t => t.on F.USB_STAT_VBUS = true) ∧
  (∀ s : State, s.on F.USB_STAT_VBUS = true → s.held = [] → Does .usbVbusFall [F.XR_TAGS_MAX, F.USB_STAT_VBUS, F.LK_TXSEQ, F.RT_LEVEL,
    F.RT_EDGE, F.PAD_HOLD, F.PAD_LEVEL, F.USB_POS, F.USB_LEFT] [Q.retry, Q.tickets, Q.usb] s fun t => t.on F.USB_STAT_VBUS = false ∧
    t.events = s.events ++ [180] ∧ ∀ e, e < 9 → t.q Q.usb e 0 = [] ∧ t.q Q.usb e 1 = []) ∧
  (∀ (s : State) (hs : Bool), usbPullup s = true → Does (.usbBusReset hs) [F.USB_STAT_HS, F.USB_STAT_SUSPENDED, F.USB_STAT_BUS_RESET,
    F.USB_ADDR_ADDR, F.USB_EPCFG_EN, F.USB_EPCFG_IN, F.USB_EPCFG_INTR, F.USB_EPCFG_DOUBLE, F.USB_EPCFG_BASE, F.USB_EPCFG_MAXPKT,
      F.USB_EPSTAT_TOGGLE, F.LK_TXSEQ, F.USB_ADDR_NEXT, F.USB_ADDR_PEND, F.USB_ADDR_ACT, F.USB_IN_TGL] [Q.retry] s fun t =>
        t.rd F.USB_ADDR_ADDR = 0 ∧ t.rd F.USB_ADDR_ACT = 0 ∧
    (∀ e, e < 8 → t.rd F.USB_EPSTAT_TOGGLE 0 e = 0) ∧ t.on F.USB_STAT_BUS_RESET = true ∧ t.on F.USB_STAT_SUSPENDED = false ∧
    t.on F.USB_STAT_HS = (hs && s.on F.USB_CTRL_HS_EN) ∧ t.events = s.events ++ [180]) ∧
  (∀ s : State, usbPullup s = true → s.on F.USB_STAT_SUSPENDED = false → Does .usbSuspend [F.USB_STAT_SUSPENDED, F.LK_TXSEQ]
    [Q.retry] s fun t => t.on F.USB_STAT_SUSPENDED = true ∧
    t.events = s.events ++ [180]) ∧
  (∀ s : State, usbPullup s = true → Does .usbResume [F.USB_STAT_SUSPENDED] [] s fun t => t.on F.USB_STAT_SUSPENDED = false ∧
    t.events = s.events) ∧
  (∀ s : State, Does .usbRwakeEnd [F.USB_RWAKING] [] s fun t => t.on F.USB_RWAKING = false)

/-- R641 to R646: frames and PAUSE frames of the Ethernet port, and the end of a management frame. -/
def Obligations.EthernetFramesPausesAndManagementAct : Prop :=
  (∀ (s : State) (f : List (BitVec 8)), portRx s 1 = true → ethAccepts s (f.take 6) = true →
    (ethIsPause f && s.on F.ETH_CTRL_PAUSE_RX_EN) = false → Does (.ethFrameReceive f) [F.ETH_TALLY0_RX_DROP, F.ETH_TALLY0_FCS_ERR,
      F.ETH_TALLY1_PAUSE_SENT, F.ETH_TALLY2_SIZE_ERR, F.LK_TXSEQ, F.ETH_XOFF, F.ETH_PAUSE_OUT] [Q.retry, Q.rx] s fun t =>
        let b := f.take (f.length - 4)
      (f.length < 64 ∨ 1522 < f.length → t.q Q.rx 1 = s.q Q.rx 1 ∧
        t.rd F.ETH_TALLY2_SIZE_ERR = min (s.rd F.ETH_TALLY2_SIZE_ERR + 1) (2 ^ F.ETH_TALLY2_SIZE_ERR.w - 1)) ∧
      (64 ≤ f.length → f.length ≤ 1522 → crc32hdlc b ≠ ofBytes (f.drop (f.length - 4)) → t.q Q.rx 1 = s.q Q.rx 1 ∧
        t.rd F.ETH_TALLY0_FCS_ERR = min (s.rd F.ETH_TALLY0_FCS_ERR + 1) (2 ^ F.ETH_TALLY0_FCS_ERR.w - 1)) ∧
      (64 ≤ f.length → f.length ≤ 1522 → crc32hdlc b = ofBytes (f.drop (f.length - 4)) → 4 * (1 + (f.length - 1) / 4) ≤ rxFree s 1 →
        t.q Q.rx 1 = s.q Q.rx 1 ++ frameHeader (f.length - 4) 0 0 :: packWords b ∧ (s.on F.PT_CTRL_EVT_RX 1 = true → 181 ∈ t.events)) ∧
      (64 ≤ f.length → f.length ≤ 1522 → crc32hdlc b = ofBytes (f.drop (f.length - 4)) → rxFree s 1 < 4 * (1 + (f.length - 1) / 4) →
        t.q Q.rx 1 = s.q Q.rx 1 ∧ t.rd F.ETH_TALLY0_RX_DROP = min (s.rd F.ETH_TALLY0_RX_DROP + 1) (2 ^ F.ETH_TALLY0_RX_DROP.w - 1))) ∧
  (∀ (s : State) (f : List (BitVec 8)), portRx s 1 = true → ethAccepts s (f.take 6) = false → Ends (.ethFrameReceive f) s fun t =>
    t = s) ∧
  (∀ s : State, ethPauses s = true → s.on F.ETH_XOFF = true → s.rd F.ETH_FLOW_XOFF_LEVEL ≤ rxLevel s 1 →
    Does .ethPauseRepeat [F.ETH_TALLY1_PAUSE_SENT, F.ETH_PAUSE_OUT] [] s fun t =>
    t.rd F.ETH_PAUSE_OUT = s.rd F.ETH_PAUSE_PAUSE_TIME ∧
    t.rd F.ETH_TALLY1_PAUSE_SENT = min (s.rd F.ETH_TALLY1_PAUSE_SENT + 1) (2 ^ F.ETH_TALLY1_PAUSE_SENT.w - 1)) ∧
  (∀ (s : State) (n : BitVec 16), portRx s 1 = true → s.on F.ETH_CTRL_FULL_DUPLEX = true → s.on F.ETH_CTRL_PAUSE_RX_EN = true →
    Does (.ethPauseReceive n) [F.ETH_TALLY1_PAUSE_RCVD, F.ETH_PAUSE_LEFT, F.ETH_PAUSED] [] s fun t => t.rd F.ETH_PAUSE_LEFT = n.toNat ∧
      t.on F.ETH_PAUSED = (n.toNat != 0) ∧
      t.rd F.ETH_TALLY1_PAUSE_RCVD = min (s.rd F.ETH_TALLY1_PAUSE_RCVD + 1) (2 ^ F.ETH_TALLY1_PAUSE_RCVD.w - 1)) ∧
  (∀ s : State, Does .ethPauseExpire [F.ETH_PAUSE_LEFT, F.ETH_PAUSED] [] s fun t => t.on F.ETH_PAUSED = false ∧
    t.rd F.ETH_PAUSE_LEFT = 0) ∧
  (∀ (s : State) (l : List Byte) (r : List Nat), portTx s 1 = true → s.on F.TX_ACTIVE 1 = false → s.on F.ETH_PAUSED = false →
    headFrame (s.q Q.tx 1) = some (l, r) → s.held = [] → Does .ethFrameTransmit [F.XR_TAGS_MAX, F.ETH_TALLY2_TX_BAD, F.LK_TXSEQ,
      F.RT_LEVEL, F.RT_EDGE, F.PAD_HOLD, F.PAD_LEVEL, F.TX_ACTIVE, F.TX_LEN] [Q.retry, Q.tickets, Q.tx, Q.frames] s fun t =>
      (14 ≤ l.length → l.length ≤ 1518 → t.on F.TX_ACTIVE 1 = true ∧ t.q Q.tx 1 = s.q Q.tx 1 ∧ t.rd F.TX_LEN 1 = max 60 l.length + 4 ∧
        (t.q Q.frames 1 0).take l.length = l.map (·.toNat) ∧
        (t.q Q.frames 1 0).drop (max 60 l.length) = (toBytes 4 (crc32hdlc (l ++ List.replicate (60 - l.length) 0#8))).map (·.toNat)) ∧
      (l.length < 14 ∨ 1518 < l.length → t.on F.TX_ACTIVE 1 = false ∧ t.q Q.tx 1 = r ∧
        t.rd F.ETH_TALLY2_TX_BAD = min (s.rd F.ETH_TALLY2_TX_BAD + 1) (2 ^ F.ETH_TALLY2_TX_BAD.w - 1))) ∧
  (∀ (s : State) (c : Bool) (l : List Byte) (r : List Nat), s.on F.TX_ACTIVE 1 = true → headFrame (s.q Q.tx 1) = some (l, r) →
    s.held = [] →
    Does (.ethFrameSent c) [F.XR_TAGS_MAX, F.ETH_TALLY2_EXCESS, F.LK_TXSEQ, F.RT_LEVEL, F.RT_EDGE, F.PAD_HOLD, F.PAD_LEVEL, F.TX_ACTIVE,
      F.ETH_TRIES] [Q.retry, Q.tickets, Q.tx, Q.frames] s fun t => t.on F.TX_ACTIVE 1 = false ∧
      (c = false ∨ s.on F.ETH_CTRL_FULL_DUPLEX = true → t.q Q.tx 1 = r ∧ t.rd F.ETH_TRIES = 0) ∧
      (c = true → s.on F.ETH_CTRL_FULL_DUPLEX = false → s.rd F.ETH_TRIES < 15 → t.q Q.tx 1 = s.q Q.tx 1 ∧
        t.rd F.ETH_TRIES = s.rd F.ETH_TRIES + 1) ∧
      (c = true → s.on F.ETH_CTRL_FULL_DUPLEX = false → 15 ≤ s.rd F.ETH_TRIES → t.q Q.tx 1 = r ∧ t.rd F.ETH_TRIES = 0 ∧
        t.rd F.ETH_TALLY2_EXCESS = min (s.rd F.ETH_TALLY2_EXCESS + 1) (2 ^ F.ETH_TALLY2_EXCESS.w - 1))) ∧
  (∀ (s : State) (d : BitVec 16), s.on F.ETH_MDIO_DATA_BUSY = true → s.held = [] → Does (.ethMdioDone d) [F.XR_TAGS_MAX,
    F.ETH_MDIO_DATA_DATA, F.ETH_MDIO_DATA_BUSY, F.LK_TXSEQ, F.RT_LEVEL, F.RT_EDGE, F.PAD_HOLD, F.PAD_LEVEL] [Q.retry,
      Q.tickets] s fun t =>
    t.on F.ETH_MDIO_DATA_BUSY = false ∧ t.events = s.events ++ [183] ∧
    t.rd F.ETH_MDIO_DATA_DATA = if (s.rd F.MDIO_REGF).testBit 10 then s.rd F.ETH_MDIO_DATA_DATA else d.toNat)

/-- R648 to R651, R653, R654, R656: characters of the UARTs and transactions of the module SPI port. The order in which
`UART_LINE` gives the bits of a character is the model's (log entry 93). -/
def Obligations.UartCharactersAndModuleTransactionsAct : Prop :=
  (∀ (s : State) (u : Fin 2) (d : BitVec 8) (fr pa br : Bool), portRx s (u.val + 2) = true →
    (s.on F.UART_FC_SWFC_TX u.val = false ∨ fr = true ∨ (pa = true ∧ s.on F.UART_FMT_PARITY u.val = true) ∨ br = true ∨ (d ≠ 0x11 ∧
      d ≠ 0x13 ∧ d ≠ 0x91 ∧ d ≠ 0x93)) →
    Does (.uartCharReceive u d fr pa br) [F.PT_TALLY_OVR, F.UART_STAT_RTS, F.UART_STAT_XOFF_RX, F.UART_STAT_OVR, F.UART_STAT_FRAMING,
      F.UART_STAT_PARITY, F.UART_STAT_BREAK, F.LK_TXSEQ, F.UART_XOFF_DUE] [Q.retry, Q.rx] s fun t =>
      t.on F.UART_STAT_FRAMING u.val = (s.on F.UART_STAT_FRAMING u.val || fr) ∧
      t.on F.UART_STAT_PARITY u.val = (s.on F.UART_STAT_PARITY u.val || (pa && s.on F.UART_FMT_PARITY u.val)) ∧
      t.on F.UART_STAT_BREAK u.val = (s.on F.UART_STAT_BREAK u.val || br) ∧
      ((s.q Q.rx (u.val + 2)).length < 128 → t.q Q.rx (u.val + 2) = s.q Q.rx (u.val + 2) ++
        [(if br then 0 else if s.on F.UART_FMT_BITS7 u.val then d.toNat % 128 else d.toNat) + (if fr then 2 ^ 9 else 0) +
          (if pa && s.on F.UART_FMT_PARITY u.val then 2 ^ 10 else 0) + (if br then 2 ^ 11 else 0)]) ∧
      (128 ≤ (s.q Q.rx (u.val + 2)).length → t.q Q.rx (u.val + 2) = s.q Q.rx (u.val + 2) ∧ t.on F.UART_STAT_OVR u.val = true ∧
        t.rd F.PT_TALLY_OVR (u.val + 2) = min (s.rd F.PT_TALLY_OVR (u.val + 2) + 1) (2 ^ F.PT_TALLY_OVR.w - 1))) ∧
  (∀ (s : State) (u : Fin 2) (d : BitVec 8), portRx s (u.val + 2) = true → s.on F.UART_FC_SWFC_TX u.val = true → d = 0x11 ∨ d = 0x13 →
    Does (.uartCharReceive u d false false false) [F.PT_TALLY_OVR, F.UART_STAT_RTS, F.UART_STAT_XOFF_RX, F.UART_STAT_OVR,
      F.UART_STAT_FRAMING, F.UART_STAT_PARITY, F.UART_STAT_BREAK, F.LK_TXSEQ, F.UART_XOFF_DUE] [Q.retry, Q.rx] s fun t =>
        t.q Q.rx (u.val + 2) = s.q Q.rx (u.val + 2) ∧
      t.on F.UART_STAT_XOFF_RX u.val = (d == 0x13)) ∧
  (∀ (s : State) (u : Fin 2) (cts : Bool), portTx s (u.val + 2) = true → s.on F.TX_ACTIVE (u.val + 2) = false → s.held = [] →
    Does (.uartCharTransmit u cts) [F.XR_TAGS_MAX, F.UART_STAT_CTS, F.UART_STAT_XOFF_SENT, F.LK_TXSEQ, F.RT_LEVEL, F.RT_EDGE,
      F.PAD_HOLD, F.PAD_LEVEL, F.TX_ACTIVE, F.UART_XOFF_DUE, F.UART_SENT, F.UART_LINE] [Q.retry, Q.tickets, Q.tx] s fun t =>
        t.on F.UART_STAT_CTS u.val = cts ∧
      (s.on F.UART_FC_HWFC u.val = true → cts = false → t.on F.TX_ACTIVE (u.val + 2) = false ∧
        t.q Q.tx (u.val + 2) = s.q Q.tx (u.val + 2)) ∧
      (u.val = 0 → s.on F.TS_STAT_BUSY = true → t.on F.TX_ACTIVE 2 = false ∧ t.q Q.tx 2 = s.q Q.tx 2) ∧
      (∀ c rest, s.on F.UART_FC_HWFC u.val = false ∨ cts = true → u.val = 1 ∨ s.on F.TS_STAT_BUSY = false →
        s.rd F.UART_XOFF_DUE u.val = 0 →
        s.on F.UART_FC_SWFC_TX u.val = false ∨ s.on F.UART_STAT_XOFF_RX u.val = false → s.q Q.tx (u.val + 2) = c :: rest →
        t.on F.TX_ACTIVE (u.val + 2) = true ∧ t.q Q.tx (u.val + 2) = rest ∧ t.rd F.UART_SENT u.val =
          (if s.on F.UART_FMT_BITS7 u.val then c % 128 else c) % 2 ^ F.UART_SENT.w ∧
        t.rd F.UART_LINE u.val = uartBits s u.val (if s.on F.UART_FMT_BITS7 u.val then c % 128 else c)) ∧
      (s.on F.UART_FC_HWFC u.val = false ∨ cts = true → u.val = 1 ∨ s.on F.TS_STAT_BUSY = false → s.rd F.UART_XOFF_DUE u.val = 1 →
        t.on F.TX_ACTIVE (u.val + 2) = true ∧ t.rd F.UART_SENT u.val = 0x13 ∧ t.on F.UART_STAT_XOFF_SENT u.val = true ∧
        t.q Q.tx (u.val + 2) = s.q Q.tx (u.val + 2))) ∧
  (∀ (s : State) (u : Fin 2), Does (.uartCharSent u) [F.TX_ACTIVE] [] s fun t => t.on F.TX_ACTIVE (u.val + 2) = false ∧
    ∀ p, p ≠ u.val + 2 → t.rd F.TX_ACTIVE p = s.rd F.TX_ACTIVE p) ∧
  (∀ (s : State) (n : Nat), let l := byteList (s.q Q.tx 4)
    n = ofBytes (l.take 2) → portTx s 4 = true → s.on F.MOD_STAT_BUSY = false → 1 ≤ n → n ≤ 508 → 4 + n ≤ l.length →
    n + pathBytes s 1 + 4 ≤ rxFree s 4 → s.held = [] → Does .modTransactionStart [F.XR_TAGS_MAX, F.MOD_STAT_BUSY, F.LK_TXSEQ,
      F.RT_LEVEL, F.RT_EDGE, F.PAD_HOLD, F.PAD_LEVEL, F.MOD_LEFT, F.MOD_SENT, F.MOD_PHASE, F.MOD_TRUNC, F.MOD_STAGE] [Q.retry,
        Q.tickets, Q.tx, Q.frames] s fun t => t.on F.MOD_STAT_BUSY = true ∧
      t.rd F.MOD_LEFT = (n + pathBytes s 1) % 2 ^ F.MOD_LEFT.w ∧ t.rd F.MOD_SENT = 0 ∧ t.rd F.MOD_PHASE = 1 ∧
      t.q Q.tx 4 = numList (l.drop (4 + n)) ∧ t.q Q.frames 4 0 = numList ((l.drop 4).take n)) ∧
  (∀ s : State, s.on F.MOD_STAT_BUSY = true → s.rd F.MOD_PHASE = 1 → portTx s 4 = true → Does .modBlockStart [F.MOD_LEFT, F.MOD_SENT,
    F.MOD_PHASE] [] s fun t =>
    t.rd F.MOD_LEFT = s.rd F.MOD_LEFT - modBurst s ∧
      t.rd F.MOD_SENT = (s.rd F.MOD_SENT + min (modBurst s) (s.rd F.MOD_LEFT)) % 2 ^ F.MOD_SENT.w ∧
    t.rd F.MOD_PHASE = if s.rd F.MOD_LEFT ≤ modBurst s then 2 else 1) ∧
  (∀ (s : State) (l : List (BitVec 8)), s.on F.MOD_STAT_BUSY = true → s.rd F.MOD_PHASE = 2 → s.rd F.MOD_STAGE 0 = 0 →
    s.rd F.MOD_STAGE 1 = 0 →
    Moves (.modTransactionDone l) [F.MOD_STAT_BUSY, F.MOD_STAT_CHECK, F.LK_TXSEQ, F.MOD_PHASE, F.MOD_STAGE] [Q.retry, Q.rx,
      Q.frames] s fun t => t.on F.MOD_STAT_BUSY = false ∧ 188 ∈ t.events ∧
      (s.on F.MOD_TRUNC = false → l.length = s.rd F.MOD_SENT → t.q Q.rx 4 = s.q Q.rx 4 ++ frameHeader l.length 0 0 :: packWords l)) ∧
  (∀ (s : State) (l : List (BitVec 8)) (x : Nat), s.on F.MOD_STAT_BUSY = true → s.rd F.MOD_PHASE = 2 → s.rd F.MOD_STAGE 0 = 3 →
    s.rd F.MOD_STAGE 1 = 3 → cxOn s 2 = some x → let b := byteList (s.q Q.frames 4 1)
    Moves (.modTransactionDone l) [F.MOD_STAT_BUSY, F.MOD_STAT_CHECK, F.LK_TXSEQ, F.MOD_PHASE, F.MOD_STAGE] [Q.retry, Q.rx,
      Q.frames] s fun t => t.on F.MOD_STAT_BUSY = false ∧ 188 ∈ t.events ∧
      t.on F.MOD_STAT_CHECK = (s.on F.MOD_STAT_CHECK || s.on F.CX_SRES x) ∧
      t.q Q.rx 4 = s.q Q.rx 4 ++ frameHeader b.length (if s.on F.CX_SRES x then 1 else 0) 0 :: packWords b) ∧
  (∀ (s : State) (l : List (BitVec 8)), s.on F.MOD_STAT_BUSY = true → s.rd F.MOD_PHASE = 1 → s.rd F.MOD_RDY_TMO_US ≠ 0 →
    l.length = s.rd F.MOD_SENT → Does (.modRdyTimeout l) [F.CX_STAT_FRAME, F.MOD_STAT_BUSY, F.MOD_STAT_RDY_TMO, F.LK_TXSEQ, F.MOD_PHASE,
      F.MOD_STAGE] [Q.retry, Q.rx, Q.frames] s fun t => t.on F.MOD_STAT_BUSY = false ∧ t.on F.MOD_STAT_RDY_TMO = true ∧
      188 ∈ t.events ∧ t.q Q.rx 4 = s.q Q.rx 4 ++ frameHeader l.length 2 0 :: packWords l) ∧
  (∀ s : State, portLive s 4 = true → phyUp s 4 = true → Does .modIrqFall [F.LK_TXSEQ] [Q.retry] s fun t => t.events = s.events ++ [189])

/-- R658 to R665: the frames, credits and HELLOs of the station link. `l` is a received frame as its check-value context left it. -/
def Obligations.StationLinkFramesAndCreditsAct : Prop :=
  (∀ (s : State) (f : List (BitVec 8)) (x : Nat), portRx s 5 = true → s.rd F.SL_STAT_STATE ≠ 0 → cxOn s 4 = some x →
    s.rd F.SL_STAGE 1 = 3 →
    let l := byteList (s.q Q.frames 5 1)
    (slHead l).1 = 1 → slHeadOk l = true → let n := slUnits ((slHead l).2.2.2)
    (s.on F.CX_SRES x = false → Does (.slDataReceive f) [F.SL_STAT_TX_CREDITS, F.SL_STAT_CRET_PEND, F.SL_SEQ_RX_SEQ,
      F.SL_TALLY0_CRC_ERR, F.SL_TALLY0_SEQ_GAP, F.SL_TALLY1_RX_OVR, F.SL_TALLY1_CREDIT_ERR, F.LK_TXSEQ, F.SL_UNITS, F.SL_STAGE]
        [Q.retry, Q.rx, Q.frames] s fun t =>
      t.rd F.SL_STAT_TX_CREDITS = min 8 (s.rd F.SL_STAT_TX_CREDITS + (slHead l).2.1) ∧
      t.rd F.SL_SEQ_RX_SEQ = ((slHead l).2.2.1 + 1) % 256 ∧
      ((slHead l).2.2.1 ≠ s.rd F.SL_SEQ_RX_SEQ →
        t.rd F.SL_TALLY0_SEQ_GAP = min (s.rd F.SL_TALLY0_SEQ_GAP + 1) (2 ^ F.SL_TALLY0_SEQ_GAP.w - 1)) ∧
      (n ≤ s.rd F.SL_UNITS → t.rd F.SL_UNITS = s.rd F.SL_UNITS - n ∧
        t.q Q.rx 5 = s.q Q.rx 5 ++ frameHeader ((slHead l).2.2.2) 0 0 :: packWords (l.drop 4)) ∧
      (s.rd F.SL_UNITS < n → t.q Q.rx 5 = s.q Q.rx 5 ∧
        t.rd F.SL_TALLY1_RX_OVR = min (s.rd F.SL_TALLY1_RX_OVR + 1) (2 ^ F.SL_TALLY1_RX_OVR.w - 1))) ∧
    (s.on F.CX_SRES x = true → Does (.slDataReceive f) [F.SL_STAT_TX_CREDITS, F.SL_STAT_CRET_PEND, F.SL_SEQ_RX_SEQ, F.SL_TALLY0_CRC_ERR,
      F.SL_TALLY0_SEQ_GAP, F.SL_TALLY1_RX_OVR, F.SL_TALLY1_CREDIT_ERR, F.LK_TXSEQ, F.SL_UNITS, F.SL_STAGE] [Q.retry, Q.rx,
        Q.frames] s fun t => t.q Q.rx 5 = s.q Q.rx 5 ∧ t.rd F.SL_SEQ_RX_SEQ = s.rd F.SL_SEQ_RX_SEQ ∧
      t.rd F.SL_TALLY0_CRC_ERR = min (s.rd F.SL_TALLY0_CRC_ERR + 1) (2 ^ F.SL_TALLY0_CRC_ERR.w - 1))) ∧
  (∀ (s : State) (f : List (BitVec 8)) (x : Nat), portRx s 5 = true → s.rd F.SL_STAT_STATE ≠ 0 → cxOn s 4 = some x →
    s.rd F.SL_STAGE 1 = 3 →
    s.on F.CX_SRES x = false → let l := byteList (s.q Q.frames 5 1)
    slHeadOk l = true →
    ((slHead l).1 = 2 → Does (.slCreditReceive f) [F.SL_STAT_TX_CREDITS, F.SL_STAT_CRET_PEND, F.SL_TALLY0_CRC_ERR,
      F.SL_TALLY1_CREDIT_ERR, F.LK_TXSEQ, F.SL_STAGE] [Q.retry, Q.frames] s fun t =>
      t.rd F.SL_STAT_TX_CREDITS = min 8 (s.rd F.SL_STAT_TX_CREDITS + (slHead l).2.1) ∧
      t.rd F.SL_TALLY1_CREDIT_ERR = min (s.rd F.SL_TALLY1_CREDIT_ERR + (s.rd F.SL_STAT_TX_CREDITS + (slHead l).2.1 - 8))
        (2 ^ F.SL_TALLY1_CREDIT_ERR.w - 1)) ∧
    ((slHead l).1 = 3 → Does (.slHelloReceive f) [F.SL_STAT_STATE, F.SL_STAT_TX_CREDITS, F.SL_STAT_CRET_PEND, F.SL_STAT_PEER_RST,
      F.SL_SEQ_TX_SEQ, F.SL_SEQ_RX_SEQ, F.SL_TALLY0_CRC_ERR, F.LK_TXSEQ, F.SL_HELLO_RCVD, F.SL_STAGE] [Q.retry, Q.frames] s fun t =>
        t.rd F.SL_STAT_TX_CREDITS = (slHead l).2.1 ∧
      (s.rd F.SL_STAT_STATE = 2 → t.on F.SL_STAT_PEER_RST = true ∧ t.rd F.SL_SEQ_TX_SEQ = 0 ∧ t.rd F.SL_SEQ_RX_SEQ = 0 ∧
        t.rd F.SL_STAT_STATE = 2 ∧ t.events = s.events ++ [191]) ∧
      (s.rd F.SL_STAT_STATE = 1 → t.on F.SL_HELLO_RCVD = true ∧ t.rd F.SL_STAT_STATE = if s.on F.SL_HELLO_SENT then 2 else 1))) ∧
  (∀ (s : State) (l : List Byte) (r : List Nat), slCanSend s = true → s.on F.PT_CTRL_TX_EN 5 = true → s.rd F.SL_STAT_STATE = 2 →
    headFrame (s.q Q.tx 5) = some (l, r) → 1 ≤ l.length → l.length ≤ 128 → s.held = [] → Does .slDataSend [F.XR_TAGS_MAX,
      F.SL_STAT_TX_CREDITS, F.SL_STAT_CRET_PEND, F.SL_SEQ_TX_SEQ, F.LK_TXSEQ, F.RT_LEVEL, F.RT_EDGE, F.PAD_HOLD, F.PAD_LEVEL,
        F.TX_ACTIVE, F.TX_LEN, F.SL_TXKIND, F.SL_TXCRET, F.SL_STAGE] [Q.retry, Q.tickets, Q.tx, Q.frames] s fun t =>
      (slUnits l.length ≤ s.rd F.SL_STAT_TX_CREDITS → t.rd F.SL_STAT_TX_CREDITS = s.rd F.SL_STAT_TX_CREDITS - slUnits l.length ∧
        t.rd F.SL_STAT_CRET_PEND = 0 ∧ t.rd F.SL_TXCRET = s.rd F.SL_STAT_CRET_PEND ∧ t.rd F.SL_TXKIND = 1 ∧
        t.rd F.SL_SEQ_TX_SEQ = (s.rd F.SL_SEQ_TX_SEQ + 1) % 256 ∧ t.q Q.tx 5 = r ∧ t.on F.TX_ACTIVE 5 = true ∧
        (t.q Q.frames 5 0).drop 4 = l.map (·.toNat) ∧ (t.q Q.frames 5 0)[1]? = some (s.rd F.SL_SEQ_TX_SEQ)) ∧
      (s.rd F.SL_STAT_TX_CREDITS < slUnits l.length → t.q Q.tx 5 = s.q Q.tx 5 ∧ t.on F.TX_ACTIVE 5 = false ∧
        t.rd F.SL_STAT_TX_CREDITS = s.rd F.SL_STAT_TX_CREDITS)) ∧
  (∀ s : State, slCanSend s = true → s.on F.SL_STAT_CRET_PEND = true → s.rd F.SL_STAT_STATE = 2 →
    Does .slCreditTimeout [F.SL_STAT_CRET_PEND, F.TX_ACTIVE, F.TX_LEN, F.SL_TXKIND, F.SL_TXCRET, F.SL_STAGE] [Q.frames] s fun t =>
    t.on F.TX_ACTIVE 5 = true ∧ t.rd F.SL_TXKIND = 2 ∧ t.rd F.SL_TXCRET = s.rd F.SL_STAT_CRET_PEND ∧ t.rd F.SL_STAT_CRET_PEND = 0) ∧
  (∀ s : State, slCanSend s = true → s.rd F.SL_STAT_STATE = 1 → Does .slHelloTimer [F.SL_STAT_STATE, F.SL_STAT_CRET_PEND, F.TX_ACTIVE,
    F.TX_LEN, F.SL_HELLO_SENT, F.SL_TXKIND, F.SL_TXCRET, F.SL_STAGE] [Q.frames] s fun t => t.on F.TX_ACTIVE 5 = true ∧
    t.rd F.SL_TXKIND = 3 ∧ t.rd F.SL_TXCRET = s.rd F.SL_UNITS ∧ t.on F.SL_HELLO_SENT = true ∧
    t.rd F.SL_STAT_STATE = if s.on F.SL_HELLO_RCVD then 2 else 1) ∧
  (∀ s : State, portLive s 5 = true → s.rd F.SL_STAT_STATE = 2 → Does .slLinkTimeout [F.CX_STAT_FRAME, F.SL_STAT_STATE, F.LK_TXSEQ,
    F.SL_HELLO_SENT, F.SL_HELLO_RCVD, F.SL_STAGE] [Q.retry, Q.frames] s fun t => t.rd F.SL_STAT_STATE = 1 ∧
    t.on F.SL_HELLO_SENT = false ∧ t.on F.SL_HELLO_RCVD = false ∧ t.events = s.events ++ [191] ∧ t.q Q.frames 5 1 = []) ∧
  (∀ s : State, portRx s 5 = true → s.rd F.SL_STAT_STATE ≠ 0 → Does .slHeaderError [F.CX_STAT_FRAME, F.SL_TALLY1_HDR_ERR, F.LK_TXSEQ,
    F.SL_STAGE] [Q.retry, Q.frames] s fun t =>
    t.rd F.SL_TALLY1_HDR_ERR = min (s.rd F.SL_TALLY1_HDR_ERR + 1) (2 ^ F.SL_TALLY1_HDR_ERR.w - 1) ∧ t.rd F.SL_STAGE 1 = 0 ∧
    t.q Q.frames 5 1 = [])

/-- R52, R698 to R703, R706, R712 to R714, R716: the TAP's instructions, authentication, the debug access port, the halt of a thread and
TEST_EN. TAP_DR holds what Capture-DR loads. -/
def Obligations.TapAuthenticationAndDebugAccessAct : Prop :=
  (∀ s : State, Does .tapReset [F.TAP_IR, F.BSR_DRIVE] [] s fun t => t.rd F.TAP_IR = 2 ∧ t.rd F.BSR_DRIVE = 0) ∧
  (∀ s : State, Does .tapIdcode [F.TAP_IR, F.TAP_CAP, F.TAP_DR, F.BSR_DRIVE] [] s fun t => t.rd F.TAP_IR = 2 ∧
    t.rd F.TAP_DR = 0x19640D6B ∧ t.rd F.BSR_DRIVE = 0) ∧
  (∀ s : State, Does .tapBypass [F.TAP_IR, F.TAP_CAP, F.TAP_DR, F.BSR_DRIVE] [] s fun t => t.rd F.TAP_IR = 0x1F ∧ t.rd F.TAP_DR = 0 ∧
    t.rd F.BSR_DRIVE = 0) ∧
  (∀ (s : State) (c : BitVec 311), Does (.tapSamplePreload c) [F.TAP_IR, F.TAP_CAP, F.TAP_DR, F.BSR, F.BSR_DRIVE] [] s fun t =>
    t.rd F.TAP_IR = 1 ∧ t.rd F.BSR = c.toNat ∧
    t.rd F.TAP_DR = scanCapture s % 2 ^ F.TAP_DR.w ∧ t.rd F.BSR_DRIVE = 0) ∧
  (∀ (s : State) (c : BitVec 311), isOpen s = true ∨ s.on F.TST_STAT_TESTMODE = true →
    (Does (.tapExtest c) [F.TAP_IR, F.TAP_CAP, F.TAP_DR, F.BSR, F.BSR_DRIVE] [] s fun t => t.rd F.TAP_IR = 0 ∧ t.rd F.BSR = c.toNat ∧
      t.rd F.BSR_DRIVE = 1 ∧
      t.rd F.TAP_DR = scanCapture s % 2 ^ F.TAP_DR.w) ∧
    (Does .tapClamp [F.TAP_IR, F.TAP_CAP, F.TAP_DR, F.BSR_DRIVE] [] s fun t => t.rd F.TAP_IR = 3 ∧ t.rd F.BSR_DRIVE = 1 ∧
      t.rd F.TAP_DR = 0) ∧
    (Does .tapHighz [F.TAP_IR, F.TAP_CAP, F.TAP_DR, F.BSR_DRIVE] [] s fun t => t.rd F.TAP_IR = 4 ∧ t.rd F.BSR_DRIVE = 2 ∧
      t.rd F.TAP_DR = 0)) ∧
  (∀ (s : State) (c : BitVec 311) (i : Instr), isOpen s = false → s.on F.TST_STAT_TESTMODE = false →
    i ∈ [.tapExtest c, .tapClamp, .tapHighz] →
    Ends i s fun t => t.rd F.TAP_IR = 0x1F ∧ t.rd F.BSR_DRIVE = 0 ∧ t.rd F.TAP_DR = 0 ∧ Only [F.TAP_IR, F.TAP_DR, F.BSR_DRIVE, F.TAP_CAP]
      [] s t) ∧
  (∀ s : State, Does .tapDbgAcc [F.TAP_IR, F.TAP_CAP, F.TAP_DR, F.BSR_DRIVE] [] s fun t => (isOpen s = true →
    s.on F.TST_STAT_TESTMODE = false → t.rd F.TAP_IR = 8 ∧
      t.rd F.TAP_DR = s.rd F.ACC_RDATA + s.rd F.ACC_RCODE * 2 ^ 64 + s.rd F.ACC_BUSY * 2 ^ 67) ∧
    (isOpen s = false ∨ s.on F.TST_STAT_TESTMODE = true → t.rd F.TAP_IR = 0x1F ∧ t.rd F.TAP_DR = 0)) ∧
  (∀ s : State, isOpen s = true → Ends .tapStackReset s fun t => t.on F.RST_CAUSE_DEBUG = true ∧ t.held = [] ∧ t.stores = []) ∧
  (∀ s : State, isOpen s = false → Ends .tapStackReset s fun t => t.rd F.TAP_IR = 0x1F ∧ Only [F.TAP_IR, F.TAP_DR, F.BSR_DRIVE,
    F.TAP_CAP] [] s t) ∧
  (∀ s : State, Does .tapDbgAuth [F.TAP_IR, F.TAP_CAP, F.TAP_DR, F.BSR_DRIVE, F.AUTH_STATUS, F.AUTH_CHAL, F.AUTH_READY] [] s fun t =>
    (s.rd F.TST_LOCK_STATE ≠ 1 → t.rd F.TAP_IR = 0x1F ∧ t.rd F.TAP_DR = 0 ∧ t.rd F.AUTH_CHAL = s.rd F.AUTH_CHAL) ∧
    (s.rd F.TST_LOCK_STATE = 1 → t.rd F.TAP_IR = 9 ∧ t.rd F.TAP_DR = t.rd F.AUTH_CHAL + t.rd F.AUTH_STATUS * 2 ^ 128 ∧
      (crAlive s = true → s.rd F.AUTH_STATUS ≠ 1 → s.rd F.AUTH_STATUS ≠ 4 → t.on F.AUTH_READY = true ∧ t.rd F.AUTH_STATUS = 0) ∧
      (s.rd F.AUTH_STATUS = 4 → t.rd F.AUTH_CHAL = s.rd F.AUTH_CHAL ∧ t.rd F.AUTH_STATUS = 4 ∧ t.rd F.AUTH_READY = s.rd F.AUTH_READY))) ∧
  (∀ (s : State) (d : BitVec 520), s.rd F.TAP_IR = 9 → s.rd F.TST_LOCK_STATE = 1 → s.on F.AUTH_READY = true →
    (d.toNat / 2 ^ 512 ≠ 0 → Does (.dbgAuthSubmit d) [F.AUTH_STATUS, F.AUTH_READY, F.AUTH_SIG] [] s fun t => t.rd F.AUTH_STATUS = 1 ∧
      t.on F.AUTH_READY = false ∧ t.rd F.AUTH_SIG = d.toNat) ∧
    (d.toNat / 2 ^ 512 = 0 → Ends (.dbgAuthSubmit d) s fun t => t = s)) ∧
  (∀ s : State, s.rd F.AUTH_STATUS = 1 → Does .dbgAuthVerified [F.TST_LOCK_STATE, F.TST_STAT_AUTH_FAIL, F.AUTH_STATUS] [] s fun t =>
    (authValid s = true → t.rd F.AUTH_STATUS = 2 ∧ t.rd F.TST_LOCK_STATE = 0 ∧ t.rd F.TST_STAT_AUTH_FAIL = s.rd F.TST_STAT_AUTH_FAIL) ∧
    (authValid s = false ∨ mUp s = false ∨ s.rd F.AUTH_SIG / 2 ^ 512 < 0x10 → t.rd F.AUTH_STATUS = 4 ∧
      t.rd F.TST_LOCK_STATE = s.rd F.TST_LOCK_STATE ∧
      t.rd F.TST_STAT_AUTH_FAIL = min (s.rd F.TST_STAT_AUTH_FAIL + 1) (2 ^ F.TST_STAT_AUTH_FAIL.w - 1))) ∧
  (∀ s : State, s.rd F.AUTH_STATUS = 4 → Does .dbgAuthLockoutEnd [F.AUTH_STATUS] [] s fun t => t.rd F.AUTH_STATUS = 3) ∧
  (∀ (s : State) (d : BitVec 99), s.rd F.TAP_IR = 8 → isOpen s = true → s.on F.TST_STAT_TESTMODE = false → d.toNat.testBit 98 = true →
    Does (.dbgAccGo d) [F.ACC_BUSY, F.ACC_ADDR, F.ACC_DATA, F.ACC_WRITE, F.ACC_WIDE] [] s fun t => t.on F.ACC_BUSY = true ∧
      (s.on F.ACC_BUSY = false → t.rd F.ACC_ADDR = d.toNat / 2 ^ 64 % 2 ^ 32 ∧ t.on F.ACC_WRITE = d.toNat.testBit 96 ∧
        t.on F.ACC_WIDE = d.toNat.testBit 97 ∧ t.rd F.ACC_DATA = d.toNat % 2 ^ (if d.toNat.testBit 97 then 64 else 32)) ∧
      (s.on F.ACC_BUSY = true → t.rd F.ACC_ADDR = s.rd F.ACC_ADDR ∧ t.rd F.ACC_DATA = s.rd F.ACC_DATA)) ∧
  (∀ s : State, s.on F.ACC_BUSY = true → holds s (accRequest s) = false → Ends .dbgAccResponse s fun t => t.on F.ACC_BUSY = false ∧
    t.rd F.ACC_RCODE = t.resp.code.num ∧ t.rd F.ACC_RDATA = t.resp.data % 2 ^ 64) ∧
  (∀ (s : State) (k : Nat), s.on F.ACC_BUSY = true → s.on F.ACC_WRITE = false → SetsOut s (accRequest s) →
    targetOf (s.rd F.ACC_ADDR) = .sram k →
    s.rd F.DOM_STATE (44 + k) = 2 → fwRefuses s (.unit 47) 0 (s.rd F.ACC_ADDR) = none →
    s.rd F.ACC_ADDR % (if s.on F.ACC_WIDE then 8 else 4) = 0 → s.bad = [] → Ends .dbgAccResponse s fun t => t.on F.ACC_BUSY = false ∧
      t.rd F.ACC_RCODE = 0 ∧ t.rd F.ACC_RDATA = s.mget (s.rd F.ACC_ADDR) (if s.on F.ACC_WIDE then 8 else 4) ∧
      Only [F.ACC_BUSY, F.ACC_RCODE, F.ACC_RDATA, F.XR_TAGS_MAX, F.LK_TXSEQ] [Q.retry] s t) ∧
  (∀ (s : State) (k : Fin 40), s.on F.HALT_REQ k.val = true → s.on F.SAVE_FOR k.val = false →
    (∀ u ∈ copiesOf s k.val, s.on F.LD_PEND u = false ∧ s.on F.DIV_PEND u = false ∧ s.on F.SYNCING u = false) →
    (k.val < 32 ∨ s.rd F.SP_STAT_MODE ≠ 3 ∧ (pairMode s ≠ 0 ∨ s.rd F.PC (k.val + 8) = s.rd F.PC k.val)) → Does (.dbgHalted k) [F.HALTED,
      F.HALT_REQ] [] s fun t =>
      t.on F.HALTED k.val = true ∧ t.on F.HALT_REQ k.val = false ∧ ∀ j, j ≠ k.val → t.rd F.HALTED j = s.rd F.HALTED j) ∧
  (∀ s : State, Does .testEnRise [F.TST_STAT_TEST_SEEN] [] s fun t => t.on F.TST_STAT_TEST_SEEN = true)
end

