-- ==== Sys2Proof/Laws/Bits.lean ====
section
/-!
SUPPORT. What the bit-field helpers do to single bits and to ranges.
-/
namespace Sys2Proof.Machine

theorem testBit_add_pow (v n : Nat) (h : v.testBit n = false) (k : Nat) :
    (v + 2 ^ n).testBit k = (v.testBit k || decide (n = k)) := by
  rcases Nat.lt_trichotomy k n with hk | hk | hk
  · rw [Nat.add_comm, Nat.testBit_two_pow_add_gt hk]; simp [Nat.ne_of_gt hk]
  · subst hk; rw [Nat.add_comm, Nat.testBit_two_pow_add_eq, h]; simp
  · obtain ⟨d, rfl⟩ : ∃ d, k = n + 1 + d := ⟨k - (n + 1), by omega⟩
    have e : (v + 2 ^ n) / 2 ^ (n + 1) = v / 2 ^ (n + 1) := by
      have hb : v / 2 ^ n % 2 = 0 := by
        have := Nat.testBit_eq_decide_div_mod_eq (x := v) (i := n)
        rw [h] at this; have := of_decide_eq_false this.symm; omega
      rw [Nat.pow_succ, ← Nat.div_div_eq_div_mul, ← Nat.div_div_eq_div_mul, Nat.add_div_right _ (Nat.two_pow_pos n)]
      omega
    have r (x : Nat) : x.testBit (n + 1 + d) = (x / 2 ^ (n + 1)).testBit d := by
      rw [Nat.testBit_div_two_pow, Nat.add_comm]
    rw [r, r, e]; simp; omega

theorem testBit_sub_pow (v n : Nat) (h : v.testBit n = true) (k : Nat) :
    (v - 2 ^ n).testBit k = (v.testBit k && !decide (n = k)) := by
  obtain ⟨w, hw, hb⟩ : ∃ w, v = w + 2 ^ n ∧ w.testBit n = false := by
    refine ⟨v ^^^ 2 ^ n, ?_, by rw [Nat.testBit_xor, h, Nat.testBit_two_pow_self]; rfl⟩
    have hz : (v ^^^ 2 ^ n).testBit n = false := by rw [Nat.testBit_xor, h, Nat.testBit_two_pow_self]; rfl
    refine Nat.eq_of_testBit_eq fun i => ?_
    rw [testBit_add_pow _ _ hz, Nat.testBit_xor, Nat.testBit_two_pow]
    by_cases e : n = i
    · subst e; simp [h]
    · simp [e]
  subst hw
  rw [Nat.add_sub_cancel, testBit_add_pow _ _ hb]
  by_cases e : n = k
  · subst e; simp [hb]
  · simp [e]

/-- Making one bit `b` leaves the others. -/
theorem testBit_putBit (v n : Nat) (b : Bool) (k : Nat) : (putBit v n b).testBit k = if n = k then b else v.testBit k := by
  unfold putBit
  by_cases e : n = k
  · subst e; cases hv : v.testBit n <;> cases b <;> simp [hv, testBit_add_pow, testBit_sub_pow]
  · cases hv : v.testBit n <;> cases b <;> simp [e, hv, testBit_add_pow, testBit_sub_pow]

@[simp] theorem testBit_putBit_self (v n : Nat) (b : Bool) : (putBit v n b).testBit n = b := by
  rw [testBit_putBit, if_pos rfl]

/-- A number below `2 ^ w` stays below it when a bit below `w` is made `b`. -/
theorem putBit_lt {v n w : Nat} (b : Bool) (hv : v < 2 ^ w) (hn : n < w) : putBit v n b < 2 ^ w := by
  refine Nat.lt_pow_two_of_testBit _ fun k hk => ?_
  rw [testBit_putBit, if_neg (by omega)]
  exact Nat.testBit_eq_false_of_lt (Nat.lt_of_lt_of_le hv (Nat.pow_le_pow_right (by omega) hk))

end Sys2Proof.Machine
end

