-- ==== Sys2Proof/Laws/Lookup.lean ====
section
/-!
SUPPORT. The keyed lists that hold registers, queues and memory: what reading gives after writing, and that writing keeps a
list in its canonical form (keys strictly rising).
-/
namespace Sys2Proof.Machine

section Reading
variable {K V : Type} [DecidableEq K]

theorem lookupD_eraseKey_self (m : List (K × V)) (k : K) (d : V) : lookupD (eraseKey m k) k d = d := by
  induction m with
  | nil => rfl
  | cons e r ih => by_cases h : e.1 = k <;> simp_all [eraseKey, lookupD]

theorem lookupD_eraseKey_ne (m : List (K × V)) {k k' : K} (hk : k' ≠ k) (d : V) :
    lookupD (eraseKey m k) k' d = lookupD m k' d := by
  induction m with
  | nil => rfl
  | cons e r ih =>
    by_cases h : e.1 = k
    · have : e.1 ≠ k' := fun h' => hk (h'.symm.trans h)
      simp_all [eraseKey, lookupD]
    · by_cases h' : e.1 = k' <;> simp_all [eraseKey, lookupD]

theorem lookupD_filter (m : List (K × V)) (p : K × V → Bool) (k : K) (d : V) (h : ∀ v, p (k, v) = true) :
    lookupD (m.filter p) k d = lookupD m k d := by
  induction m with
  | nil => rfl
  | cons e r ih =>
    obtain ⟨k', v⟩ := e
    by_cases hk : k' = k
    · subst hk; simp [List.filter, h, lookupD]
    · cases hp : p (k', v) <;> simp [List.filter, hp, lookupD, hk, ih]

theorem lookupD_insertKey_self (lt : K → K → Bool) (m : List (K × V)) (k : K) (v d : V) (h : ∀ e ∈ m, e.1 ≠ k) :
    lookupD (insertKey lt m k v) k d = v := by
  induction m with
  | nil => simp [insertKey, lookupD]
  | cons e r ih =>
    by_cases hl : lt k e.1 = true
    · simp [insertKey, hl, lookupD]
    · rw [insertKey, if_neg hl, lookupD, if_neg (h e (by simp)), ih fun x hx => h x (by simp [hx])]

theorem lookupD_insertKey_ne (lt : K → K → Bool) (m : List (K × V)) {k k' : K} (hk : k' ≠ k) (v d : V) :
    lookupD (insertKey lt m k v) k' d = lookupD m k' d := by
  induction m with
  | nil => simp [insertKey, lookupD, hk.symm]
  | cons e r ih =>
    by_cases hl : lt k e.1 = true
    · simp [insertKey, hl, lookupD, hk.symm]
    · rw [insertKey, if_neg hl]
      by_cases he : e.1 = k' <;> simp [lookupD, he, ih]

theorem mem_eraseKey {m : List (K × V)} {k : K} {e : K × V} : e ∈ eraseKey m k ↔ e ∈ m ∧ e.1 ≠ k := by
  simp [eraseKey]

/-- Reading a key just written. -/
theorem lookupD_setKey_self [DecidableEq V] (lt : K → K → Bool) (m : List (K × V)) (k : K) (v d : V) :
    lookupD (setKey lt m k v d) k d = v := by
  unfold setKey
  split
  · simp [lookupD_eraseKey_self, *]
  · exact lookupD_insertKey_self lt _ k v d fun e he => (mem_eraseKey.mp he).2

/-- Writing a key changes no other. -/
theorem lookupD_setKey_ne [DecidableEq V] (lt : K → K → Bool) (m : List (K × V)) {k k' : K} (hk : k' ≠ k) (v d d' : V) :
    lookupD (setKey lt m k v d) k' d' = lookupD m k' d' := by
  unfold setKey
  split
  · exact lookupD_eraseKey_ne m hk d'
  · rw [lookupD_insertKey_ne lt _ hk, lookupD_eraseKey_ne m hk]

end Reading

section Order
variable {K V : Type}

/-- The keys of a list strictly rise. -/
abbrev keysRise (lt : K → K → Bool) (m : List (K × V)) : Prop := m.Pairwise fun a b => lt a.1 b.1 = true

theorem keysRise_filter {lt : K → K → Bool} {m : List (K × V)} (h : keysRise lt m) (p : K × V → Bool) :
    keysRise lt (m.filter p) := List.Pairwise.filter p h

theorem mem_insertKey {lt : K → K → Bool} {m : List (K × V)} {k : K} {v : V} {e : K × V}
    (h : e ∈ insertKey lt m k v) : e = (k, v) ∨ e ∈ m := by
  induction m with
  | nil => simpa [insertKey] using h
  | cons a r ih =>
    simp only [insertKey] at h
    split at h
    · simpa using h
    · rcases List.mem_cons.mp h with h | h
      · simp [h]
      · rcases ih h with h | h <;> simp [h]

theorem keysRise_insertKey {lt : K → K → Bool} (tr : ∀ a b c, lt a b = true → lt b c = true → lt a c = true)
    (tot : ∀ a b, a ≠ b → lt a b = false → lt b a = true) {m : List (K × V)} (h : keysRise lt m) (k : K) (v : V)
    (hk : ∀ e ∈ m, e.1 ≠ k) : keysRise lt (insertKey lt m k v) := by
  induction m with
  | nil => simp [insertKey, keysRise]
  | cons a r ih =>
    obtain ⟨ha, hr⟩ := List.pairwise_cons.mp h
    simp only [insertKey]
    split
    · rename_i hl
      refine List.pairwise_cons.mpr ⟨fun e he => ?_, h⟩
      rcases List.mem_cons.mp he with rfl | he
      · exact hl
      · exact tr _ _ _ hl (ha e he)
    · rename_i hl
      refine List.pairwise_cons.mpr ⟨fun e he => ?_, ih hr fun e he => hk e (by simp [he])⟩
      rcases mem_insertKey he with rfl | he
      · exact tot k a.1 (fun h' => hk a (by simp) h'.symm) (by simpa using hl)
      · exact ha e he

/-- Writing keeps the keys rising. -/
theorem keysRise_setKey [DecidableEq K] [DecidableEq V] {lt : K → K → Bool}
    (tr : ∀ a b c, lt a b = true → lt b c = true → lt a c = true) (tot : ∀ a b, a ≠ b → lt a b = false → lt b a = true)
    {m : List (K × V)} (h : keysRise lt m) (k : K) (v d : V) : keysRise lt (setKey lt m k v d) := by
  unfold setKey
  split
  · exact keysRise_filter h _
  · exact keysRise_insertKey tr tot (keysRise_filter h _) k v fun e he => (mem_eraseKey.mp he).2

/-- Whatever holds of every entry of the list and of the new entry holds of every entry after the write. -/
theorem forall_setKey [DecidableEq K] [DecidableEq V] {lt : K → K → Bool} {P : K × V → Prop} {m : List (K × V)} (h : ∀ e ∈ m, P e)
    {k : K} {v d : V} (hv : v ≠ d → P (k, v)) : ∀ e ∈ setKey lt m k v d, P e := by
  intro e he
  unfold setKey at he
  split at he
  · exact h e (mem_eraseKey.mp he).1
  · rename_i hne
    rcases mem_insertKey he with rfl | he
    · exact hv hne
    · exact h e (mem_eraseKey.mp he).1

end Order

theorem Key.lt_trans (a b c : Key) (h : Key.lt a b = true) (h' : Key.lt b c = true) : Key.lt a c = true := by
  simp only [Key.lt, Bool.or_eq_true, Bool.and_eq_true, decide_eq_true_eq] at *
  omega

theorem Key.lt_total (a b : Key) (hn : a ≠ b) (h : Key.lt a b = false) : Key.lt b a = true := by
  simp only [Key.lt, Bool.or_eq_false_iff, Bool.and_eq_false_iff, decide_eq_false_iff_not, Bool.or_eq_true,
    Bool.and_eq_true, decide_eq_true_eq] at *
  have : ¬(a.f = b.f ∧ a.i = b.i ∧ a.j = b.j) := fun ⟨x, y, z⟩ => hn (by cases a; cases b; simp_all)
  omega

end Sys2Proof.Machine
end

