-- ==== Sys2Proof/Laws/State.lean ====
section
/-!
SUPPORT. The state's fields after each primitive update, so that no proof unfolds a record update; and what a field of the
register file, a queue and a byte of memory read as after each of them is written.
-/
namespace Sys2Proof.Machine.State
variable (s : State)

/-! `wr` changes `regs` only. -/
@[simp] theorem wr_pending (f : Fld) (v i j : Nat) : (s.wr f v i j).pending = s.pending := rfl
@[simp] theorem wr_time (f : Fld) (v i j : Nat) : (s.wr f v i j).time = s.time := rfl
@[simp] theorem wr_free (f : Fld) (v i j : Nat) : (s.wr f v i j).free = s.free := rfl
@[simp] theorem wr_queues (f : Fld) (v i j : Nat) : (s.wr f v i j).queues = s.queues := rfl
@[simp] theorem wr_mem (f : Fld) (v i j : Nat) : (s.wr f v i j).mem = s.mem := rfl
@[simp] theorem wr_bad (f : Fld) (v i j : Nat) : (s.wr f v i j).bad = s.bad := rfl
@[simp] theorem wr_resp (f : Fld) (v i j : Nat) : (s.wr f v i j).resp = s.resp := rfl
@[simp] theorem wr_events (f : Fld) (v i j : Nat) : (s.wr f v i j).events = s.events := rfl
@[simp] theorem wr_stores (f : Fld) (v i j : Nat) : (s.wr f v i j).stores = s.stores := rfl
@[simp] theorem wr_shadows (f : Fld) (v i j : Nat) : (s.wr f v i j).shadows = s.shadows := rfl
@[simp] theorem wr_results (f : Fld) (v i j : Nat) : (s.wr f v i j).results = s.results := rfl
@[simp] theorem wr_held (f : Fld) (v i j : Nat) : (s.wr f v i j).held = s.held := rfl

/-! `up` changes `regs` only. -/
@[simp] theorem up_pending (f : Fld) (i j : Nat) : (s.up f i j).pending = s.pending := rfl
@[simp] theorem up_time (f : Fld) (i j : Nat) : (s.up f i j).time = s.time := rfl
@[simp] theorem up_free (f : Fld) (i j : Nat) : (s.up f i j).free = s.free := rfl
@[simp] theorem up_queues (f : Fld) (i j : Nat) : (s.up f i j).queues = s.queues := rfl
@[simp] theorem up_mem (f : Fld) (i j : Nat) : (s.up f i j).mem = s.mem := rfl
@[simp] theorem up_bad (f : Fld) (i j : Nat) : (s.up f i j).bad = s.bad := rfl
@[simp] theorem up_resp (f : Fld) (i j : Nat) : (s.up f i j).resp = s.resp := rfl
@[simp] theorem up_events (f : Fld) (i j : Nat) : (s.up f i j).events = s.events := rfl
@[simp] theorem up_stores (f : Fld) (i j : Nat) : (s.up f i j).stores = s.stores := rfl
@[simp] theorem up_shadows (f : Fld) (i j : Nat) : (s.up f i j).shadows = s.shadows := rfl
@[simp] theorem up_results (f : Fld) (i j : Nat) : (s.up f i j).results = s.results := rfl
@[simp] theorem up_held (f : Fld) (i j : Nat) : (s.up f i j).held = s.held := rfl

/-! `down` changes `regs` only. -/
@[simp] theorem down_pending (f : Fld) (i j : Nat) : (s.down f i j).pending = s.pending := rfl
@[simp] theorem down_time (f : Fld) (i j : Nat) : (s.down f i j).time = s.time := rfl
@[simp] theorem down_free (f : Fld) (i j : Nat) : (s.down f i j).free = s.free := rfl
@[simp] theorem down_queues (f : Fld) (i j : Nat) : (s.down f i j).queues = s.queues := rfl
@[simp] theorem down_mem (f : Fld) (i j : Nat) : (s.down f i j).mem = s.mem := rfl
@[simp] theorem down_bad (f : Fld) (i j : Nat) : (s.down f i j).bad = s.bad := rfl
@[simp] theorem down_resp (f : Fld) (i j : Nat) : (s.down f i j).resp = s.resp := rfl
@[simp] theorem down_events (f : Fld) (i j : Nat) : (s.down f i j).events = s.events := rfl
@[simp] theorem down_stores (f : Fld) (i j : Nat) : (s.down f i j).stores = s.stores := rfl
@[simp] theorem down_shadows (f : Fld) (i j : Nat) : (s.down f i j).shadows = s.shadows := rfl
@[simp] theorem down_results (f : Fld) (i j : Nat) : (s.down f i j).results = s.results := rfl
@[simp] theorem down_held (f : Fld) (i j : Nat) : (s.down f i j).held = s.held := rfl

/-! `wrb` changes `regs` only. -/
@[simp] theorem wrb_pending (f : Fld) (b : Bool) (i j : Nat) : (s.wrb f b i j).pending = s.pending := rfl
@[simp] theorem wrb_time (f : Fld) (b : Bool) (i j : Nat) : (s.wrb f b i j).time = s.time := rfl
@[simp] theorem wrb_free (f : Fld) (b : Bool) (i j : Nat) : (s.wrb f b i j).free = s.free := rfl
@[simp] theorem wrb_queues (f : Fld) (b : Bool) (i j : Nat) : (s.wrb f b i j).queues = s.queues := rfl
@[simp] theorem wrb_mem (f : Fld) (b : Bool) (i j : Nat) : (s.wrb f b i j).mem = s.mem := rfl
@[simp] theorem wrb_bad (f : Fld) (b : Bool) (i j : Nat) : (s.wrb f b i j).bad = s.bad := rfl
@[simp] theorem wrb_resp (f : Fld) (b : Bool) (i j : Nat) : (s.wrb f b i j).resp = s.resp := rfl
@[simp] theorem wrb_events (f : Fld) (b : Bool) (i j : Nat) : (s.wrb f b i j).events = s.events := rfl
@[simp] theorem wrb_stores (f : Fld) (b : Bool) (i j : Nat) : (s.wrb f b i j).stores = s.stores := rfl
@[simp] theorem wrb_shadows (f : Fld) (b : Bool) (i j : Nat) : (s.wrb f b i j).shadows = s.shadows := rfl
@[simp] theorem wrb_results (f : Fld) (b : Bool) (i j : Nat) : (s.wrb f b i j).results = s.results := rfl
@[simp] theorem wrb_held (f : Fld) (b : Bool) (i j : Nat) : (s.wrb f b i j).held = s.held := rfl

/-! `bumpBy` changes `regs` only. -/
@[simp] theorem bumpBy_pending (f : Fld) (n i j : Nat) : (s.bumpBy f n i j).pending = s.pending := rfl
@[simp] theorem bumpBy_time (f : Fld) (n i j : Nat) : (s.bumpBy f n i j).time = s.time := rfl
@[simp] theorem bumpBy_free (f : Fld) (n i j : Nat) : (s.bumpBy f n i j).free = s.free := rfl
@[simp] theorem bumpBy_queues (f : Fld) (n i j : Nat) : (s.bumpBy f n i j).queues = s.queues := rfl
@[simp] theorem bumpBy_mem (f : Fld) (n i j : Nat) : (s.bumpBy f n i j).mem = s.mem := rfl
@[simp] theorem bumpBy_bad (f : Fld) (n i j : Nat) : (s.bumpBy f n i j).bad = s.bad := rfl
@[simp] theorem bumpBy_resp (f : Fld) (n i j : Nat) : (s.bumpBy f n i j).resp = s.resp := rfl
@[simp] theorem bumpBy_events (f : Fld) (n i j : Nat) : (s.bumpBy f n i j).events = s.events := rfl
@[simp] theorem bumpBy_stores (f : Fld) (n i j : Nat) : (s.bumpBy f n i j).stores = s.stores := rfl
@[simp] theorem bumpBy_shadows (f : Fld) (n i j : Nat) : (s.bumpBy f n i j).shadows = s.shadows := rfl
@[simp] theorem bumpBy_results (f : Fld) (n i j : Nat) : (s.bumpBy f n i j).results = s.results := rfl
@[simp] theorem bumpBy_held (f : Fld) (n i j : Nat) : (s.bumpBy f n i j).held = s.held := rfl

/-! `bump` changes `regs` only. -/
@[simp] theorem bump_pending (f : Fld) (i j : Nat) : (s.bump f i j).pending = s.pending := rfl
@[simp] theorem bump_time (f : Fld) (i j : Nat) : (s.bump f i j).time = s.time := rfl
@[simp] theorem bump_free (f : Fld) (i j : Nat) : (s.bump f i j).free = s.free := rfl
@[simp] theorem bump_queues (f : Fld) (i j : Nat) : (s.bump f i j).queues = s.queues := rfl
@[simp] theorem bump_mem (f : Fld) (i j : Nat) : (s.bump f i j).mem = s.mem := rfl
@[simp] theorem bump_bad (f : Fld) (i j : Nat) : (s.bump f i j).bad = s.bad := rfl
@[simp] theorem bump_resp (f : Fld) (i j : Nat) : (s.bump f i j).resp = s.resp := rfl
@[simp] theorem bump_events (f : Fld) (i j : Nat) : (s.bump f i j).events = s.events := rfl
@[simp] theorem bump_stores (f : Fld) (i j : Nat) : (s.bump f i j).stores = s.stores := rfl
@[simp] theorem bump_shadows (f : Fld) (i j : Nat) : (s.bump f i j).shadows = s.shadows := rfl
@[simp] theorem bump_results (f : Fld) (i j : Nat) : (s.bump f i j).results = s.results := rfl
@[simp] theorem bump_held (f : Fld) (i j : Nat) : (s.bump f i j).held = s.held := rfl

/-! `peak` changes `regs` only. -/
@[simp] theorem peak_pending (f : Fld) (v i j : Nat) : (s.peak f v i j).pending = s.pending := rfl
@[simp] theorem peak_time (f : Fld) (v i j : Nat) : (s.peak f v i j).time = s.time := rfl
@[simp] theorem peak_free (f : Fld) (v i j : Nat) : (s.peak f v i j).free = s.free := rfl
@[simp] theorem peak_queues (f : Fld) (v i j : Nat) : (s.peak f v i j).queues = s.queues := rfl
@[simp] theorem peak_mem (f : Fld) (v i j : Nat) : (s.peak f v i j).mem = s.mem := rfl
@[simp] theorem peak_bad (f : Fld) (v i j : Nat) : (s.peak f v i j).bad = s.bad := rfl
@[simp] theorem peak_resp (f : Fld) (v i j : Nat) : (s.peak f v i j).resp = s.resp := rfl
@[simp] theorem peak_events (f : Fld) (v i j : Nat) : (s.peak f v i j).events = s.events := rfl
@[simp] theorem peak_stores (f : Fld) (v i j : Nat) : (s.peak f v i j).stores = s.stores := rfl
@[simp] theorem peak_shadows (f : Fld) (v i j : Nat) : (s.peak f v i j).shadows = s.shadows := rfl
@[simp] theorem peak_results (f : Fld) (v i j : Nat) : (s.peak f v i j).results = s.results := rfl
@[simp] theorem peak_held (f : Fld) (v i j : Nat) : (s.peak f v i j).held = s.held := rfl

/-! `setq` changes `queues` only. -/
@[simp] theorem setq_pending (f : Nat) (l : List Nat) (i j : Nat) : (s.setq f l i j).pending = s.pending := rfl
@[simp] theorem setq_time (f : Nat) (l : List Nat) (i j : Nat) : (s.setq f l i j).time = s.time := rfl
@[simp] theorem setq_free (f : Nat) (l : List Nat) (i j : Nat) : (s.setq f l i j).free = s.free := rfl
@[simp] theorem setq_regs (f : Nat) (l : List Nat) (i j : Nat) : (s.setq f l i j).regs = s.regs := rfl
@[simp] theorem setq_mem (f : Nat) (l : List Nat) (i j : Nat) : (s.setq f l i j).mem = s.mem := rfl
@[simp] theorem setq_bad (f : Nat) (l : List Nat) (i j : Nat) : (s.setq f l i j).bad = s.bad := rfl
@[simp] theorem setq_resp (f : Nat) (l : List Nat) (i j : Nat) : (s.setq f l i j).resp = s.resp := rfl
@[simp] theorem setq_events (f : Nat) (l : List Nat) (i j : Nat) : (s.setq f l i j).events = s.events := rfl
@[simp] theorem setq_stores (f : Nat) (l : List Nat) (i j : Nat) : (s.setq f l i j).stores = s.stores := rfl
@[simp] theorem setq_shadows (f : Nat) (l : List Nat) (i j : Nat) : (s.setq f l i j).shadows = s.shadows := rfl
@[simp] theorem setq_results (f : Nat) (l : List Nat) (i j : Nat) : (s.setq f l i j).results = s.results := rfl
@[simp] theorem setq_held (f : Nat) (l : List Nat) (i j : Nat) : (s.setq f l i j).held = s.held := rfl

/-! `pushq` changes `queues` only. -/
@[simp] theorem pushq_pending (f v i j : Nat) : (s.pushq f v i j).pending = s.pending := rfl
@[simp] theorem pushq_time (f v i j : Nat) : (s.pushq f v i j).time = s.time := rfl
@[simp] theorem pushq_free (f v i j : Nat) : (s.pushq f v i j).free = s.free := rfl
@[simp] theorem pushq_regs (f v i j : Nat) : (s.pushq f v i j).regs = s.regs := rfl
@[simp] theorem pushq_mem (f v i j : Nat) : (s.pushq f v i j).mem = s.mem := rfl
@[simp] theorem pushq_bad (f v i j : Nat) : (s.pushq f v i j).bad = s.bad := rfl
@[simp] theorem pushq_resp (f v i j : Nat) : (s.pushq f v i j).resp = s.resp := rfl
@[simp] theorem pushq_events (f v i j : Nat) : (s.pushq f v i j).events = s.events := rfl
@[simp] theorem pushq_stores (f v i j : Nat) : (s.pushq f v i j).stores = s.stores := rfl
@[simp] theorem pushq_shadows (f v i j : Nat) : (s.pushq f v i j).shadows = s.shadows := rfl
@[simp] theorem pushq_results (f v i j : Nat) : (s.pushq f v i j).results = s.results := rfl
@[simp] theorem pushq_held (f v i j : Nat) : (s.pushq f v i j).held = s.held := rfl

/-! `setByte` changes `mem` only. -/
@[simp] theorem setByte_pending (a : Nat) (b : Byte) : (s.setByte a b).pending = s.pending := rfl
@[simp] theorem setByte_time (a : Nat) (b : Byte) : (s.setByte a b).time = s.time := rfl
@[simp] theorem setByte_free (a : Nat) (b : Byte) : (s.setByte a b).free = s.free := rfl
@[simp] theorem setByte_regs (a : Nat) (b : Byte) : (s.setByte a b).regs = s.regs := rfl
@[simp] theorem setByte_queues (a : Nat) (b : Byte) : (s.setByte a b).queues = s.queues := rfl
@[simp] theorem setByte_bad (a : Nat) (b : Byte) : (s.setByte a b).bad = s.bad := rfl
@[simp] theorem setByte_resp (a : Nat) (b : Byte) : (s.setByte a b).resp = s.resp := rfl
@[simp] theorem setByte_events (a : Nat) (b : Byte) : (s.setByte a b).events = s.events := rfl
@[simp] theorem setByte_stores (a : Nat) (b : Byte) : (s.setByte a b).stores = s.stores := rfl
@[simp] theorem setByte_shadows (a : Nat) (b : Byte) : (s.setByte a b).shadows = s.shadows := rfl
@[simp] theorem setByte_results (a : Nat) (b : Byte) : (s.setByte a b).results = s.results := rfl
@[simp] theorem setByte_held (a : Nat) (b : Byte) : (s.setByte a b).held = s.held := rfl

/-! `spoil` changes `bad` only. -/
@[simp] theorem spoil_pending (a : Nat) : (s.spoil a).pending = s.pending := rfl
@[simp] theorem spoil_time (a : Nat) : (s.spoil a).time = s.time := rfl
@[simp] theorem spoil_free (a : Nat) : (s.spoil a).free = s.free := rfl
@[simp] theorem spoil_regs (a : Nat) : (s.spoil a).regs = s.regs := rfl
@[simp] theorem spoil_queues (a : Nat) : (s.spoil a).queues = s.queues := rfl
@[simp] theorem spoil_mem (a : Nat) : (s.spoil a).mem = s.mem := rfl
@[simp] theorem spoil_resp (a : Nat) : (s.spoil a).resp = s.resp := rfl
@[simp] theorem spoil_events (a : Nat) : (s.spoil a).events = s.events := rfl
@[simp] theorem spoil_stores (a : Nat) : (s.spoil a).stores = s.stores := rfl
@[simp] theorem spoil_shadows (a : Nat) : (s.spoil a).shadows = s.shadows := rfl
@[simp] theorem spoil_results (a : Nat) : (s.spoil a).results = s.results := rfl
@[simp] theorem spoil_held (a : Nat) : (s.spoil a).held = s.held := rfl

/-! `heal` changes `bad` only. -/
@[simp] theorem heal_pending (a : Nat) : (s.heal a).pending = s.pending := rfl
@[simp] theorem heal_time (a : Nat) : (s.heal a).time = s.time := rfl
@[simp] theorem heal_free (a : Nat) : (s.heal a).free = s.free := rfl
@[simp] theorem heal_regs (a : Nat) : (s.heal a).regs = s.regs := rfl
@[simp] theorem heal_queues (a : Nat) : (s.heal a).queues = s.queues := rfl
@[simp] theorem heal_mem (a : Nat) : (s.heal a).mem = s.mem := rfl
@[simp] theorem heal_resp (a : Nat) : (s.heal a).resp = s.resp := rfl
@[simp] theorem heal_events (a : Nat) : (s.heal a).events = s.events := rfl
@[simp] theorem heal_stores (a : Nat) : (s.heal a).stores = s.stores := rfl
@[simp] theorem heal_shadows (a : Nat) : (s.heal a).shadows = s.shadows := rfl
@[simp] theorem heal_results (a : Nat) : (s.heal a).results = s.results := rfl
@[simp] theorem heal_held (a : Nat) : (s.heal a).held = s.held := rfl

/-! `healRange` changes `bad` only. -/
@[simp] theorem healRange_pending (a n : Nat) : (s.healRange a n).pending = s.pending := rfl
@[simp] theorem healRange_time (a n : Nat) : (s.healRange a n).time = s.time := rfl
@[simp] theorem healRange_free (a n : Nat) : (s.healRange a n).free = s.free := rfl
@[simp] theorem healRange_regs (a n : Nat) : (s.healRange a n).regs = s.regs := rfl
@[simp] theorem healRange_queues (a n : Nat) : (s.healRange a n).queues = s.queues := rfl
@[simp] theorem healRange_mem (a n : Nat) : (s.healRange a n).mem = s.mem := rfl
@[simp] theorem healRange_resp (a n : Nat) : (s.healRange a n).resp = s.resp := rfl
@[simp] theorem healRange_events (a n : Nat) : (s.healRange a n).events = s.events := rfl
@[simp] theorem healRange_stores (a n : Nat) : (s.healRange a n).stores = s.stores := rfl
@[simp] theorem healRange_shadows (a n : Nat) : (s.healRange a n).shadows = s.shadows := rfl
@[simp] theorem healRange_results (a n : Nat) : (s.healRange a n).results = s.results := rfl
@[simp] theorem healRange_held (a n : Nat) : (s.healRange a n).held = s.held := rfl

/-! `answer` changes `resp` only. -/
@[simp] theorem answer_pending (c : Code) (data : Nat) : (s.answer c data).pending = s.pending := rfl
@[simp] theorem answer_time (c : Code) (data : Nat) : (s.answer c data).time = s.time := rfl
@[simp] theorem answer_free (c : Code) (data : Nat) : (s.answer c data).free = s.free := rfl
@[simp] theorem answer_regs (c : Code) (data : Nat) : (s.answer c data).regs = s.regs := rfl
@[simp] theorem answer_queues (c : Code) (data : Nat) : (s.answer c data).queues = s.queues := rfl
@[simp] theorem answer_mem (c : Code) (data : Nat) : (s.answer c data).mem = s.mem := rfl
@[simp] theorem answer_bad (c : Code) (data : Nat) : (s.answer c data).bad = s.bad := rfl
@[simp] theorem answer_events (c : Code) (data : Nat) : (s.answer c data).events = s.events := rfl
@[simp] theorem answer_stores (c : Code) (data : Nat) : (s.answer c data).stores = s.stores := rfl
@[simp] theorem answer_shadows (c : Code) (data : Nat) : (s.answer c data).shadows = s.shadows := rfl
@[simp] theorem answer_results (c : Code) (data : Nat) : (s.answer c data).results = s.results := rfl
@[simp] theorem answer_held (c : Code) (data : Nat) : (s.answer c data).held = s.held := rfl

/-! `answerDup` changes `resp` only. -/
@[simp] theorem answerDup_pending : (s.answerDup).pending = s.pending := rfl
@[simp] theorem answerDup_time : (s.answerDup).time = s.time := rfl
@[simp] theorem answerDup_free : (s.answerDup).free = s.free := rfl
@[simp] theorem answerDup_regs : (s.answerDup).regs = s.regs := rfl
@[simp] theorem answerDup_queues : (s.answerDup).queues = s.queues := rfl
@[simp] theorem answerDup_mem : (s.answerDup).mem = s.mem := rfl
@[simp] theorem answerDup_bad : (s.answerDup).bad = s.bad := rfl
@[simp] theorem answerDup_events : (s.answerDup).events = s.events := rfl
@[simp] theorem answerDup_stores : (s.answerDup).stores = s.stores := rfl
@[simp] theorem answerDup_shadows : (s.answerDup).shadows = s.shadows := rfl
@[simp] theorem answerDup_results : (s.answerDup).results = s.results := rfl
@[simp] theorem answerDup_held : (s.answerDup).held = s.held := rfl

/-! `drew` changes `free` only. -/
@[simp] theorem drew_pending : (s.drew).pending = s.pending := rfl
@[simp] theorem drew_time : (s.drew).time = s.time := rfl
@[simp] theorem drew_regs : (s.drew).regs = s.regs := rfl
@[simp] theorem drew_queues : (s.drew).queues = s.queues := rfl
@[simp] theorem drew_mem : (s.drew).mem = s.mem := rfl
@[simp] theorem drew_bad : (s.drew).bad = s.bad := rfl
@[simp] theorem drew_resp : (s.drew).resp = s.resp := rfl
@[simp] theorem drew_events : (s.drew).events = s.events := rfl
@[simp] theorem drew_stores : (s.drew).stores = s.stores := rfl
@[simp] theorem drew_shadows : (s.drew).shadows = s.shadows := rfl
@[simp] theorem drew_results : (s.drew).results = s.results := rfl
@[simp] theorem drew_held : (s.drew).held = s.held := rfl

/-! The register file. -/

@[simp] theorem rd_wr_self (f : Fld) (v i j : Nat) : (s.wr f v i j).rd f i j = v % 2 ^ f.w := by
  unfold rd wr; rw [lookupD_setKey_self, Nat.mod_mod]

theorem rd_lt (f : Fld) (i j : Nat) : s.rd f i j < 2 ^ f.w := Nat.mod_lt _ (Nat.two_pow_pos _)

theorem rd_wr_key (f g : Fld) (v i j i' j' : Nat) (h : (⟨g.id, i', j'⟩ : Key) ≠ ⟨f.id, i, j⟩) :
    (s.wr f v i j).rd g i' j' = s.rd g i' j' := congrArg (· % 2 ^ g.w) (lookupD_setKey_ne _ _ h _ _ _)

theorem rd_wr_id {f g : Fld} (v i j i' j' : Nat) (h : g.id ≠ f.id) : (s.wr f v i j).rd g i' j' = s.rd g i' j' :=
  s.rd_wr_key _ _ _ _ _ _ _ fun e => h (congrArg Key.f e)

theorem rd_wr_i (f g : Fld) {i i' : Nat} (v j j' : Nat) (h : i' ≠ i) : (s.wr f v i j).rd g i' j' = s.rd g i' j' :=
  s.rd_wr_key _ _ _ _ _ _ _ fun e => h (congrArg Key.i e)

theorem rd_wr_j (f g : Fld) {j j' : Nat} (v i i' : Nat) (h : j' ≠ j) : (s.wr f v i j).rd g i' j' = s.rd g i' j' :=
  s.rd_wr_key _ _ _ _ _ _ _ fun e => h (congrArg Key.j e)

theorem rd_congr {s t : State} (h : t.regs = s.regs) (f : Fld) (i j : Nat) : t.rd f i j = s.rd f i j := by
  unfold rd; rw [h]

@[simp] theorem rd_up_self (f : Fld) (i j : Nat) : (s.up f i j).rd f i j = 1 % 2 ^ f.w := rd_wr_self ..

@[simp] theorem rd_down_self (f : Fld) (i j : Nat) : (s.down f i j).rd f i j = 0 := (rd_wr_self ..).trans (Nat.zero_mod _)

@[simp] theorem rd_setq (f : Nat) (l : List Nat) (i j : Nat) (g : Fld) (i' j' : Nat) :
    (s.setq f l i j).rd g i' j' = s.rd g i' j' := rfl

@[simp] theorem rd_setByte (a : Nat) (b : Byte) (g : Fld) (i j : Nat) : (s.setByte a b).rd g i j = s.rd g i j := rfl

@[simp] theorem rd_answer (c : Code) (d : Nat) (g : Fld) (i j : Nat) : (s.answer c d).rd g i j = s.rd g i j := rfl

/-! The queues. -/

@[simp] theorem q_setq_self (f : Nat) (l : List Nat) (i j : Nat) : (s.setq f l i j).q f i j = l :=
  lookupD_setKey_self _ _ _ _ _

theorem q_setq_ne (f f' : Nat) (l : List Nat) (i j i' j' : Nat) (h : (⟨f', i', j'⟩ : Key) ≠ ⟨f, i, j⟩) :
    (s.setq f l i j).q f' i' j' = s.q f' i' j' := lookupD_setKey_ne _ _ h _ _ _

@[simp] theorem q_wr (f : Fld) (v i j f' i' j' : Nat) : (s.wr f v i j).q f' i' j' = s.q f' i' j' := rfl

@[simp] theorem q_setByte (a : Nat) (b : Byte) (f i j : Nat) : (s.setByte a b).q f i j = s.q f i j := rfl

@[simp] theorem q_pushq_self (f v i j : Nat) : (s.pushq f v i j).q f i j = s.q f i j ++ [v] := q_setq_self ..

/-! Memory. -/

@[simp] theorem byte_setByte_self (a : Nat) (b : Byte) : (s.setByte a b).byte a = b := lookupD_setKey_self _ _ _ _ _

theorem byte_setByte_ne {a x : Nat} (b : Byte) (h : x ≠ a) : (s.setByte a b).byte x = s.byte x :=
  lookupD_setKey_ne _ _ h _ _ _

@[simp] theorem byte_wr (f : Fld) (v i j x : Nat) : (s.wr f v i j).byte x = s.byte x := rfl

@[simp] theorem byte_setq (f : Nat) (l : List Nat) (i j x : Nat) : (s.setq f l i j).byte x = s.byte x := rfl

theorem byte_congr {s t : State} (h : t.mem = s.mem) (x : Nat) : t.byte x = s.byte x := by unfold byte; rw [h]

/-- Writing bytes from `a` on touches no byte outside them. -/
theorem byte_setBytes_out {l : List Byte} {a x : Nat} (h : x < a ∨ a + l.length ≤ x) : (s.setBytes a l).byte x = s.byte x := by
  induction l generalizing s a with
  | nil => rfl
  | cons b r ih =>
    have hl : (b :: r).length = r.length + 1 := rfl
    exact (ih _ (by omega)).trans (s.byte_setByte_ne b (by omega))

/-- Byte `k` of the bytes written from `a` on. -/
theorem byte_setBytes_in {l : List Byte} {a k : Nat} (h : k < l.length) : (s.setBytes a l).byte (a + k) = l[k] := by
  induction l generalizing s a k with
  | nil => exact absurd h (Nat.not_lt_zero _)
  | cons b r ih =>
    cases k with
    | zero => exact ((s.setByte a b).byte_setBytes_out (Or.inl (by omega))).trans (s.byte_setByte_self a b)
    | succ k =>
      have := ih (s.setByte a b) (a := a + 1) (k := k) (Nat.lt_of_succ_lt_succ h)
      rw [show a + (k + 1) = a + 1 + k by omega]
      exact this

/-- What no write of bytes touches. -/
theorem setBytes_rest (a : Nat) (l : List Byte) :
    (s.setBytes a l).pending = s.pending ∧ (s.setBytes a l).regs = s.regs ∧ (s.setBytes a l).queues = s.queues ∧
      (s.setBytes a l).time = s.time ∧ (s.setBytes a l).bad = s.bad ∧ (s.setBytes a l).resp = s.resp ∧
      (s.setBytes a l).events = s.events ∧ (s.setBytes a l).stores = s.stores ∧ (s.setBytes a l).free = s.free ∧
      (s.setBytes a l).held = s.held := by
  induction l generalizing s a with
  | nil => exact ⟨rfl, rfl, rfl, rfl, rfl, rfl, rfl, rfl, rfl, rfl⟩
  | cons b r ih => exact ih (s.setByte a b) (a + 1)

end Sys2Proof.Machine.State
end

