-- ==== Sys2Proof/Laws/Flits.lean ====
section
/-!
SUPPORT. What a flit that leaves and an event that is posted change: the retry buffer and the next SEQ of one link end, and for an event the
list of the events on their way.
-/
namespace Sys2Proof.Machine
variable (s : State)

/-! A flit changes the register file and the queues only. -/

@[simp] theorem sendFlit_pending (e : Nat) (d : Draft) : (sendFlit s e d).pending = s.pending := rfl
@[simp] theorem sendFlit_time (e : Nat) (d : Draft) : (sendFlit s e d).time = s.time := rfl
@[simp] theorem sendFlit_free (e : Nat) (d : Draft) : (sendFlit s e d).free = s.free := rfl
@[simp] theorem sendFlit_mem (e : Nat) (d : Draft) : (sendFlit s e d).mem = s.mem := rfl
@[simp] theorem sendFlit_bad (e : Nat) (d : Draft) : (sendFlit s e d).bad = s.bad := rfl
@[simp] theorem sendFlit_resp (e : Nat) (d : Draft) : (sendFlit s e d).resp = s.resp := rfl
@[simp] theorem sendFlit_stores (e : Nat) (d : Draft) : (sendFlit s e d).stores = s.stores := rfl
@[simp] theorem sendFlit_shadows (e : Nat) (d : Draft) : (sendFlit s e d).shadows = s.shadows := rfl
@[simp] theorem sendFlit_results (e : Nat) (d : Draft) : (sendFlit s e d).results = s.results := rfl
@[simp] theorem sendFlit_held (e : Nat) (d : Draft) : (sendFlit s e d).held = s.held := rfl
@[simp] theorem sendFlit_events (e : Nat) (d : Draft) : (sendFlit s e d).events = s.events := rfl

@[simp] theorem sendFlit_seq (e : Nat) (d : Draft) : (sendFlit s e d).rd F.LK_TXSEQ e = (s.rd F.LK_TXSEQ e + 1) % 256 := State.rd_wr_self ..

theorem sendFlit_rd (e : Nat) (d : Draft) {g : Fld} (h : g.id ≠ F.LK_TXSEQ.id) (i j : Nat) :
    (sendFlit s e d).rd g i j = s.rd g i j := by
  unfold sendFlit; rw [State.rd_wr_id _ _ _ _ _ _ h]; rfl

theorem sendFlit_q (e : Nat) (d : Draft) {f : Nat} (h : f ≠ Q.retry) (i j : Nat) : (sendFlit s e d).q f i j = s.q f i j :=
  State.q_setq_ne _ _ _ _ _ _ _ _ fun k => h (congrArg Key.f k)

/-- One flit more stands in the sender's buffer; those before it stay as they are (R24). -/
theorem sendFlit_retry (e : Nat) (d : Draft) : ∃ f, (sendFlit s e d).q Q.retry e = s.q Q.retry e ++ [f] :=
  ⟨_, State.q_pushq_self ..⟩

/-! An event changes the list of events, and where it crosses a link the flits of that link. -/

@[simp] theorem post_events (ev : Nat) : (s.post ev).events = s.events ++ [ev] := by
  unfold State.post; dsimp only; split
  · split <;> rfl
  · rfl

@[simp] theorem post_pending (ev : Nat) : (s.post ev).pending = s.pending := by
  unfold State.post; dsimp only; split
  · split <;> rfl
  · rfl

@[simp] theorem post_time (ev : Nat) : (s.post ev).time = s.time := by
  unfold State.post; dsimp only; split
  · split <;> rfl
  · rfl

@[simp] theorem post_free (ev : Nat) : (s.post ev).free = s.free := by
  unfold State.post; dsimp only; split
  · split <;> rfl
  · rfl

@[simp] theorem post_mem (ev : Nat) : (s.post ev).mem = s.mem := by
  unfold State.post; dsimp only; split
  · split <;> rfl
  · rfl

@[simp] theorem post_bad (ev : Nat) : (s.post ev).bad = s.bad := by
  unfold State.post; dsimp only; split
  · split <;> rfl
  · rfl

@[simp] theorem post_resp (ev : Nat) : (s.post ev).resp = s.resp := by
  unfold State.post; dsimp only; split
  · split <;> rfl
  · rfl

@[simp] theorem post_stores (ev : Nat) : (s.post ev).stores = s.stores := by
  unfold State.post; dsimp only; split
  · split <;> rfl
  · rfl

@[simp] theorem post_shadows (ev : Nat) : (s.post ev).shadows = s.shadows := by
  unfold State.post; dsimp only; split
  · split <;> rfl
  · rfl

@[simp] theorem post_results (ev : Nat) : (s.post ev).results = s.results := by
  unfold State.post; dsimp only; split
  · split <;> rfl
  · rfl

@[simp] theorem post_held (ev : Nat) : (s.post ev).held = s.held := by
  unfold State.post; dsimp only; split
  · split <;> rfl
  · rfl

theorem post_rd (ev : Nat) {g : Fld} (h : g.id ≠ F.LK_TXSEQ.id) (i j : Nat) : (s.post ev).rd g i j = s.rd g i j := by
  unfold State.post; dsimp only; split
  · split
    · rw [sendFlit_rd _ _ _ h]; rfl
    · rfl
  · rfl

theorem post_q (ev : Nat) {f : Nat} (h : f ≠ Q.retry) (i j : Nat) : (s.post ev).q f i j = s.q f i j := by
  unfold State.post; dsimp only; split
  · split
    · rw [sendFlit_q _ _ _ h]; rfl
    · rfl
  · rfl

end Sys2Proof.Machine
end

