-- ==== Sys2Proof/Laws/Keeps.lean ====
section
/-!
SUPPORT. What every operation of the device can do to the register file, the queues, memory and the queue of waiting
commands, said once: it changes only what its footprint names.

A footprint is a number: bit `n` below 1399 is the field with number `n` (Sys2Proof/Machine/Regs.lean; no field has a greater one), bit `1400 + n` queue `n`
(`Q`), bit 1500 memory and its failed words, bit 1501 every field and queue that
is not kept until power-on (`Home.kept`), as a reset of a die or a domain clears them. `Keeps bad P` says that `P` survives every primitive change but those that `bad`
names. For every operation `f` of the model a lemma `f_keeps` in Sys2Proof/Laws/Keeps*.lean says that `f` keeps `P` where the
footprint of `f` and `bad` have no bit in common (`Off`). `keeps_canon`, `keeps_pending`, `keeps_rd`, `keeps_q` and `keeps_mem` are
the uses: the canonical form of the state, the queue of waiting commands that no command touches, a field, a queue and memory
that an operation leaves alone because its footprint lacks them.
-/
namespace Sys2Proof.Machine

/-- The footprint of an operation that can change any field and any queue. -/
def fpRegs : Nat :=
  0xFFFFFFFFFFFFFFFFFFFFFFFFFFFFFFFFFFFFFFFFFFFFFFFFFFFFFFFFFFFFFFFFFFFFFFFFFFFFFFFFFFFFFFFFFFFFFFFFFFFFFFFFFFFFFFFFFFFFFFFFFFFFFFFFFFFFFFFFFFFFFFFFFFFFFFFFFFFFFFFFFFFFFFFFFFFFFFFFFFFFFFFFFFFFFFFFFFFFFFFFFFFFFFFFFFFFFFFFFFFFFFFFFFFFFFFFFFFFFFFFFFFFFFFFFFFFFFFFFFFFFFFFFFFFFFFFFFFFFFFFFFFFFFFFFFFFFFFFFFFFFFFFFFFFFFFFFFFFFFFFFFFFFFFFFFFFFFFFFFFFFFFFFFFFFFFFFFFFFFFFFFFFFFFFFFFFFFF

/-- The footprint of an operation that can change memory too, and resets. -/
def fpAll : Nat :=
  0x3FFFFFFFFFFFFFFFFFFFFFFFFFFFFFFFFFFFFFFFFFFFFFFFFFFFFFFFFFFFFFFFFFFFFFFFFFFFFFFFFFFFFFFFFFFFFFFFFFFFFFFFFFFFFFFFFFFFFFFFFFFFFFFFFFFFFFFFFFFFFFFFFFFFFFFFFFFFFFFFFFFFFFFFFFFFFFFFFFFFFFFFFFFFFFFFFFFFFFFFFFFFFFFFFFFFFFFFFFFFFFFFFFFFFFFFFFFFFFFFFFFFFFFFFFFFFFFFFFFFFFFFFFFFFFFFFFFFFFFFFFFFFFFFFFFFFFFFFFFFFFFFFFFFFFFFFFFFFFFFFFFFFFFFFFFFFFFFFFFFFFFFFFFFFFFFFFFFFFFFFFFFFFFFFFFFFFFF

/-- The footprint `fp` has no bit of `bad`. -/
def Off (fp bad : Nat) : Prop := fp &&& bad = 0

/-- The footprint `g` lies in the footprint `f`. -/
def fpLe (g f : Nat) : Bool := (g ||| f).beq f

theorem off_sub {g f bad : Nat} (h : fpLe g f = true) (hb : Off f bad) : Off g bad := by
  have h' : g ||| f = f := Nat.eq_of_beq_eq_true h
  refine Nat.eq_of_testBit_eq fun i => ?_
  have e := congrArg (fun x => x.testBit i) h'
  have b := congrArg (fun x => x.testBit i) hb
  simp only [Nat.testBit_or, Nat.testBit_and, Nat.zero_testBit] at e b ⊢
  revert e b
  cases g.testBit i <;> cases f.testBit i <;> cases bad.testBit i <;> simp

theorem off_bit {f bad n : Nat} (h : f.testBit n = true) (hb : Off f bad) : bad.testBit n = false := by
  have b := congrArg (fun x => x.testBit n) hb
  simp only [Nat.testBit_and, h, Bool.true_and, Nat.zero_testBit] at b
  exact b

/-- The number whose one bit is bit `n`: what names field `n`, queue `n - 1400`, memory (1500) or resets (1501). -/
@[irreducible] def bitOf (n : Nat) : Nat := 2 ^ n

theorem testBit_bitOf (n k : Nat) : (bitOf n).testBit k = decide (n = k) := by
  unfold bitOf; exact Nat.testBit_two_pow

theorem off_zero (fp : Nat) : Off fp 0 := Nat.and_zero fp

/-- A footprint that lacks one bit. -/
theorem off_one {fp n : Nat} (h : fp.testBit n = false) : Off fp (bitOf n) := by
  refine Nat.eq_of_testBit_eq fun i => ?_
  rw [Nat.testBit_and, testBit_bitOf, Nat.zero_testBit]
  by_cases e : n = i
  · subst e; rw [h]; rfl
  · simp [e]

theorem ones_bit {w n : Nat} (h : n < w) : (bitOf w - 1).testBit n = true := by
  unfold bitOf; rw [Nat.testBit_two_pow_sub_one]; exact decide_eq_true h

theorem fpRegs_eq : fpRegs = bitOf 1500 - 1 := by unfold bitOf; decide +kernel

theorem fpRegs_bit {n : Nat} (h : n < 1500) : fpRegs.testBit n = true := by rw [fpRegs_eq]; exact ones_bit h

theorem own_bit {n : Nat} (h : (bitOf n).testBit n = false) : False := by
  rw [testBit_bitOf, decide_eq_true rfl] at h; cases h

/-- The bit of a footprint that stands for field number `n`. -/
def slot (n : Nat) : Nat := bif n.ble 1399 then n else 1399

theorem slot_le (n : Nat) : slot n ≤ 1399 := by
  unfold slot; cases h : n.ble 1399
  · exact Nat.le_refl _
  · exact Nat.le_of_ble_eq_true h

theorem slot_inj {m n : Nat} (h : slot m = n) (hn : n < 1399) : m = n := by
  unfold slot at h
  cases hm : m.ble 1399 <;> rw [hm] at h
  · exact absurd h.symm (Nat.ne_of_lt hn)
  · exact h

theorem off_any {bad n : Nat} (hb : Off fpRegs bad) : bad.testBit (slot n) = false :=
  off_bit (fpRegs_bit (Nat.lt_of_le_of_lt (slot_le n) (by decide))) hb

theorem both_bit {m n : Nat} (h : (bitOf n ||| bitOf m).testBit n = false) : False := by
  rw [Nat.testBit_or, testBit_bitOf n, decide_eq_true rfl] at h; cases h

theorem both_bit' {m n : Nat} (h : (bitOf n ||| bitOf m).testBit m = false) : False := by
  rw [Nat.testBit_or, testBit_bitOf m, decide_eq_true rfl, Bool.or_true] at h; cases h

/-- A footprint that lacks one bit and resets nothing. -/
theorem off_two {fp m n : Nat} (h : fp.testBit n = false) (h' : fp.testBit m = false) : Off fp (bitOf n ||| bitOf m) := by
  have a := off_one h
  have b := off_one h'
  unfold Off at *
  rw [Nat.and_or_distrib_left, a, b]; rfl

/-- `P` survives every primitive change that `bad` does not name: a write of a field, of a queue, of a byte, a word that fails
or is dropped from the failed ones, dropping entries (a reset or a loss of power), and any change of the other parts. -/
structure Keeps (bad : Nat) (P : State → Prop) : Prop where
  frame : ∀ {s t : State}, P s → t.pending = s.pending → t.regs = s.regs → t.queues = s.queues → t.mem = s.mem →
    t.bad = s.bad → P t
  wr : ∀ {s : State} (f : Fld) (v i j : Nat), bad.testBit (slot f.id) = false → P s → P (s.wr f v i j)
  setq : ∀ {s : State} (f : Nat) (l : List Nat) (i j : Nat), bad.testBit (1400 + f) = false → P s → P (s.setq f l i j)
  regsFilter : ∀ {s : State} (p : Key × Nat → Bool), Off fpRegs bad → P s → P { s with regs := s.regs.filter p }
  queuesFilter : ∀ {s : State} (p : Key × List Nat → Bool), Off fpRegs bad → P s → P { s with queues := s.queues.filter p }
  clear : ∀ {s : State} (p : Home → Bool), bad.testBit 1501 = false → p .kept = false → P s → P (s.clearHomes p)
  lose : ∀ {s : State} (p : Key × Nat → Bool) (p' : Key × List Nat → Bool), bad.testBit 1501 = false →
    (∀ e, keyHome e.1 = .kept → p e = true) → (∀ e, queueHome e.1 = .kept → p' e = true) → P s →
    P { s with regs := s.regs.filter p, queues := s.queues.filter p' }
  noQueues : ∀ {s : State}, Off fpRegs bad → P s → P { s with queues := [] }
  setByte : ∀ {s : State} (a : Nat) (b : Byte), bad.testBit 1500 = false → P s → P (s.setByte a b)
  spoil : ∀ {s : State} (a : Nat), bad.testBit 1500 = false → P s → P (s.spoil a)
  memFilter : ∀ {s : State} (p : Host.Cell → Bool), bad.testBit 1500 = false → P s → P { s with mem := s.mem.filter p }
  badFilter : ∀ {s : State} (p : Nat → Bool), bad.testBit 1500 = false → P s → P { s with bad := s.bad.filter p }

/-- The queue of waiting commands survives every primitive change. -/
theorem keeps_pending (bad : Nat) (l : List Instr) : Keeps bad fun s => s.pending = l where
  frame h e _ _ _ _ := e.trans h
  wr _ _ _ _ _ h := h
  setq _ _ _ _ _ h := h
  regsFilter _ _ h := h
  queuesFilter _ _ h := h
  clear _ _ _ h := h
  lose _ _ _ _ _ h := h
  noQueues _ h := h
  setByte _ _ _ h := h
  spoil _ _ h := h
  memFilter _ _ h := h
  badFilter _ _ h := h

/-- Reading a field after entries have been dropped that are not its own. -/
theorem rd_filter {s : State} (g : Fld) (i j : Nat) (p : Key × Nat → Bool) (h : ∀ v, p (⟨g.id, i, j⟩, v) = true)
    (q : List (Key × List Nat)) : ({ s with regs := s.regs.filter p, queues := q } : State).rd g i j = s.rd g i j :=
  congrArg (· % 2 ^ g.w) (lookupD_filter _ _ _ _ h)

/-- The key of a kept field is kept. -/
theorem keyHome_kept {k : Key} (h : homeOf k.f k.i = .kept) : keyHome k = .kept := by unfold keyHome; rw [h]

/-- A field survives what names neither it nor a reset. -/
theorem keeps_rd (g : Fld) (hg : g.id < 1399) (i j v : Nat) :
    Keeps (bitOf g.id ||| bitOf 1501) fun s => s.rd g i j = v where
  frame h _ e _ _ _ := (State.rd_congr e g i j).trans h
  wr f x i' j' hb h := by
    refine (State.rd_wr_id _ x i' j' i j fun e => ?_).trans h
    rw [Nat.testBit_or, testBit_bitOf] at hb
    refine decide_eq_false_iff_not.mp (Bool.or_eq_false_iff.mp hb).1 (e.trans ?_)
    unfold slot; rw [← e, Nat.ble_eq_true_of_le (Nat.le_of_lt hg)]; rfl
  setq _ _ _ _ _ h := h
  regsFilter _ hb _ := (both_bit (off_bit (f := fpRegs) (fpRegs_bit (by omega)) hb)).elim
  queuesFilter _ _ h := h
  clear _ hb _ _ := (both_bit' hb).elim
  lose _ _ hb _ _ _ := (both_bit' hb).elim
  noQueues _ h := h
  setByte _ _ _ h := h
  spoil _ _ h := h
  memFilter _ _ h := h
  badFilter _ _ h := h

/-- A kept field survives what does not name it. -/
theorem keeps_rd_kept (g : Fld) (hg : g.id < 1399) (hk : ∀ i, homeOf g.id i = .kept) (i j v : Nat) :
    Keeps (bitOf g.id) fun s => s.rd g i j = v where
  frame h _ e _ _ _ := (State.rd_congr e g i j).trans h
  wr f x i' j' hb h := by
    refine (State.rd_wr_id _ x i' j' i j fun e => ?_).trans h
    rw [testBit_bitOf] at hb
    refine decide_eq_false_iff_not.mp hb (e.trans ?_)
    unfold slot; rw [← e, Nat.ble_eq_true_of_le (Nat.le_of_lt hg)]; rfl
  setq _ _ _ _ _ h := h
  regsFilter _ hb _ := (own_bit (off_bit (f := fpRegs) (fpRegs_bit (by omega)) hb)).elim
  queuesFilter _ _ h := h
  clear p _ hp h := by
    refine (rd_filter g i j _ (fun v => ?_) _).trans h
    rw [keyHome_kept (hk i), hp]; rfl
  lose p p' _ hp _ h := (rd_filter g i j p (fun _ => hp _ (keyHome_kept (hk i))) _).trans h
  noQueues _ h := h
  setByte _ _ _ h := h
  spoil _ _ h := h
  memFilter _ _ h := h
  badFilter _ _ h := h

/-- A queue survives what names neither it nor a reset. -/
theorem keeps_q (f : Nat) (hf : f < 100) (i j : Nat) (l : List Nat) :
    Keeps (bitOf (1400 + f) ||| bitOf 1501) fun s => s.q f i j = l where
  frame h _ _ e _ _ := by unfold State.q at h ⊢; rw [e]; exact h
  wr _ _ _ _ _ h := h
  setq g x i' j' hb h := by
    refine (State.q_setq_ne _ _ _ x i' j' i j fun e => ?_).trans h
    rw [Nat.testBit_or, testBit_bitOf] at hb
    exact decide_eq_false_iff_not.mp (Bool.or_eq_false_iff.mp hb).1 (congrArg (1400 + ·) (congrArg Key.f e))
  regsFilter _ _ h := h
  queuesFilter _ hb _ := (both_bit (off_bit (f := fpRegs) (fpRegs_bit (by omega)) hb)).elim
  clear _ hb _ _ := (both_bit' hb).elim
  lose _ _ hb _ _ _ := (both_bit' hb).elim
  noQueues hb _ := (both_bit (off_bit (f := fpRegs) (fpRegs_bit (by omega)) hb)).elim
  setByte _ _ _ h := h
  spoil _ _ h := h
  memFilter _ _ h := h
  badFilter _ _ h := h

/-- Memory and the failed words survive what does not name them. -/
theorem keeps_mem (m : List Host.Cell) (b : List Nat) : Keeps (bitOf 1500) fun s => s.mem = m ∧ s.bad = b where
  frame h _ _ _ hm hb := ⟨hm.trans h.1, hb.trans h.2⟩
  wr _ _ _ _ _ h := h
  setq _ _ _ _ _ h := h
  regsFilter _ _ h := h
  queuesFilter _ _ h := h
  clear _ _ _ h := h
  lose _ _ _ _ _ h := h
  noQueues _ h := h
  setByte _ _ hb _ := (own_bit hb).elim
  spoil _ hb _ := (own_bit hb).elim
  memFilter _ hb _ := (own_bit hb).elim
  badFilter _ hb _ := (own_bit hb).elim

/-- The canonical form survives every primitive change. -/
theorem keeps_canon : Keeps 0 Canon where
  frame h _ hr hq hm hb := ⟨hr ▸ h.regs, hq ▸ h.queues, hq ▸ h.queuesFull, hm ▸ h.mem, hb ▸ h.bad⟩
  wr _ _ _ _ _ h := ⟨keysRise_setKey Key.lt_trans Key.lt_total h.regs _ _ _, h.queues, h.queuesFull, h.mem, h.bad⟩
  setq _ _ _ _ _ h := ⟨h.regs, keysRise_setKey Key.lt_trans Key.lt_total h.queues _ _ _,
    forall_setKey h.queuesFull fun hv => hv, h.mem, h.bad⟩
  setByte {s} a b _ h := by
    have hp : s.mem.Pairwise fun a b => (fun x y : Nat => decide (x < y)) a.1 b.1 = true :=
      h.mem.1.imp fun hx => by simpa using hx
    have := keysRise_setKey (lt := fun x y : Nat => decide (x < y)) (by simp; omega) (by simp; omega) hp a b (memDefault a)
    exact ⟨h.regs, h.queues, h.queuesFull,
      ⟨this.imp fun hx => by simpa using hx, forall_setKey h.mem.2 fun hv => hv⟩, h.bad⟩
  spoil {s} a _ h := by
    have hb : (s.bad.filter fun w => w != wordBase a).Pairwise fun a b => a < b := h.bad.filter _
    have hm : ((s.bad.filter fun w => w != wordBase a).map fun w => (w, ())).Pairwise
        fun x y => (fun x y : Nat => decide (x < y)) x.1 y.1 = true :=
      List.pairwise_map.mpr (hb.imp fun hx => by simpa using hx)
    have := keysRise_insertKey (lt := fun x y : Nat => decide (x < y)) (by simp; omega) (by simp; omega) hm (wordBase a) ()
      (by simp; intros; omega)
    exact ⟨h.regs, h.queues, h.queuesFull, h.mem, List.pairwise_map.mpr (this.imp fun hx => by simpa using hx)⟩
  regsFilter _ _ h := ⟨h.regs.filter _, h.queues, h.queuesFull, h.mem, h.bad⟩
  queuesFilter _ _ h := ⟨h.regs, h.queues.filter _, fun e he => h.queuesFull e (List.mem_filter.mp he).1, h.mem, h.bad⟩
  clear _ _ _ h := ⟨h.regs.filter _, h.queues.filter _, fun e he => h.queuesFull e (List.mem_filter.mp he).1, h.mem, h.bad⟩
  lose _ _ _ _ _ h := ⟨h.regs.filter _, h.queues.filter _, fun e he => h.queuesFull e (List.mem_filter.mp he).1, h.mem, h.bad⟩
  noQueues _ h := ⟨h.regs, List.Pairwise.nil, (fun _ he => nomatch he), h.mem, h.bad⟩
  memFilter _ _ h := ⟨h.regs, h.queues, h.queuesFull, ⟨h.mem.1.filter _, fun e he => h.mem.2 e (List.mem_filter.mp he).1⟩,
    h.bad⟩
  badFilter _ _ h := ⟨h.regs, h.queues, h.queuesFull, h.mem, h.bad.filter _⟩

/-- `P` of the next state, where a meaning answers one. -/
def OutKeeps (P : State → Prop) (o : Out) : Prop := match o with | .next t => P t | _ => True

variable {P : State → Prop}

theorem outKeeps_next {t : State} (h : P t) : OutKeeps P (.next t) := h

theorem keeps_ite {c : Prop} [Decidable c] {a b : State} (ha : P a) (hb : P b) : P (if c then a else b) := by
  split <;> assumption

theorem foldl_inv {α β : Type} (Q : β → Prop) (g : β → α → β) (l : List α) {b : β} (h : Q b)
    (hg : ∀ b a, Q b → Q (g b a)) : Q (l.foldl g b) := by
  induction l generalizing b with
  | nil => exact h
  | cons a r ih => exact ih (hg b a h)

theorem keeps_fst {β : Type} {x : State × β} {s : State} {b : β} (he : x = (s, b)) (h : P x.1) : P s := by
  rw [he] at h; exact h

theorem keeps_snd {β : Type} {x : β × State} {s : State} {b : β} (he : x = (b, s)) (h : P x.2) : P s := by
  rw [he] at h; exact h

theorem keeps_foldl {α : Type} {g : State → α → State} {l : List α} {s : State} (h : P s)
    (hg : ∀ t a, P t → P (g t a)) : P (l.foldl g s) := foldl_inv P g l h hg

theorem keeps_fold1 {α β : Type} {g : State × β → α → State × β} {l : List α} {b : State × β} (h : P b.1)
    (hg : ∀ b a, P b.1 → P (g b a).1) : P (l.foldl g b).1 := foldl_inv (fun p => P p.1) g l h hg

theorem keeps_fold2 {α β : Type} {g : β × State → α → β × State} {l : List α} {b : β × State} (h : P b.2)
    (hg : ∀ b a, P b.2 → P (g b a).2) : P (l.foldl g b).2 := foldl_inv (fun p => P p.2) g l h hg

theorem keeps_each {α : Type} {s : State} {l : List α} {g : State → α → State} (h : P s)
    (hg : ∀ t a, P t → P (g t a)) : P (s.each l g) := foldl_inv P g l h hg

theorem keeps_when {s : State} {c : Bool} {g : State → State} (h : P s) (hg : ∀ t, P t → P (g t)) : P (s.when c g) := by
  unfold State.when; split
  · exact hg s h
  · exact h

/-- `P` of the parts it may speak of: the queue of commands, the register file, the queues, memory and the failed words. -/
def Parts (P : State → Prop) (p : List Instr) (r : List (Key × Nat)) (q : List (Key × List Nat)) (m : List Host.Cell)
    (b : List Nat) : Prop := P ⟨p, 0, 0, r, q, m, b, ⟨.ok, false, 0⟩, [], [], [], [], []⟩

section Parts
variable {bad : Nat} (K : Keeps bad P) {p : List Instr} {r : List (Key × Nat)} {q : List (Key × List Nat)}
  {m : List Host.Cell} {b : List Nat}
include K

theorem parts_mk {t f a ev st sh re he} : P ⟨p, t, f, r, q, m, b, a, ev, st, sh, re, he⟩ ↔ Parts P p r q m b :=
  ⟨fun h => K.frame h rfl rfl rfl rfl rfl, fun h => K.frame h rfl rfl rfl rfl rfl⟩

theorem parts_of {s : State} (h : P s) : Parts P s.pending s.regs s.queues s.mem s.bad := K.frame h rfl rfl rfl rfl rfl

theorem parts_regs (c) (hb : Off fpRegs bad) (h : Parts P p r q m b) : Parts P p (r.filter c) q m b := K.regsFilter c hb h

theorem parts_queues (c) (hb : Off fpRegs bad) (h : Parts P p r q m b) : Parts P p r (q.filter c) m b :=
  K.queuesFilter c hb h

theorem parts_noQueues (hb : Off fpRegs bad) (h : Parts P p r q m b) : Parts P p r [] m b := K.noQueues hb h

theorem parts_mem (c) (hb : bad.testBit 1500 = false) (h : Parts P p r q m b) : Parts P p r q (m.filter c) b :=
  K.memFilter c hb h

theorem parts_bad (c) (hb : bad.testBit 1500 = false) (h : Parts P p r q m b) : Parts P p r q m (b.filter c) :=
  K.badFilter c hb h

end Parts
end Sys2Proof.Machine
end

