-- ==== Sys2Proof/Laws/KeepsOps.lean ====
section
/-!
SUPPORT. What each operation of Sys2Proof/Machine/Ops.lean can change: its footprint (Sys2Proof/Laws/Keeps.lean).
-/
namespace Sys2Proof.Machine
set_option linter.all false
section
variable {P : State → Prop} {nb : Nat}

theorem up_keeps (K : Keeps nb P) (s : State) (f : Fld) (i : Nat) (j : Nat) (hb : Off 0 nb) (hf : nb.testBit (slot f.id) =
    false) (h : P s) : P (State.up s f i j) := by
  unfold State.up
  repeat' first
    | (with_reducible first
        | assumption | intro _ | apply K.wr)
    | exact off_sub rfl hb | exact off_bit rfl hb | dsimp only | split

theorem down_keeps (K : Keeps nb P) (s : State) (f : Fld) (i : Nat) (j : Nat) (hb : Off 0 nb) (hf : nb.testBit (slot f.id)
    = false) (h : P s) : P (State.down s f i j) := by
  unfold State.down
  repeat' first
    | (with_reducible first
        | assumption | intro _ | apply K.wr)
    | exact off_sub rfl hb | exact off_bit rfl hb | dsimp only | split

theorem wrb_keeps (K : Keeps nb P) (s : State) (f : Fld) (b : Bool) (i : Nat) (j : Nat) (hb : Off 0 nb) (hf : nb.testBit
    (slot f.id) = false) (h : P s) : P (State.wrb s f b i j) := by
  unfold State.wrb
  repeat' first
    | (with_reducible first
        | assumption | intro _ | apply K.wr)
    | exact off_sub rfl hb | exact off_bit rfl hb | dsimp only | split

theorem wrIf_keeps (K : Keeps nb P) (c : Bool) (s : State) (f : Fld) (v : Nat) (i : Nat) (j : Nat) (hb : Off 0 nb) (hf :
    nb.testBit (slot f.id) = false) (h : P s) : P (State.wrIf c s f v i j) := by
  unfold State.wrIf
  repeat' first
    | (with_reducible first
        | assumption | intro _ | apply keeps_ite | apply K.wr)
    | exact off_sub rfl hb | exact off_bit rfl hb | dsimp only | split

theorem bumpBy_keeps (K : Keeps nb P) (s : State) (f : Fld) (n : Nat) (i : Nat) (j : Nat) (hb : Off 0 nb) (hf : nb.testBit
    (slot f.id) = false) (h : P s) : P (State.bumpBy s f n i j) := by
  unfold State.bumpBy
  repeat' first
    | (with_reducible first
        | assumption | intro _ | apply K.wr)
    | exact off_sub rfl hb | exact off_bit rfl hb | dsimp only | split

theorem bump_keeps (K : Keeps nb P) (s : State) (f : Fld) (i : Nat) (j : Nat) (hb : Off 0 nb) (hf : nb.testBit (slot f.id)
    = false) (h : P s) : P (State.bump s f i j) := by
  unfold State.bump
  repeat' first
    | (with_reducible first
        | assumption | intro _ | apply bumpBy_keeps K)
    | exact off_sub rfl hb | exact off_bit rfl hb | dsimp only | split

theorem peak_keeps (K : Keeps nb P) (s : State) (f : Fld) (v : Nat) (i : Nat) (j : Nat) (hb : Off 0 nb) (hf : nb.testBit
    (slot f.id) = false) (h : P s) : P (State.peak s f v i j) := by
  unfold State.peak
  repeat' first
    | (with_reducible first
        | assumption | intro _ | apply K.wr)
    | exact off_sub rfl hb | exact off_bit rfl hb | dsimp only | split

theorem pushq_keeps (K : Keeps nb P) (s : State) (f : Nat) (v : Nat) (i : Nat) (j : Nat) (hb : Off 0 nb) (hq : nb.testBit
    (1400 + f) = false) (h : P s) : P (State.pushq s f v i j) := by
  unfold State.pushq
  repeat' first
    | (with_reducible first
        | assumption | intro _ | apply K.setq)
    | exact off_sub rfl hb | exact off_bit rfl hb | dsimp only | split

theorem answer_keeps (K : Keeps nb P) (s : State) (c : Code) (data : Nat) (hb : Off 0 nb) (h : P s) : P (State.answer s c
    data) := by
  unfold State.answer
  repeat' first
    | (with_reducible first
        | assumption | intro _ | apply parts_of K)
    | exact off_sub rfl hb | exact off_bit rfl hb | dsimp only | split | simp only [parts_mk K]

theorem answerDup_keeps (K : Keeps nb P) (s : State) (hb : Off 0 nb) (h : P s) : P (State.answerDup s) := by
  unfold State.answerDup
  repeat' first
    | (with_reducible first
        | assumption | intro _ | apply parts_of K)
    | exact off_sub rfl hb | exact off_bit rfl hb | dsimp only | split | simp only [parts_mk K]

theorem drew_keeps (K : Keeps nb P) (s : State) (hb : Off 0 nb) (h : P s) : P (State.drew s) := by
  unfold State.drew
  repeat' first
    | (with_reducible first
        | assumption | intro _ | apply parts_of K)
    | exact off_sub rfl hb | exact off_bit rfl hb | dsimp only | split | simp only [parts_mk K]

theorem setBytes_keeps (K : Keeps nb P) (s : State) (a : Nat) (l : List Byte) (hb : Off
    0x1000000000000000000000000000000000000000000000000000000000000000000000000000000000000000000000000000000000000000000000000000000000000000000000000000000000000000000000000000000000000000000000000000000000000000000000000000000000000000000000000000000000000000000000000000000000000000000000000000000000000000000000000000000000000000000000000000000000000000000000000000000000000000
    nb) (h : P s) : P (State.setBytes s a l) := by
  induction l generalizing s a with
  | nil => exact h
  | cons b r ih => exact ih _ _ (K.setByte _ _ (off_bit rfl hb) h)

theorem mset_keeps (K : Keeps nb P) (s : State) (a n v : Nat) (hb : Off
    0x1000000000000000000000000000000000000000000000000000000000000000000000000000000000000000000000000000000000000000000000000000000000000000000000000000000000000000000000000000000000000000000000000000000000000000000000000000000000000000000000000000000000000000000000000000000000000000000000000000000000000000000000000000000000000000000000000000000000000000000000000000000000000000
    nb) (h : P s) : P (State.mset s a n v) := by
  unfold State.mset
  repeat' first
    | (with_reducible first
        | assumption | intro _ | apply setBytes_keeps K)
    | exact off_sub rfl hb | exact off_bit rfl hb | dsimp only | split

theorem heal_keeps (K : Keeps nb P) (s : State) (a : Nat) (hb : Off
    0x1000000000000000000000000000000000000000000000000000000000000000000000000000000000000000000000000000000000000000000000000000000000000000000000000000000000000000000000000000000000000000000000000000000000000000000000000000000000000000000000000000000000000000000000000000000000000000000000000000000000000000000000000000000000000000000000000000000000000000000000000000000000000000
    nb) (h : P s) : P (State.heal s a) := by
  exact K.badFilter _ (off_bit rfl hb) h

theorem healRange_keeps (K : Keeps nb P) (s : State) (a n : Nat) (hb : Off
    0x1000000000000000000000000000000000000000000000000000000000000000000000000000000000000000000000000000000000000000000000000000000000000000000000000000000000000000000000000000000000000000000000000000000000000000000000000000000000000000000000000000000000000000000000000000000000000000000000000000000000000000000000000000000000000000000000000000000000000000000000000000000000000000
    nb) (h : P s) : P (State.healRange s a n) := by
  exact K.badFilter _ (off_bit rfl hb) h

end
end Sys2Proof.Machine
end

