-- ==== Sys2Proof/Laws/KeepsFlits.lean ====
section
/-!
SUPPORT. What each operation of Sys2Proof/Machine/Flits.lean can change: its footprint (Sys2Proof/Laws/Keeps.lean).
-/
namespace Sys2Proof.Machine
set_option linter.all false
section
variable {P : State → Prop} {nb : Nat}

theorem sendFlit_keeps (K : Keeps nb P) (s : State) (e : Nat) (d : Draft) (hb : Off
    0x100000000000000000000000000000000000000000000000000000000000000000000000000000000000000000000000400000000000000000000000000000000000000000000000000000000000000000000000000000000000000000000000000000000000000000000000000000000000000000000000000000000000000000000000000000000000000000000000000000000000000000000000000000000000000000000000000000000000000
    nb) (h : P s) : P (sendFlit s e d) := by
  unfold sendFlit
  repeat' first
    | (with_reducible first
        | assumption | intro _ | apply K.wr | apply pushq_keeps K)
    | exact off_sub rfl hb | exact off_bit rfl hb | dsimp only | split

theorem sendResult_keeps (K : Keeps nb P) (s : State) (r : Result) (hb : Off
    0x100000000000000000000000000000000000000000000000000000000000000000000000000000000000000000000000400000000000000000000000000000000000000000000000000000000000000000000000000000000000000000000000000000000000000000000000000000000000000000000000000000000000000000000000000000000000000000000000000000000000000000000000000000000000000000000000000000000000000
    nb) (h : P s) : P (sendResult s r) := by
  unfold sendResult
  repeat' first
    | (with_reducible first
        | assumption | intro _ | apply sendFlit_keeps K | apply parts_of K)
    | exact off_sub rfl hb | exact off_bit rfl hb | dsimp only | split | simp only [parts_mk K]

theorem sendShadow_keeps (K : Keeps nb P) (s : State) (h : Shadow) (hb : Off
    0x100000000000000000000000000000000000000000000000000000000000000000000000000000000000000000000000400000000000000000000000000000000000000000000000000000000000000000000000000000000000000000000000000000000000000000000000000000000000000000000000000000000000000000000000000000000000000000000000000000000000000000000000000000000000000000000000000000000000000
    nb) (h' : P s) : P (sendShadow s h) := by
  unfold sendShadow
  repeat' first
    | (with_reducible first
        | assumption | intro _ | apply sendFlit_keeps K | apply parts_of K)
    | exact off_sub rfl hb | exact off_bit rfl hb | dsimp only | split | simp only [parts_mk K]

theorem post_keeps (K : Keeps nb P) (s : State) (ev : Nat) (hb : Off
    0x100000000000000000000000000000000000000000000000000000000000000000000000000000000000000000000000400000000000000000000000000000000000000000000000000000000000000000000000000000000000000000000000000000000000000000000000000000000000000000000000000000000000000000000000000000000000000000000000000000000000000000000000000000000000000000000000000000000000000
    nb) (h : P s) : P (State.post s ev) := by
  unfold State.post
  repeat' first
    | (with_reducible first
        | assumption | intro _ | apply keeps_ite | apply sendFlit_keeps K | apply parts_of K)
    | exact off_sub rfl hb | exact off_bit rfl hb | dsimp only | split | simp only [parts_mk K]

theorem postIf_keeps (K : Keeps nb P) (s : State) (c : Bool) (ev : Nat) (hb : Off
    0x100000000000000000000000000000000000000000000000000000000000000000000000000000000000000000000000400000000000000000000000000000000000000000000000000000000000000000000000000000000000000000000000000000000000000000000000000000000000000000000000000000000000000000000000000000000000000000000000000000000000000000000000000000000000000000000000000000000000000
    nb) (h : P s) : P (State.postIf s c ev) := by
  unfold State.postIf
  repeat' first
    | (with_reducible first
        | assumption | intro _ | apply keeps_ite | apply post_keeps K)
    | exact off_sub rfl hb | exact off_bit rfl hb | dsimp only | split

end
end Sys2Proof.Machine
end

