-- ==== Sys2Proof/Laws/KeepsMasters.lean ====
section
/-!
SUPPORT. What each operation of Sys2Proof/Machine/Masters.lean can change: its footprint (Sys2Proof/Laws/Keeps.lean).
-/
namespace Sys2Proof.Machine
set_option linter.all false
section
variable {P : State → Prop} {nb : Nat}

theorem freeTag_keeps (K : Keeps nb P) (s : State) (t : Nat) (hb : Off
    0x3DF8000000000000000000000000000000000000000000000000000000000000000000000000000000000000000000000000000000000000000000000000000000000000000000000000000000000000000000000000000000000000000000000000000000000000000000000000000000000000000000000000000000000000000000000000000000000
    nb) (h : P s) : P (freeTag s t) := by
  unfold freeTag
  repeat' first
    | (with_reducible first
        | assumption | intro _ | apply down_keeps K)
    | exact off_sub rfl hb | exact off_bit rfl hb | dsimp only | split

theorem sendAll_keeps (K : Keeps nb P) (s : State) (ends : List Nat) (l : List Draft) (hb : Off
    0x100000000000000000000000000000000000000000000000000000000000000000000000000000000000000000000000400000000000000000000000000000000000000000000000000000000000000000000000000000000000000000000000000000000000000000000000000000000000000000000000000000000000000000000000000000000000000000000000000000000000000000000000000000000000000000000000000000000000000
    nb) (h : P s) : P (sendAll s ends l) := by
  unfold sendAll
  repeat' first
    | (with_reducible first
        | assumption | intro _ | apply keeps_each | apply sendFlit_keeps K)
    | exact off_sub rfl hb | exact off_bit rfl hb | dsimp only | split

theorem sendFirst_keeps (K : Keeps nb P) (s : State) (r : Held) (hb : Off
    0x100000000000000000000000000000000000000000000000000000000000000000000000000000000000000000000000400000000000000000000000000000000000000000000000000000000000000000000000000000000000000000000000000000000000000000000000000000000000000000000000000000000000000000000000000000000000000000000000000000000000000000000000000000000000000000000000000000000000000
    nb) (h : P s) : P (sendFirst s r) := by
  unfold sendFirst
  repeat' first
    | (with_reducible first
        | assumption | intro _ | apply keeps_ite | apply sendAll_keeps K)
    | exact off_sub rfl hb | exact off_bit rfl hb | dsimp only | split

theorem sendOn_keeps (K : Keeps nb P) (s : State) (r : Held) (tag : Nat) (hb : Off
    0x100000000000000000000000000000000000000000000000000000000000000000000000000000000000000000000000400000000000000000000000000000000000000000000000000000000000000000000000000000000000000000000000000000000000000000000000000000000000000000000000000000000000000000000000000000000000000000000000000000000000000000000000000000000000000000000000000000000000000
    nb) (h : P s) : P (sendOn s r tag) := by
  unfold sendOn
  repeat' first
    | (with_reducible first
        | assumption | intro _ | apply keeps_ite | apply sendAll_keeps K)
    | exact off_sub rfl hb | exact off_bit rfl hb | dsimp only | split

theorem sendRequest_keeps (K : Keeps nb P) (s : State) (r : Held) (near : Bool) (tag : Nat) (hb : Off
    0x100000000000000000000000000000000000000000000000000000000000000000000000000000000000000000000000400000000000000000000000000000000000000000000000000000000000000000000000000000000000000000000000000000000000000000000000000000000000000000000000000000000000000000000000000000000000000000000000000000000000000000000000000000000000000000000000000000000000000
    nb) (h : P s) : P (sendRequest s r near tag) := by
  unfold sendRequest
  repeat' first
    | (with_reducible first
        | assumption | intro _ | apply keeps_ite | apply sendFirst_keeps K | apply sendOn_keeps K)
    | exact off_sub rfl hb | exact off_bit rfl hb | dsimp only | split

theorem reply_keeps (K : Keeps nb P) (s : State) (who : Master) (addr : Nat) (p : Reply) (hb : Off
    0x100000000000000000000000000000000000000000000000000000000000000000000000000000000000000000000000400000000000000000000000000000000000000000000000000000000000000000000000000000000000000000000000000000000000000000000000000000000000000000000000000000000000000000000000000000000000000000000000000000000000000000000000003C60000000000000000000000000200000000
    nb) (h : P s) : P (reply s who addr p) := by
  unfold reply
  repeat' first
    | (with_reducible first
        | assumption | intro _ | apply keeps_ite | apply K.wr | apply bump_keeps K | apply peak_keeps K
        | apply sendAll_keeps K | apply parts_of K | (apply keeps_fst; assumption) | (apply keeps_snd; assumption))
    | exact off_sub rfl hb | exact off_bit rfl hb | (split <;> exact off_bit rfl hb) | dsimp only | split
    | simp only [parts_mk K]

theorem answerTag_keeps (K : Keeps nb P) (s : State) (t : Nat) (c : Code) (near : Bool) (hb : Off
    0x100000000000000000000000000000000000000000000000000000000000000000000000003DF8000000000000000000400000000000000000000000000000000000000000000000000000000000000000000000000000000000000000000000000000000000000000000000000000000000000000000000000000000000000000000000000000000000000000000000000000000000000000000000003C60000000000000000000000000200000000
    nb) (h : P s) : P (answerTag s t c near) := by
  unfold answerTag
  repeat' first
    | (with_reducible first
        | assumption | intro _ | apply keeps_ite | apply bump_keeps K | apply freeTag_keeps K | apply reply_keeps K
        | (apply keeps_fst; assumption) | (apply keeps_snd; assumption))
    | exact off_sub rfl hb | exact off_bit rfl hb | dsimp only | split

theorem answerTags_keeps (K : Keeps nb P) (s : State) (p : Nat → Bool) (c : Code) (near : Bool) (hb : Off
    0x100000000000000000000000000000000000000000000000000000000000000000000000003DF8000000000000000000400000000000000000000000000000000000000000000000000000000000000000000000000000000000000000000000000000000000000000000000000000000000000000000000000000000000000000000000000000000000000000000000000000000000000000000000003C60000000000000000000000000200000000
    nb) (h : P s) : P (answerTags s p c near) := by
  unfold answerTags
  repeat' first
    | (with_reducible first
        | assumption | intro _ | apply keeps_each | apply answerTag_keeps K)
    | exact off_sub rfl hb | exact off_bit rfl hb | dsimp only | split

theorem respondNear_keeps (K : Keeps nb P) (s : State) (r : Held) (c : Code) (near : Bool) (hb : Off
    0x100000000000000000000000000000000000000000000000000000000000000000000000000000000000000000000000400000000000000000000000000000000000000000000000000000000000000000000000000000000000000000000000000000000000000000000000000000000000000000000000000000000000000000000000000000000000000000000000000000000000000000000000003C60000000000000000000000000200000000
    nb) (h : P s) : P (respondNear s r c near) := by
  unfold respondNear
  repeat' first
    | (with_reducible first
        | assumption | intro _ | apply reply_keeps K)
    | exact off_sub rfl hb | exact off_bit rfl hb | dsimp only | split

theorem answerHeldBy_keeps (K : Keeps nb P) (s : State) (p : Held → Bool) (c : Code) (near : Bool) (hb : Off
    0x100000000000000000000000000000000000000000000000000000000000000000000000000000000000000000000000400000000000000000000000000000000000000000000000000000000000000000000000000000000000000000000000000000000000000000000000000000000000000000000000000000000000000000000000000000000000000000000000000000000000000000000000003C60000000000000000000000000200000000
    nb) (h : P s) : P (answerHeldBy s p c near) := by
  unfold answerHeldBy
  repeat' first
    | (with_reducible first
        | assumption | intro _ | apply keeps_foldl | apply keeps_fold1 | apply keeps_fold2 | apply respondNear_keeps K
        | apply parts_of K | apply parts_regs K | apply parts_queues K | apply parts_mem K | apply parts_bad K)
    | exact off_sub rfl hb | exact off_bit rfl hb | dsimp only | split | simp only [parts_mk K]

end
end Sys2Proof.Machine
end

