-- ==== Sys2Proof/Laws/KeepsTiming.lean ====
section
/-!
SUPPORT. What each operation of Sys2Proof/Machine/Timing.lean can change: its footprint (Sys2Proof/Laws/Keeps.lean).
-/
namespace Sys2Proof.Machine
set_option linter.all false
section
variable {P : State → Prop} {nb : Nat}

theorem edgesDue_keeps (K : Keeps nb P) (s : State) (d m : Nat) (hb : Off
    0x1000000000000000000000000000000000000000000000000000000000000000000000000000000000000000000000000000000000000000000000000000000000000000000000000000000000000000000000000000000000000000000000000000000000000000000000000000000000000000000000000000000000000000000000000000000
    nb) (h : P s) : P (edgesDue s d m) := by
  unfold edgesDue
  repeat' first
    | (with_reducible first
        | assumption | intro _ | apply K.wr)
    | exact off_sub rfl hb | exact off_bit rfl hb | dsimp only | split

theorem destMoves_keeps (K : Keeps nb P) (s : State) (d : Nat) (b : Bool) (hb : Off
    0x1800000000000000000000000000000000000000000000000000000000000000000000000000000000000000000000000000000000000000000000000000000000000000000000000000000000000000000000000000000000000000000000000000000000000000000000000000000000000000000000000000000000000000000000000000000
    nb) (h : P s) : P (destMoves s d b) := by
  unfold destMoves
  repeat' first
    | (with_reducible first
        | assumption | intro _ | apply keeps_ite | apply wrb_keeps K | apply edgesDue_keeps K)
    | exact off_sub rfl hb | exact off_bit rfl hb | dsimp only | split

theorem routeFollow_keeps (K : Keeps nb P) (s : State) (hb : Off
    0x1800000000000000000000000000000000000000000000000000000000000000000000000000000000000000000000000000000000000000000000000000000000000000000000000000000000000000000000000000000000000000000000000000000000000000000000000000000000000000000000000000000000000000000000000000000
    nb) (h : P s) : P (routeFollow s) := by
  unfold routeFollow
  repeat' first
    | (with_reducible first
        | assumption | intro _ | apply keeps_each | apply destMoves_keeps K)
    | exact off_sub rfl hb | exact off_bit rfl hb | dsimp only | split

theorem rowsDue_keeps (K : Keeps nb P) (s : State) (n : Nat) (hb : Off
    0x2000000000000000000000000000000000000000000000000000000000000000000000000000000000000000000000000000000000000000000000000000000000000000000000000000000000000000000000000000000000000000000000000000000000000000000000000000000000000000000000000000000000000000000000000000000000000000000000000000000
    nb) (h : P s) : P (rowsDue s n) := by
  unfold rowsDue
  repeat' first
    | (with_reducible first
        | assumption | intro _ | apply keeps_each | apply keeps_ite | apply bump_keeps K)
    | exact off_sub rfl hb | exact off_bit rfl hb | dsimp only | split

theorem routePulse_keeps (K : Keeps nb P) (s : State) (n : Nat) (hb : Off
    0x2000000000000000000000001000000000000000000000000000000000000000000000000000000000000000000000000000000000000000000000000000000000000000000000000000000000000000000000000000000000000000000000000000000000000000000000000000000000000000000000000000000000000000000000000000000000000000000000000000000
    nb) (h : P s) : P (routePulse s n) := by
  unfold routePulse
  repeat' first
    | (with_reducible first
        | assumption | intro _ | apply keeps_each | apply edgesDue_keeps K | apply rowsDue_keeps K)
    | exact off_sub rfl hb | exact off_bit rfl hb | dsimp only | split

theorem routesSettled_keeps (K : Keeps nb P) (s : State) (hb : Off
    0x1800000000000000000000000000000000000000000000000000000000000000000000000000000000000000000000000000000000000000000000000000000000000000000000000000000000000000000000000000000000000000000000000000000000000000000000000000000000000000000000000000000000000000000000000000000
    nb) (h : P s) : P (routesSettled s) := by
  unfold routesSettled
  repeat' first
    | (with_reducible first
        | assumption | intro _ | apply keeps_each | apply keeps_ite | apply down_keeps K | apply wrb_keeps K)
    | exact off_sub rfl hb | exact off_bit rfl hb | dsimp only | split

theorem edgeTaken_keeps (K : Keeps nb P) (s : State) (d : Nat) (rise : Bool) (hb : Off
    0x1000000000000000000000000000000000000000000000000000000000000000000000000000000000000000000000000000000000000000000000000000000000000000000000000000000000000000000000000000000000000000000000000000000000000000000000000000000000000000000000000000000000000000000000000000000
    nb) (h : P s) : P (edgeTaken s d rise) := by
  unfold edgeTaken
  repeat' first
    | (with_reducible first
        | assumption | intro _ | apply keeps_ite | apply K.wr)
    | exact off_sub rfl hb | exact off_bit rfl hb | dsimp only | split

theorem ctSetCount_keeps (K : Keeps nb P) (s : State) (n c : Nat) (hb : Off
    0x20000000000000000000000000000000000000000000000000000000000000000000000 nb) (h : P s) : P (ctSetCount s n c) := by
  unfold ctSetCount
  repeat' first
    | (with_reducible first
        | assumption | intro _ | apply keeps_ite | apply K.wr)
    | exact off_sub rfl hb | exact off_bit rfl hb | dsimp only | split

theorem ctCopy_keeps (K : Keeps nb P) (s : State) (n j : Nat) (hb : Off
    0x4000000000000000000000000000000000000000000000000000000000000000000000000000000000000000000000000000000000000000000000000000000000000000000000000000000000000000000000000000000000000000000000000000000000000000000070100000000000000000000000000000000000000000000000000000000000000000000000
    nb) (h : P s) : P (ctCopy s n j) := by
  unfold ctCopy
  repeat' first
    | (with_reducible first
        | assumption | intro _ | apply keeps_ite | apply K.wr | apply down_keeps K)
    | exact off_sub rfl hb | exact off_bit rfl hb | dsimp only | split

theorem ctTransfer_keeps (K : Keeps nb P) (s : State) (n : Nat) (hb : Off
    0x4000000000000000000000000000000000000000000000000000000000000000000000000000000000000000000000000000000000000000000000000000000000000000000000000000000000000000000000000000000000000000000000000000000000000000000070100000000000000000000000000000000000000000000000000000000000000000000000
    nb) (h : P s) : P (ctTransfer s n) := by
  unfold ctTransfer
  repeat' first
    | (with_reducible first
        | assumption | intro _ | apply keeps_each | apply keeps_ite | apply ctCopy_keeps K)
    | exact off_sub rfl hb | exact off_bit rfl hb | dsimp only | split

theorem ctTransferAll_keeps (K : Keeps nb P) (s : State) (n : Nat) (hb : Off
    0x4000000000000000000000000000000000000000000000000000000000000000000000000000000000000000000000000000000000000000000000000000000000000000000000000000000000000000000000000000000000000000000000000000000000000000000070100000000000000000000000000000000000000000000000000000000000000000000000
    nb) (h : P s) : P (ctTransferAll s n) := by
  unfold ctTransferAll
  repeat' first
    | (with_reducible first
        | assumption | intro _ | apply keeps_ite | apply ctTransfer_keeps K)
    | exact off_sub rfl hb | exact off_bit rfl hb | dsimp only | split

theorem ctShadowWritten_keeps (K : Keeps nb P) (s : State) (n j : Nat) (hb : Off
    0x4000000000000000000000000000000000000000000000000000000000000000000000000000000000000000000000000000000000000000000000000000000000000000000000000000000000000000000000000000000000000000000000000000000000000000000070100000000000000000000000000000000000000000000000000000000000000000000000
    nb) (h : P s) : P (ctShadowWritten s n j) := by
  unfold ctShadowWritten
  repeat' first
    | (with_reducible first
        | assumption | intro _ | apply keeps_ite | apply up_keeps K | apply ctCopy_keeps K)
    | exact off_sub rfl hb | exact off_bit rfl hb | dsimp only | split

theorem ctSoftShadow_keeps (K : Keeps nb P) (s : State) (n j : Nat) (w : State → State) (hb : Off
    0x14000000000000000000000000000000000000000000000000000000000000000000000000000000000000000000000000000000000000000000000000000000000000000000000000000000000000000000000000000000000000000000000000000000000000000000170100000000000000000000000000000000000000000000000000000000000000000000000
    nb) (h : P s) (hw : ∀ t, P t → P (w t)) : P (ctSoftShadow s n j w) := by
  unfold ctSoftShadow
  repeat' first
    | (with_reducible first
        | assumption | intro _ | apply keeps_ite | apply hw | apply K.wr | apply bump_keeps K
        | apply ctShadowWritten_keeps K)
    | exact off_sub rfl hb | exact off_bit rfl hb | dsimp only | split

theorem ctHardShadow_keeps (K : Keeps nb P) (s : State) (n j v : Nat) (hb : Off
    0x24000000000000000000000000000000000000000000000000000000000000000000000000000000000000000000000000000000000000000000000000000000000000000000000000000000000000000000000000000000000000000000000000000000000000000000176180000000000000000000000000000000000000000000000000000000000000000000000
    nb) (h : P s) : P (ctHardShadow s n j v) := by
  unfold ctHardShadow
  repeat' first
    | (with_reducible first
        | assumption | intro _ | apply keeps_ite | apply K.wr | apply bump_keeps K | apply ctShadowWritten_keeps K)
    | exact off_sub rfl hb | exact off_bit rfl hb | dsimp only | split

theorem setSide_keeps (K : Keeps nb P) (s : State) (k j : Nat) (b : Bool) (hb : Off
    0xA00000000000000000000000000000000000000000000000000000000000000000000000000000000000000000000000000000000000000000000000000000000000000000000000000000000000000000000000000000000000000000000000000000000000000000000000000000000000000000000000000000000000000000000000000000000000000000000000
    nb) (h : P s) : P (setSide s k j b) := by
  unfold setSide
  repeat' first
    | (with_reducible first
        | assumption | intro _ | apply keeps_ite | apply up_keeps K | apply wrb_keeps K)
    | exact off_sub rfl hb | exact off_bit rfl hb | dsimp only | split

theorem driveSide_keeps (K : Keeps nb P) (s : State) (k j : Nat) (want count : Bool) (hb : Off
    0xE00000000000000000000000000000000000000000000000000000000000000000000000000000000000000000000000000000000000000000000000000000000000000000000000000000000000000000000000000000000000000000000000000000000000200000000000000000000000000000000000000000000000000000000000000000000000000000000000
    nb) (h : P s) : P (driveSide s k j want count) := by
  unfold driveSide
  repeat' first
    | (with_reducible first
        | assumption | intro _ | apply keeps_when | apply keeps_ite | apply bump_keeps K | apply down_keeps K
        | apply up_keeps K | apply setSide_keeps K)
    | exact off_sub rfl hb | exact off_bit rfl hb | dsimp only | split

theorem driveLeg_keeps (K : Keeps nb P) (s : State) (k : Nat) (want : Bool × Bool) (count : Bool) (hb : Off
    0xE00000000000000000000000000000000000000000000000000000000000000000000000000000000000000000000000000000000000000000000000000000000000000000000000000000000000000000000000000000000000000000000000000000000000200000000000000000000000000000000000000000000000000000000000000000000000000000000000
    nb) (h : P s) : P (driveLeg s k want count) := by
  unfold driveLeg
  repeat' first
    | (with_reducible first
        | assumption | intro _ | apply keeps_ite | apply driveSide_keeps K)
    | exact off_sub rfl hb | exact off_bit rfl hb | dsimp only | split

theorem legToSafe_keeps (K : Keeps nb P) (s : State) (k : Nat) (hb : Off
    0x6E00000000000000000000000000000000000000000000000000000000000000000000000000000000000000000000000000000000000000000000000000000000000000000000000000000000000000000000000000000000000000000000000000000000000200400000000000000000000000000000000000000000000000000000000000000000000000000000000
    nb) (h : P s) : P (legToSafe s k) := by
  unfold legToSafe
  repeat' first
    | (with_reducible first
        | assumption | intro _ | apply K.wr | apply down_keeps K | apply driveLeg_keeps K)
    | exact off_sub rfl hb | exact off_bit rfl hb | dsimp only | split

theorem legDisarm_keeps (K : Keeps nb P) (s : State) (k : Nat) (hb : Off
    0x6E00000000000000000000000000000000000000000000000000000000000000000000000000000000000000000000000000000000000000000000000000000000000000000000000000000000000000000000000000000000000000000000000000000000000200400000000000000000000000000000000000000000000000000000000000000000000000000000000
    nb) (h : P s) : P (legDisarm s k) := by
  unfold legDisarm
  repeat' first
    | (with_reducible first
        | assumption | intro _ | apply legToSafe_keeps K)
    | exact off_sub rfl hb | exact off_bit rfl hb | dsimp only | split

theorem legArmNow_keeps (K : Keeps nb P) (s : State) (k : Nat) (hb : Off
    0x6F00000000000000000000000000000000000000000000000000000000000000000000000000000000000000000000000000000000000000000000000000000000000000000000000000000000000000000000000000000000000000000000000000000000000200400000000000000000000000000000000000000000000000000000000000000000000000000000000
    nb) (h : P s) : P (legArmNow s k) := by
  unfold legArmNow
  repeat' first
    | (with_reducible first
        | assumption | intro _ | apply K.wr | apply down_keeps K | apply wrb_keeps K | apply driveLeg_keeps K)
    | exact off_sub rfl hb | exact off_bit rfl hb | dsimp only | split

theorem legArm_keeps (K : Keeps nb P) (s : State) (k : Nat) (now : Bool) (hb : Off
    0x6F00000000000000000000000000000000000000000000000000000000000000000000000000000000000000000000000000000000000000000000000000000000000000000000000000000000000000000000000000000000000000000000000000000000000210400000000000000000000000000000000000000000000000000000000000000000000000000000000
    nb) (h : P s) : P (legArm s k now) := by
  unfold legArm
  repeat' first
    | (with_reducible first
        | assumption | intro _ | apply keeps_ite | apply K.wr | apply legArmNow_keeps K)
    | exact off_sub rfl hb | exact off_bit rfl hb | dsimp only | split

theorem groupArm_keeps (K : Keeps nb P) (s : State) (g : Nat) (hb : Off
    0x6F00000000000000000000000000000000000000000000000000000000000000000000000000000000000000000000000000000000000000000000000000000000000000000000000000000000000000000000000000000000000000000000000000000000000210400000000000000000000000000000000000000000000000000000000000000000000000000000000
    nb) (h : P s) : P (groupArm s g) := by
  unfold groupArm
  repeat' first
    | (with_reducible first
        | assumption | intro _ | apply keeps_each | apply keeps_ite | apply K.wr | apply down_keeps K | apply up_keeps K
        | apply legArmNow_keeps K)
    | exact off_sub rfl hb | exact off_bit rfl hb | dsimp only | split

theorem armAtPeriodStart_keeps (K : Keeps nb P) (s : State) (n : Nat) (hb : Off
    0x6F00000000000000000000000000000000000000000000000000000000000000000000000000000000000000000000000000000000000000000000000000000000000000000000000000000000000000000000000000000000000000000000000000000000000200400000000000000000000000000000000000000000000000000000000000000000000000000000000
    nb) (h : P s) : P (armAtPeriodStart s n) := by
  unfold armAtPeriodStart
  repeat' first
    | (with_reducible first
        | assumption | intro _ | apply keeps_each | apply legArmNow_keeps K)
    | exact off_sub rfl hb | exact off_bit rfl hb | dsimp only | split

theorem recordFirst_keeps (K : Keeps nb P) (s : State) (hb : Off
    0x80000000000000000000000000000000000000000000000000000000000000000000000000000000000000000000000000000000000000000000000000000000000000000000000000000000000000000000000000000000000000000000000000000001F80000000000000000000000000000000000000000000000000000000000000000000000000000000000000
    nb) (h : P s) : P (recordFirst s) := by
  unfold recordFirst
  repeat' first
    | (with_reducible first
        | assumption | intro _ | apply K.wr | apply up_keeps K | apply wrb_keeps K)
    | exact off_sub rfl hb | exact off_bit rfl hb | (unfold causeFld; split <;> exact off_bit rfl hb) | dsimp only | split

theorem tripOne_keeps (K : Keeps nb P) (s : State) (k : Nat) (hb : Off
    0x100000000000000000000000000000000000000000000000000000000000006E00000000000000000000000000000000400000000000000000000000000000000000000000000000000000000000000000000000000000000000000000000000000000000000000000000000000000000000000000000000000000000000000000000000008280400000000000000000000000000000000000000000000000000000000100000000000000000000000
    nb) (h : P s) : P (tripOne s k) := by
  unfold tripOne
  repeat' first
    | (with_reducible first
        | assumption | intro _ | apply keeps_each | apply keeps_when | apply keeps_ite | apply bump_keeps K
        | apply post_keeps K | apply up_keeps K | apply legToSafe_keeps K)
    | exact off_sub rfl hb | exact off_bit rfl hb | dsimp only | split

theorem brakeFallback_keeps (K : Keeps nb P) (s : State) (g : Nat) (hb : Off
    0x10000000000000000000000000000000000000000000000000000000000000000000000000000000000000 nb) (h : P s) : P
    (brakeFallback s g) := by
  unfold brakeFallback
  repeat' first
    | (with_reducible first
        | assumption | intro _ | apply keeps_ite | apply up_keeps K)
    | exact off_sub rfl hb | exact off_bit rfl hb | dsimp only | split

theorem trip_keeps (K : Keeps nb P) (s : State) (hits : List (Nat × Nat)) (hb : Off
    0x100000000000000000000000000000000000000000000000000000000000006E80000000000000001800000000000000400000000000000000000000000000000000000000000000000000000000000000000000000000000000000000000000000000000000000000000000000000000000000000000000000000000000000000000001F98287C00000000000000000000000000000000000000000000000000000000100000000000000000000000
    nb) (h : P s) : P (trip s hits) := by
  unfold trip
  repeat' first
    | (with_reducible first
        | assumption | intro _ | apply keeps_each | apply keeps_when | apply keeps_ite | apply up_keeps K
        | apply brakeFallback_keeps K | apply legToSafe_keeps K | apply recordFirst_keeps K | apply routeFollow_keeps K
        | apply tripOne_keeps K)
    | exact off_sub rfl hb | exact off_bit rfl hb | (unfold causeFld; split <;> exact off_bit rfl hb) | dsimp only | split

theorem causesCleared_keeps (K : Keeps nb P) (s : State) (hb : Off
    0xE00000000000000001800000000000000000000000000000000000000000000000000000000000000000000000000000000000000000000000000000000000000000000000000000000000000000000000000000000000000000000000000000000000000418200000000000000000000000000000000000000000000000000000000000000000000000000000000000
    nb) (h : P s) : P (causesCleared s) := by
  unfold causesCleared
  repeat' first
    | (with_reducible first
        | assumption | intro _ | apply keeps_each | apply keeps_ite | apply down_keeps K | apply driveLeg_keeps K
        | apply routeFollow_keeps K)
    | exact off_sub rfl hb | exact off_bit rfl hb | dsimp only | split

theorem tripFromRaw_keeps (K : Keeps nb P) (s : State) (c : Nat) (hb : Off
    0x100000000000000000000000000000000000000000000000000000000000007E80000000000000001800000000000000400000000000000000000000000000000000000000000000000000000000000000000000000000000000000000000000000000000000000000000000000000000000000000000000000000000000000000000001F98287C00000000000000000000000000000000000000000000000000000000100000000000000000000000
    nb) (h : P s) : P (tripFromRaw s c) := by
  unfold tripFromRaw
  repeat' first
    | (with_reducible first
        | assumption | intro _ | apply keeps_each | apply up_keeps K | apply trip_keeps K | (apply keeps_fst; assumption)
        | (apply keeps_snd; assumption))
    | exact off_sub rfl hb | exact off_bit rfl hb | dsimp only | split

theorem tripAgain_keeps (K : Keeps nb P) (s : State) (k : Nat) (hb : Off
    0x100000000000000000000000000000000000000000000000000000000000007E80000000000000001800000000000000400000000000000000000000000000000000000000000000000000000000000000000000000000000000000000000000000000000000000000000000000000000000000000000000000000000000000000000001F98287C00000000000000000000000000000000000000000000000000000000100000000000000000000000
    nb) (h : P s) : P (tripAgain s k) := by
  unfold tripAgain
  repeat' first
    | (with_reducible first
        | assumption | intro _ | apply keeps_when | apply keeps_ite | apply up_keeps K | apply trip_keeps K
        | (apply keeps_fst; assumption) | (apply keeps_snd; assumption))
    | exact off_sub rfl hb | exact off_bit rfl hb | dsimp only | split

theorem legsSafe_keeps (K : Keeps nb P) (s : State) (l : List Nat) (hb : Off
    0x6E00000000000000000000000000000000000000000000000000000000000000000000000000000000000000000000000000000000000000000000000000000000000000000000000000000000000000000000000000000000000000000000000000000000000200400000000000000000000000000000000000000000000000000000000000000000000000000000000
    nb) (h : P s) : P (legsSafe s l) := by
  unfold legsSafe
  repeat' first
    | (with_reducible first
        | assumption | intro _ | apply keeps_each | apply legToSafe_keeps K)
    | exact off_sub rfl hb | exact off_bit rfl hb | dsimp only | split

theorem orphanLegs_keeps (K : Keeps nb P) (s : State) (hb : Off
    0x6E00000000000000000000000000000000000000000000000000000000000000000000000000000000000000000000000000000000000000000000000000000000000000000000000000000000000000000000000000000000000000000000000000000000000200400000000800000000000000000000000000000000000000000000000000000000000000000000000
    nb) (h : P s) : P (orphanLegs s) := by
  unfold orphanLegs
  repeat' first
    | (with_reducible first
        | assumption | intro _ | apply keeps_each | apply keeps_ite | apply K.wr | apply up_keeps K
        | apply legToSafe_keeps K)
    | exact off_sub rfl hb | exact off_bit rfl hb | dsimp only | split

theorem hdsAbandon_keeps (K : Keeps nb P) (s : State) (hb : Off
    0x580000000000000000000000000000000000000000000000000000000000000000000000000000000000000000000000000000000000000000000000000000000000000000000000000000000000000000000000000000000000003C0000000000000000000000000000000000000000000000000000000000000000000000000000000000000000000000000000000000000000
    nb) (h : P s) : P (hdsAbandon s) := by
  unfold hdsAbandon
  repeat' first
    | (with_reducible first
        | assumption | intro _ | apply keeps_ite | apply K.wr | apply down_keeps K)
    | exact off_sub rfl hb | exact off_bit rfl hb | dsimp only | split

theorem lineDone_keeps (K : Keeps nb P) (s : State) (hb : Off
    0x10000000000000000000000000000000000000000000000000000000A0000000000000000000000010000000000000004000000000000000000000000000000000000000000000000000000000000000000000000000000000000000000000000000000000000000000000000000000000000000000143C0000000000000000000000000000000000000000000000000000000000000000000000000000000000000000000000000000000000000000
    nb) (h : P s) : P (lineDone s) := by
  unfold lineDone
  repeat' first
    | (with_reducible first
        | assumption | intro _ | apply keeps_when | apply K.wr | apply bump_keeps K | apply down_keeps K
        | apply postIf_keeps K | apply routePulse_keeps K)
    | exact off_sub rfl hb | exact off_bit rfl hb | dsimp only | split

theorem burstOver_keeps (K : Keeps nb P) (s : State) (hb : Off
    0x10000000000000000000000000000000000000000000000000000001A0000000000000000000000010000000000000004000000000000000000000000000000000000000000000000000000000000000000000000000000000000000000000000000000000000000000000000000000000000000000143C0000000000000000000000000000000000000000000000000000000000000000000000000000000000000000000000000000000000000000
    nb) (h : P s) : P (burstOver s) := by
  unfold burstOver
  repeat' first
    | (with_reducible first
        | assumption | intro _ | apply keeps_ite | apply down_keeps K | apply lineDone_keeps K)
    | exact off_sub rfl hb | exact off_bit rfl hb | dsimp only | split

theorem cutStrobes_keeps (K : Keeps nb P) (s : State) (hb : Off
    0x10000000000000000000000000000000000000000000000000000001A0000600000000000000000010000000000000004000000000000000000000000000000000000000000000000000000000000000000000000000000000000000000000000000000000000000000000000000000000000000000143C0000000000000000000000280000000000000000000000000000000000000000000000000000000000000000000000000000000000000000
    nb) (h : P s) : P (cutStrobes s) := by
  unfold cutStrobes
  repeat' first
    | (with_reducible first
        | assumption | intro _ | apply keeps_each | apply K.wr | apply down_keeps K | apply burstOver_keeps K)
    | exact off_sub rfl hb | exact off_bit rfl hb | dsimp only | split

theorem applyInhibit_keeps (K : Keeps nb P) (s : State) (hb : Off
    0x10000000000000000000000000000000000000000000000000000201A0000600000000000000000010000000000000004000000000000000000000000000000000000000000000000000000000000000000000000000000000000000000000000000000000000000000000000000000000000000000143C0000000000000000000000280000000000000000000000000000000000000000000000000000000000000000000000000000000000000000
    nb) (h : P s) : P (applyInhibit s) := by
  unfold applyInhibit
  repeat' first
    | (with_reducible first
        | assumption | intro _ | apply keeps_when | apply keeps_ite | apply up_keeps K | apply cutStrobes_keeps K)
    | exact off_sub rfl hb | exact off_bit rfl hb | dsimp only | split

theorem burstStart_keeps (K : Keeps nb P) (s : State) (width : Nat → Nat × Nat) (plane : Nat) (hb : Off
    0xF8000000000000000000000000000000000000000000000000000000000000000000000000000000000000000000000000000000000000000000000000000000000000000000000000000000000000000000000000000000000000000000000000000000C00000000000000000000000000000000000000000000000000000000000000000000000000000000000000000
    nb) (h : P s) : P (burstStart s width plane) := by
  unfold burstStart
  repeat' first
    | (with_reducible first
        | assumption | intro _ | apply keeps_each | apply keeps_when | apply keeps_ite | apply K.wr | apply bump_keeps K
        | apply up_keeps K)
    | exact off_sub rfl hb | exact off_bit rfl hb | dsimp only | split

theorem legsDrain_keeps (K : Keeps nb P) (s : State) (d : Nat) (hb : Off
    0x10000000000000000000000000000000000000000000000000000001A000066E000000000000000010000000000000004000000000000000000000000000000000000000000000000000000000000000000000000000000000000000000000000000000000000000000000000000000000000000000143C0000000000000000000000280000200400000000000000000000000000000000000000000000000000000000000000000000000000000000
    nb) (h : P s) : P (legsDrain s d) := by
  unfold legsDrain
  repeat' first
    | (with_reducible first
        | assumption | intro _ | apply keeps_ite | apply cutStrobes_keeps K | apply legsSafe_keeps K)
    | exact off_sub rfl hb | exact off_bit rfl hb | dsimp only | split

theorem capture_keeps (K : Keeps nb P) (s : State) (n : Nat) (rise : Bool) (hb : Off
    0x500000000000000000000000000000000000000000000000000000002000000000000000000000001000000000000000400000000000000000000000000000000000000000000000000000000000000000000000000000000000000000000000000000000000000000000000000000000000000000000000000000000000000000800000000000000000000000000000000000000000000000000000000000000000000000000000000000000000000
    nb) (h : P s) : P (capture s n rise) := by
  unfold capture
  repeat' first
    | (with_reducible first
        | assumption | intro _ | apply keeps_ite | apply K.wr | apply drew_keeps K | apply postIf_keeps K
        | apply pushq_keeps K | apply routePulse_keeps K)
    | exact off_sub rfl hb | exact off_bit rfl hb | dsimp only | split

theorem capturePop_keeps (K : Keeps nb P) (s : State) (n : Nat) (hb : Off
    0x400000000000000000000000000000000000000000000000000000000000000000000000000000000000000000000000000000000000000000000000000000000000000000000000000000000000000000000000000000000000000000000000000000000000000000000000000000000000000000000000000000000000000000000000000000000000000000000000000000000000000000000000000000000000000000000000000000000000000
    nb) (h : P s) : P (capturePop s n).2 := by
  unfold capturePop
  repeat' first
    | (with_reducible first
        | assumption | intro _ | apply K.setq | (apply keeps_fst; assumption) | (apply keeps_snd; assumption))
    | exact off_sub rfl hb | exact off_bit rfl hb | dsimp only | split

theorem qdStep_keeps (K : Keeps nb P) (s : State) (d ab : Nat) (hb : Off
    0x2000100000000000000000001000000000000000000000000000000000000000000000000000000000000000000000000000000000000000000000000000000000000000000000000000000000000000000000000000000000000000000000000000000580000000000000000000000000000000000000000000000000000000000000000000000000000000000000000000000
    nb) (h : P s) : P (qdStep s d ab) := by
  unfold qdStep
  repeat' first
    | (with_reducible first
        | assumption | intro _ | apply keeps_ite | apply K.wr | apply bump_keeps K | apply wrb_keeps K
        | apply routePulse_keeps K)
    | exact off_sub rfl hb | exact off_bit rfl hb | dsimp only | split

end
end Sys2Proof.Machine
end

