-- ==== Sys2Proof/Laws/KeepsStack.lean ====
section
/-!
SUPPORT. What each operation of Sys2Proof/Machine/Stack.lean can change: its footprint (Sys2Proof/Laws/Keeps.lean).
-/
namespace Sys2Proof.Machine
set_option linter.all false
section
variable {P : State → Prop} {nb : Nat}

theorem clearHomes_keeps (K : Keeps nb P) (s : State) (p : Home → Bool) (hb : Off 0x2000000000000000000000000000000000000000000000000000000000000000000000000000000000000000000000000000000000000000000000000000000000000000000000000000000000000000000000000000000000000000000000000000000000000000000000000000000000000000000000000000000000000000000000000000000000000000000000000000000000000000000000000000000000000000000000000000000000000000000000000000000000000000 nb) (hp : p .kept = false) (h : P s) :
    P (s.clearHomes p) := K.clear p (off_bit rfl hb) hp h

theorem resetDomain_keeps (K : Keeps nb P) (s : State) (d : Nat) (hb : Off
    0x2000000000000000000000000000000000000000000000000000000000000000000000000000000000000000000000000000000000000000000000000000000000000000000000000000000000000000000000000000000000000000000000000000000000000000000000000000000000000000000000000000000000000000000000000000000000000000000000000000000000000000000000000000000000000000000000000000000000000000000000000000000000000000
    nb) (h : P s) : P (State.resetDomain s d) := by
  unfold State.resetDomain
  repeat' first
    | (with_reducible first
        | assumption | intro _ | apply clearHomes_keeps K)
    | exact off_sub rfl hb | exact off_bit rfl hb | exact rfl | dsimp only | split

theorem resetDie_keeps (K : Keeps nb P) (s : State) (d : Die) (hb : Off
    0x2000000000000000000000000000000000000000000000000000000000000000000000000000000000000000000000000000000000000000000000000000000000000000000000000000000000000000000000000000000000000000000000000000000000000000000000000000000000000000000000000000000000000000000000000000000000000000000000000000000000000000000000000000000000000000000000000000000000000000000000000000000000000000
    nb) (h : P s) : P (State.resetDie s d) := by
  unfold State.resetDie
  repeat' first
    | (with_reducible first
        | assumption | intro _ | apply clearHomes_keeps K)
    | exact off_sub rfl hb | exact off_bit rfl hb | exact rfl | dsimp only | split

theorem powerDie_keeps (K : Keeps nb P) (s : State) (die : Die) (hb : Off
    0x100000000000000000000000000000000000000000000000000000000000000000000000000000000000000000000000000000000000000000000000000000000000000000000000000000000000000000000000000000000000000000000000000000000000000000000000000000000000000000000000000000000000000000000000000000000000000
    nb) (h : P s) : P (powerDie s die) := by
  unfold powerDie
  repeat' first
    | (with_reducible first
        | assumption | intro _ | apply keeps_each | apply keeps_ite | apply K.wr)
    | exact off_sub rfl hb | exact off_bit rfl hb | dsimp only | split

theorem unpowerDie_keeps (K : Keeps nb P) (s : State) (die : Die) (hb : Off
    0x100000000000000000000000000000000000000000000000000000000000000000000000000000000000000000000000000000000000000000000000000000000000000000000000000000000000000000000000000000000000000000000000000000000000000000000000000000000000000000000000000000000000000000000000000000000000000
    nb) (h : P s) : P (unpowerDie s die) := by
  unfold unpowerDie
  repeat' first
    | (with_reducible first
        | assumption | intro _ | apply keeps_each | apply K.wr)
    | exact off_sub rfl hb | exact off_bit rfl hb | dsimp only | split

theorem clockRequest_keeps (K : Keeps nb P) (s : State) (c who : Nat) (hb : Off
    0x40000000000000000000000000000000000000000000000000000000000000000000000000000000000000000000000000000000000000000000000000000000000000000000000000000000000000000000000000000000000000000000000000000000000000000000000000000000000000000000080000000000000000000000000000000000000000
    nb) (h : P s) : P (clockRequest s c who) := by
  unfold clockRequest
  repeat' first
    | (with_reducible first
        | assumption | intro _ | apply keeps_ite | apply K.wr | apply up_keeps K)
    | exact off_sub rfl hb | exact off_bit rfl hb | dsimp only | split

theorem clockGrant_keeps (K : Keeps nb P) (s : State) (c : Nat) (hb : Off
    0x80000000000000000000000000000000000000000000000000000000000000000000000000000000000000000000000000000000000000000000000000000000000000000000000000000000000000000000000000000000000000000000000000000000000000000000000000000000000000000000100000000000000000000000000000000000000000
    nb) (h : P s) : P (clockGrant s c) := by
  unfold clockGrant
  repeat' first
    | (with_reducible first
        | assumption | intro _ | apply keeps_ite | apply K.wr | apply up_keeps K)
    | exact off_sub rfl hb | exact off_bit rfl hb | dsimp only | split

theorem clockStop_keeps (K : Keeps nb P) (s : State) (c : Nat) (hb : Off
    0x80000000000000000000000000000000000000000000000000000000000000000000000000000000000000000000000000000000000000000000000000000000000000000000000000000000000000000000000000000000000000000000000000000000000000000000000000000000000000000000100000000000000000000000000000000000000000
    nb) (h : P s) : P (clockStop s c) := by
  unfold clockStop
  repeat' first
    | (with_reducible first
        | assumption | intro _ | apply keeps_ite | apply K.wr | apply down_keeps K)
    | exact off_sub rfl hb | exact off_bit rfl hb | dsimp only | split

theorem clockRelease_keeps (K : Keeps nb P) (s : State) (c who : Nat) (hb : Off
    0xC0000000000000000000000000000000000000000000000000000000000000000000000000000000000000000000000000000000000000000000000000000000000000000000000000000000000000000000000000000000000000000000000000000000000000000000000000000000000000000000180000000000000000000000000000000000000000
    nb) (h : P s) : P (clockRelease s c who) := by
  unfold clockRelease
  repeat' first
    | (with_reducible first
        | assumption | intro _ | apply keeps_ite | apply K.wr | apply down_keeps K | apply clockStop_keeps K)
    | exact off_sub rfl hb | exact off_bit rfl hb | dsimp only | split

theorem clkReqWritten_keeps (K : Keeps nb P) (s : State) (hb : Off
    0xC0000000000000000000000000000000000000000000000000000000000000000000000000000000000000000000000000000000000000000000000000000000000000000000000000000000000000000000000000000000000000000000000000000000000000000000000000000000000000000000100000000000000000000000000000000000000000
    nb) (h : P s) : P (clkReqWritten s) := by
  unfold clkReqWritten
  repeat' first
    | (with_reducible first
        | assumption | intro _ | apply keeps_each | apply keeps_ite | apply down_keeps K | apply up_keeps K
        | apply clockStop_keeps K)
    | exact off_sub rfl hb | exact off_bit rfl hb | dsimp only | split

theorem withdrawClocks_keeps (K : Keeps nb P) (s : State) (l : List Nat) (hb : Off
    0xC0000000000000000000000000000000000000000000000000000000000000000000000000000000000000000000000000000000000000000000000000000000000000000000000000000000000000000000000000000000000000000000000000000000000000000000000000000000000000000000100000000000000000000000000000000000000000
    nb) (h : P s) : P (withdrawClocks s l) := by
  unfold withdrawClocks
  repeat' first
    | (with_reducible first
        | assumption | intro _ | apply keeps_each | apply down_keeps K | apply clockStop_keeps K)
    | exact off_sub rfl hb | exact off_bit rfl hb | dsimp only | split

theorem clockLost_keeps (K : Keeps nb P) (s : State) (c : Nat) (hb : Off
    0x80000000000000000000000000000000000000000000000000000000000000000000000000000000000000000000000000000000000000000000000000000000000000000000000000000000000000000000000000000000000000000000000000000000000000000000000000000000000000000000100000000000000000000000000000000000000000
    nb) (h : P s) : P (clockLost s c) := by
  unfold clockLost
  repeat' first
    | (with_reducible first
        | assumption | intro _ | apply K.wr | apply down_keeps K)
    | exact off_sub rfl hb | exact off_bit rfl hb | dsimp only | split

theorem rmiiWithdrawn_keeps (K : Keeps nb P) (s : State) (hb : Off
    0xC0000000000000000000000000000000000000000000000000000000000000000000000000000000000000000000000000000000000000000000000000000000000000000000000000000000000000000000000000000000000000000000000000000000000000000000000000000000000000000000100000000000000000000000000000000000000000
    nb) (h : P s) : P (rmiiWithdrawn s) := by
  unfold rmiiWithdrawn
  repeat' first
    | (with_reducible first
        | assumption | intro _ | apply keeps_each | apply down_keeps K | apply clockStop_keeps K)
    | exact off_sub rfl hb | exact off_bit rfl hb | dsimp only | split

theorem ledgerRaise_keeps (K : Keeps nb P) (s : State) (b : Nat) (hb : Off
    0x100000000000000000000000000000000000000000000000000000000000000000000000000000000000000000000000000000000000000000000000000000000000000000000000000000000000000000000000000000000000000000000000000000000000000000000000000000000000000000000000002000000000000000000000000
    nb) (h : P s) : P (ledgerRaise s b) := by
  unfold ledgerRaise
  repeat' first
    | (with_reducible first
        | assumption | intro _ | apply keeps_ite | apply K.wr | apply up_keeps K)
    | exact off_sub rfl hb | exact off_bit rfl hb | dsimp only | split

theorem spCount_keeps (K : Keeps nb P) (s : State) (hb : Off
    0x100000000000000000000000000000000000000000000000000000000000000000000000000000000000000000000000000000000000000000000000000000000000000000000000000000000000000000000000000000000000000000000000000000000000000000000000000000000000000000000000402000000000000000000000000
    nb) (h : P s) : P (spCount s) := by
  unfold spCount
  repeat' first
    | (with_reducible first
        | assumption | intro _ | apply keeps_ite | apply bump_keeps K | apply up_keeps K | apply ledgerRaise_keeps K)
    | exact off_sub rfl hb | exact off_bit rfl hb | dsimp only | split

theorem outcome_keeps (K : Keeps nb P) (s : State) (tier cause : Nat) (hb : Off 0x200000000000080 nb) (h : P s) : P
    (outcome s tier cause) := by
  unfold outcome
  repeat' first
    | (with_reducible first
        | assumption | intro _ | apply K.wr)
    | exact off_sub rfl hb | exact off_bit rfl hb | dsimp only | split

theorem outputsSafe_keeps (K : Keeps nb P) (s : State) (hb : Off
    0x10000000000000000000000000000000000000000000000000000001A000066E000000000000000010000000000000004000000000000000000000000000000000000000000000000000000000000000000000000000000000000000000000000000000000000000000000000000000000000000000143C0000000000000000000000280000200400000000000000000000000000000000000000000000000000000000000000000000000000000000
    nb) (h : P s) : P (outputsSafe s) := by
  unfold outputsSafe
  repeat' first
    | (with_reducible first
        | assumption | intro _ | apply keeps_ite | apply cutStrobes_keeps K | apply legsSafe_keeps K)
    | exact off_sub rfl hb | exact off_bit rfl hb | dsimp only | split

theorem confine_keeps (K : Keeps nb P) (s : State) (cause : Nat) (hb : Off
    0x10000000000000000000000000000000000000000000000000000001A000066E000000000000000010000000000000004080000000000000000000000000000000000000000000000000000000000000000000000000000000000000000000000000000000000000000000000000000000000000000143C0000000000000000000000280000200400000000000000000000000000000000000000000000000000000000000000000200000000000080
    nb) (h : P s) : P (confine s cause) := by
  unfold confine
  repeat' first
    | (with_reducible first
        | assumption | intro _ | apply keeps_ite | apply K.wr | apply outcome_keeps K | apply outputsSafe_keeps K)
    | exact off_sub rfl hb | exact off_bit rfl hb | dsimp only | split

theorem reject_keeps (K : Keeps nb P) (s : State) (code type off source : Nat) (hb : Off 0xF000000000000000000000000000000
    nb) (h : P s) : P (reject s code type off source) := by
  unfold reject
  repeat' first
    | (with_reducible first
        | assumption | intro _ | apply K.wr)
    | exact off_sub rfl hb | exact off_bit rfl hb | dsimp only | split

theorem liveDiscard_keeps (K : Keeps nb P) (s : State) (code : Nat) (hb : Off
    0x40000000000000000000000000000000000000000000000000000000000000000000000000000000000000000000000000000000000000000000000000000000000000000000000000000000000000000000000000000000000000000000000000000000000000000000000000000000000000000000000000000000000000000000000000000000000000000000000000000000000000000000000000000000060F000000000000000000000000000000
    nb) (h : P s) : P (liveDiscard s code) := by
  unfold liveDiscard
  repeat' first
    | (with_reducible first
        | assumption | intro _ | apply keeps_ite | apply K.setq | apply K.wr | apply reject_keeps K)
    | exact off_sub rfl hb | exact off_bit rfl hb | dsimp only | split

theorem dropRange_keeps (K : Keeps nb P) (s : State) (lo hi : Nat) (hb : Off
    0x1000000000000000000000000000000000000000000000000000000000000000000000000000000000000000000000000000000000000000000000000000000000000000000000000000000000000000000000000000000000000000000000000000000000000000000000000000000000000000000000000000000000000000000000000000000000000000000000000000000000000000000000000000000000000000000000000000000000000000000000000000000000000000
    nb) (h : P s) : P (dropRange s lo hi) := by
  unfold dropRange
  repeat' first
    | (with_reducible first
        | assumption | intro _ | apply parts_of K | apply parts_regs K | apply parts_queues K | apply parts_mem K
        | apply parts_bad K)
    | exact off_sub rfl hb | exact off_bit rfl hb | dsimp only | split | simp only [parts_mk K]

theorem lockFollows_keeps (K : Keeps nb P) (s : State) (hb : Off
    0x10000000000000000000000000000000000000000000000000000000000000000000000000000000000000000000000000000000000000000000000000000000000000000000000000000000000000000000000000000000000000000000000000000000000000000000000000000
    nb) (h : P s) : P (lockFollows s) := by
  unfold lockFollows
  repeat' first
    | (with_reducible first
        | assumption | intro _ | apply K.wr)
    | exact off_sub rfl hb | exact off_bit rfl hb | dsimp only | split

theorem debugAbsent_keeps (K : Keeps nb P) (s : State) (p : Nat → Bool) (hb : Off
    0xC200000000000000000000000000000000000000000000000000000000000000000000000000000000000000000000000000000000000000000000000000000000000000000000000000000000000000000000000000000000000000000000000000000000000000000000000000000000000000000000000000000000000000000000000000000000000000000000000000000000000000000000000000000000000000000000000
    nb) (h : P s) : P (debugAbsent s p) := by
  unfold debugAbsent
  repeat' first
    | (with_reducible first
        | assumption | intro _ | apply keeps_ite | apply K.wr | apply down_keeps K)
    | exact off_sub rfl hb | exact off_bit rfl hb | dsimp only | split

theorem authEnds_keeps (K : Keeps nb P) (s : State) (hb : Off
    0x10000000000000000000000000000000000000000000000000000000000000000000000000000000000000000000000000000000000000000000000000000000000000000000000000000000000000000000000000000000000000000000000000000000000000000000000000000000000000000000000000000000000000000000000000000000000000000000000000000000000000000000000000000000000000000000000000
    nb) (h : P s) : P (authEnds s) := by
  unfold authEnds
  repeat' first
    | (with_reducible first
        | assumption | intro _ | apply keeps_ite | apply K.wr)
    | exact off_sub rfl hb | exact off_bit rfl hb | dsimp only | split

theorem fabricLosesC_keeps (K : Keeps nb P) (s : State) (hb : Off
    0x1000100000000000000000000000000000000000000000000000000000000000000000000000003DF8000000000000000000400000000000000000000000000000000000000000000000000000000000000000000000000000000000000000000000000000000000000000000000000000000000000000000000000000000000000000000000000000000000000000000000000000000000000000000000003C60000000000000000000000000200000000
    nb) (h : P s) : P (fabricLosesC s) := by
  unfold fabricLosesC
  repeat' first
    | (with_reducible first
        | assumption | intro _ | apply keeps_each | apply keeps_ite | apply K.setq | apply K.wr | apply answerHeldBy_keeps K
        | apply answerTags_keeps K | apply parts_of K | apply parts_regs K | apply parts_queues K | apply parts_mem K
        | apply parts_bad K)
    | exact off_sub rfl hb | exact off_bit rfl hb | dsimp only | split | simp only [parts_mk K]

theorem cDieLoss_keeps (K : Keeps nb P) (s : State) (cause : Nat) (hb : Off
    0x300000000000000000000140010000000000001C20000000000000000000000000000000000000005A000066E000000001C3DF80010001000000000004580000000000000000000000000000000100000000000000000000000000000000000000000000000000000000000000000000000000000000000000000000000000100000143C0020000000000000000000280000200400000000800000000000000000000000000000100003C6060F000002060200000200000200042180
    nb) (h : P s) : P (cDieLoss s cause) := by
  unfold cDieLoss
  repeat' first
    | (with_reducible first
        | assumption | intro _ | apply keeps_ite | apply K.wr | apply down_keeps K | apply resetDie_keeps K
        | apply up_keeps K | apply authEnds_keeps K | apply confine_keeps K | apply cutStrobes_keeps K
        | apply debugAbsent_keeps K | apply dropRange_keeps K | apply fabricLosesC_keeps K | apply hdsAbandon_keeps K
        | apply ledgerRaise_keeps K | apply liveDiscard_keeps K | apply lockFollows_keeps K | apply orphanLegs_keeps K
        | apply unpowerDie_keeps K | apply withdrawClocks_keeps K | apply parts_of K | (apply keeps_fst; assumption)
        | (apply keeps_snd; assumption))
    | exact off_sub rfl hb | exact off_bit rfl hb | dsimp only | with_reducible apply parts_noQueues K | split
    | simp only [parts_mk K]

theorem programWord_keeps (K : Keeps nb P) (s : State) (a v : Nat) (hb : Off
    0x1000000000000000000000000000000000000000000000000000000000000000000000000000000000000000000000000000000000000000000000000000000000000000000000000000000000000000000000000000000000000000000000000000000000000000000000000000000000000000000000000000000000000000000000000000000000000000000000000000000000000000000000000000000000000000000000000000000000000000000000000000000000000000
    nb) (h : P s) : P (programWord s a v) := by
  unfold programWord
  repeat' first
    | (with_reducible first
        | assumption | intro _ | apply heal_keeps K | apply mset_keeps K)
    | exact off_sub rfl hb | exact off_bit rfl hb | dsimp only | split

theorem cutWord_keeps (K : Keeps nb P) (s : State) (a v : Nat) (may : Bool) (hb : Off
    0x1000000000000000000000000000000000000000000000000000000000000000000000000000000000000000000000000000000000000000000000000000000000000000000000000000000000000000000000000000000000000000000000000000000000000000000000000000000000000000000000000000000000000000000000000000000000000000000000000000000000000000000000000000000000000000000000000000000000000000000000000000000000000000
    nb) (h : P s) : P (cutWord s a v may) := by
  unfold cutWord
  repeat' first
    | (with_reducible first
        | assumption | intro _ | apply keeps_ite | apply K.spoil | apply drew_keeps K | apply programWord_keeps K)
    | exact off_sub rfl hb | exact off_bit rfl hb | dsimp only | split

theorem cutWrites_keeps (K : Keeps nb P) (s : State) (ws : List (Nat × Nat)) (may : Bool) (hb : Off
    0x1000000000000000000000000000000000000000000000000000000000000000000000000000000000000000000000000000000000000000000000000000000000000000000000000000000000000000000000000000000000000000000000000000000000000000000000000000000000000000000000000000000000000000000000000000000000000000000000000000000000000000000000000000000000000000000000000000000000000000000000000000000000000000
    nb) (h : P s) : P (cutWrites s ws may) := by
  unfold cutWrites
  repeat' first
    | (with_reducible first
        | assumption | intro _ | apply keeps_each | apply drew_keeps K | apply cutWord_keeps K | apply programWord_keeps K)
    | exact off_sub rfl hb | exact off_bit rfl hb | dsimp only | split

theorem cutNvm_keeps (K : Keeps nb P) (s : State) (hb : Off
    0x1000000000000000000000000000000000000000000000000000000000000000000000000000000000000000000000000000000000000000000000000000000000000000000000000000000000000000000000000000000000000000000000000000000000000000000000000000000000000000000000000000000000000000000000000000000000000000000000000000000000000000000000000000000000000000000000000000000000000000000000000000000000000000
    nb) (h : P s) : P (cutNvm s) := by
  unfold cutNvm
  repeat' first
    | (with_reducible first
        | assumption | intro _ | apply keeps_each | apply keeps_when | apply cutWrites_keeps K)
    | exact off_sub rfl hb | exact off_bit rfl hb | dsimp only | split

theorem mDieLoss_keeps (K : Keeps nb P) (s : State) (cause : Nat) (hb : Off
    0x300000000000000000000000010000000000000C2000000000000000000000000000000000000000000000000000000001C3DF80000001000840000004A0000000000000000000000000000000000008000000000000000000000000000000000000000000000000000000000000000000000000000000000000000000000000000000000000000000000000000000000000000000000000000000000000000000000000000000100003C60000000002000400000000000200084200
    nb) (h : P s) : P (mDieLoss s cause) := by
  unfold mDieLoss
  repeat' first
    | (with_reducible first
        | assumption | intro _ | apply keeps_when | apply keeps_ite | apply K.wr | apply post_keeps K
        | apply resetDie_keeps K | apply up_keeps K | apply answerHeldBy_keeps K | apply answerTags_keeps K
        | apply cutNvm_keeps K | apply debugAbsent_keeps K | apply ledgerRaise_keeps K | apply unpowerDie_keeps K
        | apply withdrawClocks_keeps K)
    | exact off_sub rfl hb | exact off_bit rfl hb | dsimp only | split

theorem bindOff_keeps (K : Keeps nb P) (s : State) (src : Nat) (hb : Off
    0x300000000000000000000140010000000000001C20000000000000000000000000000000000000005A000066E000000001C3DF80010001000850000004F80000000000000000000000000000000100080000000000000000000000000000000000000000000000000000000000000000000000000000000000000000000000100000143C0020000000000000000000280000200400000000800000000000000000000000000000100003C6060F0000020E06000802000002000C6380
    nb) (h : P s) : P (bindOff s src) := by
  unfold bindOff
  repeat' first
    | (with_reducible first
        | assumption | intro _ | apply keeps_ite | apply K.wr | apply up_keeps K | apply cDieLoss_keeps K
        | apply cutStrobes_keeps K | apply legsSafe_keeps K | apply liveDiscard_keeps K | apply mDieLoss_keeps K
        | apply outcome_keeps K)
    | exact off_sub rfl hb | exact off_bit rfl hb | dsimp only | split

theorem dropVolatile_keeps (K : Keeps nb P) (s : State) (hb : Off
    0x1000000000000000000000000000000000000000000000000000000000000000000000000000000000000000000000000000000000000000000000000000000000000000000000000000000000000000000000000000000000000000000000000000000000000000000000000000000000000000000000000000000000000000000000000000000000000000000000000000000000000000000000000000000000000000000000000000000000000000000000000000000000000000
    nb) (h : P s) : P (dropVolatile s) := by
  unfold dropVolatile
  repeat' first
    | (with_reducible first
        | assumption | intro _ | apply parts_of K | apply parts_regs K | apply parts_queues K | apply parts_mem K
        | apply parts_bad K)
    | exact off_sub rfl hb | exact off_bit rfl hb | dsimp only | split | simp only [parts_mk K]

theorem bReset_keeps (K : Keeps nb P) (s : State) (cause : Fld) (hb : Off
    0x300000000000000000000000010000000000001C20000000000000000000000000000000000000001A000066E000000001000000010000000000000004080100000000000000000000000000000100000000000000000000000000000000000000000000000000000000000000000000000000000000000000000000000000000000143C0000000000000000000000280000200400000000000000000000000000000000000000000003C60000000000000800000200000200000080
    nb) (hcause : nb.testBit (slot cause.id) = false) (h : P s) : P (bReset s cause) := by
  unfold bReset
  repeat' first
    | (with_reducible first
        | assumption | intro _ | apply keeps_when | apply keeps_ite | apply clearHomes_keeps K | apply down_keeps K
        | apply up_keeps K | apply answerHeldBy_keeps K | apply authEnds_keeps K | apply confine_keeps K
        | apply cutNvm_keeps K | apply debugAbsent_keeps K | apply dropRange_keeps K | apply lockFollows_keeps K
        | apply powerDie_keeps K | apply parts_of K | (apply keeps_fst; assumption) | (apply keeps_snd; assumption))
    | exact off_sub rfl hb | exact off_bit rfl hb | exact rfl | dsimp only | with_reducible apply parts_noQueues K | split
    | simp only [parts_mk K]

theorem powerOff_keeps (K : Keeps nb P) (s : State) (hb : Off fpAll nb) (h : P s) : P (powerOff s) := by
  unfold powerOff
  repeat' first
    | (with_reducible first
        | assumption | intro _ | apply cutNvm_keeps K | apply dropVolatile_keeps K | apply lockFollows_keeps K
        | apply parts_of K | apply parts_regs K | apply parts_queues K | apply parts_mem K | apply parts_bad K
        | (apply keeps_fst; assumption) | (apply keeps_snd; assumption))
    | exact off_sub rfl hb | exact off_bit rfl hb | dsimp only | with_reducible apply parts_noQueues K | split
    | simp only [parts_mk K]

theorem setSpare_keeps (K : Keeps nb P) (s : State) (b k lane : Nat) (fused : Bool) (hb : Off 0x1FF0000000000 nb) (h : P s)
    : P (setSpare s b k lane fused) := by
  unfold setSpare
  repeat' first
    | (with_reducible first
        | assumption | intro _ | apply K.wr | apply up_keeps K)
    | exact off_sub rfl hb | exact off_bit rfl hb | dsimp only | split

theorem assignControl_keeps (K : Keeps nb P) (s : State) (hb : Off 0x800000000 nb) (h : P s) : P (assignControl s) := by
  unfold assignControl
  repeat' first
    | (with_reducible first
        | assumption | intro _ | apply keeps_each | apply wrb_keeps K)
    | exact off_sub rfl hb | exact off_bit rfl hb | dsimp only | split

theorem stranded_keeps (K : Keeps nb P) (s : State) (t : Nat) (hb : Off
    0x100000000000000000000000000000000000000000000000000000000000000000000000003DF8000000000000000000400000000000000000000000000000000000000000000000000000000000000000000000000000000000000000000000000000000000000000000000000000000000000000000000000000000000000000000000000000000000000000000000000000000000000000000000003C60000000000000000000000000200000000
    nb) (h : P s) : P (stranded s t) := by
  unfold stranded
  repeat' first
    | (with_reducible first
        | assumption | intro _ | apply keeps_ite | apply drew_keeps K | apply answerTag_keeps K)
    | exact off_sub rfl hb | exact off_bit rfl hb | dsimp only | split

theorem retireBundle_keeps (K : Keeps nb P) (s : State) (b : Nat) (hb : Off
    0x300000000000000000000140010000000000001C20000000000000000000000000000000000000005A000066E000000001C3DF80010001000842000004F80000000000000000000000000000000100080000000000000000000000000000000000000000000000000000000000000000000000000000000000000000000000100000143C0020000000000000000000280000200400000000800000000000000000000000000000100003C6060F000002060600000200000E002C6380
    nb) (h : P s) : P (retireBundle s b) := by
  unfold retireBundle
  repeat' first
    | (with_reducible first
        | assumption | intro _ | apply keeps_each | apply keeps_ite | apply K.wr | apply post_keeps K | apply up_keeps K
        | apply assignControl_keeps K | apply cDieLoss_keeps K | apply ledgerRaise_keeps K | apply mDieLoss_keeps K
        | apply stranded_keeps K)
    | exact off_sub rfl hb | exact off_bit rfl hb | dsimp only | split

theorem repairLane_keeps (K : Keeps nb P) (s : State) (b lane k : Nat) (hb : Off
    0x100000100000000000000000000000000000000000000000000000000000000000000000000000000000000000000000000000000000000000000000000000000000000000000000000000000000000000000000000000000000000000000000000000000000000000000000000000000000000000000000002000000000001FF1000000000
    nb) (h : P s) : P (repairLane s b lane k) := by
  unfold repairLane
  repeat' first
    | (with_reducible first
        | assumption | intro _ | apply keeps_ite | apply K.wr | apply up_keeps K | apply ledgerRaise_keeps K
        | apply setSpare_keeps K)
    | exact off_sub rfl hb | exact off_bit rfl hb | dsimp only | split

theorem trainLane_keeps (K : Keeps nb P) (s : State) (b lane : Nat) (hb : Off
    0x300000000000000000000140010000000000001C20000000000000000000000000000000000000005A000066E000000001C3DF80010001000843000004F80000000000000000000000000000000100080000000000000000000000000000000000000000000000000000000000000000000000000000000000000000000000100000143C0020000000000000000000280000200400000000800000000000000000000000000000100003C6060F000002060600000201FF1E002C6380
    nb) (h : P s) : P (trainLane s b lane) := by
  unfold trainLane
  repeat' first
    | (with_reducible first
        | assumption | intro _ | apply keeps_ite | apply up_keeps K | apply repairLane_keeps K | apply retireBundle_keeps K)
    | exact off_sub rfl hb | exact off_bit rfl hb | dsimp only | split

theorem freshBundle_keeps (K : Keeps nb P) (s : State) (b : Nat) (hb : Off
    0x100000000000000000000000000000000000000000000000000000000000000000000000000000000000000000000007C00000000000000000000000000000000000000000000000000000000000000000000000000000000000000000000000000000000000000000000000000000000000000000000000000000000000000000000000000000000000000000000000000000000000000000000000000000000000000000000000000000000000000
    nb) (h : P s) : P (freshBundle s b) := by
  unfold freshBundle
  repeat' first
    | (with_reducible first
        | assumption | intro _ | apply keeps_each | apply K.setq | apply K.wr | apply down_keeps K)
    | exact off_sub rfl hb | exact off_bit rfl hb | dsimp only | split

end
end Sys2Proof.Machine
end

