-- ==== Sys2Proof/Laws/KeepsPower.lean ====
section
/-!
SUPPORT. What each operation of Sys2Proof/Machine/Power.lean can change: its footprint (Sys2Proof/Laws/Keeps.lean).
-/
namespace Sys2Proof.Machine
set_option linter.all false
section
variable {P : State → Prop} {nb : Nat}

theorem resetAborts_keeps (K : Keeps nb P) (s : State) (l : List Nat) (hb : Off
    0x100000000000000000000000000000000000000000000000000000000000000000000000003DF8000000000000000000400000000000000000000000000000000000000000000000000000000000000000000000000000000000000000000000000000000000000000000000000000000000000000000000000000000000000000000000000000000000000000000000000000000000000000000000003C60000000000000000000000000200000000
    nb) (h : P s) : P (resetAborts s l) := by
  unfold resetAborts
  repeat' first
    | (with_reducible first
        | assumption | intro _ | apply answerHeldBy_keeps K | apply answerTags_keeps K)
    | exact off_sub rfl hb | exact off_bit rfl hb | dsimp only | split

theorem forceOff_keeps (K : Keeps nb P) (s : State) (l : List Nat) (hb : Off
    0x20000000000000000000000001000000000000000000000000000000000000000000000000000000000000000000000001C3DF8000000000000000000400000000000000000000000000000000000000000000000000000000000000000000000000000000000000000000000000000000000000000000000000000000000000000000000000000000000000000000000000000000000000000000000000000000000000000000100003C60000000000000000000000000200000000
    nb) (h : P s) : P (forceOff s l) := by
  unfold forceOff
  repeat' first
    | (with_reducible first
        | assumption | intro _ | apply keeps_each | apply K.wr | apply resetDomain_keeps K | apply resetAborts_keeps K
        | apply withdrawClocks_keeps K)
    | exact off_sub rfl hb | exact off_bit rfl hb | dsimp only | split

theorem setRail_keeps (K : Keeps nb P) (s : State) (r : Rail) (b : Bool) (hb : Off
    0x4000000000000000000000000000000000000000000000 nb) (h : P s) : P (setRail s r b) := by
  unfold setRail
  repeat' first
    | (with_reducible first
        | assumption | intro _ | apply K.wr)
    | exact off_sub rfl hb | exact off_bit rfl hb | dsimp only | split

theorem powerList_keeps (K : Keeps nb P) (s : State) (l : List Nat) (hb : Off
    0x100000000000000000000000000000000000000000000000000000000000000000000000000000000000000000000000000000000000000000000000000000000000000000000000000000000000000000000000000000000000000000000000000000000000000000000000000000000000000000000000000000000000000000000000000000000000000
    nb) (h : P s) : P (powerList s l) := by
  unfold powerList
  repeat' first
    | (with_reducible first
        | assumption | intro _ | apply keeps_each | apply keeps_ite | apply K.wr)
    | exact off_sub rfl hb | exact off_bit rfl hb | dsimp only | split

theorem railRise_keeps (K : Keeps nb P) (s : State) (r : Rail) (testEn : Bool) (hb : Off
    0x10000000000000000000000000000000000000000000000000000001A000066E000000081000000010000000000000004080000000000000000000000000000002000000000000000000000000000000000000000000000000000000000000000000000000000000000000000000000000000000000143C0000000000000000000000280000200400000000000000000000000000000000004000000000000000000000000000000200000000000080
    nb) (h : P s) : P (railRise s r testEn) := by
  unfold railRise
  repeat' first
    | (with_reducible first
        | assumption | intro _ | apply keeps_ite | apply up_keeps K | apply confine_keeps K | apply powerDie_keeps K
        | apply powerList_keeps K | apply setRail_keeps K)
    | exact off_sub rfl hb | exact off_bit rfl hb | dsimp only | split

theorem railFall_keeps (K : Keeps nb P) (s : State) (r : Rail) (hb : Off fpAll nb) (h : P s) : P (railFall s r) := by
  unfold railFall
  repeat' first
    | (with_reducible first
        | assumption | intro _ | apply keeps_ite | apply K.wr | apply post_keeps K | apply up_keeps K | apply bReset_keeps K
        | apply bindOff_keeps K | apply cDieLoss_keeps K | apply cutStrobes_keeps K | apply dropVolatile_keeps K
        | apply forceOff_keeps K | apply hdsAbandon_keeps K | apply powerOff_keeps K | apply setRail_keeps K
        | (apply keeps_fst; assumption) | (apply keeps_snd; assumption))
    | exact off_sub rfl hb | exact off_bit rfl hb | exact off_any (off_sub rfl hb) | dsimp only | split

theorem bankDetect_keeps (K : Keeps nb P) (s : State) (v18 : Bool) (hb : Off
    0x4000000000000000000000000000000000000000000000000000000000000000000000000000000000000000000000000000000000000000000000000000000000000000000000000000000000000000000000000000000000000000000000000000000000000000000000000000000000200008000000000000000000000000000000000000000000000
    nb) (h : P s) : P (bankDetect s v18) := by
  unfold bankDetect
  repeat' first
    | (with_reducible first
        | assumption | intro _ | apply keeps_ite | apply up_keeps K | apply wrb_keeps K)
    | exact off_sub rfl hb | exact off_bit rfl hb | dsimp only | split

theorem oscFail_keeps (K : Keeps nb P) (s : State) (hb : Off
    0x100000000000000000000000000000000000000000000000000000000000000000000000000000000000000000000000000000000000000000000000000000000000000000000000000000000000000000000000000000000000000000000000000000000000000000000000000000000000000000000000002000000002000000000000000
    nb) (h : P s) : P (oscFail s) := by
  unfold oscFail
  repeat' first
    | (with_reducible first
        | assumption | intro _ | apply up_keeps K | apply ledgerRaise_keeps K)
    | exact off_sub rfl hb | exact off_bit rfl hb | dsimp only | split

theorem moveRef_keeps (K : Keeps nb P) (s : State) (hsxo : Bool) (hb : Off
    0x10000000000000000000000000000000000000000000000000000000000000000000000000000000000000000000000000000000000000000000000000000000000000000000000000000000000000000000000000000000000000000000000000000000000000000000000000000000000000000000000000000000000000000000000000000000000000
    nb) (h : P s) : P (moveRef s hsxo) := by
  unfold moveRef
  repeat' first
    | (with_reducible first
        | assumption | intro _ | apply up_keeps K | apply wrb_keeps K)
    | exact off_sub rfl hb | exact off_bit rfl hb | dsimp only | split

theorem hsxoStable_keeps (K : Keeps nb P) (s : State) (hb : Off
    0x18000000000000000000000000000000000000000000000000000000000000000000000000000000000000000000000000000000000000000000000000000000000000000000000000000000000000000000000000000000000000000000000000000000000000000000000000000000000000000000000000000000000000000000000000000000000000
    nb) (h : P s) : P (hsxoStable s) := by
  unfold hsxoStable
  repeat' first
    | (with_reducible first
        | assumption | intro _ | apply keeps_ite | apply up_keeps K | apply moveRef_keeps K)
    | exact off_sub rfl hb | exact off_bit rfl hb | dsimp only | split

theorem hsxoStartTimeout_keeps (K : Keeps nb P) (s : State) (hb : Off
    0x100000000000000000000000000000000000000000000000000000000000000000000000000000000000000000000000000000000000000000000000000000000000000000000000000000000000000000000000000000000000000000000000000000000000000000000000000000000000000000000000002000000002000000000000000
    nb) (h : P s) : P (hsxoStartTimeout s) := by
  unfold hsxoStartTimeout
  repeat' first
    | (with_reducible first
        | assumption | intro _ | apply keeps_ite | apply oscFail_keeps K)
    | exact off_sub rfl hb | exact off_bit rfl hb | dsimp only | split

theorem hsxoStop_keeps (K : Keeps nb P) (s : State) (hb : Off
    0x98000000000100000000000000000000000000000000000000000000000000000000000000000000000000000000000000000000000000000000000000000000000000000000000000000000000000000000000000000000000000000000000000000000000000000000000000000000000000000000100000000000000002000000002000000000000000
    nb) (h : P s) : P (hsxoStop s) := by
  unfold hsxoStop
  repeat' first
    | (with_reducible first
        | assumption | intro _ | apply keeps_ite | apply down_keeps K | apply clockLost_keeps K | apply moveRef_keeps K
        | apply oscFail_keeps K)
    | exact off_sub rfl hb | exact off_bit rfl hb | dsimp only | split

theorem pllLock_keeps (K : Keeps nb P) (s : State) (hb : Off
    0x20000000000000000000000000000000000000000000000000000000000000000000000000000000000000000000000000000000000000000000000000000000000000000000000000000000000000000000000000000000000000000000000000000000000000000000000000000000000000000000600000000000000000000000000000000000000000
    nb) (h : P s) : P (pllLock s) := by
  unfold pllLock
  repeat' first
    | (with_reducible first
        | assumption | intro _ | apply keeps_ite | apply up_keeps K | apply wrb_keeps K)
    | exact off_sub rfl hb | exact off_bit rfl hb | dsimp only | split

theorem pllRefMoveDone_keeps (K : Keeps nb P) (s : State) (hb : Off
    0x10000000000000000000000000000000000000000000000000000000000000000000000000000000000000000000000000000000000000000000000000000000000000000000000000000000000000000000000000000000000000000000000000000000000000000000000000000000000000000000400000000000000000000000000000000000000000
    nb) (h : P s) : P (pllRefMoveDone s) := by
  unfold pllRefMoveDone
  repeat' first
    | (with_reducible first
        | assumption | intro _ | apply keeps_ite | apply K.wr | apply down_keeps K)
    | exact off_sub rfl hb | exact off_bit rfl hb | dsimp only | split

theorem pllcLoss_keeps (K : Keeps nb P) (s : State) (hb : Off
    0x300000000000000000000140010000000000001C20000000000000000000000000000000000000005A000066E000000001E3DF80010001000840000004F80000000000000000000000000000000100080000000000000000000000000000000000000000000000000000000000000000000000000000000000000000000000100000143C0020000000000000000000280000200400000000800000000000000000000000000000300003C6060F0000020606000002000002000C6380
    nb) (h : P s) : P (pllcLoss s) := by
  unfold pllcLoss
  repeat' first
    | (with_reducible first
        | assumption | intro _ | apply keeps_ite | apply down_keeps K | apply cDieLoss_keeps K | apply mDieLoss_keeps K)
    | exact off_sub rfl hb | exact off_bit rfl hb | dsimp only | split

theorem fastNapSwitch_keeps (K : Keeps nb P) (s : State) (hb : Off 0x200400000000000000000000000000000000000000 nb) (h : P
    s) : P (fastNapSwitch s) := by
  unfold fastNapSwitch
  repeat' first
    | (with_reducible first
        | assumption | intro _ | apply keeps_ite | apply down_keeps K | apply up_keeps K)
    | exact off_sub rfl hb | exact off_bit rfl hb | dsimp only | split

theorem refuseEntry_keeps (K : Keeps nb P) (s : State) (code : Nat) (hb : Off
    0x400000000000000000000000000000000000000000000000000000000000000000000000000000000000000000000000000000000000000000000000000000000000000000000000000000000000000000000000000000000000000000000000000000000000000000000000000000000000000000000000900000000000000000000000000000000000000
    nb) (h : P s) : P (refuseEntry s code) := by
  unfold refuseEntry
  repeat' first
    | (with_reducible first
        | assumption | intro _ | apply K.wr)
    | exact off_sub rfl hb | exact off_bit rfl hb | dsimp only | split

theorem stateRequest_keeps (K : Keeps nb P) (s : State) (st : Nat) (hb : Off
    0x400000000000000000000000000000000000000000000000000000000000000000000000000000000000000000000000000000000000000000000000000000000000000000000000000000000000000000000000000000000000000000000000000000000000000000000000000000000000000000000000900000000000000000000000000000000000000
    nb) (h : P s) : P (stateRequest s st) := by
  unfold stateRequest
  repeat' first
    | (with_reducible first
        | assumption | intro _ | apply keeps_ite | apply K.wr | apply refuseEntry_keeps K)
    | exact off_sub rfl hb | exact off_bit rfl hb | dsimp only | split

theorem refuseLate_keeps (K : Keeps nb P) (s : State) (hb : Off
    0x400000000000000000000000000000000000000000000000000000000000000000000000000000000000000000000000000000000000000000000000000000000000000000000000000000000000000000000000000000000000000000000000000000000000000000000000000000000000000000000000900000000000000000000000000000000000000
    nb) (h : P s) : P (refuseLate s) := by
  unfold refuseLate
  repeat' first
    | (with_reducible first
        | assumption | intro _ | apply refuseEntry_keeps K)
    | exact off_sub rfl hb | exact off_bit rfl hb | dsimp only | split

theorem entryTaskTimeout_keeps (K : Keeps nb P) (s : State) (hb : Off
    0x400000000000000000000000000000000000000000000000000000000000000000000000000000000000000000000000000000000000000000000000000000000000000000000000000000000000000000000000000000000000000000000000000000000000000000000000000000000000000000000000900000000000000000000000000000000000000
    nb) (h : P s) : P (entryTaskTimeout s) := by
  unfold entryTaskTimeout
  repeat' first
    | (with_reducible first
        | assumption | intro _ | apply keeps_ite | apply refuseEntry_keeps K)
    | exact off_sub rfl hb | exact off_bit rfl hb | dsimp only | split

theorem dropBank_keeps (K : Keeps nb P) (s : State) (n : Nat) (hb : Off
    0x1000000000000000000000000000000000000000000000000000000000000000000000000000000000000000000000000000000000000000000000000000000000000000000000000000000000000000000000000000000000000000000000000000000000000000000000000000000000000000000000000000000000000000000000000000000000000000000000000000000000000000000000000000000000000000000000000000000000000000000000000000000000000000
    nb) (h : P s) : P (dropBank s n) := by
  unfold dropBank
  repeat' first
    | (with_reducible first
        | assumption | intro _ | apply dropRange_keeps K)
    | exact off_sub rfl hb | exact off_bit rfl hb | dsimp only | split

theorem patternLost_keeps (K : Keeps nb P) (s : State) (hb : Off fpRegs nb) (h : P s) : P (patternLost s) := by
  unfold patternLost
  repeat' first
    | (with_reducible first
        | assumption | intro _ | apply K.wr | apply parts_of K | apply parts_regs K | apply parts_queues K
        | apply parts_mem K | apply parts_bad K)
    | exact off_sub rfl hb | exact off_bit rfl hb | exact off_any (off_sub rfl hb) | dsimp only | split
    | simp only [parts_mk K]

theorem loseContents_keeps (K : Keeps nb P) (s : State) (pattern : Bool) (keep : Nat → Bool) (hb : Off
    0x2000000000000000000000000000000000000000000000000000000000000000000000000000000000000000000000000000000000000000000000000000000000000000000000000000000000000000000000000000000000000000000000000000000000000000000000000000000000000000000000000000000000000000000000000000000000000000000000000000000000000000000000000000000000000000000000000000000000000000000000000000000000000000
    nb) (h : P s) : P (loseContents s pattern keep) := by
  have := K.lose (s := s)
    (fun e => (pattern && patternIds.contains e.1.f) || !(match keyHome e.1 with
      | .at .b d => d != 255 && !keep d | .at .c d => !(d != 255 && keep d) | .at .m _ => true | _ => false))
    (fun e => match queueHome e.1 with | .at .b d => d == 255 || keep d | .at _ _ => false | _ => true)
    (off_bit rfl hb) (fun e he => by rw [he]; simp) (fun e he => by rw [he]) h
  exact K.frame this rfl rfl rfl rfl rfl

theorem entryComplete_keeps (K : Keeps nb P) (s : State) (hb : Off fpAll nb) (h : P s) : P (entryComplete s) := by
  unfold entryComplete
  repeat' first
    | (with_reducible first
        | assumption | intro _ | apply keeps_each | apply keeps_when | apply keeps_ite | apply K.wr | apply down_keeps K
        | apply up_keeps K | apply wrb_keeps K | apply clockLost_keeps K | apply dropBank_keeps K | apply dropRange_keeps K
        | apply loseContents_keeps K | apply patternLost_keeps K | apply rmiiWithdrawn_keeps K
        | apply withdrawClocks_keeps K)
    | exact off_sub rfl hb | exact off_bit rfl hb | exact off_any (off_sub rfl hb) | dsimp only | split

theorem dozeEnter_keeps (K : Keeps nb P) (s : State) (hb : Off
    0x400000000000000000000000000000000000000000000000000000000000000000000000000000000000000000000000000000000000000000000000000000000000000000000000000000000000000000000000000000000000000000000000000000000000000000000000000000000000000000000000940000000000000000000000000000000000000
    nb) (h : P s) : P (dozeEnter s) := by
  unfold dozeEnter
  repeat' first
    | (with_reducible first
        | assumption | intro _ | apply keeps_ite | apply K.wr | apply refuseEntry_keeps K)
    | exact off_sub rfl hb | exact off_bit rfl hb | dsimp only | split

theorem dozeExit_keeps (K : Keeps nb P) (s : State) (hb : Off 0x400C0000000000000000000000000000000000000 nb) (h : P s) : P
    (dozeExit s) := by
  unfold dozeExit
  repeat' first
    | (with_reducible first
        | assumption | intro _ | apply keeps_ite | apply K.wr | apply up_keeps K)
    | exact off_sub rfl hb | exact off_bit rfl hb | dsimp only | split

theorem recordWake_keeps (K : Keeps nb P) (s : State) (m : Nat) (hb : Off 0x20000000000000000000000000000000000000000 nb)
    (h : P s) : P (recordWake s m) := by
  unfold recordWake
  repeat' first
    | (with_reducible first
        | assumption | intro _ | apply K.wr)
    | exact off_sub rfl hb | exact off_bit rfl hb | dsimp only | split

theorem abandonEntry_keeps (K : Keeps nb P) (s : State) (b : Nat) (hb : Off
    0x500000000000000000000000000000000000000000000000000000000000000000000000000000000000000000000000000000000000000000000000000000000000000000000000000000000000000000000000000000000000000000000000000000000000000000000000000000000000000000000020A00000000000000000000000000000000000000
    nb) (h : P s) : P (abandonEntry s b) := by
  unfold abandonEntry
  repeat' first
    | (with_reducible first
        | assumption | intro _ | apply keeps_each | apply keeps_ite | apply K.wr | apply up_keeps K
        | apply recordWake_keeps K)
    | exact off_sub rfl hb | exact off_bit rfl hb | dsimp only | split

theorem wakeEvent_keeps (K : Keeps nb P) (s : State) (b : Nat) (hb : Off
    0x9D00000000000000000000000000000000000000000000000000000000000000000000000000000000000000000000000000000000000000000000000000000000000000000000000000000000000000000000000000000000000000000000000000000000000000000000000000000000000000000000020BC0000000000000000000000000000000000000
    nb) (h : P s) : P (wakeEvent s b) := by
  unfold wakeEvent
  repeat' first
    | (with_reducible first
        | assumption | intro _ | apply keeps_each | apply keeps_ite | apply K.wr | apply up_keeps K
        | apply abandonEntry_keeps K | apply powerDie_keeps K | apply recordWake_keeps K | apply refuseLate_keeps K
        | (apply keeps_fst; assumption) | (apply keeps_snd; assumption))
    | exact off_sub rfl hb | exact off_bit rfl hb | dsimp only | split

theorem repowerAll_keeps (K : Keeps nb P) (s : State) (hib : Bool) (hb : Off
    0x100000000000000000000000000000000000000000000000000000000000000000000000000000000000000000000000000000000000000000000000000000000000000000000000000000000000000000000000000000000000000000000000000000000000000000000000000000000000000000000000000000000000000000000000000000000000000
    nb) (h : P s) : P (repowerAll s hib) := by
  unfold repowerAll
  repeat' first
    | (with_reducible first
        | assumption | intro _ | apply keeps_each | apply keeps_ite | apply K.wr)
    | exact off_sub rfl hb | exact off_bit rfl hb | dsimp only | split

theorem wakeResume_keeps (K : Keeps nb P) (s : State) (hb : Off
    0x1000000000000000000000000000000000000000000000000000000000000000000000019E0000000000000000000200400000000000000000000000000000000000000000000000000000000000000000000000000000000000000000000000000000000000000000000000000000000000000000000000000000000000000000000000000000000000000000000000000000000000000000000720CC0000000000000000000000000000000000000
    nb) (h : P s) : P (wakeResume s) := by
  unfold wakeResume
  repeat' first
    | (with_reducible first
        | assumption | intro _ | apply keeps_ite | apply K.wr | apply down_keeps K | apply post_keeps K | apply up_keeps K
        | apply clkReqWritten_keeps K | apply recordWake_keeps K | apply repowerAll_keeps K)
    | exact off_sub rfl hb | exact off_bit rfl hb | dsimp only | split

theorem domErr_keeps (K : Keeps nb P) (s : State) (d code : Nat) (hb : Off
    0xE00000000000000000000000000000000000000000000000 nb) (h : P s) : P (domErr s d code) := by
  unfold domErr
  repeat' first
    | (with_reducible first
        | assumption | intro _ | apply K.wr | apply up_keeps K)
    | exact off_sub rfl hb | exact off_bit rfl hb | dsimp only | split

theorem setDomCtrl_keeps (K : Keeps nb P) (s : State) (d : Nat) (b : Bool) (hb : Off
    0x100000000000000000000000000000000000000000000000 nb) (h : P s) : P (setDomCtrl s d b) := by
  unfold setDomCtrl
  repeat' first
    | (with_reducible first
        | assumption | intro _ | apply K.wr)
    | exact off_sub rfl hb | exact off_bit rfl hb | dsimp only | split

theorem domSwitch_keeps (K : Keeps nb P) (s : State) (d : Nat) (on : Bool) (hb : Off
    0x100000000000000000000000000000000000000000000000000000000000000000000000000000000000000000000000000000000000000000000000000000000000000000000000000000000000000000000000000000000000000000000000000000000000000000000000000000000000000F00000000000000000000000000000000000000000000000
    nb) (h : P s) : P (domSwitch s d on) := by
  unfold domSwitch
  repeat' first
    | (with_reducible first
        | assumption | intro _ | apply keeps_ite | apply K.wr | apply domErr_keeps K | apply setDomCtrl_keeps K)
    | exact off_sub rfl hb | exact off_bit rfl hb | dsimp only | split

theorem domCtrlWritten_keeps (K : Keeps nb P) (s : State) (k v : Nat) (hb : Off
    0x100000000000000000000000000000000000000000000000000000000000000000000000000000000000000000000000000000000000000000000000000000000000000000000000000000000000000000000000000000000000000000000000000000000000000000000000000000000000000F00000000000000000000000000000000000000000000000
    nb) (h : P s) : P (domCtrlWritten s k v) := by
  unfold domCtrlWritten
  repeat' first
    | (with_reducible first
        | assumption | intro _ | apply keeps_each | apply keeps_ite | apply domSwitch_keeps K)
    | exact off_sub rfl hb | exact off_bit rfl hb | dsimp only | split

theorem drainStart_keeps (K : Keeps nb P) (s : State) (d : Nat) (hb : Off
    0x10000000000000000000000000000000000000000000000000000005A000066E000000001000000010000000000000004000000000000000000000000000000000000000000000000000000000000000000000000000000000000000000000000000000000000000000000000000000000000000000143C0000000000000000000000280000200400000000000000000000000000000000000000000000000000000000000000000000000000000000
    nb) (h : P s) : P (drainStart s d) := by
  unfold drainStart
  repeat' first
    | (with_reducible first
        | assumption | intro _ | apply keeps_ite | apply K.wr | apply hdsAbandon_keeps K | apply legsDrain_keeps K)
    | exact off_sub rfl hb | exact off_bit rfl hb | dsimp only | split

theorem switchOff_keeps (K : Keeps nb P) (s : State) (d : Nat) (forced : Bool) (hb : Off
    0x30000000000000000000000000000000000000000000000000000000000000000000000000000000000000000000000003C0000001800000000000000000000000000000000000000000000000000000000000000000000000000000000000000000000000000000000000000000000000000000000000000000000000000000000000000000000000000000000000000000000000000000000000000000000000000000000000100000000000000000000000000000000000000000
    nb) (h : P s) : P (switchOff s d forced) := by
  unfold switchOff
  repeat' first
    | (with_reducible first
        | assumption | intro _ | apply keeps_ite | apply K.wr | apply resetDomain_keeps K | apply wrb_keeps K
        | apply dropBank_keeps K | apply dropRange_keeps K | apply routesSettled_keeps K | apply withdrawClocks_keeps K)
    | exact off_sub rfl hb | exact off_bit rfl hb | dsimp only | split

theorem thermal_keeps (K : Keeps nb P) (s : State) (t : Int) (hb : Off
    0x300000000000000000000140010000000000001C20000000000000000000000000000000000000005A000066E000000301C3DF80010001000850000004F80000000000000000000000000000000100080000000000000000000000000000000000000000000000000000000000000000000000000000000000000000000000100000143C0020000000000000000000280000200400000000800000000000000000000000000002100003C6060F0000020E06000802000002000C6380
    nb) (h : P s) : P (thermal s t) := by
  unfold thermal
  repeat' first
    | (with_reducible first
        | assumption | intro _ | apply keeps_ite | apply down_keeps K | apply post_keeps K | apply up_keeps K
        | apply bindOff_keeps K)
    | exact off_sub rfl hb | exact off_bit rfl hb | dsimp only | split

theorem tempConversion_keeps (K : Keeps nb P) (s : State) (b m c0 c1 : Nat) (hb : Off
    0x300000000000000000000140010000000000001C20000000000000000000000000000000000000005A000066E000000301C3DF80010001000850000004F80000000000000000000000000000000100080000000000000000000000000000000000000000000000000000000000000000000000000000000000000000000000100000143C00200000000000000000002800002004000000008000000000000000000000000003FE100003C6060F0000020E06000802000002000C6380
    nb) (h : P s) : P (tempConversion s b m c0 c1) := by
  unfold tempConversion
  repeat' first
    | (with_reducible first
        | assumption | intro _ | apply keeps_ite | apply K.wr | apply thermal_keeps K)
    | exact off_sub rfl hb | exact off_bit rfl hb | dsimp only | split

theorem hotMinute_keeps (K : Keeps nb P) (s : State) (hb : Off
    0x300000000000000000000000000000000000000000000000000000000000000000000000000000000000000000000000000000000000000000000000000000000000000000000000000000000000000000000000000000000000000000000000000000000000000000000000000000000000000000000000202000000000000000000000000
    nb) (h : P s) : P (hotMinute s) := by
  unfold hotMinute
  repeat' first
    | (with_reducible first
        | assumption | intro _ | apply keeps_ite | apply K.wr | apply bump_keeps K | apply up_keeps K
        | apply ledgerRaise_keeps K | (apply keeps_fst; assumption) | (apply keeps_snd; assumption))
    | exact off_sub rfl hb | exact off_bit rfl hb | dsimp only | split

theorem dropWarn_keeps (K : Keeps nb P) (s : State) (hb : Off
    0x100000000000000000000000000000000000000000000000000000000000000000000000500000000000000000000000400000000000000000000000000000000000000000000000000000000000000000000000000000000000000000000000000000000000000000000000000000000000000000000000000000000000000000000000000000000000000000000000000000000000000050000020B00000000000000000000000000000000000000
    nb) (h : P s) : P (dropWarn s) := by
  unfold dropWarn
  repeat' first
    | (with_reducible first
        | assumption | intro _ | apply keeps_ite | apply bump_keeps K | apply post_keeps K | apply up_keeps K
        | apply abandonEntry_keeps K | apply refuseEntry_keeps K)
    | exact off_sub rfl hb | exact off_bit rfl hb | dsimp only | split

theorem dropClear_keeps (K : Keeps nb P) (s : State) (hb : Off
    0x100000000000000000000000000000000000000000000000000000000000000000000000000000000000000000000000400000000000000000000000000000000000000000000000000000000000000000000000000000000000000000000000000000000000000000000000000000000000000000000000000000000000000000000000000000000000000000000000000000000000000010000000000000000000000000000000000000000000000
    nb) (h : P s) : P (dropClear s) := by
  unfold dropClear
  repeat' first
    | (with_reducible first
        | assumption | intro _ | apply keeps_ite | apply down_keeps K | apply post_keeps K)
    | exact off_sub rfl hb | exact off_bit rfl hb | dsimp only | split

theorem execRailRise_keeps (K : Keeps nb P) (rail : Rail) (testEn : Bool) (s : State) (hb : Off
    0x10000000000000000000000000000000000000000000000000000001A000066E000000081000000010000000000000004080000000000000000000000000000002000000000000000000000000000000000000000000000000000000000000000000000000000000000000000000000000000000000143C0000000000000000000000280000200400000000000000000000000000000000004000000000000000000000000000000200000000000080
    nb) (h : P s) : OutKeeps P (execRailRise rail testEn s) := by
  unfold execRailRise
  repeat' first
    | (with_reducible first
        | assumption | intro _ | apply outKeeps_next | apply railRise_keeps K)
    | exact off_sub rfl hb | exact off_bit rfl hb | dsimp only | split

theorem execRailFall_keeps (K : Keeps nb P) (rail : Rail) (s : State) (hb : Off fpAll nb) (h : P s) : OutKeeps P
    (execRailFall rail s) := by
  unfold execRailFall
  repeat' first
    | (with_reducible first
        | assumption | intro _ | apply outKeeps_next | apply railFall_keeps K)
    | exact off_sub rfl hb | exact off_bit rfl hb | dsimp only | split

theorem execBankDetect_keeps (K : Keeps nb P) (v18 : Bool) (s : State) (hb : Off
    0x4000000000000000000000000000000000000000000000000000000000000000000000000000000000000000000000000000000000000000000000000000000000000000000000000000000000000000000000000000000000000000000000000000000000000000000000000000000000200008000000000000000000000000000000000000000000000
    nb) (h : P s) : OutKeeps P (execBankDetect v18 s) := by
  unfold execBankDetect
  repeat' first
    | (with_reducible first
        | assumption | intro _ | apply outKeeps_next | apply bankDetect_keeps K)
    | exact off_sub rfl hb | exact off_bit rfl hb | dsimp only | split

theorem execHsxoStable_keeps (K : Keeps nb P) (s : State) (hb : Off
    0x18000000000000000000000000000000000000000000000000000000000000000000000000000000000000000000000000000000000000000000000000000000000000000000000000000000000000000000000000000000000000000000000000000000000000000000000000000000000000000000000000000000000000000000000000000000000000
    nb) (h : P s) : OutKeeps P (execHsxoStable s) := by
  unfold execHsxoStable
  repeat' first
    | (with_reducible first
        | assumption | intro _ | apply outKeeps_next | apply hsxoStable_keeps K)
    | exact off_sub rfl hb | exact off_bit rfl hb | dsimp only | split

theorem execHsxoStartTimeout_keeps (K : Keeps nb P) (s : State) (hb : Off
    0x100000000000000000000000000000000000000000000000000000000000000000000000000000000000000000000000000000000000000000000000000000000000000000000000000000000000000000000000000000000000000000000000000000000000000000000000000000000000000000000000002000000002000000000000000
    nb) (h : P s) : OutKeeps P (execHsxoStartTimeout s) := by
  unfold execHsxoStartTimeout
  repeat' first
    | (with_reducible first
        | assumption | intro _ | apply outKeeps_next | apply hsxoStartTimeout_keeps K)
    | exact off_sub rfl hb | exact off_bit rfl hb | dsimp only | split

theorem execHsxoStop_keeps (K : Keeps nb P) (s : State) (hb : Off
    0x98000000000100000000000000000000000000000000000000000000000000000000000000000000000000000000000000000000000000000000000000000000000000000000000000000000000000000000000000000000000000000000000000000000000000000000000000000000000000000000100000000000000002000000002000000000000000
    nb) (h : P s) : OutKeeps P (execHsxoStop s) := by
  unfold execHsxoStop
  repeat' first
    | (with_reducible first
        | assumption | intro _ | apply outKeeps_next | apply hsxoStop_keeps K)
    | exact off_sub rfl hb | exact off_bit rfl hb | dsimp only | split

theorem execPllLock_keeps (K : Keeps nb P) (s : State) (hb : Off
    0x20000000000000000000000000000000000000000000000000000000000000000000000000000000000000000000000000000000000000000000000000000000000000000000000000000000000000000000000000000000000000000000000000000000000000000000000000000000000000000000600000000000000000000000000000000000000000
    nb) (h : P s) : OutKeeps P (execPllLock s) := by
  unfold execPllLock
  repeat' first
    | (with_reducible first
        | assumption | intro _ | apply outKeeps_next | apply pllLock_keeps K)
    | exact off_sub rfl hb | exact off_bit rfl hb | dsimp only | split

theorem execPllRefMoveDone_keeps (K : Keeps nb P) (s : State) (hb : Off
    0x10000000000000000000000000000000000000000000000000000000000000000000000000000000000000000000000000000000000000000000000000000000000000000000000000000000000000000000000000000000000000000000000000000000000000000000000000000000000000000000400000000000000000000000000000000000000000
    nb) (h : P s) : OutKeeps P (execPllRefMoveDone s) := by
  unfold execPllRefMoveDone
  repeat' first
    | (with_reducible first
        | assumption | intro _ | apply outKeeps_next | apply pllRefMoveDone_keeps K)
    | exact off_sub rfl hb | exact off_bit rfl hb | dsimp only | split

theorem execPllcLossOfLock_keeps (K : Keeps nb P) (s : State) (hb : Off
    0x300000000000000000000140010000000000001C20000000000000000000000000000000000000005A000066E000000001E3DF80010001000840000004F80000000000000000000000000000000100080000000000000000000000000000000000000000000000000000000000000000000000000000000000000000000000100000143C0020000000000000000000280000200400000000800000000000000000000000000000300003C6060F0000020606000002000002000C6380
    nb) (h : P s) : OutKeeps P (execPllcLossOfLock s) := by
  unfold execPllcLossOfLock
  repeat' first
    | (with_reducible first
        | assumption | intro _ | apply outKeeps_next | apply pllcLoss_keeps K)
    | exact off_sub rfl hb | exact off_bit rfl hb | dsimp only | split

theorem execPlltLossOfLock_keeps (K : Keeps nb P) (s : State) (hb : Off
    0x300000000000000000000140010000000000001C20000000000000000000000000000000000000005A000066E000000001C3DF80010001000850000004F80000000000000000000000000000000100080000000000000000000000000000000000000000000000000000000000000000000000000000000000000000000000100000143C0020000000000000000000280000200400000000800000000000000000000000000000300003C6060F0000020E06000802000002000C6380
    nb) (h : P s) : OutKeeps P (execPlltLossOfLock s) := by
  unfold execPlltLossOfLock
  repeat' first
    | (with_reducible first
        | assumption | intro _ | apply keeps_when | apply outKeeps_next | apply keeps_ite | apply down_keeps K
        | apply bindOff_keeps K | apply clockLost_keeps K)
    | exact off_sub rfl hb | exact off_bit rfl hb | dsimp only | split

theorem execLsxoFail_keeps (K : Keeps nb P) (s : State) (hb : Off 0x800000000000000000000000000000000000000000 nb) (h : P
    s) : OutKeeps P (execLsxoFail s) := by
  unfold execLsxoFail
  repeat' first
    | (with_reducible first
        | assumption | intro _ | apply outKeeps_next | apply keeps_ite | apply up_keeps K)
    | exact off_sub rfl hb | exact off_bit rfl hb | dsimp only | split

theorem execClockRequest_keeps (K : Keeps nb P) (clk : Fin 4) (who : Option (Fin 136)) (s : State) (hb : Off
    0x40000000000000000000000000000000000000000000000000000000000000000000000000000000000000000000000000000000000000000000000000000000000000000000000000000000000000000000000000000000000000000000000000000000000000000000000000000000000000000000080000000000000000000000000000000000000000
    nb) (h : P s) : OutKeeps P (execClockRequest clk who s) := by
  unfold execClockRequest
  repeat' first
    | (with_reducible first
        | assumption | intro _ | apply outKeeps_next | apply clockRequest_keeps K)
    | exact off_sub rfl hb | exact off_bit rfl hb | dsimp only | split

theorem execClockGrant_keeps (K : Keeps nb P) (clk : Fin 4) (s : State) (hb : Off
    0x80000000000000000000000000000000000000000000000000000000000000000000000000000000000000000000000000000000000000000000000000000000000000000000000000000000000000000000000000000000000000000000000000000000000000000000000000000000000000000000100000000000000000000000000000000000000000
    nb) (h : P s) : OutKeeps P (execClockGrant clk s) := by
  unfold execClockGrant
  repeat' first
    | (with_reducible first
        | assumption | intro _ | apply outKeeps_next | apply clockGrant_keeps K)
    | exact off_sub rfl hb | exact off_bit rfl hb | dsimp only | split

theorem execClockRelease_keeps (K : Keeps nb P) (clk : Fin 4) (who : Option (Fin 136)) (s : State) (hb : Off
    0xC0000000000000000000000000000000000000000000000000000000000000000000000000000000000000000000000000000000000000000000000000000000000000000000000000000000000000000000000000000000000000000000000000000000000000000000000000000000000000000000180000000000000000000000000000000000000000
    nb) (h : P s) : OutKeeps P (execClockRelease clk who s) := by
  unfold execClockRelease
  repeat' first
    | (with_reducible first
        | assumption | intro _ | apply outKeeps_next | apply clockRelease_keeps K)
    | exact off_sub rfl hb | exact off_bit rfl hb | dsimp only | split

theorem execStateEntryTaskTimeout_keeps (K : Keeps nb P) (s : State) (hb : Off
    0x400000000000000000000000000000000000000000000000000000000000000000000000000000000000000000000000000000000000000000000000000000000000000000000000000000000000000000000000000000000000000000000000000000000000000000000000000000000000000000000000900000000000000000000000000000000000000
    nb) (h : P s) : OutKeeps P (execStateEntryTaskTimeout s) := by
  unfold execStateEntryTaskTimeout
  repeat' first
    | (with_reducible first
        | assumption | intro _ | apply outKeeps_next | apply entryTaskTimeout_keeps K)
    | exact off_sub rfl hb | exact off_bit rfl hb | dsimp only | split

theorem execDozeEnter_keeps (K : Keeps nb P) (s : State) (hb : Off
    0x400000000000000000000000000000000000000000000000000000000000000000000000000000000000000000000000000000000000000000000000000000000000000000000000000000000000000000000000000000000000000000000000000000000000000000000000000000000000000000000000940000000000000000000000000000000000000
    nb) (h : P s) : OutKeeps P (execDozeEnter s) := by
  unfold execDozeEnter
  repeat' first
    | (with_reducible first
        | assumption | intro _ | apply outKeeps_next | apply dozeEnter_keeps K)
    | exact off_sub rfl hb | exact off_bit rfl hb | dsimp only | split

theorem execWakeEvent_keeps (K : Keeps nb P) (src : Fin 12) (s : State) (hb : Off
    0x9D00000000000000000000000000000000000000000000000000000000000000000000000000000000000000000000000000000000000000000000000000000000000000000000000000000000000000000000000000000000000000000000000000000000000000000000000000000000000000000000020BC0000000000000000000000000000000000000
    nb) (h : P s) : OutKeeps P (execWakeEvent src s) := by
  unfold execWakeEvent
  repeat' first
    | (with_reducible first
        | assumption | intro _ | apply outKeeps_next | apply wakeEvent_keeps K)
    | exact off_sub rfl hb | exact off_bit rfl hb | dsimp only | split

theorem execTempConversion_keeps (K : Keeps nb P) (tsB tsM tsC0 tsC1 : BitVec 8) (s : State) (hb : Off
    0x300000000000000000000140010000000000001C20000000000000000000000000000000000000005A000066E000000301C3DF80010001000850000004F80000000000000000000000000000000100080000000000000000000000000000000000000000000000000000000000000000000000000000000000000000000000100000143C00200000000000000000002800002004000000008000000000000000000000000003FE100003C6060F0000020E06000802000002000C6380
    nb) (h : P s) : OutKeeps P (execTempConversion tsB tsM tsC0 tsC1 s) := by
  unfold execTempConversion
  repeat' first
    | (with_reducible first
        | assumption | intro _ | apply outKeeps_next | apply tempConversion_keeps K)
    | exact off_sub rfl hb | exact off_bit rfl hb | dsimp only | split

theorem execHotTimeMinute_keeps (K : Keeps nb P) (s : State) (hb : Off
    0x300000000000000000000000000000000000000000000000000000000000000000000000000000000000000000000000000000000000000000000000000000000000000000000000000000000000000000000000000000000000000000000000000000000000000000000000000000000000000000000000202000000000000000000000000
    nb) (h : P s) : OutKeeps P (execHotTimeMinute s) := by
  unfold execHotTimeMinute
  repeat' first
    | (with_reducible first
        | assumption | intro _ | apply outKeeps_next | apply hotMinute_keeps K)
    | exact off_sub rfl hb | exact off_bit rfl hb | dsimp only | split

theorem execSupplyDropWarning_keeps (K : Keeps nb P) (s : State) (hb : Off
    0x100000000000000000000000000000000000000000000000000000000000000000000000500000000000000000000000400000000000000000000000000000000000000000000000000000000000000000000000000000000000000000000000000000000000000000000000000000000000000000000000000000000000000000000000000000000000000000000000000000000000000050000020B00000000000000000000000000000000000000
    nb) (h : P s) : OutKeeps P (execSupplyDropWarning s) := by
  unfold execSupplyDropWarning
  repeat' first
    | (with_reducible first
        | assumption | intro _ | apply outKeeps_next | apply dropWarn_keeps K)
    | exact off_sub rfl hb | exact off_bit rfl hb | dsimp only | split

end
end Sys2Proof.Machine
end

