-- ==== Sys2Proof/Laws/KeepsLoopEngine.lean ====
section
/-!
SUPPORT. What each operation of Sys2Proof/Machine/LoopEngine.lean can change: its footprint (Sys2Proof/Laws/Keeps.lean).
-/
namespace Sys2Proof.Machine
set_option linter.all false
section
variable {P : State → Prop} {nb : Nat}

theorem leSet_keeps (K : Keeps nb P) (s : State) (a : Nat) (x : Int) (hb : Off
    0x1000000000000000000000000000000000000000000000000000000000000000000000000000000000000000000000000000000000000000000000000000000000000000000000000000000000000000000000000000000000000000000000000000000000000000000000000000000000000000000000000000000000000000000000000000000000000000000000000000000000000000000000000000000000000000000000000000000000000000000000000000000000000000
    nb) (h : P s) : P (leSet s a x) := by
  unfold leSet
  repeat' first
    | (with_reducible first
        | assumption | intro _ | apply mset_keeps K)
    | exact off_sub rfl hb | exact off_bit rfl hb | dsimp only | split

theorem Stitch.reads_keeps (K : Keeps nb P) (c : Stitch) (l : List Nat) (hb : Off 0 nb) (h : P c.s) : P (Stitch.reads c
    l).s := by
  unfold Stitch.reads
  repeat' first
    | (with_reducible first
        | assumption | intro _)
    | exact off_sub rfl hb | exact off_bit rfl hb | dsimp only | split

theorem Stitch.store_keeps (K : Keeps nb P) (c : Stitch) (k : Nat) (x : Int) (extra : Nat) (hb : Off 0 nb) (h : P c.s) : P
    (Stitch.store c k x extra).2.s := by
  unfold Stitch.store
  repeat' first
    | (with_reducible first
        | assumption | apply keeps_ite | apply drew_keeps K | (apply keeps_fst; assumption) | (apply keeps_snd; assumption))
    | exact off_sub rfl hb | exact off_bit rfl hb | dsimp only | split

theorem Stitch.latch_keeps (K : Keeps nb P) (c : Stitch) (n j : Nat) (hb : Off 0 nb) (h : P c.s) : P (Stitch.latch c n
    j).2.s := by
  unfold Stitch.latch
  repeat' first
    | (with_reducible first
        | assumption | apply Stitch.store_keeps K)
    | exact off_sub rfl hb | exact off_bit rfl hb | dsimp only | split

theorem Stitch.input_keeps (K : Keeps nb P) (c : Stitch) (n code : Nat) (none : Int) (hb : Off 0 nb) (h : P c.s) : P
    (Stitch.input c n code none).2.s := by
  unfold Stitch.input
  repeat' first
    | (with_reducible first
        | assumption | apply keeps_ite | apply Stitch.latch_keeps K)
    | exact off_sub rfl hb | exact off_bit rfl hb | dsimp only | split

theorem Stitch.setSw_keeps (K : Keeps nb P) (c : Stitch) (n w : Nat) (x : Int) (hb : Off
    0x1000000000000000000000000000000000000000000000000000000000000000000000000000000000000000000000000000000000000000000000000000000000000000000000000000000000000000000000000000000000000000000000000000000000000000000000000000000000000000000000000000000000000000000000000000000000000000000000000000000000000000000000000000000000000000000000000000000000000000000000000000000000000000
    nb) (h : P c.s) : P (Stitch.setSw c n w x).s := by
  unfold Stitch.setSw
  repeat' first
    | (with_reducible first
        | assumption | apply leSet_keeps K)
    | exact off_sub rfl hb | exact off_bit rfl hb | dsimp only | split

theorem lawPi_keeps (K : Keeps nb P) (c : Stitch) (n fb : Nat) (e : Int) (pid : Bool) (hb : Off
    0x1000000000000000000000000000000000000000000000000000000000000000000000000000000000000000000000000000000000000000000000000000000000000000000000000000000000000000000000000000000000000000000000000000000000000000000000000000000000000000000000000000000000000000000000000000000000000000000000000000000000000000000000000000000000000000000000000000000000000000000000000000000000000000
    nb) (h : P c.s) : P (lawPi c n fb e pid).2.s := by
  unfold lawPi
  repeat' first
    | (with_reducible first
        | assumption | apply keeps_ite | apply Stitch.setSw_keeps K | apply Stitch.store_keeps K
        | (apply keeps_fst; assumption) | (apply keeps_snd; assumption))
    | exact off_sub rfl hb | exact off_bit rfl hb | dsimp only | split

theorem lawZ_keeps (K : Keeps nb P) (c : Stitch) (n fb k : Nat) (e : Int) (hb : Off
    0x1000000000000000000000000000000000000000000000000000000000000000000000000000000000000000000000000000000000000000000000000000000000000000000000000000000000000000000000000000000000000000000000000000000000000000000000000000000000000000000000000000000000000000000000000000000000000000000000000000000000000000000000000000000000000000000000000000000000000000000000000000000000000000
    nb) (h : P c.s) : P (lawZ c n fb k e).2.s := by
  unfold lawZ
  repeat' first
    | (with_reducible first
        | assumption | intro _ | apply keeps_foldl | apply keeps_fold1 | apply keeps_fold2 | apply Stitch.setSw_keeps K
        | apply Stitch.store_keeps K | (apply keeps_fst; assumption) | (apply keeps_snd; assumption))
    | exact off_sub rfl hb | exact off_bit rfl hb | dsimp only | split

theorem lawState4_keeps (K : Keeps nb P) (c : Stitch) (n fb : Nat) (r m : Int) (hb : Off
    0x1000000000000000000000000000000000000000000000000000000000000000000000000000000000000000000000000000000000000000000000000000000000000000000000000000000000000000000000000000000000000000000000000000000000000000000000000000000000000000000000000000000000000000000000000000000000000000000000000000000000000000000000000000000000000000000000000000000000000000000000000000000000000000
    nb) (h : P c.s) : P (lawState4 c n fb r m).2.s := by
  unfold lawState4
  refine foldl_inv (fun c : Stitch => P c.s) _ _ ?_ fun c a hc => Stitch.setSw_keeps K _ _ _ _ (off_sub rfl hb) hc
  refine foldl_inv (fun p : List Int × Stitch => P p.2.s) _ _ ?_ fun p a hp => Stitch.store_keeps K _ _ _ _ (off_sub rfl hb) hp
  exact Stitch.store_keeps K _ _ _ _ (off_sub rfl hb) (Stitch.store_keeps K _ _ _ _ (off_sub rfl hb) h)

theorem lawTable_keeps (K : Keeps nb P) (c : Stitch) (n fb t : Nat) (m : Int) (hb : Off 0 nb) (h : P c.s) : P (lawTable c n
    fb t m).2.s := by
  unfold lawTable
  repeat' first
    | (with_reducible first
        | assumption | apply Stitch.reads_keeps K | apply Stitch.store_keeps K)
    | exact off_sub rfl hb | exact off_bit rfl hb | dsimp only | split

theorem lawProfile_keeps (K : Keeps nb P) (c : Stitch) (n : Nat) (hb : Off
    0x1000000000000000000000000000000000000000000000000000000000000000000000000000000000000000000000000000000000000000000000000000000000000000000000000000000000000000000000000000000000000000000000000000000000000000000000000000000000000000000000000000000000000000000000000000000000000000000000000000000000000000000000000000000000000000000000000000000000000000000000000000000000000000
    nb) (h : P c.s) : P (lawProfile c n).2.s := by
  unfold lawProfile
  repeat' first
    | (with_reducible first
        | assumption | apply keeps_ite | apply mset_keeps K | apply Stitch.setSw_keeps K | (apply keeps_fst; assumption)
        | (apply keeps_snd; assumption))
    | exact off_sub rfl hb | exact off_bit rfl hb | dsimp only | split

theorem Stitch.operand_keeps (K : Keeps nb P) (c : Stitch) (n o : Nat) (mre : Int × Int × Int) (hb : Off 0 nb) (h : P c.s)
    : P (Stitch.operand c n o mre).2.s := by
  unfold Stitch.operand
  repeat' first
    | (with_reducible first
        | assumption | apply keeps_ite | apply Stitch.latch_keeps K | apply Stitch.reads_keeps K
        | (apply keeps_fst; assumption) | (apply keeps_snd; assumption))
    | exact off_sub rfl hb | exact off_bit rfl hb | dsimp only | split

theorem Stitch.dest_keeps (K : Keeps nb P) (c : Stitch) (n d : Nat) (x : Int) (hb : Off
    0x1000000000000000000000000000000000000000000000000000000000000000000000000000000000200000000000000000000000000000000000000000000000000000000000000000000000000000000000000000000000000000000000000000000000000000000000000000000000000000000000000000000000000000000000000000000000000000000000000000000000000000000000000000000000000000000000000000000000000000000000000000000000000000
    nb) (h : P c.s) : P (Stitch.dest c n d x).s := by
  unfold Stitch.dest
  repeat' first
    | (with_reducible first
        | assumption | apply keeps_ite | apply K.wr | apply Stitch.setSw_keeps K)
    | exact off_sub rfl hb | exact off_bit rfl hb | dsimp only | split

theorem Stitch.setAcc_keeps (K : Keeps nb P) (c : Stitch) (n : Nat) (x : Int) (hb : Off
    0x200000000000000000000000000000000000000000000000000000000000000000000000000000000000000000000000000000000000000000000000000000000000000000000000000000000000000000000000000000000000000000000000000000000000000000000000000000000000000000000000000000000000000000000000000000000000000000000000000000
    nb) (h : P c.s) : P (Stitch.setAcc c n x).s := by
  unfold Stitch.setAcc
  repeat' first
    | (with_reducible first
        | assumption | apply K.wr | (apply keeps_fst; assumption) | (apply keeps_snd; assumption))
    | exact off_sub rfl hb | exact off_bit rfl hb | dsimp only | split

theorem microOp_keeps (K : Keeps nb P) (c : Stitch) (n fb word : Nat) (mre : Int × Int × Int) (hb : Off
    0x1000000000000000000000000100000000000000000000000000000000000000000000000000000000200000000000000000000000000000000000000400000000000000000000000000000000000000000000000000000000000000000000000000000000000000000000000000000000000000000000000000000000000000000000000000000000000000000000000000000000000000000000000000000000000000000000000000000000000000000000000000000000000000
    nb) (h : P c.s) : P (microOp c n fb word mre).s := by
  unfold microOp
  repeat' first
    | (with_reducible first
        | assumption | apply keeps_ite | apply K.wr | apply drew_keeps K | apply post_keeps K | apply wrb_keeps K
        | apply Stitch.dest_keeps K | apply Stitch.operand_keeps K | apply Stitch.reads_keeps K
        | apply Stitch.setAcc_keeps K | apply Stitch.store_keeps K)
    | exact off_sub rfl hb | exact off_bit rfl hb | dsimp only | split

theorem microRun_keeps (K : Keeps nb P) (fuel : Nat) (c : Stitch) (n fb limit cycles : Nat) (mre : Int × Int × Int) (hb :
    Off
    0x1000000000000000000000000100000000000000000000000000000000000000000000000000000000300000000000000000000000000000000000000400000000000000000000000000000000000000000000000000000000000000000000000000000000000000000000000000000000000000000000000000000000000000000000000000000000000000000000000000000000000000000000000000000000000000000000000000000000000000000000000000000000000000
    nb) (h : P c.s) : P (microRun fuel c n fb limit cycles mre).2.s := by
  induction fuel generalizing c cycles with
  | zero => exact h
  | succ k ih =>
    unfold microRun
    repeat' first
      | (with_reducible first
          | assumption | intro _ | apply keeps_foldl | apply keeps_fold1 | apply keeps_fold2 | apply keeps_each
          | apply keeps_when | apply outKeeps_next | apply keeps_ite | apply ih | apply K.wr | apply Stitch.reads_keeps K
          | apply microOp_keeps K | (apply keeps_fst; assumption) | (apply keeps_snd; assumption))
      | exact off_sub rfl hb | exact off_bit rfl hb | dsimp only | split

theorem stageRc_keeps (K : Keeps nb P) (c : Stitch) (n _fb : Nat) (e v : Int) (hb : Off
    0x1000000000000000000000000000000000000000000000000000000000000000000000000000000000000000000000000000000000000000000000000000000000000000000000000000000000000000000000000000000000000000000000000000000000000000000000000000000000000000000000000000000000000000000000000000000010000000000000000000000000000000000000000000000000000000000000000000000000000000000000000000000000000000
    nb) (h : P c.s) : P (stageRc c n _fb e v).2.s := by
  unfold stageRc
  repeat' first
    | (with_reducible first
        | assumption | apply keeps_ite | apply bump_keeps K | apply Stitch.reads_keeps K | apply Stitch.store_keeps K
        | apply leSet_keeps K | (apply keeps_fst; assumption) | (apply keeps_snd; assumption))
    | exact off_sub rfl hb | exact off_bit rfl hb | dsimp only | split

theorem stageFf2_keeps (K : Keeps nb P) (c : Stitch) (n fb : Nat) (v : Int) (hb : Off 0 nb) (h : P c.s) : P (stageFf2 c n
    fb v).2.s := by
  unfold stageFf2
  repeat' first
    | (with_reducible first
        | assumption | apply keeps_ite | apply Stitch.store_keeps K | (apply keeps_fst; assumption)
        | (apply keeps_snd; assumption))
    | exact off_sub rfl hb | exact off_bit rfl hb | dsimp only | split

theorem stageFf1_keeps (K : Keeps nb P) (c : Stitch) (n : Nat) (v : Int) (hb : Off 0 nb) (h : P c.s) : P (stageFf1 c n
    v).2.s := by
  unfold stageFf1
  repeat' first
    | (with_reducible first
        | assumption | apply keeps_ite | apply drew_keeps K | apply Stitch.input_keeps K | apply Stitch.store_keeps K
        | (apply keeps_fst; assumption) | (apply keeps_snd; assumption))
    | exact off_sub rfl hb | exact off_bit rfl hb | dsimp only | split

theorem satSupervise_keeps (K : Keeps nb P) (s : State) (n : Nat) (clamped : Bool) (hb : Off
    0x100000000000000000000000000000000000000000000000000000000800000000000000000000000000000000000000400000000000000000000000000000000000000000000000000000000000000000000000000000000000000000000000000000000000000000000000000000000000000000000000000838000000400000000000000000000000000000000000000000000000000000000000000000000000000000000000000000000000000
    nb) (h : P s) : P (satSupervise s n clamped).1 := by
  unfold satSupervise
  repeat' first
    | (with_reducible first
        | assumption | intro _ | apply keeps_ite | apply K.wr | apply bump_keeps K | apply down_keeps K | apply post_keeps K
        | apply up_keeps K | (apply keeps_fst; assumption) | (apply keeps_snd; assumption))
    | exact off_sub rfl hb | exact off_bit rfl hb | dsimp only | split

theorem outputStage_keeps (K : Keeps nb P) (c : Stitch) (n fb : Nat) (e v : Int) (hb : Off
    0x1000000000000000000000000100000000000000000000000000000000000000000000000000000000814000000000000000000000000000000000000400000000000000000000000000000000000000000000000000000000000000000000000000000000000000000000000000000000000000000000000000000000000000000000000000838010000400000000000000000000000000000000000000000000000000000000000000000000000000000000000000000000000000
    nb) (h : P c.s) : P (outputStage c n fb e v).1.s := by
  unfold outputStage
  extract_lets ctl x1 x2 x3 c4 lo hi y cl out s1 s2 r
  have h1 : P x1.2.s := by
    unfold x1; split <;> with_reducible first | exact stageRc_keeps K _ _ _ _ _ (off_sub (by decide) hb) h | exact h
  have h2 : P x2.2.s := by
    unfold x2; split <;> with_reducible first | exact stageFf2_keeps K _ _ _ _ (off_sub (by decide) hb) h1 | exact h1
  have h3 : P c4.s := by
    unfold c4 x3; split <;> with_reducible first | exact stageFf1_keeps K _ _ _ (off_sub (by decide) hb) h2 | exact h2
  have h4 : P s1 := K.wr _ _ _ _ (off_bit rfl hb) (K.wr _ _ _ _ (off_bit rfl hb) h3)
  exact satSupervise_keeps K _ _ _ (off_sub rfl hb)
    (by unfold s2; split <;> with_reducible first | exact sendShadow_keeps K _ _ (off_sub (by decide) hb) h4 | exact h4)

theorem leClear_keeps (K : Keeps nb P) (s : State) (n : Nat) (hb : Off
    0x1000000000000000000000000000000000000000000000000000000000000000000000000000000000D00000000000000000000000000000000000000000000000000000000000000000000000000000000000000000000000000000000000000000000000000000000000000000000000000000000000000000000000000000000000000000C10000000000000000000000000000000000000000000000000000000000000000000000000000000000000000000000000000000000
    nb) (h : P s) : P (leClear s n) := by
  unfold leClear
  repeat' first
    | (with_reducible first
        | assumption | intro _ | apply keeps_foldl | apply keeps_fold1 | apply keeps_fold2 | apply K.wr | apply down_keeps K
        | apply mset_keeps K)
    | exact off_sub rfl hb | exact off_bit rfl hb | dsimp only | split

theorem leTakeClear_keeps (K : Keeps nb P) (s : State) (n : Nat) (hb : Off
    0x1000000000000000000000000000000000000000000000000000000000000000000000000000000000D00000000000000000000000000000000000000000000000000000000000000000000000000000000000000000000000000000000000000000000000000000000000000000000000000000000000000000000000000000000000000000C100000C0000000000000000000000000000000000000000000000000000000000000000000000000000000000000000000000000000
    nb) (h : P s) : P (leTakeClear s n) := by
  unfold leTakeClear
  repeat' first
    | (with_reducible first
        | assumption | intro _ | apply keeps_ite | apply K.wr | apply leClear_keeps K)
    | exact off_sub rfl hb | exact off_bit rfl hb | dsimp only | split

theorem leSwapSlot_keeps (K : Keeps nb P) (s : State) (n : Nat) (hb : Off
    0x100000000000000000000000000000000000000000000000000000000000000000000000000000000000000000000000000000000000000000000000000000000000000000000000000000000000000000000000000000000000000000000000003C000000000000000000000000000000000000000000000000000000000000000000000000000000000000000000000000000
    nb) (h : P s) : P (leSwapSlot s n) := by
  unfold leSwapSlot
  repeat' first
    | (with_reducible first
        | assumption | intro _ | apply keeps_ite | apply K.wr | apply down_keeps K)
    | exact off_sub rfl hb | exact off_bit rfl hb | dsimp only | split

theorem leSwapAll_keeps (K : Keeps nb P) (s : State) (hb : Off
    0x100000000000000000000000000000000000000000000000000000000000000000000000000000000000000000000000000000000000000000000000000000000000000000000000000000000000000000000000000000000000000000000000003C000000000000000000000000000000000000000000000000000000000000000000000000000000000000000000000000000
    nb) (h : P s) : P (leSwapAll s) := by
  unfold leSwapAll
  repeat' first
    | (with_reducible first
        | assumption | intro _ | apply keeps_each | apply keeps_ite | apply wrb_keeps K | apply leSwapSlot_keeps K)
    | exact off_sub rfl hb | exact off_bit rfl hb | dsimp only | split

theorem leEccOff_keeps (K : Keeps nb P) (s : State) (n : Nat) (hb : Off
    0x100000000000000000000000000000000000000000000000000000000000000000000000000000000000000000000000400000000000000000000000000000000000000000000000000000000000000000000000000000000000000000000000000000000000000000000000000000000000000000000000000400000000800000000000000000000000000000000000000000000000000000000000000000000000000000000000000000000000000
    nb) (h : P s) : P (leEccOff s n) := by
  unfold leEccOff
  repeat' first
    | (with_reducible first
        | assumption | intro _ | apply post_keeps K | apply up_keeps K)
    | exact off_sub rfl hb | exact off_bit rfl hb | dsimp only | split

theorem Stitch.finish_keeps (K : Keeps nb P) (c : Stitch) (n : Nat) (hb : Off
    0xB80000000000000000000000000000000000000000000000000000000000000000000000000000000000000000000000000000000000 nb) (h :
    P c.s) : P (Stitch.finish c n) := by
  unfold Stitch.finish
  repeat' first
    | (with_reducible first
        | assumption | intro _ | apply keeps_when | apply up_keeps K)
    | exact off_sub rfl hb | exact off_bit rfl hb | dsimp only | split

theorem leStale_keeps (K : Keeps nb P) (s : State) (n : Nat) (hb : Off
    0x800000000000000000000000000000000000000000000000000000000000000000000000000000000000000000000000000000000000000000000000000000000000000000000000000000000000000000000000000000000000000040008002000000000000000000000000000000000000000000000000000000000000000000000000000000000000000000000000000
    nb) (h : P s) : P (leStale s n) := by
  unfold leStale
  repeat' first
    | (with_reducible first
        | assumption | intro _ | apply keeps_each | apply keeps_ite | apply bump_keeps K | apply down_keeps K
        | apply up_keeps K)
    | exact off_sub rfl hb | exact off_bit rfl hb | dsimp only | split

theorem microStitch_keeps (K : Keeps nb P) (c : Stitch) (n fb : Nat) (mre : Int × Int × Int) (hb : Off
    0x1000000000000000000000000100000000000000000000000000000000000000000000000000000001F1400000000000000000000000000000000000040000000000000000000000000000000000000000000000000000000000000000000000000000000000000000000000000000000000000000000000000000000000000000000000000083801003C400000000000000000000000000000000000000000000000000000000000000000000000000000000000000000000000000
    nb) (h : P c.s) : P (microStitch c n fb mre).1.s := by
  unfold microStitch
  repeat' first
    | (with_reducible first
        | assumption | intro _ | apply keeps_each | apply keeps_when | apply keeps_ite | apply K.wr | apply down_keeps K
        | apply up_keeps K | apply leSwapSlot_keeps K | apply microRun_keeps K | apply outputStage_keeps K
        | (apply keeps_fst; assumption) | (apply keeps_snd; assumption))
    | exact off_sub rfl hb | exact off_bit rfl hb | dsimp only | split

theorem stitchEnd_keeps (K : Keeps nb P) (s : State) (n : Nat) (o : Stitch × Option Nat) (hb : Off
    0x100000000000000000000000000000000000000000000000000000000000000000000000000000000000000000000000400000000000000000000000000000000000000000000000000000000000000000000000000000000000000000000000000000000000000000000000000000000000000000000000000F80000000800000000000000000000000000000000000000000000000000000000000000000000000000000000000000000000000000
    nb) (h : P s) (ho : P o.1.s) : P (stitchEnd s n o).1 := by
  unfold stitchEnd
  repeat' first
    | (with_reducible first
        | assumption | intro _ | apply keeps_ite | apply Stitch.finish_keeps K | apply leEccOff_keeps K)
    | exact off_sub rfl hb | exact off_bit rfl hb | dsimp only | split

theorem stitch_keeps (K : Keeps nb P) (s : State) (n : Nat) (hb : Off
    0x1000000000000000000000000100000000000000000000000000000000000000000000000000000001F14800000000000000000000000000000000000400000000000000000000000000000000000000000000000000000000000000000000000000000000000000000000000000000000000000000000000000000000000000000000000000FF80180FEC00000000000000000000000000000000000000000000000000000000000000000000000000000000000000000000000000
    nb) (h : P s) : P (stitch s n).1 := by
  unfold stitch
  repeat' first
    | (with_reducible first
        | assumption | intro _ | apply keeps_ite | apply Stitch.input_keeps K | apply Stitch.store_keeps K
        | apply lawPi_keeps K | apply lawProfile_keeps K | apply lawState4_keeps K | apply lawTable_keeps K
        | apply lawZ_keeps K | apply leEccOff_keeps K | apply leStale_keeps K | apply leTakeClear_keeps K
        | apply microStitch_keeps K | apply outputStage_keeps K | apply stitchEnd_keeps K | (apply keeps_fst; assumption)
        | (apply keeps_snd; assumption))
    | exact off_sub rfl hb | exact off_bit rfl hb | dsimp only | split

theorem leStartCopies_keeps (K : Keeps nb P) (s : State) (hb : Off
    0x80000000000000000000000000000000000000000000000000000000000000000000000000000000000000000000000000000000000000000000000000000000000000000000000000000000000000000000000000000000000000000000000000000000000000000000000000000000000000000000000000000000000000000000000000000000000000000000000000000
    nb) (h : P s) : P (leStartCopies s) := by
  unfold leStartCopies
  repeat' first
    | (with_reducible first
        | assumption | intro _ | apply keeps_each | apply keeps_ite | apply up_keeps K)
    | exact off_sub rfl hb | exact off_bit rfl hb | dsimp only | split

theorem rowBoundary_keeps (K : Keeps nb P) (s : State) (hb : Off
    0x108000000000000000000000000000000000000000000000000000000000000000000000000000000000000000000000000000000000000000000000000000000000000000000000000000000000000000000000000000000000000000000000003C000000000000000000000000000000000000000000000000000000000000000000000000000000000000000000000000000
    nb) (h : P s) : P (rowBoundary s) := by
  unfold rowBoundary
  repeat' first
    | (with_reducible first
        | assumption | intro _ | apply leStartCopies_keeps K | apply leSwapAll_keeps K)
    | exact off_sub rfl hb | exact off_bit rfl hb | dsimp only | split

theorem rowTrigger_keeps (K : Keeps nb P) (s : State) (r : Nat) (hb : Off
    0x100000000000000000000000000000000000000000000000000000004000000000000000000000000000000000000000400000000000000000000000000000000000000000000000000000000000000000000000000000000000000000000000000000000000000000000000000000000000000000000000000000002000300000000000000000000000000000000000000000000000000000000000000000000000000000000000000000000000000
    nb) (h : P s) : P (rowTrigger s r).1 := by
  unfold rowTrigger
  repeat' first
    | (with_reducible first
        | assumption | intro _ | apply keeps_ite | apply K.wr | apply bump_keeps K | apply post_keeps K | apply up_keeps K
        | (apply keeps_fst; assumption) | (apply keeps_snd; assumption))
    | exact off_sub rfl hb | exact off_bit rfl hb | dsimp only | split

theorem resultReceive_keeps (K : Keeps nb P) (s : State) (hb : Off
    0x3E00000000000000000000000000000000000000000000000000000000000000000000000000000000000000000000000000000000000000000000000000000000000000000000000000000000000000000000000000000000000000000004001000000000000000000000000000000000000000000000000000000000000000000000000000000000000000000000000000
    nb) (h : P s) : P (resultReceive s) := by
  unfold resultReceive
  repeat' first
    | (with_reducible first
        | assumption | intro _ | apply keeps_ite | apply K.wr | apply bump_keeps K | apply up_keeps K)
    | exact off_sub rfl hb | exact off_bit rfl hb | (with_reducible exact K.frame h rfl rfl rfl rfl rfl) | dsimp only
    | split

theorem startExpress_keeps (K : Keeps nb P) (s : State) (n : Nat) (hb : Off
    0x1400000000000000000000000000000000000000000000000000000000000000000000000000000000000000000000000000000000000000000000000000000000000000000000000000000000000000000000000000000000000000000020000000000000000000000000000000000000000000000000000000000000000000000000000000000000000000000000000000
    nb) (h : P s) : P (startExpress s n) := by
  unfold startExpress
  repeat' first
    | (with_reducible first
        | assumption | intro _ | apply keeps_each | apply down_keeps K | apply peak_keeps K)
    | exact off_sub rfl hb | exact off_bit rfl hb | dsimp only | split

theorem copyWords_keeps (K : Keeps nb P) (s : State) (src dst n : Nat) (hb : Off
    0x1000000000000000000000000000000000000000000000000000000000000000000000000000000000000000000000000000000000000000000000000000000000000000000000000000000000000000000000000000000000000000000000000000000000000000000000000000000000000000000000000000000000000000000000000000000000000000000000000000000000000000000000000000000000000000000000000000000000000000000000000000000000000000
    nb) (h : P s) : P (copyWords s src dst n) := by
  unfold copyWords
  repeat' first
    | (with_reducible first
        | assumption | intro _ | apply keeps_foldl | apply keeps_fold1 | apply keeps_fold2 | apply mset_keeps K)
    | exact off_sub rfl hb | exact off_bit rfl hb | dsimp only | split

theorem ltCopyDone_keeps (K : Keeps nb P) (s : State) (t : Nat) (hb : Off
    0x10000000000000000000000001000000000000000000000000000000000000000000000000000000000E0000000000000000000000000000000000000400000000000000000000000000000000000000000000000000000000000000000000000000000000000000000000000000000000000000000000000000000000000000000000000000000000800000000000000000000000000000000000000000000000000000000000000000000000000000000000000000000000000000
    nb) (h : P s) : P (ltCopyDone s t) := by
  unfold ltCopyDone
  repeat' first
    | (with_reducible first
        | assumption | intro _ | apply keeps_ite | apply down_keeps K | apply post_keeps K | apply copyWords_keeps K)
    | exact off_sub rfl hb | exact off_bit rfl hb | dsimp only | split

theorem ltRequest_keeps (K : Keeps nb P) (s : State) (t : Nat) (pre snap : Bool) (hb : Off
    0x60000000000000000000000000000000000000000000000000000000000000000000000000000000000000000000000000000000000000000000000000000000000000000000000000000000000000000000000000000000000000000000000800000000000000000000000000000000000000000000000000000000000000000000000000000000000000000000000000000
    nb) (h : P s) : P (ltRequest s t pre snap) := by
  unfold ltRequest
  repeat' first
    | (with_reducible first
        | assumption | intro _ | apply keeps_ite | apply up_keeps K | apply wrb_keeps K)
    | exact off_sub rfl hb | exact off_bit rfl hb | dsimp only | split

theorem leSwapWritten_keeps (K : Keeps nb P) (s : State) (hi : Bool) (v : Nat) (hb : Off fpRegs nb) (h : P s) : P
    (leSwapWritten s hi v) := by
  unfold leSwapWritten
  repeat' first
    | (with_reducible first
        | assumption | intro _ | apply keeps_ite | apply K.wr | apply leSwapAll_keeps K)
    | exact off_sub rfl hb | exact off_bit rfl hb | exact off_any (off_sub rfl hb) | dsimp only | split

theorem leClrWritten_keeps (K : Keeps nb P) (s : State) (hi : Bool) (v : Nat) (hb : Off fpRegs nb) (h : P s) : P
    (leClrWritten s hi v) := by
  unfold leClrWritten
  repeat' first
    | (with_reducible first
        | assumption | intro _ | apply keeps_ite | apply K.wr)
    | exact off_sub rfl hb | exact off_bit rfl hb | exact off_any (off_sub rfl hb) | dsimp only | split

end
end Sys2Proof.Machine
end

