-- ==== Sys2Proof/Laws/KeepsNvm.lean ====
section
/-!
SUPPORT. What each operation of Sys2Proof/Machine/Nvm.lean can change: its footprint (Sys2Proof/Laws/Keeps.lean).
-/
namespace Sys2Proof.Machine
set_option linter.all false
section
variable {P : State → Prop} {nb : Nat}

theorem logPush_keeps (K : Keeps nb P) (s : State) (kind : Nat) (w2 : Nat) (w3 : Nat) (hb : Off
    0x80000000000000000000000000000000000000000000000000000000000000000000000000000000000000000000000000000000000000000000000000000000000000000000000000000000000000000000000000000000000000000000000000000000000000000000000000000000000000000000000000000000000000000000000000000000000000000000000000000000000000000000000000000000000000000000000000000000000000000
    nb) (h : P s) : P (logPush s kind w2 w3) := by
  unfold logPush
  repeat' first
    | (with_reducible first
        | assumption | intro _ | apply keeps_ite | apply pushq_keeps K)
    | exact off_sub rfl hb | exact off_bit rfl hb | dsimp only | split

theorem wear_keeps (K : Keeps nb P) (s : State) (a n : Nat) (hb : Off
    0x40000000000000000000000000000000000000000000000000000000000000000100000000000000000000000000000000000000000000000000000000000000000000000000000000000000000000000000000000000000000000000000000000000000000000000000000000000000000000000000000000000000000000000000000000000000000000000000000000000000000000000002000000000000000000000000
    nb) (h : P s) : P (wear s a n) := by
  unfold wear
  repeat' first
    | (with_reducible first
        | assumption | intro _ | apply keeps_each | apply keeps_ite | apply bumpBy_keeps K | apply ledgerRaise_keeps K)
    | exact off_sub rfl hb | exact off_bit rfl hb | dsimp only | split

theorem nvmFailed_keeps (K : Keeps nb P) (s : State) (a : Nat) (hb : Off
    0x80100000000000000000000000000000000000000000000000000000000000000000000000000000000000000000000000400000000000000000000000000000000000000000C00000000000000000000000000000000000000000000000000000000000000000000000000000000000000000000000000000000000000000000000000000000000000000000000000000000000000000000000000000000000000000000000000000000000000000000
    nb) (h : P s) : P (nvmFailed s a) := by
  unfold nvmFailed
  repeat' first
    | (with_reducible first
        | assumption | intro _ | apply K.wr | apply bump_keeps K | apply post_keeps K | apply logPush_keeps K)
    | exact off_sub rfl hb | exact off_bit rfl hb | dsimp only | split

theorem nvmReads_keeps (K : Keeps nb P) (s : State) (a n : Nat) (hb : Off
    0x80100000000000000000000000000000000000000000000000000000000000000000000000000000000000000000000000400000000000000000000000000000000000000000C00000000000000000000000000000000000000000000000000000000000000000000000000000000000000000000000000000000000000000000000000000000000000000000000000000000000000000000000000000000000000000000000000000000000000000000
    nb) (h : P s) : P (nvmReads s a n) := by
  unfold nvmReads
  repeat' first
    | (with_reducible first
        | assumption | intro _ | apply keeps_each | apply nvmFailed_keeps K)
    | exact off_sub rfl hb | exact off_bit rfl hb | dsimp only | split

theorem nvmCorrected_keeps (K : Keeps nb P) (s : State) (a : Nat) (hb : Off
    0x10000000000000000000000000000000000000000000000000000000000000000100000000000000000000000000000000000000000000000000001100000000000000000000000000000000000000000000000000000000000000000000000000000000000000000000000000000000000000000000000000000000000000000000000000000000000000000000000000000000000000000002000000000000000000000000
    nb) (h : P s) : P (nvmCorrected s a) := by
  unfold nvmCorrected
  repeat' first
    | (with_reducible first
        | assumption | intro _ | apply keeps_foldl | apply keeps_fold1 | apply keeps_fold2 | apply keeps_ite | apply K.wr
        | apply bump_keeps K | apply ledgerRaise_keeps K)
    | exact off_sub rfl hb | exact off_bit rfl hb | dsimp only | split

theorem programFailed_keeps (K : Keeps nb P) (s : State) (a : Nat) (hb : Off
    0x1000000000000000000000000000000000000000000000000000000000000000000000000000000000000000000000000000000000000000000000000000000000000000000000000000000000000000000400000000000000000000000000000000000000000000000000000000000000000000000000000000000000000000000000000000000000000000000000000000000000000000000000000000000000000000000000000000000000000000000000000000000000000000
    nb) (h : P s) : P (programFailed s a) := by
  unfold programFailed
  repeat' first
    | (with_reducible first
        | assumption | intro _ | apply keeps_ite | apply K.spoil | apply bump_keeps K | apply drew_keeps K
        | apply heal_keeps K | apply mset_keeps K)
    | exact off_sub rfl hb | exact off_bit rfl hb | dsimp only | split

theorem electKey_keeps (K : Keeps nb P) (s : State) (k : Nat) (hb : Off
    0x801000000000000000000000000000000000000000000000000000000000000000000000000000000000000000000000004000000000000000000000000000000000003C0000C00000000000000000000000000000000000000000000000000000000000000000000000000000000000000000000000000000000000000000000000000000000000000000000000000000000000000000000000000000000000000000000000000000000000000000000
    nb) (h : P s) : P (electKey s k) := by
  unfold electKey
  repeat' first
    | (with_reducible first
        | assumption | intro _ | apply K.wr | apply nvmReads_keeps K)
    | exact off_sub rfl hb | exact off_bit rfl hb | dsimp only | split

theorem electCtr_keeps (K : Keeps nb P) (s : State) (n : Nat) (hb : Off
    0x1000000000000000000000080100000000000000000000000000000000000000000000000000000000000000000000000000000000000000000000000400000000000000000000000000000000000420000C00000000000000000000000000000000000000000000000000000000000000000000000000000000000000000000000000000000000000000000000000000000000000000000000000000000000000000000000000000000000000000000000000000000000000000000
    nb) (h : P s) : P (electCtr s n) := by
  unfold electCtr
  repeat' first
    | (with_reducible first
        | assumption | intro _ | apply K.wr | apply logPush_keeps K | apply nvmReads_keeps K | (apply keeps_fst; assumption)
        | (apply keeps_snd; assumption))
    | exact off_sub rfl hb | exact off_bit rfl hb | dsimp only | split

theorem loadTallies_keeps (K : Keeps nb P) (s : State) (hb : Off fpRegs nb) (h : P s) : P (loadTallies s) := by
  unfold loadTallies
  repeat' first
    | (with_reducible first
        | assumption | intro _ | apply keeps_each | apply K.wr | apply nvmReads_keeps K | apply parts_of K
        | apply parts_regs K | apply parts_queues K | apply parts_mem K | apply parts_bad K)
    | exact off_sub rfl hb | exact off_bit rfl hb | exact off_any (off_sub rfl hb) | dsimp only | split
    | simp only [parts_mk K]

theorem tallySaveStart_keeps (K : Keeps nb P) (s : State) (hb : Off
    0x80000000000000000000000000000000000000000000000000000000000000000000000000000000000000000000000000000000000000000000000080000000000000000000000000000000000000000000000000000000000000000000000000000000000000000000000000000000000000000000000000000000000000000000000000000000000000000000000000000000000000000000000000000000000000000000
    nb) (h : P s) : P (tallySaveStart s) := by
  unfold tallySaveStart
  repeat' first
    | (with_reducible first
        | assumption | intro _ | apply keeps_ite | apply K.wr | apply up_keeps K)
    | exact off_sub rfl hb | exact off_bit rfl hb | dsimp only | split

theorem tallySaveDone_keeps (K : Keeps nb P) (s : State) (hb : Off
    0x10000000000000000000000000000000000000000000C0000000000000000000000000000000000000000000000000000000000000000100000000000000000000000000000000000000000000000000000080000000000000000000000000000000000000000000000000000000000000000000000000000000000000000000000000000000000000000000000000000000000000000000000000000000000000000000000000000000000000000002000000000000000000000000
    nb) (h : P s) : P (tallySaveDone s) := by
  unfold tallySaveDone
  repeat' first
    | (with_reducible first
        | assumption | intro _ | apply keeps_each | apply keeps_ite | apply K.wr | apply down_keeps K | apply mset_keeps K
        | apply dropRange_keeps K | apply wear_keeps K)
    | exact off_sub rfl hb | exact off_bit rfl hb | dsimp only | split

theorem mElect_keeps (K : Keeps nb P) (s : State) (hb : Off fpAll nb) (h : P s) : P (mElect s) := by
  unfold mElect
  repeat' first
    | (with_reducible first
        | assumption | intro _ | apply keeps_each | apply electCtr_keeps K | apply electKey_keeps K
        | apply loadTallies_keeps K)
    | exact off_sub rfl hb | exact off_bit rfl hb | dsimp only | split

theorem logSearchDone_keeps (K : Keeps nb P) (s : State) (hb : Off
    0x80100000000000000008000000000000000000000000000000000000000000000000000000000000000000100000000000400000000000000000000000000000000006000000C00000000000000000000000000000000000000000000000000000000000000000000000000000000000000000000000000000000000000000000000000000000000000000000000000000000000000000000000000000000000000000602000000004000000000000000
    nb) (h : P s) : P (logSearchDone s) := by
  unfold logSearchDone
  repeat' first
    | (with_reducible first
        | assumption | intro _ | apply keeps_when | apply keeps_ite | apply K.wr | apply peak_keeps K | apply up_keeps K
        | apply nvmReads_keeps K)
    | exact off_sub rfl hb | exact off_bit rfl hb | dsimp only | split

theorem logWrite_keeps (K : Keeps nb P) (s : State) (hb : Off
    0x1000000000000000000000080000000000000000000040000000000000000000000000000000000000000000000000000000000000000100000000000000000000000000000000000000000000006000000000000000000000000000000000000000000000000000000000000000000000000000000000000000000000000000000000000000000000000000000000000000000000000000000000000000000000000000000000000000000000000002000000000000000000000000
    nb) (h : P s) : P (logWrite s) := by
  unfold logWrite
  repeat' first
    | (with_reducible first
        | assumption | intro _ | apply keeps_ite | apply K.setq | apply K.wr | apply healRange_keeps K
        | apply setBytes_keeps K | apply wear_keeps K)
    | exact off_sub rfl hb | exact off_bit rfl hb | dsimp only | split

theorem ledgerRecord_keeps (K : Keeps nb P) (s : State) (hb : Off
    0x80000000000000000000000000000000000000000000000000000000000000000000000000000000000000100000000000000000000000000000000000000000000000000000000000000000000000000000000000000000000000000000000000000000000000000000000000000000000000000000000000000000000000000000000000000000000000000000000000000000000000000000000000000000000000000000000000000000000000000
    nb) (h : P s) : P (ledgerRecord s) := by
  unfold ledgerRecord
  repeat' first
    | (with_reducible first
        | assumption | intro _ | apply keeps_ite | apply down_keeps K | apply logPush_keeps K)
    | exact off_sub rfl hb | exact off_bit rfl hb | dsimp only | split

theorem bucketRoll_keeps (K : Keeps nb P) (s : State) (hb : Off
    0x30000000000000000000000000000000000000000000000000000000000000000000000000000000000000000000000000000000000000000000000000000000000000000000000000000000000000000000000000000000000000000000000000000000000000000000000000000000000000000000000000000000000000000000000000000000000000000000000000000000000000000000000000000000000000000000
    nb) (h : P s) : P (bucketRoll s) := by
  unfold bucketRoll
  repeat' first
    | (with_reducible first
        | assumption | intro _ | apply K.wr)
    | exact off_sub rfl hb | exact off_bit rfl hb | dsimp only | split

theorem crEnter_keeps (K : Keeps nb P) (s : State) (u : Nat) (hb : Off
    0x1000000000000000000000000000000000000000000000000000000000000000000000000000000000000000000000000000000000000000000000000000000000000000000000000000000000400000000000000000000000000000000000000000000000000000000000000000000000000000000000000000000000000000000000000000000000000000000000000000000000000000000000000000000000000000000000
    nb) (h : P s) : P (crEnter s u) := by
  unfold crEnter
  repeat' first
    | (with_reducible first
        | assumption | intro _ | apply keeps_ite | apply K.wr | apply up_keeps K)
    | exact off_sub rfl hb | exact off_bit rfl hb | dsimp only | split

theorem crLeave_keeps (K : Keeps nb P) (s : State) (hb : Off
    0x1000000000000000000000000000000000000000000000000000000000000000000000000000000000000000000000000000000000000000000000000000000000000000000000000000000000400000000000000000000000000000000000000000000000000000000000000000000000000000000000000000000000000000000000000000000000000000000000000000000000000000000000000000000000000000000000
    nb) (h : P s) : P (crLeave s) := by
  unfold crLeave
  repeat' first
    | (with_reducible first
        | assumption | intro _ | apply K.wr | apply wrb_keeps K)
    | exact off_sub rfl hb | exact off_bit rfl hb | dsimp only | split

end
end Sys2Proof.Machine
end

