-- ==== Sys2Proof/Laws/KeepsPattern.lean ====
section
/-!
SUPPORT. What each operation of Sys2Proof/Machine/Pattern.lean can change: its footprint (Sys2Proof/Laws/Keeps.lean).
-/
namespace Sys2Proof.Machine
set_option linter.all false
section
variable {P : State → Prop} {nb : Nat}

theorem loadDest_keeps (K : Keeps nb P) (s : State) (d h : Nat) (hb : Off
    0x780000000000000000000000000000000000000000000000000000000000000000000000000000000000000000000000000000000000000000000000000000000000000000000000000000000000000000000000000000000000000000000000000000000000000000000000000000000000000000000000000000000000000000000000000000
    nb) (h' : P s) : P (loadDest s d h) := by
  unfold loadDest
  repeat' first
    | (with_reducible first
        | assumption | intro _ | apply K.wr)
    | exact off_sub rfl hb | exact off_bit rfl hb | dsimp only | split

theorem loadWords_keeps (K : Keeps nb P) (s : State) (a : Nat) (ws : List Nat) (hb : Off
    0x1000000000000000000000000000000000000000000000000000000000000000000000000000000000000000000000000000000000000000000000000000000000000000000000000000000000000000000000000000000000000000000000000000000000000000000000000000000000000000000000000000000000000000000000000000000000000000000000000000000000000000000000000000000000000000000000000000000000000000000000000000000000000000
    nb) (h : P s) : P (loadWords s a ws) := by
  induction ws generalizing s a with
  | nil => exact h
  | cons v r ih => exact ih _ _ (mset_keeps K _ _ _ _ (off_sub rfl hb) h)

theorem freshSlot_keeps (K : Keeps nb P) (s : State) (n : Nat) (hb : Off
    0x1000000000000000000000000000000000000000000000000000000000000000000000000000000000D10000000000000000000000000000000000000000000000000000000000000000000000000000000000000000000000000000000000000000000000000000000000000000000000000000000000000000000000000000000000000000010000000000000000000000000000000000000000000000000000000000000000000000000000000000000000000000000000000000
    nb) (h : P s) : P (freshSlot s n) := by
  unfold freshSlot
  repeat' first
    | (with_reducible first
        | assumption | intro _ | apply K.wr | apply down_keeps K | apply loadWords_keeps K)
    | exact off_sub rfl hb | exact off_bit rfl hb | dsimp only | split

theorem loadFrame_keeps (K : Keeps nb P) (s : State) (f : Frame) (hb : Off fpAll nb) (h : P s) : P (loadFrame s f) := by
  unfold loadFrame
  repeat' first
    | (with_reducible first
        | assumption | intro _ | apply keeps_each | apply keeps_when | apply keeps_ite | apply K.wr | apply down_keeps K
        | apply mset_keeps K | apply up_keeps K | apply clockLost_keeps K | apply loadDest_keeps K | apply loadWords_keeps K
        | (apply keeps_fst; assumption) | (apply keeps_snd; assumption))
    | exact off_sub rfl hb | exact off_bit rfl hb | exact off_any (off_sub rfl hb) | dsimp only | split

theorem loadSection_keeps (K : Keeps nb P) (s : State) (fs : List Frame) (t : Nat) (p : Frame → Bool) (hb : Off fpAll nb)
    (h : P s) : P (loadSection s fs t p) := by
  unfold loadSection
  repeat' first
    | (with_reducible first
        | assumption | intro _ | apply keeps_each | apply loadFrame_keeps K)
    | exact off_sub rfl hb | exact off_bit rfl hb | dsimp only | split

theorem loadPower_keeps (K : Keeps nb P) (s : State) (fail : Option Nat) (hb : Off
    0x30000000000000000000000001000000000000000000000000000000000000000000000000000000000000000000000001C3DF8000000000000000000400000000000000000000000000000000000000000000000000000000000000000000000000000000000000000000000000000000000000000000000000000000000000000000000000000000000000000000000000000000000000000000000000000000000000F00000100003C60000000000000000000000000200000000
    nb) (h : P s) : P (loadPower s fail).1 := by
  unfold loadPower
  repeat' first
    | (with_reducible first
        | assumption | intro _ | apply keeps_each | apply keeps_ite | apply K.wr | apply domErr_keeps K
        | apply dropBank_keeps K | apply dropRange_keeps K | apply forceOff_keeps K | apply setDomCtrl_keeps K
        | (apply keeps_fst; assumption) | (apply keeps_snd; assumption))
    | exact off_sub rfl hb | exact off_bit rfl hb | dsimp only | split

theorem loadRest_keeps (K : Keeps nb P) (s : State) (fs : List Frame) (p : Frame → Bool) (hb : Off fpAll nb) (h : P s) : P
    (loadRest s fs p) := by
  unfold loadRest
  repeat' first
    | (with_reducible first
        | assumption | intro _ | apply keeps_when | apply up_keeps K | apply loadSection_keeps K
        | apply routesSettled_keeps K)
    | exact off_sub rfl hb | exact off_bit rfl hb | exact off_any (off_sub rfl hb) | dsimp only | split

theorem gpLoad_keeps (K : Keeps nb P) (s : State) (hb : Off 0x8000000000000000000000000000000000000000000000000 nb) (h : P
    s) : P (gpLoad s) := by
  unfold gpLoad
  repeat' first
    | (with_reducible first
        | assumption | intro _ | apply K.wr)
    | exact off_sub rfl hb | exact off_bit rfl hb | dsimp only | split

theorem castUndo_keeps (K : Keeps nb P) (s : State) (hb : Off fpRegs nb) (h : P s) : P (castUndo s) := by
  unfold castUndo
  repeat' first
    | (with_reducible first
        | assumption | intro _ | apply keeps_each | apply keeps_ite | apply K.wr | apply patternLost_keeps K
        | apply powerDie_keeps K)
    | exact off_sub rfl hb | exact off_bit rfl hb | exact off_any (off_sub rfl hb) | dsimp only | split

theorem rejectWith_keeps (K : Keeps nb P) (s : State) (f : Fail) (source : Nat) (hb : Off 0xF000000000000000000000000000000
    nb) (h : P s) : P (rejectWith s f source) := by
  unfold rejectWith
  repeat' first
    | (with_reducible first
        | assumption | intro _ | apply keeps_ite | apply drew_keeps K | apply reject_keeps K)
    | exact off_sub rfl hb | exact off_bit rfl hb | dsimp only | split

theorem setDigest_keeps (K : Keeps nb P) (s : State) (d : Nat) (hb : Off 0x800000000000000000000000000000 nb) (h : P s) : P
    (setDigest s d) := by
  unfold setDigest
  repeat' first
    | (with_reducible first
        | assumption | intro _ | apply keeps_each | apply K.wr)
    | exact off_sub rfl hb | exact off_bit rfl hb | dsimp only | split

theorem castFull_keeps (K : Keeps nb P) (s : State) (a slot : Nat) (fail : Option Nat) (hb : Off fpAll nb) (h : P s) : P
    (castFull s a slot fail) := by
  unfold castFull
  repeat' first
    | (with_reducible first
        | assumption | intro _ | apply keeps_each | apply keeps_ite | apply K.wr | apply down_keeps K | apply up_keeps K
        | apply wrb_keeps K | apply castUndo_keeps K | apply driveLeg_keeps K | apply gpLoad_keeps K
        | apply loadFrame_keeps K | apply loadPower_keeps K | apply loadRest_keeps K | apply loadSection_keeps K
        | apply patternLost_keeps K | apply rejectWith_keeps K | apply setDigest_keeps K | (apply keeps_fst; assumption)
        | (apply keeps_snd; assumption))
    | exact off_sub rfl hb | exact off_bit rfl hb | exact off_any (off_sub rfl hb) | dsimp only | split

theorem castC_keeps (K : Keeps nb P) (s : State) (a : Nat) (hb : Off fpAll nb) (h : P s) : P (castC s a) := by
  unfold castC
  repeat' first
    | (with_reducible first
        | assumption | intro _ | apply keeps_each | apply keeps_ite | apply down_keeps K | apply up_keeps K
        | apply loadDest_keeps K | apply loadRest_keeps K | apply loadSection_keeps K | apply rejectWith_keeps K
        | apply routesSettled_keeps K)
    | exact off_sub rfl hb | exact off_bit rfl hb | exact off_any (off_sub rfl hb) | dsimp only | split

end
end Sys2Proof.Machine
end

