-- ==== Sys2Proof/Laws/KeepsFabric.lean ====
section
/-!
SUPPORT. What each operation of Sys2Proof/Machine/Fabric.lean can change: its footprint (Sys2Proof/Laws/Keeps.lean).
-/
namespace Sys2Proof.Machine
set_option linter.all false
section
variable {P : State → Prop} {nb : Nat}

theorem fwRefuse_keeps (K : Keeps nb P) (s : State) (f mid op a : Nat) (hb : Off
    0x100000000000000000000000000000000000000000000000000000000000000000000000000000000000000000000000400000000000000000000000000000000000000000000000000000000000000000000000000000000000000000000000000007C00000000000000000000000000000000000000000000000000000000000000000000000000000000000000000000000000000000000000000000000000000000000000000000000000000000
    nb) (h : P s) : P (fwRefuse s f mid op a) := by
  unfold fwRefuse
  repeat' first
    | (with_reducible first
        | assumption | intro _ | apply keeps_ite | apply K.wr | apply bump_keeps K | apply post_keeps K | apply up_keeps K
        | apply wrb_keeps K)
    | exact off_sub rfl hb | exact off_bit rfl hb | dsimp only | split

theorem respond_keeps (K : Keeps nb P) (s : State) (r : Held) (p : Resp) (hb : Off
    0x100000000000000000000000000000000000000000000000000000000000000000000000000000000000000000000000400000000000000000000000000000000000000000000000000000000000000000000000000000000000000000000000000000000000000000000000000000000000000000000000000000000000000000000000000000000000000000000000000000000000000000000000003C60000000000000000000000000200000000
    nb) (h : P s) : P (respond s r p) := by
  unfold respond
  repeat' first
    | (with_reducible first
        | assumption | intro _ | apply reply_keeps K)
    | exact off_sub rfl hb | exact off_bit rfl hb | dsimp only | split

theorem respondCode_keeps (K : Keeps nb P) (s : State) (r : Held) (c : Code) (hb : Off
    0x100000000000000000000000000000000000000000000000000000000000000000000000000000000000000000000000400000000000000000000000000000000000000000000000000000000000000000000000000000000000000000000000000000000000000000000000000000000000000000000000000000000000000000000000000000000000000000000000000000000000000000000000003C60000000000000000000000000200000000
    nb) (h : P s) : P (respondCode s r c) := by
  unfold respondCode
  repeat' first
    | (with_reducible first
        | assumption | intro _ | apply respond_keeps K)
    | exact off_sub rfl hb | exact off_bit rfl hb | dsimp only | split

theorem respondData_keeps (K : Keeps nb P) (s : State) (r : Held) (v : Nat) (hb : Off
    0x100000000000000000000000000000000000000000000000000000000000000000000000000000000000000000000000400000000000000000000000000000000000000000000000000000000000000000000000000000000000000000000000000000000000000000000000000000000000000000000000000000000000000000000000000000000000000000000000000000000000000000000000003C60000000000000000000000000200000000
    nb) (h : P s) : P (respondData s r v) := by
  unfold respondData
  repeat' first
    | (with_reducible first
        | assumption | intro _ | apply respond_keeps K)
    | exact off_sub rfl hb | exact off_bit rfl hb | dsimp only | split

theorem setsOut_keeps (K : Keeps nb P) (s : State) (r : Held) (hb : Off
    0x100000000000000000000000000000000000000000000000000000000000000000000000000000000000000000000000400000000000000000000000000000000000000000000000000000000000000000000000000000000000000000000000000000000000000000000000000000000000000000000000000000000000000000000000000000000000000000000000000000000000000000000000000000000000000000000000000000000000000
    nb) (h : P s) : P (setsOut s r) := by
  unfold setsOut
  repeat' first
    | (with_reducible first
        | assumption | intro _ | apply sendRequest_keeps K)
    | exact off_sub rfl hb | exact off_bit rfl hb | dsimp only | split

theorem ticketTake_keeps (K : Keeps nb P) (s : State) (b mid t : Nat) (hb : Off
    0x200000000000000000000000000000000000000000000000000000000000000000000000000000000000000000000000000000000000000000000000000000000000000000000000000000000000000000000000000000000000000000000000000000000000000000000000000000000000000000000000000000000000000000000000000000000000000000000000000000000000000000000000000000000000000000000000000000000000000
    nb) (h : P s) : P (ticketTake s b mid t) := by
  unfold ticketTake
  repeat' first
    | (with_reducible first
        | assumption | intro _ | apply keeps_ite | apply K.setq)
    | exact off_sub rfl hb | exact off_bit rfl hb | dsimp only | split

theorem nvmProgram_keeps (K : Keeps nb P) (s : State) (a n v : Nat) (fail : Option Nat) (hb : Off
    0x1000000000000000000000000000000000000000000040000000000000000000000000000000000000000000000000000000000000000100000000000000000000000000000000000000000000000000000400000000000000000000000000000000000000000000000000000000000000000000000000000000000000000000000000000000000000000000000000000000000000000000000000000000000000000000000000000000000000000002000000000000000000000000
    nb) (h : P s) : P (nvmProgram s a n v fail).1 := by
  unfold nvmProgram
  repeat' first
    | (with_reducible first
        | assumption | intro _ | apply keeps_each | apply keeps_ite | apply mset_keeps K | apply programFailed_keeps K
        | apply programWord_keeps K | apply wear_keeps K | (apply keeps_fst; assumption) | (apply keeps_snd; assumption))
    | exact off_sub rfl hb | exact off_bit rfl hb | dsimp only | split

theorem memStore_keeps (K : Keeps nb P) (s : State) (t : Target) (a n v : Nat) (hb : Off
    0x1000000000000000000000000000000000000000000040000000000000000000000000000000000000000000000000000000000000000100000000000000000000000000000000000000000000000000000400000000000000000000000000000000000000000000000000000000000000000000000000000000000000000000000000000000000000000000000000000000000000000000000000000000000000000000000000000000000000000002000000000000000000000000
    nb) (h : P s) : P (memStore s t a n v) := by
  unfold memStore
  repeat' first
    | (with_reducible first
        | assumption | intro _ | apply healRange_keeps K | apply mset_keeps K | apply nvmProgram_keeps K)
    | exact off_sub rfl hb | exact off_bit rfl hb | dsimp only | split

theorem eccSeen_keeps (K : Keeps nb P) (s : State) (t : Target) (a : Nat) (c : Code) (hb : Off
    0x80100000000000000000000000000000000000000000000000000000000000000000000000000000000000000000000000400000000000000000000000000000000000000000C00000000000000000000000000000000000000000000000000000000000000000000000000000000000000000000000000000000000000000000000000000000000000000000000000000000000000000000000000000000000000000000000000000000000000000000
    nb) (h : P s) : P (eccSeen s t a c) := by
  unfold eccSeen
  repeat' first
    | (with_reducible first
        | assumption | intro _ | apply nvmFailed_keeps K | (apply keeps_fst; assumption) | (apply keeps_snd; assumption))
    | exact off_sub rfl hb | exact off_bit rfl hb | dsimp only | split

theorem memRead_keeps (K : Keeps nb P) (s : State) (r : Held) (t : Target) (hb : Off
    0x80100000000000000000000000000000000000000000000000000000000000000000000000000000000000000000000000400000000000000000000000000000000000000000C00000000000000000000000000000000000000000000000000000000000000000000000000000000000000000000000000000000000000000000000000000000000000000000000000000000000000000000000000000003C60000000000000000000000000200000000
    nb) (h : P s) : P (memRead s r t) := by
  unfold memRead
  repeat' first
    | (with_reducible first
        | assumption | intro _ | apply eccSeen_keeps K | apply respondCode_keeps K | apply respondData_keeps K)
    | exact off_sub rfl hb | exact off_bit rfl hb | dsimp only | split

theorem memWrite_keeps (K : Keeps nb P) (s : State) (r : Held) (t : Target) (hb : Off
    0x1000000000000000000000080100000000000000000040000000000000000000000000000000000000000000000000000000000000000100000000000400000000000000000000000000000000000000000C00000000000000000000000000000000000000000000000000000000000000000000000000000000000000000000000000000000000000000000000000000000000000000000000000000000000000000000000000000003C60000000002000000000000000200000000
    nb) (h : P s) : P (memWrite s r t) := by
  unfold memWrite
  repeat' first
    | (with_reducible first
        | assumption | intro _ | apply eccSeen_keeps K | apply memStore_keeps K | apply respondCode_keeps K)
    | exact off_sub rfl hb | exact off_bit rfl hb | dsimp only | split

theorem atomicStore_keeps (K : Keeps nb P) (s : State) (t : Target) (op a n v : Nat) (hb : Off
    0x1000000000000000000000000000000000000000000040000000000000000000000000000000000000000000000000000000000000000100000000000000000000000000000000000000000000000000000400000000000000000000000000000000000000000000000000000000000000000000000000000000000000000000000000000000000000000000000000000000000000000000000000000000000000000000000000000000000000000002000000000000000000000000
    nb) (h : P s) : P (atomicStore s t op a n v) := by
  unfold atomicStore
  repeat' first
    | (with_reducible first
        | assumption | intro _ | apply keeps_ite | apply memStore_keeps K)
    | exact off_sub rfl hb | exact off_bit rfl hb | dsimp only | split

theorem memAtomic_keeps (K : Keeps nb P) (s : State) (r : Held) (t : Target) (hb : Off
    0x1000000000000000000000000100000000000000000040000000000000000000000000000000000000000000000000000000000000000100000000000400000000000000000000000000000000000000000400000000000000000000000000000000000000000000000000000000000000000000000000000000000000000000000000000000000000000000000000000000000000000000000000000000000000000000000000000003C60000000002000000000000000200000000
    nb) (h : P s) : P (memAtomic s r t) := by
  unfold memAtomic
  repeat' first
    | (with_reducible first
        | assumption | intro _ | apply atomicStore_keeps K | apply respondCode_keeps K | apply respondData_keeps K)
    | exact off_sub rfl hb | exact off_bit rfl hb | dsimp only | split

theorem memServe_keeps (K : Keeps nb P) (s : State) (r : Held) (hb : Off
    0x1000000000000000000000080100000000000000000040000000000000000000000000000000000000000000000000000000000000000100000000000400000000000000000000000000000000000000000C00000000000000000000000000000000000000000000000000000000007C00000000000000000000000000000000000000000000000000000000000000000000000000000000000000000000000000000000000000000003C60000000002000000000000000200000000
    nb) (h : P s) : P (memServe s r) := by
  unfold memServe
  repeat' first
    | (with_reducible first
        | assumption | intro _ | apply keeps_ite | apply fwRefuse_keeps K | apply memAtomic_keeps K | apply memRead_keeps K
        | apply memWrite_keeps K | apply respondCode_keeps K)
    | exact off_sub rfl hb | exact off_bit rfl hb | dsimp only | split

theorem memRequest_keeps (K : Keeps nb P) (s : State) (r : Held) (hb : Off
    0x1000000000000000000000080100000000000000000040000000000000000000000000000000000000000000000000000000000000000100000000000400000000000000000000000000000000000000000C00000000000000000000000000000000000000000000000000000000007C00000000000000000000000000000000000000000000000000000000000000000000000000000000000000000000000000000000000000000003C60000000002000000000000000200000000
    nb) (h : P s) : P (memRequest s r) := by
  unfold memRequest
  repeat' first
    | (with_reducible first
        | assumption | intro _ | apply memServe_keeps K | apply setsOut_keeps K)
    | exact off_sub rfl hb | exact off_bit rfl hb | dsimp only | split

theorem memAccess_keeps (K : Keeps nb P) (s : State) (m : Nat) (op a n v : Nat) (hb : Off
    0x1000000000000000000000080100000000000000000040000000000000000000000000000000000000000000000000000000000000000100000000000400000000000000000000000000000000000000000C00000000000000000000000000000000000000000000000000000000007C00000000000000000000000000000000000000000000000000000000000000000000000000000000000000000000000000000000000000000003C60000000002000000000000000200000000
    nb) (h : P s) : P (memAccess s m op a n v) := by
  unfold memAccess
  repeat' first
    | (with_reducible first
        | assumption | intro _ | apply memRequest_keeps K)
    | exact off_sub rfl hb | exact off_bit rfl hb | dsimp only | split

end
end Sys2Proof.Machine
end

