-- ==== Sys2Proof/Laws/KeepsThreads.lean ====
section
/-!
SUPPORT. What each operation of Sys2Proof/Machine/Threads.lean can change: its footprint (Sys2Proof/Laws/Keeps.lean).
-/
namespace Sys2Proof.Machine
set_option linter.all false
section
variable {P : State → Prop} {nb : Nat}

theorem foldCompute_keeps (K : Keeps nb P) (s : State) (u item : Nat) (hb : Off
    0x13000000000000000000000000000000000000000000000000000000000000000000000000000000000000000000000000000000000000000000000000000000000000000000000000000000000000000000000000000000000000000000000000000000000000000000000000000000000000000000000000000000000000000000000000000000000000000000000000000000000000000000000000000
    nb) (h : P s) : P (foldCompute s u item) := by
  unfold foldCompute
  repeat' first
    | (with_reducible first
        | assumption | intro _ | apply keeps_ite | apply K.wr | apply down_keeps K)
    | exact off_sub rfl hb | exact off_bit rfl hb | dsimp only | split

theorem foldInput_keeps (K : Keeps nb P) (s : State) (u item : Nat) (hb : Off
    0x2C000000000000000000000000000000000000000000000000000000000000000000000000000000000000000000000000000000000000000000000000000000000000000000000000000000000000000000000000000000000000000000000000000000000000000000000000000000000000000000000000000000000000000000000000000000000000000000000000000000000000000000000000000
    nb) (h : P s) : P (foldInput s u item) := by
  unfold foldInput
  repeat' first
    | (with_reducible first
        | assumption | intro _ | apply keeps_ite | apply K.wr | apply down_keeps K)
    | exact off_sub rfl hb | exact off_bit rfl hb | dsimp only | split

theorem foldRequest_keeps (K : Keeps nb P) (s : State) (u op size addr data : Nat) (hb : Off
    0x13000000000000000000000000000000000000000000000000000000000000000000000000000000000000000000000000000000000000000000000000000000000000000000000000000000000000000000000000000000000000000000000000000000000000000000000000000000000000000000000000000000000000000000000000000000000000000000000000000000000000000000000000000
    nb) (h : P s) : P (foldRequest s u op size addr data) := by
  unfold foldRequest
  repeat' first
    | (with_reducible first
        | assumption | intro _ | apply keeps_ite | apply foldCompute_keeps K)
    | exact off_sub rfl hb | exact off_bit rfl hb | dsimp only | split

theorem setGpr_keeps (K : Keeps nb P) (s : State) (u r v : Nat) (hb : Off
    0x13000000000000002000000000000000000000000000000000000000000000000000000000000000000000000000000000000000000000000000000000000000000000000000000000000000000000000000000000000000000000000000000000000000000000000000000000000000000000000000000000000000000000000000000000000000000000000000000000000000000000000000000000000
    nb) (h : P s) : P (setGpr s u r v) := by
  unfold setGpr
  repeat' first
    | (with_reducible first
        | assumption | intro _ | apply K.wr | apply foldCompute_keeps K)
    | exact off_sub rfl hb | exact off_bit rfl hb | dsimp only | split

theorem traceFails_keeps (K : Keeps nb P) (s : State) (task : Nat) (hb : Off
    0x4380000000000000000000000000000000000000000000000000000000000000000000000000000000000000000000000000000000000000000000000000000000000000000000
    nb) (h : P s) : P (traceFails s task) := by
  unfold traceFails
  repeat' first
    | (with_reducible first
        | assumption | intro _ | apply K.wr | apply down_keeps K | apply up_keeps K)
    | exact off_sub rfl hb | exact off_bit rfl hb | dsimp only | split

theorem trace_keeps (K : Keeps nb P) (s : State) (k task t : Nat) (hb : Off
    0x1000000000000000000000080100000000000000000040000000000000000000000000000000000000000000000000000000000000000100000000000400000000000000000000000000000000000000000C00000000000000000000000000000000000000000000000000000000007C00000000015380000000000000000000000000000000000000000000000000000000000000000000000000000000000000000000000000000003C60000000002000000000000000200000000
    nb) (h : P s) : P (trace s k task t) := by
  unfold trace
  repeat' first
    | (with_reducible first
        | assumption | intro _ | apply keeps_ite | apply K.wr | apply bump_keeps K | apply memRequest_keeps K
        | apply traceFails_keeps K | apply parts_of K | (apply keeps_fst; assumption) | (apply keeps_snd; assumption))
    | exact off_sub rfl hb | exact off_bit rfl hb | dsimp only | split | simp only [parts_mk K]

theorem faultTask_keeps (K : Keeps nb P) (s : State) (task t code : Nat) (hb : Off
    0x1000000000000000000000080100000000000000000040000000000000000100000000000000000000000000000000000000000000000100000000000400000000000000000000000000000000000000000C00000000000000000000000000000000000000000000000000000000007C00000380015380000000000000000000000000000000000000000000000000000000000000000000000000000000000000000000000000000003C60000000002000000000000000200000000
    nb) (h : P s) : P (faultTask s task t code) := by
  unfold faultTask
  repeat' first
    | (with_reducible first
        | assumption | intro _ | apply K.wr | apply down_keeps K | apply post_keeps K | apply up_keeps K
        | apply trace_keeps K)
    | exact off_sub rfl hb | exact off_bit rfl hb | dsimp only | split

theorem enterHandler_keeps (K : Keeps nb P) (s : State) (u cause info addr xpc : Nat) (hb : Off
    0x130000000000001FC000000000000000000000000000000000000000000000000000000000000000000000000000000000000000000000000000000000000000000000000000000000000000000000000000000000000000000000000000000000000000000000000000000000000000000000000000000000000000000000000000000000000000000000000000000000000000000000000000000000000
    nb) (h : P s) : P (enterHandler s u cause info addr xpc) := by
  unfold enterHandler
  repeat' first
    | (with_reducible first
        | assumption | intro _ | apply K.wr | apply foldCompute_keeps K)
    | exact off_sub rfl hb | exact off_bit rfl hb | dsimp only | split

theorem doubleFault_keeps (K : Keeps nb P) (s : State) (u cause pc : Nat) (hb : Off
    0x1000000000000000000000080100000000000000000040000000000000000100000000080001000000000000000000000000000000000100000000000400000000000000000000000000000000000000000C00000000000000000000000000000000000000000000000000000000007C000003800153800000000003C0000000000000000000000000000000000000000000000000000000000000000000000000000000000000000003C60000000002000000000000000200000000
    nb) (h : P s) : P (doubleFault s u cause pc) := by
  unfold doubleFault
  repeat' first
    | (with_reducible first
        | assumption | intro _ | apply keeps_each | apply keeps_ite | apply K.wr | apply down_keeps K | apply post_keeps K
        | apply up_keeps K | apply faultTask_keeps K)
    | exact off_sub rfl hb | exact off_bit rfl hb | dsimp only | split

theorem raiseAt_keeps (K : Keeps nb P) (s : State) (u cause info addr pc xpc : Nat) (hb : Off
    0x10000000000000000000000801000000000000000000400000000000000131000000000801FD000000000000000000000000000000000100000000000400000000000000000000000000000000000000000C00000000000000000000000000000000000000000000000000000000007C000003800153800000000003C0000000000000000000000000000000000000000000000000000000000000000000000000000000000000000003C60000000002000000000000000200000000
    nb) (h : P s) : P (raiseAt s u cause info addr pc xpc) := by
  unfold raiseAt
  repeat' first
    | (with_reducible first
        | assumption | intro _ | apply keeps_ite | apply doubleFault_keeps K | apply enterHandler_keeps K)
    | exact off_sub rfl hb | exact off_bit rfl hb | dsimp only | split

theorem raise_keeps (K : Keeps nb P) (s : State) (u cause info addr : Nat) (hb : Off
    0x10000000000000000000000801000000000000000000400000000000000131000000000801FD000000000000000000000000000000000100000000000400000000000000000000000000000000000000000C00000000000000000000000000000000000000000000000000000000007C000003800153800000000003C0000000000000000000000000000000000000000000000000000000000000000000000000000000000000000003C60000000002000000000000000200000000
    nb) (h : P s) : P (raise s u cause info addr) := by
  unfold raise
  repeat' first
    | (with_reducible first
        | assumption | intro _ | apply raiseAt_keeps K)
    | exact off_sub rfl hb | exact off_bit rfl hb | dsimp only | split

theorem raiseIllegal_keeps (K : Keeps nb P) (s : State) (u w : Nat) (hb : Off
    0x10000000000000000000000801000000000000000000400000000000000131000000000801FD000000000000000000000000000000000100000000000400000000000000000000000000000000000000000C00000000000000000000000000000000000000000000000000000000007C000003800153800000000003C0000000000000000000000000000000000000000000000000000000000000000000000000000000000000000003C60000000002000000000000000200000000
    nb) (h : P s) : P (raiseIllegal s u w) := by
  unfold raiseIllegal
  repeat' first
    | (with_reducible first
        | assumption | intro _ | apply raise_keeps K)
    | exact off_sub rfl hb | exact off_bit rfl hb | dsimp only | split

theorem raisePriv_keeps (K : Keeps nb P) (s : State) (u w : Nat) (hb : Off
    0x10000000000000000000000801000000000000000000400000000000000131000000000801FD000000000000000000000000000000000100000000000400000000000000000000000000000000000000000C00000000000000000000000000000000000000000000000000000000007C000003800153800000000003C0000000000000000000000000000000000000000000000000000000000000000000000000000000000000000003C60000000002000000000000000200000000
    nb) (h : P s) : P (raisePriv s u w) := by
  unfold raisePriv
  repeat' first
    | (with_reducible first
        | assumption | intro _ | apply raise_keeps K)
    | exact off_sub rfl hb | exact off_bit rfl hb | dsimp only | split

theorem raiseMpu_keeps (K : Keeps nb P) (s : State) (u : Nat) (k : Access) (region addr : Nat) (hb : Off
    0x10000000000000000000000801000000000000000000400000000000000131000000000801FD000000000000000000000000000000000100000000000400000000000000000000000000000000000000000C00000000000000000000000000000000000000000000000000000000007C001003800153800000000003C0000000000000000000000000000000000000000000000000000000000000000000000000000000000000000003C60000000002000000000000000200000000
    nb) (h : P s) : P (raiseMpu s u k region addr) := by
  unfold raiseMpu
  repeat' first
    | (with_reducible first
        | assumption | intro _ | apply keeps_ite | apply bump_keeps K | apply raise_keeps K)
    | exact off_sub rfl hb | exact off_bit rfl hb | dsimp only | split

theorem waitEnds_keeps (K : Keeps nb P) (s : State) (task : Nat) (hb : Off
    0x100000000000000000000000000000000000020000000000000000000000000000000000000000000000000000000000400000000000000000000000000000000000000000000000000000000000000000000000000000000000000000000000000000000003000000000000000000000000000000000000000000000000000000000000000000000000000000000000000000000000000000000000000000000000000000000000000000000000000
    nb) (h : P s) : P (waitEnds s task) := by
  unfold waitEnds
  repeat' first
    | (with_reducible first
        | assumption | intro _ | apply keeps_ite | apply K.wr | apply down_keeps K | apply peak_keeps K
        | apply postIf_keeps K)
    | exact off_sub rfl hb | exact off_bit rfl hb | dsimp only | split

theorem stepOver_keeps (K : Keeps nb P) (s : State) (t : Nat) (hb : Off
    0x38000000000000000000000000000000000000000000000000000000000000000000000000000000000000000000000000000000000000000000000000000000000000000000000000000000000000000000000000000000000000000000000000000000000000000000000000000000000000000000000000000000000000000000000000000000000000000000000000000000000000000
    nb) (h : P s) : P (stepOver s t) := by
  unfold stepOver
  repeat' first
    | (with_reducible first
        | assumption | intro _ | apply keeps_ite | apply K.wr | apply down_keeps K | apply up_keeps K)
    | exact off_sub rfl hb | exact off_bit rfl hb | dsimp only | split

theorem noteIssue_keeps (K : Keeps nb P) (s : State) (u : Nat) (hb : Off
    0x100000000000000000000000000000000000024000000038000000000000000000000000000000000000000000000000400000000000000000000000000000000000000000000000000000000000000000000000000000000000000000000000000000000003000000000000000000400000000000000000000000000000000000000000000000000000000000000000000000000000000000000000000000000000000000000000000000000000000
    nb) (h : P s) : P (noteIssue s u) := by
  unfold noteIssue
  repeat' first
    | (with_reducible first
        | assumption | intro _ | apply keeps_ite | apply bump_keeps K | apply up_keeps K | apply stepOver_keeps K
        | apply waitEnds_keeps K)
    | exact off_sub rfl hb | exact off_bit rfl hb | dsimp only | split

theorem advance_keeps (K : Keeps nb P) (s : State) (u : Nat) (hb : Off
    0x4000000000000000000000000000000000000000000000000000000000000000000000000000000000000000000000000000000000000000000000000000000000000000000000000000000000000000000000000000000000000000000000000000000000000000000000000000000000000000000000000000000000000000000000000000000000000000000000000000000000000
    nb) (h : P s) : P (advance s u) := by
  unfold advance
  repeat' first
    | (with_reducible first
        | assumption | intro _ | apply K.wr)
    | exact off_sub rfl hb | exact off_bit rfl hb | dsimp only | split

theorem issue_keeps (K : Keeps nb P) (s : State) (u w : Nat) (f : State → State) (hb : Off
    0x10000000000000000000000801000000000000000000400000000000000131240000000B81FD000000000000000000000000000000000100000000000400000000000000000000000000000000000000000C00000000000000000000000000000000000000000000000000000000007C001033800153800000000017C0000000000000000000000000000000000000000000000000000000000000000000000000000000000000000003C60000000002000000000000000200000000
    nb) (h : P s) (hf : ∀ t, P t → P (f t)) : P (issue s u w f) := by
  unfold issue
  repeat' first
    | (with_reducible first
        | assumption | intro _ | apply keeps_ite | apply hf | apply bump_keeps K | apply noteIssue_keeps K
        | apply raiseIllegal_keeps K | apply raiseMpu_keeps K)
    | exact off_sub rfl hb | exact off_bit rfl hb | dsimp only | split

theorem result_keeps (K : Keeps nb P) (s : State) (u rd v : Nat) (hb : Off
    0x10000000000000000000000801000000000000000000400000000000000131000000000801FF000000000000000000000000000000000100000000000400000000000000000000000000000000000000000C00000000000000000000000000000000000000000000000000000000007C000003800153800000000003C0000000000000000000000000000000000000000000000000000000000000000000000000000000000000000003C60000000002000000000000000200000000
    nb) (h : P s) : P (result s u rd v) := by
  unfold result
  repeat' first
    | (with_reducible first
        | assumption | intro _ | apply keeps_ite | apply advance_keeps K | apply raise_keeps K | apply setGpr_keeps K)
    | exact off_sub rfl hb | exact off_bit rfl hb | dsimp only | split

theorem linkTo_keeps (K : Keeps nb P) (s : State) (u rd target : Nat) (hb : Off
    0x10000000000000000000000801000000000000000000400000000000000131000000000801FF000000000000000000000000000000000100000000000400000000000000000000000000000000000000000C00000000000000000000000000000000000000000000000000000000007C000003800153800000000003C0000000000000000000000000000000000000000000000000000000000000000000000000000000000000000003C60000000002000000000000000200000000
    nb) (h : P s) : P (linkTo s u rd target) := by
  unfold linkTo
  repeat' first
    | (with_reducible first
        | assumption | intro _ | apply keeps_ite | apply K.wr | apply raise_keeps K | apply setGpr_keeps K)
    | exact off_sub rfl hb | exact off_bit rfl hb | dsimp only | split

theorem branch_keeps (K : Keeps nb P) (s : State) (u : Nat) (taken : Bool) (disp : Nat) (hb : Off
    0x4000000000000000000000000000000000000000000000000000000000000000000000000000000000000000000000000000000000000000000000000000000000000000000000000000000000000000000000000000000000000000000000000000000000000000000000000000000000000000000000000000000000000000000000000000000000000000000000000000000000000
    nb) (h : P s) : P (branch s u taken disp) := by
  unfold branch
  repeat' first
    | (with_reducible first
        | assumption | intro _ | apply keeps_ite | apply K.wr | apply advance_keeps K)
    | exact off_sub rfl hb | exact off_bit rfl hb | dsimp only | split

theorem divide_keeps (K : Keeps nb P) (s : State) (u rd f a b : Nat) (hb : Off
    0x10000000000000000000000801000000000000000000400000000000000131000001C00801FD000000000000000000000000000000000100000000000400000000000000000000000000000000000000000C00000000000000000000000000000000000000000000000000000000007C000003800153800000000003C0000000000000000000000000000000000000000000000000000000000000000000000000000000000000000003C60000000002000000000000000200000000
    nb) (h : P s) : P (divide s u rd f a b) := by
  unfold divide
  repeat' first
    | (with_reducible first
        | assumption | intro _ | apply keeps_ite | apply K.wr | apply up_keeps K | apply advance_keeps K
        | apply raise_keeps K)
    | exact off_sub rfl hb | exact off_bit rfl hb | dsimp only | split

theorem divideDone_keeps (K : Keeps nb P) (s : State) (u : Nat) (hb : Off
    0x13000000040000002000000000000000000000000000000000000000000000000000000000000000000000000000000000000000000000000000000000000000000000000000000000000000000000000000000000000000000000000000000000000000000000000000000000000000000000000000000000000000000000000000000000000000000000000000000000000000000000000000000000000
    nb) (h : P s) : P (divideDone s u) := by
  unfold divideDone
  repeat' first
    | (with_reducible first
        | assumption | intro _ | apply keeps_ite | apply down_keeps K | apply setGpr_keeps K)
    | exact off_sub rfl hb | exact off_bit rfl hb | dsimp only | split

theorem sysWrite_keeps (K : Keeps nb P) (s : State) (u num v : Nat) (hb : Off
    0x3BF8000000000000000000000000000000000000000000000000000000000000000000000000000000000000000000000000000000000000000000000000000000000000000000000000000000000000000000000000000000000000000000000000000000000000000000000000000000000000000000000000000000000000000000000000000000000000000000000000000000000000
    nb) (h : P s) : P (sysWrite s u num v) := by
  unfold sysWrite
  repeat' first
    | (with_reducible first
        | assumption | intro _ | apply K.wr)
    | exact off_sub rfl hb | exact off_bit rfl hb | dsimp only | split

theorem load_keeps (K : Keeps nb P) (s : State) (u rd a size : Nat) (sign : Bool) (hb : Off
    0x100000000000000000000008010000000000000000004000000000000003F10000002FC801FF000000000000000000000000000000000100000000000400000000000000000000000000000000000000000C00000000000000000000000000000000000000000000000000000000007C001003800153800000000003C0000000000000000000000000000000000000000000000000000000000000000000000000000000000000000003C60000000002000000000000000200000000
    nb) (h : P s) : P (load s u rd a size sign) := by
  unfold load
  repeat' first
    | (with_reducible first
        | assumption | intro _ | apply keeps_ite | apply K.wr | apply up_keeps K | apply wrb_keeps K | apply advance_keeps K
        | apply foldInput_keeps K | apply foldRequest_keeps K | apply raise_keeps K | apply raiseMpu_keeps K
        | apply result_keeps K)
    | exact off_sub rfl hb | exact off_bit rfl hb | (split <;> exact off_bit rfl hb) | dsimp only | split

theorem atomic_keeps (K : Keeps nb P) (s : State) (u rd a size op v : Nat) (hb : Off
    0x100000000000000000000008010000000000000000004000000000000001310000003FC801FD000000000000000000000000000000000100000000000400000000000000000000000000000000000000000C00000000000000000000000000000000000000000000000000000000007C001003800153800000000003C0000000000000000000000000000000000000000000000000000000000000000000000000000000000000000003C60000000002000000000000000200000000
    nb) (h : P s) : P (atomic s u rd a size op v) := by
  unfold atomic
  repeat' first
    | (with_reducible first
        | assumption | intro _ | apply keeps_ite | apply K.wr | apply down_keeps K | apply up_keeps K
        | apply advance_keeps K | apply foldRequest_keeps K | apply raise_keeps K | apply raiseMpu_keeps K)
    | exact off_sub rfl hb | exact off_bit rfl hb | dsimp only | split

theorem deliver_keeps (K : Keeps nb P) (s : State) (u : Nat) (code : Nat) (v : Nat) (hb : Off
    0x10000000000000000000000801000000000000000000400000000000000131000000004801FF000000000000000000000000000000000100000000000400000000000000000000000000000000000000000C00000000000000000000000000000000000000000000000000000000007C000003800153800000000003C0000000000000000000000000000000000000000000000000000000000000000000000000000000000000000003C60000000002000000000000000200000000
    nb) (h : P s) : P (deliver s u code v) := by
  unfold deliver
  repeat' first
    | (with_reducible first
        | assumption | intro _ | apply keeps_ite | apply down_keeps K | apply raiseAt_keeps K | apply setGpr_keeps K)
    | exact off_sub rfl hb | exact off_bit rfl hb | dsimp only | split

theorem notice_keeps (K : Keeps nb P) (s : State) (u : Nat) (code task addr : Nat) (hb : Off
    0x3C00000000000000000000000000000000000000000000000000000000000000000000000000000000000000000000000000000000000000000000000000000000000000000000000000000000000000000000000000000000002000000000000000000000000000000000000000000000000000000000000000000000000000000000000000000000000000000000000000000000000000000000
    nb) (h : P s) : P (notice s u code task addr) := by
  unfold notice
  repeat' first
    | (with_reducible first
        | assumption | intro _ | apply keeps_ite | apply K.wr | apply bump_keeps K | apply up_keeps K)
    | exact off_sub rfl hb | exact off_bit rfl hb | dsimp only | split

theorem dropLine_keeps (K : Keeps nb P) (s : State) (c a : Nat) (hb : Off
    0x10000000000000000000000000000000000000000000000000000000000000000000000000000000000000000000000000000000000000000000000000000000000000000000000000000000000000000000000000000000000000000000000000000000000000000000000000000000000000000000000000000000000000000000000000000000000000000000000000000000000000000000000000000000000000000000000000000000000000000
    nb) (h : P s) : P (dropLine s c a) := by
  unfold dropLine
  repeat' first
    | (with_reducible first
        | assumption | intro _ | apply K.setq)
    | exact off_sub rfl hb | exact off_bit rfl hb | dsimp only | split

theorem store_keeps (K : Keeps nb P) (s : State) (u a size v : Nat) (hb : Off
    0x1000000000000000000000090100000000000000000040000000000000013100003C000801FD000000000000000000000000000000000100000000000400000000000000000000000000000000000000000C00000000000000000000000000000000000000000000000000000000007C001003800153800000000023C0000000000000000000000000000000000000000000000000000000000000000000000000000000000000000003C60000000002000000000000000200000000
    nb) (h : P s) : P (store s u a size v) := by
  unfold store
  repeat' first
    | (with_reducible first
        | assumption | intro _ | apply keeps_ite | apply Stitch.store_keeps K | apply advance_keeps K
        | apply dropLine_keeps K | apply foldRequest_keeps K | apply memStore_keeps K | apply notice_keeps K
        | apply raise_keeps K | apply raiseMpu_keeps K | apply parts_of K | (apply keeps_fst; assumption)
        | (apply keeps_snd; assumption))
    | exact off_sub rfl hb | exact off_bit rfl hb | dsimp only | split | simp only [parts_mk K]

theorem sync_keeps (K : Keeps nb P) (s : State) (u : Nat) (hb : Off
    0x200000004000000000000000000000000000000000000000000000000000000000000000000000000000000000000000000000000000000000000000000000000000000000000000000000000000000000000000000000000000000000000000000000000000000000000000000000000000000000000000000000000000000000000000000000000000000000000000000000000000000000000
    nb) (h : P s) : P (sync s u) := by
  unfold sync
  repeat' first
    | (with_reducible first
        | assumption | intro _ | apply keeps_ite | apply wrb_keeps K | apply advance_keeps K)
    | exact off_sub rfl hb | exact off_bit rfl hb | dsimp only | split

theorem syncEnds_keeps (K : Keeps nb P) (s : State) (u : Nat) (hb : Off
    0x200000000000000000000000000000000000000000000000000000000000000000000000000000000000000000000000000000000000000000000000000000000000000000000000000000000000000000000000000000000000000000000000000000000000000000000000000000000000000000000000000000000000000000000000000000000000000000000000000000000000000000000
    nb) (h : P s) : P (syncEnds s u) := by
  unfold syncEnds
  repeat' first
    | (with_reducible first
        | assumption | intro _ | apply keeps_ite | apply down_keeps K)
    | exact off_sub rfl hb | exact off_bit rfl hb | dsimp only | split

theorem storeResponse_keeps (K : Keeps nb P) (s : State) (u : Nat) (hb : Off
    0x3E00000000000000000000000000000000000000000000000000000000000000000000000000000000000000000000000000000000000000000000000000000000000000000000000000000000000000000000000000000000002000000000000000000000000000000000000000000000000000000000000000000000000000000000000000000000000000000000000000000000000000000000
    nb) (h : P s) : P (storeResponse s u) := by
  unfold storeResponse
  repeat' first
    | (with_reducible first
        | assumption | intro _ | apply keeps_ite | apply notice_keeps K | apply syncEnds_keeps K | apply parts_of K
        | (apply keeps_fst; assumption) | (apply keeps_snd; assumption))
    | exact off_sub rfl hb | exact off_bit rfl hb | dsimp only | split | simp only [parts_mk K]

theorem cachedLine_keeps (K : Keeps nb P) (s : State) (u a q sets ways : Nat) (en hit miss : Fld) (parity : Bool) (hb : Off
    0x1000000000000000000000080100000000000000000040000000000000013000400000000000000000000000000000000000000000000100000000000400000000000000000000000000000000000000000C00000000000000000000000000000000000000000000000000000000007C00000000000000000040000000000000000000000000000000000000000000000000000000000000000000000000000000000000000000000003C60000000002000000000000000200000000
    nb) (hq : nb.testBit (1400 + q) = false) (hhit : nb.testBit (slot hit.id) = false) (hmiss : nb.testBit (slot miss.id) =
    false) (h : P s) : P (cachedLine s u a q sets ways en hit miss parity) := by
  unfold cachedLine
  repeat' first
    | (with_reducible first
        | assumption | intro _ | apply keeps_ite | apply K.setq | apply bump_keeps K | apply up_keeps K
        | apply foldRequest_keeps K | apply memRequest_keeps K | apply parts_of K | apply parts_regs K
        | apply parts_queues K | apply parts_mem K | apply parts_bad K | (apply keeps_fst; assumption)
        | (apply keeps_snd; assumption))
    | exact off_sub rfl hb | exact off_bit rfl hb | dsimp only | split | simp only [parts_mk K]

theorem fetchLine_keeps (K : Keeps nb P) (s : State) (u : Nat) (parity : Bool) (hb : Off
    0x1000000000000000000000088100000000000000000040000000000000013000400000000000000000000000000000000000000000000100000000000400000000000000000000000000000000000000000C00000000000000000000000000000000000000000000000000000000007C0000000000000000004C000000000000000000000000000000000000000000000000000000000000000000000000000000000000000000000003C60000000002000000000000000200000000
    nb) (h : P s) : P (fetchLine s u parity) := by
  unfold fetchLine
  repeat' first
    | (with_reducible first
        | assumption | intro _ | apply keeps_ite | apply down_keeps K | apply up_keeps K | apply cachedLine_keeps K
        | apply foldRequest_keeps K | apply memRequest_keeps K | apply parts_of K | (apply keeps_fst; assumption)
        | (apply keeps_snd; assumption))
    | exact off_sub rfl hb | exact off_bit rfl hb | dsimp only | split | simp only [parts_mk K]

theorem checkerRefill_keeps (K : Keeps nb P) (s : State) (u : Nat) (hb : Off
    0x10000000000000000000000801000000000000000000400000000000000131000000003801FD000000000000000000000000000000000100000000000400000000000000000000000000000000000000000C00000000000000000000000000000000000000000000000000000000007C000003800153800000000003C0000000000000000000000000000000000000000000000000000000000000000000000000000000000000000003C60000000002000000000000000200000000
    nb) (h : P s) : P (checkerRefill s u) := by
  unfold checkerRefill
  repeat' first
    | (with_reducible first
        | assumption | intro _ | apply keeps_ite | apply K.wr | apply foldRequest_keeps K | apply raise_keeps K)
    | exact off_sub rfl hb | exact off_bit rfl hb | dsimp only | split

theorem fetchRefill_keeps (K : Keeps nb P) (s : State) (u : Nat) (parity : Bool) (hb : Off
    0x10000000000000000000000881000000000000000000400000000000000131004000003B81FD000000000000000000000000000000000100000000000400000000000000000000000000000000000000000C00000000000000000000000000000000000000000000000000000000007C0010038001538000004C0003C0000000000000000000000000000000000000000000000000000000000000000000000000000000000000000003C60000000002000000000000000200000000
    nb) (h : P s) : P (fetchRefill s u parity) := by
  unfold fetchRefill
  repeat' first
    | (with_reducible first
        | assumption | intro _ | apply keeps_ite | apply K.wr | apply checkerRefill_keeps K | apply fetchLine_keeps K
        | apply raise_keeps K | apply raiseMpu_keeps K | apply stepOver_keeps K)
    | exact off_sub rfl hb | exact off_bit rfl hb | dsimp only | split

theorem tellChecker_keeps (K : Keeps nb P) (s : State) (u cause : Nat) (hb : Off
    0x1FC00000000000000000000000000000000000000000000000000000000000000000000000000000000000000000000000000000000000000000000000000000000000000000000000000000000000000000000000000000000000000000000000000000000000000000000000000000000000000000000000000000000000000000000000000000000000000000000000000000000000000000000
    nb) (h : P s) : P (tellChecker s u cause) := by
  unfold tellChecker
  repeat' first
    | (with_reducible first
        | assumption | intro _ | apply keeps_ite | apply K.wr | apply up_keeps K)
    | exact off_sub rfl hb | exact off_bit rfl hb | dsimp only | split

theorem takeAsync_keeps (K : Keeps nb P) (s : State) (u : Nat) (hb : Off
    0x100000000000000000000008010000000000000000004000000000000001310001FC000801FD000000000000000000000000000000000100000000000400000000000000000000000000000000000000000C00000000000000000000000000000000000000000000000000000000007C000003800153800000000003C0000000000000000000000000000000000000000000000000000000000000000000000000000000000000000003C60000000002000000000000000200000000
    nb) (h : P s) : P (takeAsync s u) := by
  unfold takeAsync
  repeat' first
    | (with_reducible first
        | assumption | intro _ | apply keeps_ite | apply down_keeps K | apply raiseAt_keeps K | apply tellChecker_keeps K)
    | exact off_sub rfl hb | exact off_bit rfl hb | dsimp only | split

theorem watchdogExpire_keeps (K : Keeps nb P) (s : State) (t : Nat) (hb : Off
    0x4000000000000000000000000000000000000000000000000000000000000000000000000000000000000000000000000000000000000000000000000000000000000000000000000000000000000000000000000000000C00000000000000000000000000000000000000000000000000000000000000000000000000000000000000000000000000000000000000000000000000000000000000
    nb) (h : P s) : P (watchdogExpire s t) := by
  unfold watchdogExpire
  repeat' first
    | (with_reducible first
        | assumption | intro _ | apply keeps_ite | apply K.wr | apply up_keeps K)
    | exact off_sub rfl hb | exact off_bit rfl hb | dsimp only | split

theorem watchdogKick_keeps (K : Keeps nb P) (s : State) (c m : Nat) (hb : Off
    0x400000000000000000000000000000000000000000000000000000000000000000000000000000000000000000000000000000000000000000000000000000000000000
    nb) (h : P s) : P (watchdogKick s c m) := by
  unfold watchdogKick
  repeat' first
    | (with_reducible first
        | assumption | intro _ | apply keeps_each | apply K.wr)
    | exact off_sub rfl hb | exact off_bit rfl hb | dsimp only | split

theorem dfaultClear_keeps (K : Keeps nb P) (s : State) (c m : Nat) (hb : Off
    0x80000000000000000000000000000000000000000000000000000000000000000000000000000000000000000000000000000000000000000000000000000000000000000000000000000000000000000000000000000000040000000000000000000000000000000000000000000000000000000000000000000000000000000000000000000000000000000000000000000000000000000
    nb) (h : P s) : P (dfaultClear s c m) := by
  unfold dfaultClear
  repeat' first
    | (with_reducible first
        | assumption | intro _ | apply keeps_each | apply keeps_ite | apply K.wr | apply down_keeps K
        | (apply keeps_fst; assumption) | (apply keeps_snd; assumption))
    | exact off_sub rfl hb | exact off_bit rfl hb | dsimp only | split

theorem ccInvWrite_keeps (K : Keeps nb P) (s : State) (c m : Nat) (hb : Off
    0x20000000000000000000000000000000000000000000000000000000000000000000000000000000000000000000000000000000000000000000000000000000000000000000000000000000000000000000000000000000000800000000000000000000000000000000000000000000000000000000000000000000000000000000000000000000000000000000000000000000000000000000000
    nb) (h : P s) : P (ccInvWrite s c m) := by
  unfold ccInvWrite
  repeat' first
    | (with_reducible first
        | assumption | intro _ | apply keeps_ite | apply K.wr | apply up_keeps K)
    | exact off_sub rfl hb | exact off_bit rfl hb | dsimp only | split

theorem dropLines_keeps (K : Keeps nb P) (s : State) (q c sets : Nat) (p : Nat → Bool) (hb : Off 0 nb) (hq : nb.testBit
    (1400 + q) = false) (h : P s) : P (dropLines s q c sets p) := by
  unfold dropLines
  repeat' first
    | (with_reducible first
        | assumption | intro _ | apply keeps_each | apply K.setq)
    | exact off_sub rfl hb | exact off_bit rfl hb | dsimp only | split

theorem invalidate_keeps (K : Keeps nb P) (s : State) (c r m : Nat) (hb : Off
    0x18000000000000000000000000000000000000000000000000000000000000000000000000000000000000000000000000000000000000000000000000000000000000000000000000000000000000000000000000000000000000000000000000000000000000000000000000000000000000000000000000000000000000000000000000000000000000000000000000000000000000000000000000000000000000000000000000000000000000000
    nb) (h : P s) : P (invalidate s c r m) := by
  unfold invalidate
  repeat' first
    | (with_reducible first
        | assumption | intro _ | apply keeps_ite | apply dropLines_keeps K)
    | exact off_sub rfl hb | exact off_bit rfl hb | dsimp only | split

theorem ccInvDone_keeps (K : Keeps nb P) (s : State) (c : Nat) (hb : Off
    0x18000000000000000000000000000000000000000020000000000000000000000000000000000000000000000000000000000000000000000000000000000000000000000000000000000000000000000000000000000000000000000000000000000000000000000000000000000800000000000000000000000000000000000000000000000000000000000000000000000000000000000000000000000000000000000000000000000000000000000
    nb) (h : P s) : P (ccInvDone s c) := by
  unfold ccInvDone
  repeat' first
    | (with_reducible first
        | assumption | intro _ | apply keeps_ite | apply down_keeps K | apply invalidate_keeps K)
    | exact off_sub rfl hb | exact off_bit rfl hb | dsimp only | split

end
end Sys2Proof.Machine
end

