-- ==== Sys2Proof/Laws/KeepsClock.lean ====
section
/-!
SUPPORT. What each operation of Sys2Proof/Machine/Clock.lean can change: its footprint (Sys2Proof/Laws/Keeps.lean).
-/
namespace Sys2Proof.Machine
set_option linter.all false
section
variable {P : State → Prop} {nb : Nat}

theorem coreTick_keeps (K : Keeps nb P) (s : State) (c : Nat) (hb : Off
    0x7800000001000000000000000000000000000000000000000000000000000000000000000000000000000000000000000000000000000000000000000000000000000000000000000000000000000000000000000000000000000000800000000000000000000000000000000000000000000000000000000000000000000000000000000000000000000000000000000000000000000000000000000
    nb) (h : P s) : P (coreTick s c) := by
  unfold coreTick
  repeat' first
    | (with_reducible first
        | assumption | intro _ | apply keeps_ite | apply K.wr | apply bump_keeps K | apply down_keeps K)
    | exact off_sub rfl hb | exact off_bit rfl hb | dsimp only | split

theorem windowTick_keeps (K : Keeps nb P) (s : State) (hb : Off
    0x400000000000000000000000000000000000000000000000000000000000000000000000000000000000000000000000000000000000000000000000000000000000000000000000000000000000000000000000000000000000000000000000000000000000000000000000000000000000000000000000000000000000000000000000000000000000000000000000000000000000000000000000000000
    nb) (h : P s) : P (windowTick s) := by
  unfold windowTick
  repeat' first
    | (with_reducible first
        | assumption | intro _ | apply keeps_ite | apply bump_keeps K)
    | exact off_sub rfl hb | exact off_bit rfl hb | dsimp only | split

theorem usTick_keeps (K : Keeps nb P) (s : State) (hb : Off
    0x400000000000000000000000000000000000000000000000000000000000000000000000000000000000000000000000000000000000000000000000000000000000000
    nb) (h : P s) : P (usTick s) := by
  unfold usTick
  repeat' first
    | (with_reducible first
        | assumption | intro _ | apply keeps_each | apply keeps_ite | apply K.wr)
    | exact off_sub rfl hb | exact off_bit rfl hb | dsimp only | split

theorem msTick_keeps (K : Keeps nb P) (s : State) (hb : Off
    0x800000000000000000000000000000000000000000000000000002000000000000000000000000000000000000000000000000000000000000000000000000000000000000000000000000000000000000000000000000000000000000000000000000000000000000000000000000000000000000000000000000000000000000000000000000002000000000000000000000000000000000000000000000
    nb) (h : P s) : P (msTick s) := by
  unfold msTick
  repeat' first
    | (with_reducible first
        | assumption | intro _ | apply keeps_ite | apply K.wr | apply bump_keeps K)
    | exact off_sub rfl hb | exact off_bit rfl hb | dsimp only | split

theorem passTime_keeps (K : Keeps nb P) (s : State) (hb : Off
    0xC00007800000001000000000000000000000000000000000000002000000000000000000000000000000000000000000000000000000000000000000000000000000000000000000000000000000000000000000000000000000000400000800000000000000000000000000000000000000000000000000000000000000000000000000000000002000000000000000000000000000000000000000000000
    nb) (h : P s) : P (passTime s) := by
  unfold passTime
  repeat' first
    | (with_reducible first
        | assumption | intro _ | apply keeps_each | apply keeps_ite | apply coreTick_keeps K | apply msTick_keeps K
        | apply usTick_keeps K | apply windowTick_keeps K | apply parts_of K)
    | exact off_sub rfl hb | exact off_bit rfl hb | dsimp only | split | simp only [parts_mk K]

end
end Sys2Proof.Machine
end

