-- ==== Sys2Proof/Laws/KeepsAnalog.lean ====
section
/-!
SUPPORT. What each operation of Sys2Proof/Machine/Analog.lean can change: its footprint (Sys2Proof/Laws/Keeps.lean).
-/
namespace Sys2Proof.Machine
set_option linter.all false
section
variable {P : State → Prop} {nb : Nat}

theorem anDrew_keeps (K : Keeps nb P) (s : State) (i : AnIn) (hb : Off 0 nb) (h : P s) : P (anDrew s i) := by
  unfold anDrew
  repeat' first
    | (with_reducible first
        | assumption | intro _ | apply keeps_ite | apply drew_keeps K)
    | exact off_sub rfl hb | exact off_bit rfl hb | dsimp only | split

theorem setSeq_keeps (K : Keeps nb P) (s : State) (n j v : Nat) (hb : Off
    0x80000000000000000000000000000000000000000000000000000000000000000000000000000000000000000000000000000000000000000000000000000000000000000000000000000000000000000000000000000000000000000000000000000000000000000000000000000000060000000000000000000000000000000000000000000000000000000
    nb) (h : P s) : P (setSeq s n j v) := by
  unfold setSeq
  repeat' first
    | (with_reducible first
        | assumption | intro _ | apply K.wr | apply wrb_keeps K)
    | exact off_sub rfl hb | exact off_bit rfl hb | (unfold adBusyFld; split <;> exact off_bit rfl hb) | dsimp only | split

theorem adStart_keeps (K : Keeps nb P) (s : State) (n j m : Nat) (hb : Off
    0x3C780000000000000000000000000000000000000000000000000000000000000000000000000000000000000000000000000000000000000000000000000000000000000000000000000000000000000000000000000000000000000000000000000000000000000000000000000000000060000000000000000000000000000000000000000000000000000000
    nb) (h : P s) : P (adStart s n j m) := by
  unfold adStart
  repeat' first
    | (with_reducible first
        | assumption | intro _ | apply keeps_each | apply keeps_ite | apply K.wr | apply setSeq_keeps K)
    | exact off_sub rfl hb | exact off_bit rfl hb | dsimp only | split

theorem adLost_keeps (K : Keeps nb P) (s : State) (n : Nat) (hb : Off
    0x8000000000000000000000000000000000000000000000000000000000 nb) (h : P s) : P (adLost s n) := by
  unfold adLost
  repeat' first
    | (with_reducible first
        | assumption | intro _ | apply bump_keeps K)
    | exact off_sub rfl hb | exact off_bit rfl hb | dsimp only | split

theorem adOverrun_keeps (K : Keeps nb P) (s : State) (n j : Nat) (hb : Off
    0x8180000000000000000000000000000000000000000000000000000000 nb) (h : P s) : P (adOverrun s n j) := by
  unfold adOverrun
  repeat' first
    | (with_reducible first
        | assumption | intro _ | apply keeps_ite | apply up_keeps K | apply adLost_keeps K)
    | exact off_sub rfl hb | exact off_bit rfl hb | (split <;> exact off_bit rfl hb) | dsimp only | split

theorem adPreempt_keeps (K : Keeps nb P) (s : State) (n : Nat) (hb : Off
    0x680000000000000000000000000000000000000000000000000000000000000000000000000000000000000000000000000000000000000000000000000000000000000000000000000000000000000000000000000000000000000000000000000000000000000000000000000000010060000000000000000000000000000000000000000000000000000000
    nb) (h : P s) : P (adPreempt s n) := by
  unfold adPreempt
  repeat' first
    | (with_reducible first
        | assumption | intro _ | apply keeps_ite | apply K.wr | apply bump_keeps K | apply setSeq_keeps K)
    | exact off_sub rfl hb | exact off_bit rfl hb | dsimp only | split

theorem adTrigger_keeps (K : Keeps nb P) (s : State) (n j : Nat) (sw : Bool) (hb : Off
    0x3E7800000000000000000000000000000000000000000000000000000000000000000000000000000000000000000000000000000000000000000000000000000000000000000000000000000000000000000000000000000000000000000000000000000000000000000000000000000181E0000000000000000000000000000000000000000000000000000000
    nb) (h : P s) : P (adTrigger s n j sw) := by
  unfold adTrigger
  repeat' first
    | (with_reducible first
        | assumption | intro _ | apply keeps_each | apply keeps_ite | apply wrb_keeps K | apply adLost_keeps K
        | apply adOverrun_keeps K | apply adPreempt_keeps K | apply adStart_keeps K | apply setSeq_keeps K
        | (apply keeps_fst; assumption) | (apply keeps_snd; assumption))
    | exact off_sub rfl hb | exact off_bit rfl hb | (split <;> exact off_bit rfl hb) | dsimp only | split

theorem adSeqEnd_keeps (K : Keeps nb P) (s : State) (n j : Nat) (hb : Off
    0x10000000000000000000000000000000000000000000000000000000200000000003CF80000000001000000000000000400000000000000000000000000000000000000000000000000000000000000000000000000000000000000000000000000000000000000000000000000000000000000000000000000000000000000000000000000000000000000000000000000000460000000000000000000000000000000000000000000000000000000
    nb) (h : P s) : P (adSeqEnd s n j) := by
  unfold adSeqEnd
  repeat' first
    | (with_reducible first
        | assumption | intro _ | apply keeps_ite | apply postIf_keeps K | apply up_keeps K | apply adStart_keeps K
        | apply routePulse_keeps K | apply setSeq_keeps K)
    | exact off_sub rfl hb | exact off_bit rfl hb | (split <;> exact off_bit rfl hb) | dsimp only | split

theorem adStepEnd_keeps (K : Keeps nb P) (s : State) (n j k ovs acc : Nat) (hb : Off
    0x10000000000000000000000000000000000000000000000000000000200000000003DF80000000001000000000000000400000000000000000000000000000000000000000000000000000000000000000000000000000000000000000000000000000000000000000000000000000000000000000000000000000000000000000000000000000000000000000000000000600460000000000000000000000000000000000000000000000000000000
    nb) (h : P s) : P (adStepEnd s n j k ovs acc) := by
  unfold adStepEnd
  repeat' first
    | (with_reducible first
        | assumption | intro _ | apply keeps_ite | apply K.wr | apply adSeqEnd_keeps K | apply sendResult_keeps K
        | (apply keeps_fst; assumption) | (apply keeps_snd; assumption))
    | exact off_sub rfl hb | exact off_bit rfl hb | dsimp only | split

theorem adConversionEnd_keeps (K : Keeps nb P) (s : State) (n : Nat) (x : Int) (hb : Off
    0x10000000000000000000000000000000000000000000000000000000200000000003DF80000000001000000000000000400000000000000000000000000000000000000000000000000000000000000000000000000000000000000000000000000000000000000000000000000000000000000000000000000000000000000000000000000000000000000000000000000600660000000000000000000000000000000000000000000000000000000
    nb) (h : P s) : P (adConversionEnd s n x) := by
  unfold adConversionEnd
  repeat' first
    | (with_reducible first
        | assumption | intro _ | apply keeps_ite | apply K.wr | apply up_keeps K | apply adStepEnd_keeps K
        | apply anDrew_keeps K)
    | exact off_sub rfl hb | exact off_bit rfl hb | dsimp only | split

theorem adRouteTrigger_keeps (K : Keeps nb P) (s : State) (n j : Nat) (hb : Off
    0x3E7800000000010000000000000000000000000000000000000000000000000000000000000000000000000000000000000000000000000000000000000000000000000000000000000000000000000000000000000000000000000000000000000000000000000000000000000000000181E0000000000000000000000000000000000000000000000000000000
    nb) (h : P s) : P (adRouteTrigger s n j) := by
  unfold adRouteTrigger
  repeat' first
    | (with_reducible first
        | assumption | intro _ | apply keeps_ite | apply adTrigger_keeps K | apply edgeTaken_keeps K)
    | exact off_sub rfl hb | exact off_bit rfl hb | dsimp only | split

theorem caChanged_keeps (K : Keeps nb P) (s : State) (n : Nat) (en gain : Nat) (hb : Off
    0x100000000000000000000000000000000000000000000000000000000000000000000000000000000000000000000000000000000000000000000000000000000000000000000000000000000000000000000000000000000000000000000000000000000000000000000000000000000000000000000000000000000000000000000000000000000000000000000
    nb) (h : P s) : P (caChanged s n en gain) := by
  unfold caChanged
  repeat' first
    | (with_reducible first
        | assumption | intro _ | apply keeps_ite | apply down_keeps K)
    | exact off_sub rfl hb | exact off_bit rfl hb | dsimp only | split

theorem caReady_keeps (K : Keeps nb P) (s : State) (n : Nat) (hb : Off
    0x100000000000000000000000000000000000000000000000000000000000000000000000000000000000000000000000000000000000000000000000000000000000000000000000000000000000000000000000000000000000000000000000000000000000000000000000000000000000000000000000000000000000000000000000000000000000000000000
    nb) (h : P s) : P (caReady s n) := by
  unfold caReady
  repeat' first
    | (with_reducible first
        | assumption | intro _ | apply keeps_ite | apply up_keeps K)
    | exact off_sub rfl hb | exact off_bit rfl hb | dsimp only | split

theorem setLatched_keeps (K : Keeps nb P) (s : State) (c : Nat) (b : Bool) (hb : Off
    0x100000000000000000000000000000000000000000000000000000000000000000000000000000001800000000000000400000000000000000000000000000000000000000000000000000000000000000000000000000000000000000000000000000000000000000000000000000000000000000000000000000000000000000000000000000000000000000000040000000000000000000000000000000000000000000000000000000000000000
    nb) (h : P s) : P (setLatched s c b) := by
  unfold setLatched
  repeat' first
    | (with_reducible first
        | assumption | intro _ | apply K.wr | apply postIf_keeps K | apply routeFollow_keeps K)
    | exact off_sub rfl hb | exact off_bit rfl hb | dsimp only | split

theorem latchFollow_keeps (K : Keeps nb P) (s : State) (c : Nat) (hb : Off
    0x100000000000000000000000000000000000000000000000000000000000000000080000000000001800000000000000400000000000000000000000000000000000000000000000000000000000000000000000000000000000000000000000000000000000000000000000000000000000000000000000000000000000000000000000000000000000000000000040000000000000000000000000000000000000000000000000000000000000000
    nb) (h : P s) : P (latchFollow s c) := by
  unfold latchFollow
  repeat' first
    | (with_reducible first
        | assumption | intro _ | apply keeps_ite | apply down_keeps K | apply up_keeps K | apply setLatched_keeps K)
    | exact off_sub rfl hb | exact off_bit rfl hb | dsimp only | split

theorem setRaw_keeps (K : Keeps nb P) (s : State) (c : Nat) (b : Bool) (hb : Off
    0x10000000000000000000000000000000000000000000000000000201A000067E800000000000000018000000000000004000000000000000000000000000000000000000000000000000000000000000000000000000000000000000000000000000000000000000000000000000000000000000000143C0000000000000000000000281F98287C00000000000000010000000000000000000000000000000000000000100000000000000000000000
    nb) (h : P s) : P (setRaw s c b) := by
  unfold setRaw
  repeat' first
    | (with_reducible first
        | assumption | intro _ | apply keeps_ite | apply K.wr | apply applyInhibit_keeps K | apply tripFromRaw_keeps K)
    | exact off_sub rfl hb | exact off_bit rfl hb | dsimp only | split

theorem cmCrossing_keeps (K : Keeps nb P) (s : State) (c : Nat) (x : Int) (hb : Off
    0x10000000000000000000000000000000000000000000000000000201A000067E820000000000000018000000000000004000000000000000000000000000000000000000000000000000000000000000000000000000000000000000000000000000000000000000000000000000000000000000000143C0000000000000000000000281F98287C00000000000000010000000000000000000000000000000000000000100000000000000000000000
    nb) (h : P s) : P (cmCrossing s c x) := by
  unfold cmCrossing
  repeat' first
    | (with_reducible first
        | assumption | intro _ | apply keeps_ite | apply wrb_keeps K | apply anDrew_keeps K | apply setRaw_keeps K)
    | exact off_sub rfl hb | exact off_bit rfl hb | dsimp only | split

theorem cmSample_keeps (K : Keeps nb P) (s : State) (c : Nat) (hb : Off
    0x10000000000000000000000000000000000000000000000000000201A0000600000C00005000000018000000000000004000000000000000000000000000000000000000000000000000000000000000000000000000000000000000000000000000000000000000000000000000000000000000000143C0000000000000000000000280000000000000000000000060000000000000000050000020B00000000000000000000000000000000000000
    nb) (h : P s) : P (cmSample s c) := by
  unfold cmSample
  repeat' first
    | (with_reducible first
        | assumption | intro _ | apply keeps_ite | apply K.wr | apply applyInhibit_keeps K | apply dropWarn_keeps K
        | apply latchFollow_keeps K)
    | exact off_sub rfl hb | exact off_bit rfl hb | dsimp only | split

theorem cmPeriodStart_keeps (K : Keeps nb P) (s : State) (n : Nat) (hb : Off
    0x100000000000000000000000000000000000000000000000000000000000000000080000000000001800000000000000400000000000000000000000000000000000000000000000000000000000000000000000000000000000000000000000000000000000000000000000000000000000000000000000000000000000000000000000000000000000000000000040000000000000000000000000000000000000000000000000000000000000000
    nb) (h : P s) : P (cmPeriodStart s n) := by
  unfold cmPeriodStart
  repeat' first
    | (with_reducible first
        | assumption | intro _ | apply keeps_each | apply keeps_ite | apply wrb_keeps K | apply setLatched_keeps K)
    | exact off_sub rfl hb | exact off_bit rfl hb | dsimp only | split

theorem cmLatchClear_keeps (K : Keeps nb P) (s : State) (m : Nat) (hb : Off
    0x100000000000000000000000000000000000000000000000000000000000000000000000000000001800000000000000400000000000000000000000000000000000000000000000000000000000000000000000000000000000000000000000000000000000000000000000000000000000000000000000000000000000000000000000000000000000000000000040000000000000000000000000000000000000000000000000000000000000000
    nb) (h : P s) : P (cmLatchClear s m) := by
  unfold cmLatchClear
  repeat' first
    | (with_reducible first
        | assumption | intro _ | apply keeps_each | apply keeps_ite | apply setLatched_keeps K)
    | exact off_sub rfl hb | exact off_bit rfl hb | dsimp only | split

theorem cmCfgWrite_keeps (K : Keeps nb P) (s : State) (c v : Nat) (hb : Off
    0x10000000000000000000000000000000000000000000000000000201A000067E800800000000000018000000000000004000000000000000000000000000000000000000000000000000000000000000000000000000000000000000000000000000000000000000000000000000000000000000000143C0000000000000000000000281F98287C00000000000000053FE0000000000000000000000000000000000000100000000000000000000000
    nb) (h : P s) : P (cmCfgWrite s c v) := by
  unfold cmCfgWrite
  repeat' first
    | (with_reducible first
        | assumption | intro _ | apply keeps_ite | apply K.wr | apply applyInhibit_keeps K | apply latchFollow_keeps K
        | apply setRaw_keeps K)
    | exact off_sub rfl hb | exact off_bit rfl hb | dsimp only | split

theorem swGo_keeps (K : Keeps nb P) (s : State) (hb : Off
    0x3E00000000000000000000000000000000000000000000000000000000000000000000000000000000000000000000000000000000000000000000000000000000000000000000000000000000000000000000000000000000000000000000000000000000000000000000000018000000000000000000000000000000000000000000000000000000000000000000
    nb) (h : P s) : P (swGo s) := by
  unfold swGo
  repeat' first
    | (with_reducible first
        | assumption | intro _ | apply keeps_ite | apply K.wr | apply up_keeps K | apply wrb_keeps K)
    | exact off_sub rfl hb | exact off_bit rfl hb | dsimp only | split

theorem swRelease_keeps (K : Keeps nb P) (s : State) (hb : Off
    0x10000000000000000000000000000000000000000000000000000201A000067E808000000000000018000000000000004000000000000000000000000000000000000000000000000000000000000000000000000000000000000000000000000000000000000000000000000000000000000000000143C0000000000000000000000281F98287C00000000000008018000000000000000000000000000000000000000100000000000000000000000
    nb) (h : P s) : P (swRelease s) := by
  unfold swRelease
  repeat' first
    | (with_reducible first
        | assumption | intro _ | apply keeps_ite | apply K.wr | apply down_keeps K | apply post_keeps K
        | apply setRaw_keeps K)
    | exact off_sub rfl hb | exact off_bit rfl hb | dsimp only | split

theorem swDone_keeps (K : Keeps nb P) (s : State) (meas : Nat) (hb : Off
    0x10000000000000000000000000000000000000000000000000000201A000067E808000000000000018001000000000004000000000000000000000000000000000000000000000000000000000000000000000000000000000000000000000000000000000000000000000000000000000000000000143C0000000000000000000000281F98287C000000000000F8018000000000000000000000000000000000000002100000000000000000000000
    nb) (h : P s) : P (swDone s meas) := by
  unfold swDone
  repeat' first
    | (with_reducible first
        | assumption | intro _ | apply keeps_ite | apply K.wr | apply ledgerRaise_keeps K | apply swRelease_keeps K)
    | exact off_sub rfl hb | exact off_bit rfl hb | dsimp only | split

theorem swTimeout_keeps (K : Keeps nb P) (s : State) (hb : Off
    0x10000000000000000000000000000000000000000000000000000201A000067E808000000000000018000000000000004000000000000000000000000000000000000000000000000000000000000000000000000000000000000000000000000000000000000000000000000000000000000000000143C0000000000000000000000281F98287C00000000000018018000000000000000000000000000000000000000100000000000000000000000
    nb) (h : P s) : P (swTimeout s) := by
  unfold swTimeout
  repeat' first
    | (with_reducible first
        | assumption | intro _ | apply keeps_ite | apply K.wr | apply swRelease_keeps K)
    | exact off_sub rfl hb | exact off_bit rfl hb | dsimp only | split

theorem execAdcTrigger_keeps (K : Keeps nb P) (ad : Fin 4) (seq : Fin 2) (s : State) (hb : Off
    0x3E7800000000010000000000000000000000000000000000000000000000000000000000000000000000000000000000000000000000000000000000000000000000000000000000000000000000000000000000000000000000000000000000000000000000000000000000000000000181E0000000000000000000000000000000000000000000000000000000
    nb) (h : P s) : OutKeeps P (execAdcTrigger ad seq s) := by
  unfold execAdcTrigger
  repeat' first
    | (with_reducible first
        | assumption | intro _ | apply outKeeps_next | apply adRouteTrigger_keeps K)
    | exact off_sub rfl hb | exact off_bit rfl hb | dsimp only | split

theorem execCsaReady_keeps (K : Keeps nb P) (amp : Fin 8) (s : State) (hb : Off
    0x100000000000000000000000000000000000000000000000000000000000000000000000000000000000000000000000000000000000000000000000000000000000000000000000000000000000000000000000000000000000000000000000000000000000000000000000000000000000000000000000000000000000000000000000000000000000000000000
    nb) (h : P s) : OutKeeps P (execCsaReady amp s) := by
  unfold execCsaReady
  repeat' first
    | (with_reducible first
        | assumption | intro _ | apply outKeeps_next | apply caReady_keeps K)
    | exact off_sub rfl hb | exact off_bit rfl hb | dsimp only | split

theorem execComparatorCrossing_keeps (K : Keeps nb P) (cmp : Fin 24) (uv : BitVec 32) (s : State) (hb : Off
    0x10000000000000000000000000000000000000000000000000000201A000067E820000000000000018000000000000004000000000000000000000000000000000000000000000000000000000000000000000000000000000000000000000000000000000000000000000000000000000000000000143C0000000000000000000000281F98287C00000000000000010000000000000000000000000000000000000000100000000000000000000000
    nb) (h : P s) : OutKeeps P (execComparatorCrossing cmp uv s) := by
  unfold execComparatorCrossing
  repeat' first
    | (with_reducible first
        | assumption | intro _ | apply outKeeps_next | apply cmCrossing_keeps K)
    | exact off_sub rfl hb | exact off_bit rfl hb | dsimp only | split

theorem execComparatorFilterSample_keeps (K : Keeps nb P) (cmp : Fin 24) (s : State) (hb : Off
    0x10000000000000000000000000000000000000000000000000000201A0000600000C00005000000018000000000000004000000000000000000000000000000000000000000000000000000000000000000000000000000000000000000000000000000000000000000000000000000000000000000143C0000000000000000000000280000000000000000000000060000000000000000050000020B00000000000000000000000000000000000000
    nb) (h : P s) : OutKeeps P (execComparatorFilterSample cmp s) := by
  unfold execComparatorFilterSample
  repeat' first
    | (with_reducible first
        | assumption | intro _ | apply outKeeps_next | apply cmSample_keeps K)
    | exact off_sub rfl hb | exact off_bit rfl hb | dsimp only | split

theorem execSwatchTestDone_keeps (K : Keeps nb P) (meas : BitVec 12) (s : State) (hb : Off
    0x10000000000000000000000000000000000000000000000000000201A000067E808000000000000018001000000000004000000000000000000000000000000000000000000000000000000000000000000000000000000000000000000000000000000000000000000000000000000000000000000143C0000000000000000000000281F98287C000000000000F8018000000000000000000000000000000000000002100000000000000000000000
    nb) (h : P s) : OutKeeps P (execSwatchTestDone meas s) := by
  unfold execSwatchTestDone
  repeat' first
    | (with_reducible first
        | assumption | intro _ | apply outKeeps_next | apply swDone_keeps K)
    | exact off_sub rfl hb | exact off_bit rfl hb | dsimp only | split

theorem execSwatchAd3Timeout_keeps (K : Keeps nb P) (s : State) (hb : Off
    0x10000000000000000000000000000000000000000000000000000201A000067E808000000000000018000000000000004000000000000000000000000000000000000000000000000000000000000000000000000000000000000000000000000000000000000000000000000000000000000000000143C0000000000000000000000281F98287C00000000000018018000000000000000000000000000000000000000100000000000000000000000
    nb) (h : P s) : OutKeeps P (execSwatchAd3Timeout s) := by
  unfold execSwatchAd3Timeout
  repeat' first
    | (with_reducible first
        | assumption | intro _ | apply outKeeps_next | apply swTimeout_keeps K)
    | exact off_sub rfl hb | exact off_bit rfl hb | dsimp only | split

end
end Sys2Proof.Machine
end

