-- ==== Sys2Proof/Laws/KeepsKeys.lean ====
section
/-!
SUPPORT. What each operation of Sys2Proof/Machine/Keys.lean can change: its footprint (Sys2Proof/Laws/Keeps.lean).
-/
namespace Sys2Proof.Machine
set_option linter.all false
section
variable {P : State → Prop} {nb : Nat}

theorem keyCommit_keeps (K : Keeps nb P) (s : State) (k : Nat) (hb : Off
    0x1300000000000000000000000000000000000000000000000000000000000000000000000000000000000000000000000000000000000000000014000000000000000000000000000000000000400000000000000000000000000000000000000000000000000000000000000000000000000000000000000000000000000000000000000000000000000000000000000000000000000000000000000000000000000000000000
    nb) (h : P s) : P (keyCommit s k) := by
  unfold keyCommit
  repeat' first
    | (with_reducible first
        | assumption | intro _ | apply keeps_ite | apply K.wr | apply up_keeps K | apply crEnter_keeps K)
    | exact off_sub rfl hb | exact off_bit rfl hb | dsimp only | split

theorem commitWrites_keeps (K : Keeps nb P) (s : State) (k : Nat) (hb : Off
    0x4000000000000000000000000000000000000000000000000000000000000000000000000000000000000000000000000000000000000000000000000000000000000000004000000000000000000000000000000000000000000000000000000000000000000000000000000000000000000000000000000000000000000000000000000000000000000000000000000000000000000000000000000000000000000000000000000000000000000000000
    nb) (h : P s) : P (commitWrites s k) := by
  unfold commitWrites
  repeat' first
    | (with_reducible first
        | assumption | intro _ | apply K.setq | apply K.wr)
    | exact off_sub rfl hb | exact off_bit rfl hb | dsimp only | split

theorem commitEnds_keeps (K : Keeps nb P) (s : State) (result : Nat) (hb : Off
    0x400000000000000000000000000000000000000000000000000000000000000000000000000000000000000000000000000000000000000000000000000000000000000000C000000000000000000000000000000000000000000000000000000000000000000000000000000000000000000000000000000000000000000000000000000000000000000000000000000000000000000000000000000000000000000000000000000000000000000000000
    nb) (h : P s) : P (commitEnds s result) := by
  unfold commitEnds
  repeat' first
    | (with_reducible first
        | assumption | intro _ | apply K.setq | apply K.wr)
    | exact off_sub rfl hb | exact off_bit rfl hb | dsimp only | split

theorem commitVerified_keeps (K : Keeps nb P) (s : State) (hb : Off
    0x400000000000000000000120000000000000000000000000000000000000000000000000000000000000000000000000000000000000000000000000000000000000000000C000000000000000000000000000000000000400000000000000000000000000000000000000000000000000000000000000000000000000000000000000000000000000000000000000000000000000000000000000000000000000000000000000000000000000000000000
    nb) (h : P s) : P (commitVerified s) := by
  unfold commitVerified
  repeat' first
    | (with_reducible first
        | assumption | intro _ | apply keeps_ite | apply K.wr | apply down_keeps K | apply commitEnds_keeps K
        | apply commitWrites_keeps K | apply crLeave_keeps K)
    | exact off_sub rfl hb | exact off_bit rfl hb | dsimp only | split

theorem commitWritten_keeps (K : Keeps nb P) (s : State) (fail : Option Nat) (hb : Off
    0x10000000000000000000040801000000000000000000400000000000000000000000000000000000000000000000000000000000000001000000000004000000000000000000000000000000000003CC000C00000000000000000000000000000000000000000000000000000000000000000000000000000000000000000000000000000000000000000000000000000000000000000000000000000000000000000000000000000000000000000002000000000000000000000000
    nb) (h : P s) : P (commitWritten s fail) := by
  unfold commitWritten
  repeat' first
    | (with_reducible first
        | assumption | intro _ | apply keeps_each | apply keeps_ite | apply post_keeps K | apply commitEnds_keeps K
        | apply electKey_keeps K | apply logPush_keeps K | apply programFailed_keeps K | apply programWord_keeps K
        | apply wear_keeps K | (apply keeps_fst; assumption) | (apply keeps_snd; assumption))
    | exact off_sub rfl hb | exact off_bit rfl hb | dsimp only | split

theorem commitResumes_keeps (K : Keeps nb P) (s : State) (hb : Off
    0x4000000000000000000000000000000000000000000000000000000000000000000000000000000000000000000000000000000000000000000000000000000000000000004000000000000000000000000000000000000000000000000000000000000000000000000000000000000000000000000000000000000000000000000000000000000000000000000000000000000000000000000000000000000000000000000000000000000000000000000
    nb) (h : P s) : P (commitResumes s) := by
  unfold commitResumes
  repeat' first
    | (with_reducible first
        | assumption | intro _ | apply keeps_ite | apply commitWrites_keeps K)
    | exact off_sub rfl hb | exact off_bit rfl hb | dsimp only | split

theorem commitDropped_keeps (K : Keeps nb P) (s : State) (hb : Off
    0x400000000000000000000020000000000000000000000000000000000000000000000000000000000000000000000000000000000000000000000000000000000000000000C000000000000000000000000000000000000000000000000000000000000000000000000000000000000000000000000000000000000000000000000000000000000000000000000000000000000000000000000000000000000000000000000000000000000000000000000
    nb) (h : P s) : P (commitDropped s) := by
  unfold commitDropped
  repeat' first
    | (with_reducible first
        | assumption | intro _ | apply keeps_ite | apply down_keeps K | apply commitEnds_keeps K)
    | exact off_sub rfl hb | exact off_bit rfl hb | dsimp only | split

theorem ctrRaise_keeps (K : Keeps nb P) (s : State) (n v : Nat) (hb : Off
    0x6000000000000000000000000000000000000000000000000000000000000000000000000000000000000000000000000000000000000000000000000000000000000000000000000000000000000000000000000000000000000000000000000000000000000000000000000000000000000000000000000000000000000000000000000000000000000000000000000000000000000000000000000000000000000000000000
    nb) (h : P s) : P (ctrRaise s n v) := by
  unfold ctrRaise
  repeat' first
    | (with_reducible first
        | assumption | intro _ | apply keeps_ite | apply K.wr | apply up_keeps K)
    | exact off_sub rfl hb | exact off_bit rfl hb | dsimp only | split

theorem ctrCopyWrite_keeps (K : Keeps nb P) (s : State) (n c v : Nat) (failed : Bool) (hb : Off
    0x1000000000000000000000000000000000000000000040000000000000000000000000000000000000000000000000000000000000000100000000000000000000000000000000000000000000000000000400000000000000000000000000000000000000000000000000000000000000000000000000000000000000000000000000000000000000000000000000000000000000000000000000000000000000000000000000000000000000000002000000000000000000000000
    nb) (h : P s) : P (ctrCopyWrite s n c v failed) := by
  unfold ctrCopyWrite
  repeat' first
    | (with_reducible first
        | assumption | intro _ | apply keeps_ite | apply programFailed_keeps K | apply programWord_keeps K
        | apply wear_keeps K)
    | exact off_sub rfl hb | exact off_bit rfl hb | dsimp only | split

theorem ctrRaiseDone_keeps (K : Keeps nb P) (s : State) (n : Nat) (fail0 fail1 : Bool) (hb : Off
    0x1000000000000000000000080100000000000000006040000000000000000000000000000000000000000000000000000000000000000100000000000400000000000000000000000000000000000420000C00000000000000000000000000000000000000000000000000000000000000000000000000000000000000000000000000000000000000000000000000000000000000000000000000000000000000000000000000000000000000000002000000000000000000000000
    nb) (h : P s) : P (ctrRaiseDone s n fail0 fail1) := by
  unfold ctrRaiseDone
  repeat' first
    | (with_reducible first
        | assumption | intro _ | apply keeps_ite | apply K.wr | apply down_keeps K | apply post_keeps K
        | apply ctrCopyWrite_keeps K | apply electCtr_keeps K | apply logPush_keeps K)
    | exact off_sub rfl hb | exact off_bit rfl hb | dsimp only | split

theorem crCommand_keeps (K : Keeps nb P) (s : State) (op kind : Nat) (hb : Off
    0x1C00000000000000000000000000000000000000000000000000000000000000000000000000000000000000000000000000000000000000000000000000000000000000000000000000000002400000000000000000000000000000000000000000000000000000000000000000000000000000000000000000000000000000000000000000000000000000000000000000000000000000000000000000000000000000000000
    nb) (h : P s) : P (crCommand s op kind) := by
  unfold crCommand
  repeat' first
    | (with_reducible first
        | assumption | intro _ | apply keeps_ite | apply K.wr | apply up_keeps K | apply crEnter_keeps K)
    | exact off_sub rfl hb | exact off_bit rfl hb | dsimp only | split

theorem crRead_keeps (K : Keeps nb P) (s : State) (a n : Nat) (hb : Off
    0x1000000000000000000000080100000000000000000040000000000000000000000000000000000000000000000000000000000000000100000000000400000000000000000000000000000000000000000C00000000000000000000000000000000000000000000000000000000007C00000000000000000000000000000000000000000000000000000000000000000000000000000000000000000000000000000000000000000003C60000000002000000000000000200000000
    nb) (h : P s) : P (crRead s a n).1 := by
  unfold crRead
  repeat' first
    | (with_reducible first
        | assumption | intro _ | apply keeps_foldl | apply keeps_fold1 | apply keeps_fold2 | apply keeps_ite
        | apply memAccess_keeps K | apply respondCode_keeps K | (apply keeps_fst; assumption)
        | (apply keeps_snd; assumption))
    | exact off_sub rfl hb | exact off_bit rfl hb | dsimp only | split

theorem setCrDigest_keeps (K : Keeps nb P) (s : State) (d : Nat) (hb : Off
    0x10000000000000000000000000000000000000000000000000000000000000000000000000000000000000000000000000000000000000000000000000000000000000000000000000000000000000000000000000000000000000
    nb) (h : P s) : P (setCrDigest s d) := by
  unfold setCrDigest
  repeat' first
    | (with_reducible first
        | assumption | intro _ | apply keeps_each | apply K.wr)
    | exact off_sub rfl hb | exact off_bit rfl hb | dsimp only | split

theorem crFinish_keeps (K : Keeps nb P) (s : State) (op kind : Nat) (hb : Off
    0x80000000000000000000000000000000000000000000000000000000000000000000000000000000000000000000000000000200000000000000000000000000000000000000000000000000000000000000000000019800000000000000000000000000000000000000000000000000000000000000000000000000000000000000000000000000000000000000000000000000000000000000000000000000000000000000000000000000000000000
    nb) (h : P s) : P (crFinish s op kind) := by
  unfold crFinish
  repeat' first
    | (with_reducible first
        | assumption | intro _ | apply keeps_ite | apply K.wr | apply drew_keeps K | apply up_keeps K | apply wrb_keeps K
        | apply logPush_keeps K | apply setCrDigest_keeps K)
    | exact off_sub rfl hb | exact off_bit rfl hb | dsimp only | split

theorem crDone_keeps (K : Keeps nb P) (s : State) (hb : Off
    0x1000000000000000000000080100000000000000001C40000000000000000000000000000000000000000000000000000000000000000100000000000400200000000000000000000000000000000000000C0000000000000000000000000000001DC00000000000000000000000007C00000000000000000000000000000000000000000000000000000000000000000000000000000000000000000000000000000000000000000003C60000000002000000000000000200000000
    nb) (h : P s) : P (crDone s) := by
  unfold crDone
  repeat' first
    | (with_reducible first
        | assumption | intro _ | apply keeps_ite | apply K.wr | apply post_keeps K | apply crFinish_keeps K
        | apply crLeave_keeps K | apply crRead_keeps K | (apply keeps_fst; assumption) | (apply keeps_snd; assumption))
    | exact off_sub rfl hb | exact off_bit rfl hb | dsimp only | split

end
end Sys2Proof.Machine
end

