-- ==== Sys2Proof/Laws/KeepsTasks.lean ====
section
/-!
SUPPORT. What each operation of Sys2Proof/Machine/Tasks.lean can change: its footprint (Sys2Proof/Laws/Keeps.lean).
-/
namespace Sys2Proof.Machine
set_option linter.all false
section
variable {P : State → Prop} {nb : Nat}

theorem keepEntry_keeps (K : Keeps nb P) (s : State) (k : Nat) (hb : Off
    0x100000000000000000000000000000000000000000000000000000000000000000000000000000000000000000000000000000000000000000000000000000000000000000000000000000000000000000000000000000000000000000000000000000000000000000000000000000000000000000000000000000000000000000000000000000000000000000000000000000000000000000000000000
    nb) (h : P s) : P (keepEntry s k) := by
  unfold keepEntry
  repeat' first
    | (with_reducible first
        | assumption | intro _ | apply keeps_ite | apply K.wr)
    | exact off_sub rfl hb | exact off_bit rfl hb | dsimp only | split

theorem enqueue_keeps (K : Keeps nb P) (s : State) (k : Nat) (head : Bool) (hb : Off
    0x800000000000000000000000000000000000000000000000000000000000000000000000000000000000000000000000000000000000000000000000000000000000000000000000000000000000000000000000000000000000000000000000000000000000000000000800000000000000000000000000000000000000000000000000000000000000000000000000000000000000000000000000000000000000000000000000000000000000000
    nb) (h : P s) : P (enqueue s k head) := by
  unfold enqueue
  repeat' first
    | (with_reducible first
        | assumption | intro _ | apply keeps_ite | apply K.setq | apply peak_keeps K)
    | exact off_sub rfl hb | exact off_bit rfl hb | dsimp only | split

theorem dequeue_keeps (K : Keeps nb P) (s : State) (k : Nat) (hb : Off
    0x800000000000000000000000000000000000000000000000000000000000000000000000000000000000000000000000000000000000000000000000000000000000000000000000000000000000000000000000000000000000000000000000000000000000000000000000000000000000000000000000000000000000000000000000000000000000000000000000000000000000000000000000000000000000000000000000000000000000000
    nb) (h : P s) : P (dequeue s k) := by
  unfold dequeue
  repeat' first
    | (with_reducible first
        | assumption | intro _ | apply K.setq)
    | exact off_sub rfl hb | exact off_bit rfl hb | dsimp only | split

theorem signal_keeps (K : Keeps nb P) (s : State) (k t : Nat) (hb : Off
    0x1000000000000000000000080100000000000000000040000000000000000000018000000000000000000000000000000000000000000100000000000400000000000000000000000000000000000000000C00000000000000000000000000000000000000000000000000000000007C00000400015388000000000000000000000000000000000000000000000000000000000000000000000000000000000000000000000000000003C60000000002000000000000000200000000
    nb) (h : P s) : P (signal s k t) := by
  unfold signal
  repeat' first
    | (with_reducible first
        | assumption | intro _ | apply K.wr | apply bump_keeps K | apply up_keeps K | apply trace_keeps K)
    | exact off_sub rfl hb | exact off_bit rfl hb | dsimp only | split

theorem preempt_keeps (K : Keeps nb P) (s : State) (k t : Nat) (hb : Off
    0x1000000000000000000000080900000000000000000040000000000000000040000000000000000000000000000000000000000000000100000000000400000000000000000000000000000000000000000C00000000000000000000000000000000000000000000000000000000007C00000000015384000000000000000000000000000000000000000000000000000000000000000000000000000000000000000000000000000003C60000000002000000000000000200000000
    nb) (h : P s) : P (preempt s k t) := by
  unfold preempt
  repeat' first
    | (with_reducible first
        | assumption | intro _ | apply K.wr | apply bump_keeps K | apply dequeue_keeps K | apply trace_keeps K)
    | exact off_sub rfl hb | exact off_bit rfl hb | dsimp only | split

theorem considerReady_keeps (K : Keeps nb P) (s : State) (k : Nat) (hb : Off
    0x10000000000000000000000809000000000000000000400000000000000000C0018000000000000000000000000000000000000000000100000000000400000000000000000000000000000000000000000C00000000000000000000000000000000000000000000000000000000007C0000040001538C000000000000000000000000000000000000000000000000000000000000000000000000000000000000000000000000000003C60000000002000000000000000200000000
    nb) (h : P s) : P (considerReady s k) := by
  unfold considerReady
  repeat' first
    | (with_reducible first
        | assumption | intro _ | apply keeps_ite | apply down_keeps K | apply preempt_keeps K | apply signal_keeps K)
    | exact off_sub rfl hb | exact off_bit rfl hb | dsimp only | split

theorem makeReady_keeps (K : Keeps nb P) (s : State) (k : Nat) (head : Bool) (hb : Off
    0x10000000000000000000000809000000000000000000400000000000000000C0018000000000000000000000000000000000000000000100000000000400000000000000000000000000000000000000000C00000000000000000000000000000000000000000000000000000000007C0000048001538C8000000000000000000000000000000000000000000000000000000000000000000000000000000000000000000000000400C3C60000000002000000000000000200000000
    nb) (h : P s) : P (makeReady s k head) := by
  unfold makeReady
  repeat' first
    | (with_reducible first
        | assumption | intro _ | apply K.wr | apply up_keeps K | apply considerReady_keeps K | apply dozeExit_keeps K
        | apply enqueue_keeps K)
    | exact off_sub rfl hb | exact off_bit rfl hb | dsimp only | split

theorem stampPost_keeps (K : Keeps nb P) (s : State) (k : Nat) (hb : Off
    0x28000000000000000000000000000000000000000000000000000000000000000000000000000000000000000000000000000000000000000000000000000000000000000000000000000000000000000000000000000000000000000000000000000000000000000000000000000000000000000000000000000000000000000000000000000000000000000000000000000000000000000000000000
    nb) (h : P s) : P (stampPost s k) := by
  unfold stampPost
  repeat' first
    | (with_reducible first
        | assumption | intro _ | apply K.wr | apply up_keeps K)
    | exact off_sub rfl hb | exact off_bit rfl hb | dsimp only | split

theorem postTask_keeps (K : Keeps nb P) (s : State) (k : Nat) (hb : Off
    0x10000000000000000000000809000000000000000000400000000000000000F8018000000000000000000000000000000000000000000100000000000400000000000000000000000000000000000000000C00000000000000000000000000000000000000000000000000000000007C000005800153EC8000000000000000000000000000000000000000000000000000000000000000000000000000000000000000000000000400C3C60000000002000000000000000200000000
    nb) (h : P s) : P (postTask s k) := by
  unfold postTask
  repeat' first
    | (with_reducible first
        | assumption | intro _ | apply keeps_ite | apply K.wr | apply bump_keeps K | apply up_keeps K
        | apply makeReady_keeps K | apply stampPost_keeps K | apply trace_keeps K)
    | exact off_sub rfl hb | exact off_bit rfl hb | dsimp only | split

theorem eventPost_keeps (K : Keeps nb P) (s : State) (ev : Nat) (hb : Off
    0x10000000000000000000000809000000000000000000400000000000000000F8018000000000000000000000000000000000000000000100000000000400000000000000000000000000000000000000000C00000000000000000000000000000000000000000000000000000000007C000005800153EC8000000000000000000000000000000000000000000000000000000000000000000000000000000000000000000000000400C3C60000000002000000000000000200000000
    nb) (h : P s) : P (eventPost s ev) := by
  unfold eventPost
  repeat' first
    | (with_reducible first
        | assumption | intro _ | apply keeps_ite | apply postTask_keeps K | apply parts_of K)
    | exact off_sub rfl hb | exact off_bit rfl hb | dsimp only | split | simp only [parts_mk K]

theorem saveContext_keeps (K : Keeps nb P) (s : State) (k t pc : Nat) (wait : Bool) (hb : Off
    0x1000000000000000000000080100000000000000000040000000000000000000000000000000000000000000000000000000000000000100000000000400000000000000000000000000000000000000000C00000000000000000000000000000000000000000000000000000000007C00000000000000000000000000000000000000000000000000000000000000000000000000000000000000000000000000000000000000000003C60000000002000000000000000200000000
    nb) (h : P s) : P (saveContext s k t pc wait).1 := by
  unfold saveContext
  repeat' first
    | (with_reducible first
        | assumption | intro _ | apply keeps_foldl | apply keeps_fold1 | apply keeps_fold2 | apply memAccess_keeps K
        | (apply keeps_fst; assumption) | (apply keeps_snd; assumption))
    | exact off_sub rfl hb | exact off_bit rfl hb | dsimp only | split

theorem readContext_keeps (K : Keeps nb P) (s : State) (k : Nat) (hb : Off
    0x1000000000000000000000080100000000000000000040000000000000000000000000000000000000000000000000000000000000000100000000000400000000000000000000000000000000000000000C00000000000000000000000000000000000000000000000000000000007C00000000000000000000000000000000000000000000000000000000000000000000000000000000000000000000000000000000000000000003C60000000002000000000000000200000000
    nb) (h : P s) : P (readContext s k).1 := by
  unfold readContext
  repeat' first
    | (with_reducible first
        | assumption | intro _ | apply keeps_foldl | apply keeps_fold1 | apply keeps_fold2 | apply memAccess_keeps K
        | (apply keeps_fst; assumption) | (apply keeps_snd; assumption))
    | exact off_sub rfl hb | exact off_bit rfl hb | dsimp only | split

theorem freshCopy_keeps (K : Keeps nb P) (s : State) (u k : Nat) (hb : Off
    0x4C240500400000000000000000000000000000000000000000000000000000000000000000000000000000000000000000000000000000000000000000000000000000000000000000000000000000000000000000000000000000000000000000000000000000000000000000000000000000000000000000000000000000000000000000000000000000000000000000000000000000000000000
    nb) (h : P s) : P (freshCopy s u k) := by
  unfold freshCopy
  repeat' first
    | (with_reducible first
        | assumption | intro _ | apply K.wr | apply down_keeps K)
    | exact off_sub rfl hb | exact off_bit rfl hb | dsimp only | split

theorem freshStart_keeps (K : Keeps nb P) (s : State) (u k : Nat) (hb : Off
    0x4C240502DFE000000000000000000000000000000000000000000000000000000000000000000000000000000000000000000000000000000000000000000000000000000000000000000000000000000000000000000000000000000000000000000000000000000000000000000000000000000000000000000000000000000000000000000000000000000000000000000000000000000000000
    nb) (h : P s) : P (freshStart s u k) := by
  unfold freshStart
  repeat' first
    | (with_reducible first
        | assumption | intro _ | apply keeps_each | apply keeps_ite | apply K.wr | apply freshCopy_keeps K)
    | exact off_sub rfl hb | exact off_bit rfl hb | dsimp only | split

theorem restoreCopy_keeps (K : Keeps nb P) (s : State) (u k v : Nat) (hb : Off
    0x4C240502DFE000000000000000000000000000000000000000000000000000000000000000000000000000000000000000000000000000000000000000000000000000000000000000000000000000000000000000000000000000000000000000000000000000000000000000000000000000000000000000000000000000000000000000000000000000000000000000000000000000000000000
    nb) (h : P s) : P (restoreCopy s u k v) := by
  unfold restoreCopy
  repeat' first
    | (with_reducible first
        | assumption | intro _ | apply keeps_each | apply K.wr | apply freshCopy_keeps K)
    | exact off_sub rfl hb | exact off_bit rfl hb | dsimp only | split

theorem startTask_keeps (K : Keeps nb P) (s : State) (k t : Nat) (hb : Off
    0x100000000000000000000008010000000000000000004000000000000000034004C240502DFF000000000000000000000000000000000100000000000400000000000000000000000000000000000000000C00000000000000000000000000000000000000000000000000000000007C00000F800153800004000040000000000000000000000000000000000000000000000000000000000000000000000000000000000000000400C3C60000000002000000000000000200000000
    nb) (h : P s) : P (startTask s k t) := by
  unfold startTask
  repeat' first
    | (with_reducible first
        | assumption | intro _ | apply keeps_each | apply keeps_ite | apply K.wr | apply down_keeps K | apply up_keeps K
        | apply dozeExit_keeps K | apply faultTask_keeps K | apply freshStart_keeps K | apply readContext_keeps K
        | apply restoreCopy_keeps K | apply trace_keeps K | (apply keeps_fst; assumption) | (apply keeps_snd; assumption))
    | exact off_sub rfl hb | exact off_bit rfl hb | dsimp only | split

theorem handOut_keeps (K : Keeps nb P) (s : State) (hb : Off
    0x100000000000000000000008090000000000000000004000000000000000034004C240502DFF000000000000000000000000000000000100000000000400000000000000000000000000000000000000000C00000000000000000000000000000000000000000000000000000000007C00000F800153800004000040000000000000000000000000000000000000000000000000000000000000000000000000000000000000000400C3C60000000002000000000000000200000000
    nb) (h : P s) : P (handOut s) := by
  unfold handOut
  repeat' first
    | (with_reducible first
        | assumption | intro _ | apply dequeue_keeps K | apply startTask_keeps K)
    | exact off_sub rfl hb | exact off_bit rfl hb | dsimp only | split

theorem dispatch_keeps (K : Keeps nb P) (s : State) (hb : Off
    0x10000000000000000000000809000000000000000000400000000000000003C005C240502DFF000000000000000000000000000000000100000000000400000000000000000000000000000000000000000C00000000000000000000000000000000000000000000000000000000007C00000F8001538C0004000040000000000000000000000000000000000000000000000000000000000000000000000000000000000000000400C3C60000000002000000000000000200000000
    nb) (h : P s) : P (dispatch s) := by
  unfold dispatch
  repeat' first
    | (with_reducible first
        | assumption | intro _ | apply keeps_each | apply keeps_ite | apply considerReady_keeps K | apply handOut_keeps K)
    | exact off_sub rfl hb | exact off_bit rfl hb | dsimp only | split

theorem saveDone_keeps (K : Keeps nb P) (s : State) (t : Nat) (hb : Off
    0x10000000000000000000000809000000000000000000400000000000000003C005C240502DFF000000000000000000000000000000000100000000000400000000000000000000000000000000000000000C00000000000000000000000000000000000000000000000000000000007C00000F8001538C8004000040000000000000000000000000000000000000000000000000000000000000000000000000000000000000000400C3C60000000002000000000000000200000000
    nb) (h : P s) : P (saveDone s t) := by
  unfold saveDone
  repeat' first
    | (with_reducible first
        | assumption | intro _ | apply keeps_ite | apply K.wr | apply down_keeps K | apply up_keeps K
        | apply considerReady_keeps K | apply enqueue_keeps K | apply faultTask_keeps K | apply saveContext_keeps K
        | apply startTask_keeps K)
    | exact off_sub rfl hb | exact off_bit rfl hb | dsimp only | split

theorem rerun_keeps (K : Keeps nb P) (s : State) (k : Nat) (hb : Off
    0x10000000000000000000000809000000000000000000400000000000000000E8018000000000000000000000000000000000000000000100000000000400000000000000000000000000000000000000000C00000000000000000000000000000000000000000000000000000000007C0000058001538C8000000000000000000000000000000000000000000000000000000000000000000000000000000000000000000000000400C3C60000000002000000000000000200000000
    nb) (h : P s) : P (rerun s k) := by
  unfold rerun
  repeat' first
    | (with_reducible first
        | assumption | intro _ | apply K.wr | apply down_keeps K | apply up_keeps K | apply makeReady_keeps K)
    | exact off_sub rfl hb | exact off_bit rfl hb | dsimp only | split

theorem tend_keeps (K : Keeps nb P) (s : State) (u : Nat) (hb : Off
    0x10000000000000000000000809000000000000000000400000000000000003E8018000000005000000000000000000000000000000000100000000000400000000000000000000000000000000000000000C00000000000000000000000000000000000000000000000000000000007C0000058001538C8000000000000000000000000000000000000000000000000000000000000000000000000000000000000000000000000400C3C60000000002000000000000000200000000
    nb) (h : P s) : P (tend s u) := by
  unfold tend
  repeat' first
    | (with_reducible first
        | assumption | intro _ | apply keeps_ite | apply K.wr | apply down_keeps K | apply advance_keeps K
        | apply rerun_keeps K | apply trace_keeps K)
    | exact off_sub rfl hb | exact off_bit rfl hb | dsimp only | split

theorem twait_keeps (K : Keeps nb P) (s : State) (u w : Nat) (hb : Off
    0x10000000000000000000000809000000000000000000400000000000000131E80180400801FF000000000000000000000000000000000100000000000400000000000000000000000000000000000000000C00000000000000000000000000000000000000000000000000000000007C0000078001538C8000000003C00000000000000000000000000000000000000000000000000000000000000000000000000000000000000400C3C60000000002000000000000000200000000
    nb) (h : P s) : P (twait s u w) := by
  unfold twait
  repeat' first
    | (with_reducible first
        | assumption | intro _ | apply keeps_ite | apply K.wr | apply down_keeps K | apply up_keeps K
        | apply advance_keeps K | apply divideDone_keeps K | apply faultTask_keeps K | apply raiseIllegal_keeps K
        | apply rerun_keeps K | apply saveContext_keeps K | apply trace_keeps K)
    | exact off_sub rfl hb | exact off_bit rfl hb | dsimp only | split

theorem recoverTask_keeps (K : Keeps nb P) (s : State) (k : Nat) (hb : Off
    0x80000000000000000000000000000000000000000000000000000000000000000000000000000000000000000000000000000000000000000000000000000000000000000000000000
    nb) (h : P s) : P (recoverTask s k) := by
  unfold recoverTask
  repeat' first
    | (with_reducible first
        | assumption | intro _ | apply keeps_ite | apply K.wr)
    | exact off_sub rfl hb | exact off_bit rfl hb | dsimp only | split

theorem dispatchEnable_keeps (K : Keeps nb P) (s : State) (en : Bool) (hb : Off
    0x10000000000000000000000809000000000000000000400000000000000000C0018000000000000000000000000000000000000000000100000000000400000000000000000000000000000000000000000C00000000000000000000000000000000000000000000000000000000007C0000040001538C010000000000000000000000000000000000000000000000000000000000000000000000000000000000000000000000000003C60000000002000000000000000200000000
    nb) (h : P s) : P (dispatchEnable s en) := by
  unfold dispatchEnable
  repeat' first
    | (with_reducible first
        | assumption | intro _ | apply keeps_each | apply keeps_ite | apply wrb_keeps K | apply considerReady_keeps K)
    | exact off_sub rfl hb | exact off_bit rfl hb | dsimp only | split

theorem loadWindowEnd_keeps (K : Keeps nb P) (s : State) (c : Nat) (hb : Off
    0x3800000000000000000000000000000000000000000000000000000000000000000000000000000000000000000000000000000000000000000000000000000000000000000000000000000000000000000000000000003000000000000000000000000000000000000000000000000000000000000000000000000000000000000000000000000000000000000000000000000000000000000000000
    nb) (h : P s) : P (loadWindowEnd s c) := by
  unfold loadWindowEnd
  repeat' first
    | (with_reducible first
        | assumption | intro _ | apply keeps_ite | apply K.wr)
    | exact off_sub rfl hb | exact off_bit rfl hb | dsimp only | split

end
end Sys2Proof.Machine
end

