-- ==== Sys2Proof/Laws/KeepsLive.lean ====
section
/-!
SUPPORT. What each operation of Sys2Proof/Machine/Live.lean can change: its footprint (Sys2Proof/Laws/Keeps.lean).
-/
namespace Sys2Proof.Machine
set_option linter.all false
section
variable {P : State → Prop} {nb : Nat}

theorem liveReject_keeps (K : Keeps nb P) (s : State) (result : Nat) (hb : Off
    0x400000000000000000000000000000000000000000000000000000000000000000000000000000000000000000000000000000000000000000000000000000000000000000000000000000000000000000000000000000000000000000000000000000000000000000000000000000000000000000000000000000000000000000000000000000000000000000000000000000000000000000000000000000000600000000000000000000000000000000
    nb) (h : P s) : P (liveReject s result) := by
  unfold liveReject
  repeat' first
    | (with_reducible first
        | assumption | intro _ | apply K.setq | apply K.wr)
    | exact off_sub rfl hb | exact off_bit rfl hb | dsimp only | split

theorem liveGo_keeps (K : Keeps nb P) (s : State) (hb : Off
    0x40000000000000000000100000000000000000000000000000000000000000000000000000000000000000440000000000000000000000000000000000000000000000000000000000000000000000000000000000000040000000000000000000000000000000000000000000000000000000000000000000000000000000000000000000000000000000000000000000000000000000000000000000000000060F000000000000000000000000000000
    nb) (h : P s) : P (liveGo s) := by
  unfold liveGo
  repeat' first
    | (with_reducible first
        | assumption | intro _ | apply keeps_ite | apply K.setq | apply K.wr | apply bump_keeps K | apply crEnter_keeps K
        | apply liveReject_keeps K | apply reject_keeps K)
    | exact off_sub rfl hb | exact off_bit rfl hb | dsimp only | split

theorem crDrop_keeps (K : Keeps nb P) (s : State) (u : Nat) (hb : Off
    0x1000000000000000000000000000000000000000000000000000000000000000000000000000000000000000000000000000000000000000000000000000000000000000000000000000000000400000000000000000000000000000000000000000000000000000000000000000000000000000000000000000000000000000000000000000000000000000000000000000000000000000000000000000000000000000000000
    nb) (h : P s) : P (crDrop s u) := by
  unfold crDrop
  repeat' first
    | (with_reducible first
        | assumption | intro _ | apply K.wr | apply wrb_keeps K)
    | exact off_sub rfl hb | exact off_bit rfl hb | dsimp only | split

theorem liveCancel_keeps (K : Keeps nb P) (s : State) (hb : Off
    0x40000000000000000000100000000000000000000000000000000000000000000000000000000000000000000000000000000000000000000000000000000000000000000000000000000000000000000000000000000040000000000000000000000000000000000000000000000000000000000000000000000000000000000000000000000000000000000000000000000000000000000000000000000000060F000000000000000000000000000000
    nb) (h : P s) : P (liveCancel s) := by
  unfold liveCancel
  repeat' first
    | (with_reducible first
        | assumption | intro _ | apply keeps_ite | apply crDrop_keeps K | apply liveDiscard_keeps K)
    | exact off_sub rfl hb | exact off_bit rfl hb | dsimp only | split

theorem signatureNoted_keeps (K : Keeps nb P) (s : State) (r : ImgRes) (hb : Off
    0x80000000000000000000000000000000000000000000000000000000000000000000000000000000000000000000000000000000000000000000000000000000000000000000000000000000000000000000000000009000000000000000000000000000000000000000000000000000000000000000000000000000000000000000000000000000000000000000000000000000000000000000000000000000000000000000000000000000000000000
    nb) (h : P s) : P (signatureNoted s r) := by
  unfold signatureNoted
  repeat' first
    | (with_reducible first
        | assumption | intro _ | apply keeps_ite | apply K.wr | apply wrb_keeps K | apply logPush_keeps K)
    | exact off_sub rfl hb | exact off_bit rfl hb | dsimp only | split

theorem liveVerified_keeps (K : Keeps nb P) (s : State) (hb : Off
    0x1000000000000000000000480100000000000000001040000000000000000000000000000000000000000000000000000000000000000100000000000400000000000000000000000000000000000000000C00000000000000000000000000000009400000000000000000000000007C00000000000000000000000000000000000000000000000000000000000000000000000000000000000000000000000000000000000000000003C6060F000002000000000000000200000000
    nb) (h : P s) : P (liveVerified s) := by
  unfold liveVerified
  repeat' first
    | (with_reducible first
        | assumption | intro _ | apply keeps_ite | apply K.setq | apply K.wr | apply crLeave_keeps K | apply crRead_keeps K
        | apply liveReject_keeps K | apply reject_keeps K | apply rejectWith_keeps K | apply signatureNoted_keeps K)
    | exact off_sub rfl hb | exact off_bit rfl hb | dsimp only | split

theorem liveLoaded_keeps (K : Keeps nb P) (s : State) (hb : Off 0x200000000000000000000000000000000 nb) (h : P s) : P
    (liveLoaded s) := by
  unfold liveLoaded
  repeat' first
    | (with_reducible first
        | assumption | intro _ | apply keeps_ite | apply K.wr)
    | exact off_sub rfl hb | exact off_bit rfl hb | dsimp only | split

theorem liveTimeout_keeps (K : Keeps nb P) (s : State) (hb : Off
    0x40000000000000000000000000000000000000000000000000000000000000000000000000000000000000000000000000000000000000000000000000000000000000000000000000000000000000000000000000000000000000000000000000000000000000000000000000000000000000000000000000000000000000000000000000000000000000000000000000000000000000000000000000000000060F000000000000000000000000000000
    nb) (h : P s) : P (liveTimeout s) := by
  unfold liveTimeout
  repeat' first
    | (with_reducible first
        | assumption | intro _ | apply keeps_ite | apply liveDiscard_keeps K)
    | exact off_sub rfl hb | exact off_bit rfl hb | dsimp only | split

theorem liveSwitch_keeps (K : Keeps nb P) (s : State) (hb : Off fpAll nb) (h : P s) : P (liveSwitch s) := by
  unfold liveSwitch
  repeat' first
    | (with_reducible first
        | assumption | intro _ | apply keeps_each | apply keeps_when | apply K.setq | apply K.wr | apply bump_keeps K
        | apply up_keeps K | apply dequeue_keeps K | apply enqueue_keeps K | apply freshSlot_keeps K
        | apply keepEntry_keeps K | apply loadSection_keeps K | apply routesSettled_keeps K)
    | exact off_sub rfl hb | exact off_bit rfl hb | exact off_any (off_sub rfl hb) | dsimp only | split

theorem rowEnds_keeps (K : Keeps nb P) (s : State) (r : Nat) (hb : Off fpAll nb) (h : P s) : P (rowEnds s r) := by
  unfold rowEnds
  repeat' first
    | (with_reducible first
        | assumption | intro _ | apply keeps_when | apply keeps_ite | apply up_keeps K | apply leStartCopies_keeps K
        | apply leSwapAll_keeps K | apply liveSwitch_keeps K | apply rowBoundary_keeps K)
    | exact off_sub rfl hb | exact off_bit rfl hb | exact off_any (off_sub rfl hb) | dsimp only | split

end
end Sys2Proof.Machine
end

