-- ==== Sys2Proof/Laws/KeepsSuper.lean ====
section
/-!
SUPPORT. What each operation of Sys2Proof/Machine/Super.lean can change: its footprint (Sys2Proof/Laws/Keeps.lean).
-/
namespace Sys2Proof.Machine
set_option linter.all false
section
variable {P : State → Prop} {nb : Nat}

theorem copyThread_keeps (K : Keeps nb P) (s : State) (a b : Nat) (hb : Off fpRegs nb) (h : P s) : P (copyThread s a b) :=
    by
  unfold copyThread
  repeat' first
    | (with_reducible first
        | assumption | intro _ | apply keeps_foldl | apply keeps_fold1 | apply keeps_fold2 | apply keeps_each | apply K.wr
        | (apply keeps_fst; assumption) | (apply keeps_snd; assumption))
    | exact off_sub rfl hb | exact off_bit rfl hb | exact off_any (off_sub rfl hb) | dsimp only | split

theorem movePending_keeps (K : Keeps nb P) (s : State) (a b : Nat) (hb : Off fpRegs nb) (h : P s) : P (movePending s a b)
    := by
  unfold movePending
  repeat' first
    | (with_reducible first
        | assumption | intro _ | apply keeps_foldl | apply keeps_fold1 | apply keeps_fold2 | apply K.wr)
    | exact off_sub rfl hb | exact off_bit rfl hb | exact off_any (off_sub rfl hb) | dsimp only | split

theorem clearPending_keeps (K : Keeps nb P) (s : State) (u : Nat) (hb : Off
    0x4C400000000000000000000000000000000000000000000000000000000000000000000000000000000000000000000000000000000000000000000000000000000000000000000000000000000000000000000000000000000000000000000000000000000000000000000000000000000000000000000000000000000000000000000000000000000000000000000000000000000000000000000
    nb) (h : P s) : P (clearPending s u) := by
  unfold clearPending
  repeat' first
    | (with_reducible first
        | assumption | intro _ | apply down_keeps K)
    | exact off_sub rfl hb | exact off_bit rfl hb | dsimp only | split

theorem moveStores_keeps (K : Keeps nb P) (s : State) (a b : Nat) (hb : Off 0 nb) (h : P s) : P (moveStores s a b) := by
  unfold moveStores
  repeat' first
    | (with_reducible first
        | assumption | intro _ | apply keeps_ite | apply parts_of K)
    | exact off_sub rfl hb | exact off_bit rfl hb | dsimp only | split | simp only [parts_mk K]

theorem newWindow_keeps (K : Keeps nb P) (s : State) (hb : Off
    0x40F000000000000000000000000000000000000000000000000000000000000000000000000000000000000000000000000000000000000000000000000000000000000000000000000000000000000000000000000000000000000000000000000000000000000000000000000000000000000000000000000000000000000000000000000000000000000000000000000000000000000000000000000000
    nb) (h : P s) : P (newWindow s) := by
  unfold newWindow
  repeat' first
    | (with_reducible first
        | assumption | intro _ | apply K.wr)
    | exact off_sub rfl hb | exact off_bit rfl hb | dsimp only | split

theorem reseed_keeps (K : Keeps nb P) (s : State) (hb : Off
    0x40000000000000000000000000000000000000000000000000000000000000000000000000000000000000000000000000000000000000000000000000000000000000000000000000000000000000
    nb) (h : P s) : P (reseed s) := by
  unfold reseed
  repeat' first
    | (with_reducible first
        | assumption | intro _ | apply up_keeps K)
    | exact off_sub rfl hb | exact off_bit rfl hb | dsimp only | split

theorem react_keeps (K : Keeps nb P) (s : State) (hb : Off
    0x300000000000000000000140010000000000001C20000000000000000000000000000000000000005A000066E000000001C3DF80010001000850000004F80000000000000000000000000000000100080000000000000000000000000000000000000000000000000000000000400000000000000000000000000000000000100000143C0020000000000000000000280000200400000000800000000000000000000000000000100003C6060F0000020E06000802000002000C6380
    nb) (h : P s) : P (react s) := by
  unfold react
  repeat' first
    | (with_reducible first
        | assumption | intro _ | apply bindOff_keeps K | apply cDieLoss_keeps K | apply reseed_keeps K)
    | exact off_sub rfl hb | exact off_bit rfl hb | dsimp only | split

theorem captureSigs_keeps (K : Keeps nb P) (s : State) (class_ : Nat) (hb : Off
    0x3C100000000000000000000000000000000000000000000000000000000000000000000000000000000000000000000000000000000000000000000000000000000000000000000000000000000000000
    nb) (h : P s) : P (captureSigs s class_) := by
  unfold captureSigs
  repeat' first
    | (with_reducible first
        | assumption | intro _ | apply K.wr)
    | exact off_sub rfl hb | exact off_bit rfl hb | dsimp only | split

theorem diverged_keeps (K : Keeps nb P) (s : State) (hb : Off
    0x300000000000000000000140010000000000001C20000000000000000040F00000000000000000005A000066E000000001C3DF80010001000850000004F8000000000000000000000000000000010008000000000000000000000000000000000000000000000000000000ABC5400000000000000000000000000000000000100000143C0020000000000000000000280000200400000000800000000000000000000000000000100003C6060F0004020E06000802000002000C6380
    nb) (h : P s) : P (diverged s) := by
  unfold diverged
  repeat' first
    | (with_reducible first
        | assumption | intro _ | apply keeps_ite | apply bump_keeps K | apply post_keeps K | apply up_keeps K
        | apply captureSigs_keeps K | apply newWindow_keeps K | apply react_keeps K | apply reseed_keeps K
        | apply spCount_keeps K)
    | exact off_sub rfl hb | exact off_bit rfl hb | dsimp only | split

theorem mismatched_keeps (K : Keeps nb P) (s : State) (hb : Off
    0x300000000000000000000140010000000000001C20000000000000000040F00000000000000000005A000066E000000001C3DF80010001000850000004F800000000000000000000000000000001000800000000000000000000000000000000000000000000000000000013C3400000000000000000000000000000000000100000143C0020000000000000000000280000200400000000800000000000000000000000000000100003C6060F0004022E06000802000002000C6380
    nb) (h : P s) : P (mismatched s) := by
  unfold mismatched
  repeat' first
    | (with_reducible first
        | assumption | intro _ | apply bump_keeps K | apply post_keeps K | apply up_keeps K | apply captureSigs_keeps K
        | apply newWindow_keeps K | apply react_keeps K | apply spCount_keeps K)
    | exact off_sub rfl hb | exact off_bit rfl hb | dsimp only | split

theorem classify_keeps (K : Keeps nb P) (s : State) (hb : Off
    0x300000000000000000000140010000000000001C20000000000000000040F00000000000000000005A000066E000000001C3DF80010001000850000004F8000000000000000000000000000000010008000000000000000000000000000000000000000000000000000000BFC7400000000000000000000000000000000000100000143C0020000000000000000000280000200400000000800000000000000000000000000000100003C6060F0004022E06000802000002000C6380
    nb) (h : P s) : P (classify s) := by
  unfold classify
  repeat' first
    | (with_reducible first
        | assumption | intro _ | apply bump_keeps K | apply diverged_keeps K | apply mismatched_keeps K
        | apply newWindow_keeps K)
    | exact off_sub rfl hb | exact off_bit rfl hb | dsimp only | split

theorem windowEnd_keeps (K : Keeps nb P) (s : State) (hb : Off
    0x300000000000000000000140010000000000001C20000000000000000040F00000000000000000005A000066E000000001C3DF80010001000850000004F8000000000000000000000000000000010008000000000000000000000000000000000000000000000000000000BFC7400000000000000000000000000000000000100000143C0020000000000000000000280000200400000000800000000000000000000000000000100003C6060F0004022E06000802000002000C6380
    nb) (h : P s) : P (windowEnd s) := by
  unfold windowEnd
  repeat' first
    | (with_reducible first
        | assumption | intro _ | apply keeps_ite | apply classify_keeps K)
    | exact off_sub rfl hb | exact off_bit rfl hb | dsimp only | split

theorem hingeRefuse_keeps (K : Keeps nb P) (s : State) (code : Nat) (hb : Off
    0x100000000000000000000000000000000000000000000000000000000000000000000000000000000000000000000000400000000000000000000000000000000000000000000000000000000000000000000000000000000000000000000001080000000000000000000000000000000000000000000000000000000000000000000000000000000000000000000000000000000000000000000000000000000000000000000000000000000000000
    nb) (h : P s) : P (hingeRefuse s code) := by
  unfold hingeRefuse
  repeat' first
    | (with_reducible first
        | assumption | intro _ | apply K.wr | apply post_keeps K | apply up_keeps K)
    | exact off_sub rfl hb | exact off_bit rfl hb | dsimp only | split

theorem hingeTake_keeps (K : Keeps nb P) (s : State) (rejoin : Bool) (hb : Off
    0x1000000000000000000000000000000001C00000000000000000000000000000000000000000000000000000000000004000000000000000000000000000000000000000000000000000000000000000000000000000000000000000000000010A0000000000000000000000000000000000000000000000000000000000000000000000000000000000000000000000000000000000000000000000000000000000000000000000000000000000000
    nb) (h : P s) : P (hingeTake s rejoin) := by
  unfold hingeTake
  repeat' first
    | (with_reducible first
        | assumption | intro _ | apply keeps_ite | apply K.wr | apply hingeRefuse_keeps K)
    | exact off_sub rfl hb | exact off_bit rfl hb | dsimp only | split

theorem hingeRequest_keeps (K : Keeps nb P) (s : State) (rejoin : Bool) (hb : Off
    0x300000000000000000000140010000000000001C2000000000000000005CF00000000000000000005A000066E000000001C3DF80010001000850000004F8000000000000000000000000000000010008000000000000000000000000000000000000000000000000000000BFD7E00000000000000000000000000000000000100000143C0020000000000000000000280000200400000000800000000000000000000000000000100003C6060F0004022E06000802000002000C6380
    nb) (h : P s) : P (hingeRequest s rejoin) := by
  unfold hingeRequest
  repeat' first
    | (with_reducible first
        | assumption | intro _ | apply keeps_ite | apply hingeTake_keeps K | apply windowEnd_keeps K)
    | exact off_sub rfl hb | exact off_bit rfl hb | dsimp only | split

theorem heldHinges_keeps (K : Keeps nb P) (s : State) (hb : Off
    0x1000000000000000000000000000000001C00000000000000000000000000000000000000000000000000000000000004000000000000000000000000000000000000000000000000000000000000000000000000000000000000000000000010A0000000000000000000000000000000000000000000000000000000000000000000000000000000000000000000000000000000000000000000000000000000000000000000000000000000000000
    nb) (h : P s) : P (heldHinges s) := by
  unfold heldHinges
  repeat' first
    | (with_reducible first
        | assumption | intro _ | apply keeps_when | apply K.wr | apply hingeTake_keeps K)
    | exact off_sub rfl hb | exact off_bit rfl hb | dsimp only | split

theorem reseedDone_keeps (K : Keeps nb P) (s : State) (hb : Off fpRegs nb) (h : P s) : P (reseedDone s) := by
  unfold reseedDone
  repeat' first
    | (with_reducible first
        | assumption | intro _ | apply keeps_foldl | apply keeps_fold1 | apply keeps_fold2 | apply keeps_ite | apply K.wr
        | apply down_keeps K | apply clearPending_keeps K | apply copyThread_keeps K | apply heldHinges_keeps K)
    | exact off_sub rfl hb | exact off_bit rfl hb | exact off_any (off_sub rfl hb) | dsimp only | split

theorem hingeDone_keeps (K : Keeps nb P) (s : State) (m : Nat) (hb : Off
    0x100000000000000000000000000000000240000000000000000000000000000000000000000000000000000000000000400000000000000000000000000000000000000000000000000000000000000000000000000000000000000000000400820000000000000000000000000000000000000000000000000000000000000000000000000000000000000000000000000000000000000000000000000000000000000000000000000000000000000
    nb) (h : P s) : P (hingeDone s m) := by
  unfold hingeDone
  repeat' first
    | (with_reducible first
        | assumption | intro _ | apply K.wr | apply bump_keeps K | apply down_keeps K | apply post_keeps K
        | apply up_keeps K)
    | exact off_sub rfl hb | exact off_bit rfl hb | dsimp only | split

theorem splitNow_keeps (K : Keeps nb P) (s : State) (hb : Off fpRegs nb) (h : P s) : P (splitNow s) := by
  unfold splitNow
  repeat' first
    | (with_reducible first
        | assumption | intro _ | apply keeps_foldl | apply keeps_fold1 | apply keeps_fold2 | apply K.wr
        | apply hingeDone_keeps K | apply movePending_keeps K | apply moveStores_keeps K | apply newWindow_keeps K
        | (apply keeps_fst; assumption) | (apply keeps_snd; assumption))
    | exact off_sub rfl hb | exact off_bit rfl hb | exact off_any (off_sub rfl hb) | dsimp only | split

theorem splitHinge_keeps (K : Keeps nb P) (s : State) (hb : Off fpAll nb) (h : P s) : P (splitHinge s) := by
  unfold splitHinge
  repeat' first
    | (with_reducible first
        | assumption | intro _ | apply keeps_ite | apply K.wr | apply bump_keeps K | apply up_keeps K
        | apply diverged_keeps K | apply hingeRefuse_keeps K | apply mismatched_keeps K | apply splitNow_keeps K)
    | exact off_sub rfl hb | exact off_bit rfl hb | exact off_any (off_sub rfl hb) | dsimp only | split

theorem rejoinHinge_keeps (K : Keeps nb P) (s : State) (hb : Off fpRegs nb) (h : P s) : P (rejoinHinge s) := by
  unfold rejoinHinge
  repeat' first
    | (with_reducible first
        | assumption | intro _ | apply keeps_foldl | apply keeps_fold1 | apply keeps_fold2 | apply keeps_ite | apply K.wr
        | apply clearPending_keeps K | apply copyThread_keeps K | apply hingeDone_keeps K | apply movePending_keeps K
        | apply newWindow_keeps K | (apply keeps_fst; assumption) | (apply keeps_snd; assumption))
    | exact off_sub rfl hb | exact off_bit rfl hb | exact off_any (off_sub rfl hb) | dsimp only | split

theorem degrade_keeps (K : Keeps nb P) (s : State) (hb : Off
    0x1000000000000000000000000000000003C00000000000000000000000000000000000000000000000000000000000004000000000000000000000000000000000000000000000000000000000000000000000000000000000000000000000030E0000000000000000000000000000000000000000000000000000000000000000000000000000000000000000000000000000000000000000000000000000000000000000000000000000000000000
    nb) (h : P s) : P (degrade s) := by
  unfold degrade
  repeat' first
    | (with_reducible first
        | assumption | intro _ | apply K.wr | apply down_keeps K | apply post_keeps K | apply up_keeps K
        | apply heldHinges_keeps K)
    | exact off_sub rfl hb | exact off_bit rfl hb | dsimp only | split

theorem degradeRequest_keeps (K : Keeps nb P) (s : State) (hb : Off
    0x1000000000000000000000000000000003C00000000000000000000000000000000000000000000000000000000000004000000000000000000000000000000000000000000000000000000000000000000000000000000000000000000000030E0000000000000000000000000000000000000000000000000000000000000000000000000000000000000000000000000000000000000000000000000000000000000000000000000000000000000
    nb) (h : P s) : P (degradeRequest s) := by
  unfold degradeRequest
  repeat' first
    | (with_reducible first
        | assumption | intro _ | apply degrade_keeps K | apply hingeRefuse_keeps K)
    | exact off_sub rfl hb | exact off_bit rfl hb | dsimp only | split

theorem rejoinOff_keeps (K : Keeps nb P) (s : State) (hb : Off
    0x40000000000000000000000000000000000000000000000000000000000000000000000000000000000000000000000000000000000000000000000000000000000000000000000000000000000000020000000000000000000000000000000000000000000000000000000000000000000000000000000000000000000000000000000000000000000000000000000000000000000000000000000000000
    nb) (h : P s) : P (rejoinOff s) := by
  unfold rejoinOff
  repeat' first
    | (with_reducible first
        | assumption | intro _ | apply keeps_ite | apply K.wr)
    | exact off_sub rfl hb | exact off_bit rfl hb | dsimp only | split

theorem checkerGone_keeps (K : Keeps nb P) (s : State) (hb : Off
    0x10000000000000000000000801000000000000000000400000000000003C0100000000080001000000000000000000000000000000000100000000000400000000000000000000000000000000000000000C000000000000000000000000000000000000000000000000000030E0007C00000380015380000000000000000000000000000000000000000000000000000000000000000000000000000000000000000000000000000003C60000000002000000000000000200000000
    nb) (h : P s) : P (checkerGone s) := by
  unfold checkerGone
  repeat' first
    | (with_reducible first
        | assumption | intro _ | apply keeps_foldl | apply keeps_fold1 | apply keeps_fold2 | apply keeps_ite | apply K.wr
        | apply down_keeps K | apply degrade_keeps K | apply faultTask_keeps K | apply moveStores_keeps K
        | apply rejoinOff_keeps K | apply parts_of K | apply parts_regs K | apply parts_queues K | apply parts_mem K
        | apply parts_bad K | (apply keeps_fst; assumption) | (apply keeps_snd; assumption))
    | exact off_sub rfl hb | exact off_bit rfl hb | dsimp only | split | simp only [parts_mk K]

theorem rateInterval_keeps (K : Keeps nb P) (s : State) (hb : Off
    0x800000000000000000000000000000000000000000000000000000000000000000000000000000000000000000000000000000000000000000000000000000000000000000000000000000000000800000000000000000000000000000000000000000000000000000000000000000000000000000000000000000000000000000000000000000000000000000000000000000000000000000000000000000
    nb) (h : P s) : P (rateInterval s) := by
  unfold rateInterval
  repeat' first
    | (with_reducible first
        | assumption | intro _ | apply keeps_ite | apply K.wr)
    | exact off_sub rfl hb | exact off_bit rfl hb | dsimp only | split

theorem senseChange_keeps (K : Keeps nb P) (s : State) (n copy : Nat) (level : Bool) (hb : Off
    0xC00000000000000000000000000000000000000000000000000000000000000000000000000000000000000000000000000000000000000000000000000000000000000000000000000000000000000000000000000000000000000000000000000000000000000000000000000000000000000000000000000000000000000000000000000000000000000000000000000000000000000000000000000
    nb) (h : P s) : P (senseChange s n copy level) := by
  unfold senseChange
  repeat' first
    | (with_reducible first
        | assumption | intro _ | apply keeps_ite | apply K.wr)
    | exact off_sub rfl hb | exact off_bit rfl hb | dsimp only | split

theorem debugWrite_keeps (K : Keeps nb P) (s : State) (u kind v : Nat) (hb : Off
    0x103BFE000000000000000000000000000000000000000000000000000000000000000000000000000000000000000000000000000000000000000000000000000000000000000000000000000000000000000000000000000000000000000000000000000000000000000000000000000000000000000000000000000000000000000000000000000000000000000000000000000000000000
    nb) (h : P s) : P (debugWrite s u kind v) := by
  unfold debugWrite
  repeat' first
    | (with_reducible first
        | assumption | intro _ | apply keeps_ite | apply K.wr | apply down_keeps K | apply sysWrite_keeps K)
    | exact off_sub rfl hb | exact off_bit rfl hb | dsimp only | split

theorem replayApply_keeps (K : Keeps nb P) (s : State) (hb : Off
    0x40000000000000000000000000000000000000000000000103BFE000000000000000000000000000000000000000000000000000000000000000000000000000000000000000000000000000000000000000000000000000000000000000000000000000000000000000000000000000000000000000000000000000000000000000000000000000000000000000000000000000000000000000000000000000000000000000000000000000000000000
    nb) (h : P s) : P (replayApply s) := by
  unfold replayApply
  repeat' first
    | (with_reducible first
        | assumption | intro _ | apply K.setq | apply debugWrite_keeps K)
    | exact off_sub rfl hb | exact off_bit rfl hb | dsimp only | split

end
end Sys2Proof.Machine
end

