-- ==== Sys2Proof/Laws/KeepsDma.lean ====
section
/-!
SUPPORT. What each operation of Sys2Proof/Machine/Dma.lean can change: its footprint (Sys2Proof/Laws/Keeps.lean).
-/
namespace Sys2Proof.Machine
set_option linter.all false
section
variable {P : State → Prop} {nb : Nat}

theorem dcRing_keeps (K : Keeps nb P) (s : State) (n : Nat) (hb : Off
    0x60000000000000000000000000000000000000000000000000000000000000000000000000000000000000000000000000000000000000000000000000000000000000000000000000000000000000000000000
    nb) (h : P s) : P (dcRing s n) := by
  unfold dcRing
  repeat' first
    | (with_reducible first
        | assumption | intro _ | apply keeps_ite | apply K.wr | apply up_keeps K)
    | exact off_sub rfl hb | exact off_bit rfl hb | dsimp only | split

theorem dcStop_keeps (K : Keeps nb P) (s : State) (n : Nat) (hb : Off
    0x400000000000000000000000000000000000000000000000000000000000000000000000000000000000000000000000000000000000000000000000000000000000000000000000000000000000000000000000000000000000000000000000000000000000000000000000000000000000000000000000000000000000000000000000000000000000000000000000000000000000000000000000000000000
    nb) (h : P s) : P (dcStop s n) := by
  unfold dcStop
  repeat' first
    | (with_reducible first
        | assumption | intro _ | apply keeps_ite | apply up_keeps K)
    | exact off_sub rfl hb | exact off_bit rfl hb | dsimp only | split

theorem dcStopped_keeps (K : Keeps nb P) (s : State) (n : Nat) (hb : Off
    0x400000000000000000000000000000000000000000000000000000000000000000000000000000000000000000000000000000000000000000000000000000000000000000000000000000000220000000000000000000000000000000000000000000000000000000000000000000000000000000000000000000000000000000000000000000000000000000000000000000000000000000000000000000000
    nb) (h : P s) : P (dcStopped s n) := by
  unfold dcStopped
  repeat' first
    | (with_reducible first
        | assumption | intro _ | apply keeps_ite | apply K.wr | apply down_keeps K)
    | exact off_sub rfl hb | exact off_bit rfl hb | dsimp only | split

theorem dcClear_keeps (K : Keeps nb P) (s : State) (n : Nat) (hb : Off
    0x2000000000000000000000000000000000200000000000000000000000000000000000000000000000000000000000000000000000000000000000000000000000000000000000000000000000000000000000000000000000000000000020040000000000000000000000000000000000000000000000000000000000000000000000000000000000000000000000000000000000000000000000000000000000000000000000000000000000000000000
    nb) (h : P s) : P (dcClear s n) := by
  unfold dcClear
  repeat' first
    | (with_reducible first
        | assumption | intro _ | apply keeps_ite | apply K.setq | apply K.wr | apply down_keeps K)
    | exact off_sub rfl hb | exact off_bit rfl hb | dsimp only | split

theorem dcCfgChanged_keeps (K : Keeps nb P) (s : State) (n : Nat) (was : Bool) (hb : Off
    0x400000000000000000000000000000000000000000000000000000000000000000000000000000000000000000000000000000000000000000000000000000000000000000000000000000000000000000000000000000000000000000000000000000000000000000000000000000000000000000000000000000000000000000000000000000000000000000000000000000000000000000000000000000000
    nb) (h : P s) : P (dcCfgChanged s n was) := by
  unfold dcCfgChanged
  repeat' first
    | (with_reducible first
        | assumption | intro _ | apply keeps_ite | apply dcStop_keeps K)
    | exact off_sub rfl hb | exact off_bit rfl hb | dsimp only | split

theorem dcRingMoved_keeps (K : Keeps nb P) (s : State) (n : Nat) (hb : Off
    0x20000000000000000000000000000000000000000000000000000000000000000000000000000000000000000000000000000000000000000000000000000000000000000000000000000000000000000000000
    nb) (h : P s) : P (dcRingMoved s n) := by
  unfold dcRingMoved
  repeat' first
    | (with_reducible first
        | assumption | intro _ | apply keeps_ite | apply K.wr)
    | exact off_sub rfl hb | exact off_bit rfl hb | dsimp only | split

theorem dcHalt_keeps (K : Keeps nb P) (s : State) (n addr dir resp phase : Nat) (hb : Off
    0x100000000000000000000000000000400000000000000000000000000000000000000000000000000000000000000000400000000000000000000000000000000000000000000000000000000000000000000000000000000000003E20040000000000000000000000000000000000000000000000000000000000000000000000000000000000000000000000000000000000000000000000000000000000000000000000000000000000000000000
    nb) (h : P s) : P (dcHalt s n addr dir resp phase) := by
  unfold dcHalt
  repeat' first
    | (with_reducible first
        | assumption | intro _ | apply K.wr | apply down_keeps K | apply post_keeps K)
    | exact off_sub rfl hb | exact off_bit rfl hb | dsimp only | split

theorem dcFetched_keeps (K : Keeps nb P) (s : State) (n v : Nat) (hb : Off
    0x20000000000000000000000000000000003FF0000000000000000000000000000000000000000000000000000000000000000000000000000000000000000000000000000000000000000000000000000000000000000000000000000001E0000000000000000000000000000000000000000000000000000000000000000000000000000000000000000000000000000000000000000000000000000000000000000000000000000000000000000000000
    nb) (h : P s) : P (dcFetched s n v) := by
  unfold dcFetched
  repeat' first
    | (with_reducible first
        | assumption | intro _ | apply keeps_ite | apply K.setq | apply K.wr | apply down_keeps K)
    | exact off_sub rfl hb | exact off_bit rfl hb | dsimp only | split

theorem paceServed_keeps (K : Keeps nb P) (s : State) (r : Nat) (hb : Off
    0x800000000000000000000000000000000000000800000000000000000000000000000000000000000000000000000000000000000000000000000000000000000000000000000000000000000000000000000000000000000000000000000000000000000000000000000000000000000000000000000000000000000000000000000000000000000000000000000000000000000000000000000000000000000
    nb) (h : P s) : P (paceServed s r) := by
  unfold paceServed
  repeat' first
    | (with_reducible first
        | assumption | intro _ | apply keeps_ite | apply down_keeps K)
    | exact off_sub rfl hb | exact off_bit rfl hb | dsimp only | split

theorem paceDone_keeps (K : Keeps nb P) (s : State) (n : Nat) (hb : Off
    0x800000000000000000000000000000000000000800000000000000000000000000000000000000000000000000000000000000000000000000000000000000000000000000000000000000000000000000000000000000000000000000000000000000000000000000000000000000000000000000000000000000000000000000000000000000000000000000000000000000000000000000000000000000000
    nb) (h : P s) : P (paceDone s n) := by
  unfold paceDone
  repeat' first
    | (with_reducible first
        | assumption | intro _ | apply keeps_ite | apply paceServed_keeps K)
    | exact off_sub rfl hb | exact off_bit rfl hb | dsimp only | split

theorem paceBegin_keeps (K : Keeps nb P) (s : State) (n : Nat) (asked : Bool) (hb : Off
    0x900000000000000000000000000000000000000800000000000000000000000000000000000000000000000000000000000000000000000000000000000000000000000000000000000000000000000000000000000000000000000000000000000000000000000000000000000000000000000000000000000000000000000000000000000000000000000000000000000000000000000000000000000000000
    nb) (h : P s) : P (paceBegin s n asked) := by
  unfold paceBegin
  repeat' first
    | (with_reducible first
        | assumption | intro _ | apply keeps_ite | apply K.wr | apply paceDone_keeps K)
    | exact off_sub rfl hb | exact off_bit rfl hb | dsimp only | split

theorem dmaDrain_keeps (K : Keeps nb P) (s : State) (d : Nat) (hb : Off
    0x400000000000000000000000000000000000000000000000000000000000000000000000000000000000000000000000000000000000000000000000000000000000000000000000000000000000000000000000000000000000000000000000000000000000000000000000000000000000000000000000000000000000000000000000000000000000000000000000000000000000000000000000000000000
    nb) (h : P s) : P (dmaDrain s d) := by
  unfold dmaDrain
  repeat' first
    | (with_reducible first
        | assumption | intro _ | apply keeps_foldl | apply keeps_fold1 | apply keeps_fold2 | apply keeps_ite
        | apply dcStop_keeps K)
    | exact off_sub rfl hb | exact off_bit rfl hb | dsimp only | split

end
end Sys2Proof.Machine
end

