-- ==== Sys2Proof/Laws/KeepsCvu.lean ====
section
/-!
SUPPORT. What each operation of Sys2Proof/Machine/Cvu.lean can change: its footprint (Sys2Proof/Laws/Keeps.lean).
-/
namespace Sys2Proof.Machine
set_option linter.all false
section
variable {P : State → Prop} {nb : Nat}

theorem cxFold_keeps (K : Keeps nb P) (s : State) (x : Nat) (l : List Byte) (hb : Off
    0x80000000000000000000000000000000000000000000000000000000000000000000000000000000000000000000000000000000000000000000000000000000000000000000000000000000000000000000000000000000
    nb) (h : P s) : P (cxFold s x l) := by
  unfold cxFold
  repeat' first
    | (with_reducible first
        | assumption | intro _ | apply K.wr)
    | exact off_sub rfl hb | exact off_bit rfl hb | dsimp only | split

theorem cxInit_keeps (K : Keeps nb P) (s : State) (x : Nat) (hb : Off
    0x80000000000000000000000000000000000000000000000000000000000000000000000000000000000000000000000000000000000000000000000000000000000000000000000000000000000000000000000000000000
    nb) (h : P s) : P (cxInit s x) := by
  unfold cxInit
  repeat' first
    | (with_reducible first
        | assumption | intro _ | apply K.wr)
    | exact off_sub rfl hb | exact off_bit rfl hb | dsimp only | split

theorem cxEvent_keeps (K : Keeps nb P) (s : State) (x : Nat) (hb : Off
    0x100000000000000000000000000000000000000000000000000000000000000000000000000000000000000000000000400000000000000000000000000000000000000000000000000000000000000000000000000000000000000000000000000000000000000000000000000000000000000000000000000000000000000000000000000000000000000000000000000000000000000000000000000000000000000000000000000000000000000
    nb) (h : P s) : P (cxEvent s x) := by
  unfold cxEvent
  repeat' first
    | (with_reducible first
        | assumption | intro _ | apply postIf_keeps K)
    | exact off_sub rfl hb | exact off_bit rfl hb | dsimp only | split

theorem cxBegin_keeps (K : Keeps nb P) (s : State) (x : Nat) (hb : Off
    0x80380000000000000000000000000000000000000000000000000000000000000000000000000000000000000000000000000000000000000000000000000000000000000000000000000000000000000000000000000000
    nb) (h : P s) : P (cxBegin s x) := by
  unfold cxBegin
  repeat' first
    | (with_reducible first
        | assumption | intro _ | apply down_keeps K | apply cxInit_keeps K)
    | exact off_sub rfl hb | exact off_bit rfl hb | dsimp only | split

theorem cxPassStart_keeps (K : Keeps nb P) (s : State) (x : Nat) (hb : Off
    0x80000000000000000000000000000000000000000000000000000000000000000000000000000000000000000000000000000000000000000000000000000000000000000000000000803C0000000000000000000000000000000000000000000000000000000000000000000000000000000000000000000000000000000000000000000000000000000000000000000000000000000000000000000000000000
    nb) (h : P s) : P (cxPassStart s x) := by
  unfold cxPassStart
  repeat' first
    | (with_reducible first
        | assumption | intro _ | apply up_keeps K | apply cxBegin_keeps K)
    | exact off_sub rfl hb | exact off_bit rfl hb | dsimp only | split

theorem cxStart_keeps (K : Keeps nb P) (s : State) (x : Nat) (hb : Off
    0x80000000000000000000000000000000000000000000000000000000000000000000000000000000000000000000000000000000000000000000000000000000000000000000000000803C0000000000000000000000000000000000000000000000000000000000000000000000000000000000000000000000000000000000000000000000000000000000000000000000000000000000000000000000000000
    nb) (h : P s) : P (cxStart s x) := by
  unfold cxStart
  repeat' first
    | (with_reducible first
        | assumption | intro _ | apply keeps_ite | apply cxBegin_keeps K | apply cxPassStart_keeps K)
    | exact off_sub rfl hb | exact off_bit rfl hb | dsimp only | split

theorem cxCompare_keeps (K : Keeps nb P) (s : State) (x : Nat) (hb : Off
    0x100000000000000000000000000000000000000000000000000000000000000000000000000000000000000000000000400000000000000000000000000000000000000000000000000000000000000000000000000000000300000000000000000000000000000000000000000000000000000000000000000000000000000000000000000000000000000000000000000000000000000000000000000000000000000000000000000000000000000
    nb) (h : P s) : P (cxCompare s x) := by
  unfold cxCompare
  repeat' first
    | (with_reducible first
        | assumption | intro _ | apply keeps_ite | apply up_keeps K | apply cxEvent_keeps K)
    | exact off_sub rfl hb | exact off_bit rfl hb | dsimp only | split

theorem cxFinish_keeps (K : Keeps nb P) (s : State) (x : Nat) (hb : Off
    0x100000000000000000000000000000000000000000000000000000000000000000000000000000000000000000000000400000000000000000000000000000000000000000000000000000000000000000000000000000100380000000000000000000000000000000000000000000000000000000000000000000000000000000000000000000000000000000000000000000000000000000000000000000000000000000000000000000000000000
    nb) (h : P s) : P (cxFinish s x) := by
  unfold cxFinish
  repeat' first
    | (with_reducible first
        | assumption | intro _ | apply keeps_ite | apply K.wr | apply up_keeps K | apply cxCompare_keeps K)
    | exact off_sub rfl hb | exact off_bit rfl hb | dsimp only | split

theorem cxPreset_keeps (K : Keeps nb P) (s : State) (x code : Nat) (hb : Off
    0xF0013800000000000000000000000000000000000000000000000000000000000000000000000000000000000000000000000000000000000000000000000000000000000000000000000000000000000000000000000000
    nb) (h : P s) : P (cxPreset s x code) := by
  unfold cxPreset
  repeat' first
    | (with_reducible first
        | assumption | intro _ | apply K.wr | apply wrb_keeps K | (apply keeps_fst; assumption)
        | (apply keeps_snd; assumption))
    | exact off_sub rfl hb | exact off_bit rfl hb | dsimp only | split

theorem cxFrameStart_keeps (K : Keeps nb P) (s : State) (x : Nat) (hb : Off
    0x4000000000000000000000000000000000000000000000000000000000000000000000000000000000000000000000000000000000000000000000000000000000000000000000000081000000000000000000000000000000000000000000000000000000000000000000000000000000000000000000000000000000000000000000000000000000000000000000000000000000000000000000000000000000
    nb) (h : P s) : P (cxFrameStart s x) := by
  unfold cxFrameStart
  repeat' first
    | (with_reducible first
        | assumption | intro _ | apply up_keeps K | apply cxInit_keeps K)
    | exact off_sub rfl hb | exact off_bit rfl hb | dsimp only | split

theorem cxAppend_keeps (K : Keeps nb P) (s : State) (x : Nat) (covered : List Byte) (hb : Off
    0x64000000000000000000000000000000000000000000000000000000000000000000000000000000000000000000000000000000000000000000000000000000000000000000000000181000000000000000000000000000000000000000000000000000000000000000000000000000000000000000000000000000000000000000000000000000000000000000000000000000000000000000000000000000000
    nb) (h : P s) : P (cxAppend s x covered) := by
  unfold cxAppend
  repeat' first
    | (with_reducible first
        | assumption | intro _ | apply keeps_ite | apply K.wr | apply down_keeps K | apply cxFold_keeps K)
    | exact off_sub rfl hb | exact off_bit rfl hb | dsimp only | split

theorem cxStrip_keeps (K : Keeps nb P) (s : State) (x : Nat) (frame : List Byte) (hb : Off
    0x100000000000000000000000000014000000000000000000000000000000000000000000000000000000000000000000400000000000000000000000000000000000000000000000000000000000000000000000000006181200000000000000000000000000000000000000000000000000000000000000000000000000000000000000000000000000000000000000000000000000000000000000000000000000000000000000000000000000000
    nb) (h : P s) : P (cxStrip s x frame).1 := by
  unfold cxStrip
  repeat' first
    | (with_reducible first
        | assumption | intro _ | apply keeps_ite | apply K.wr | apply bump_keeps K | apply down_keeps K | apply up_keeps K
        | apply cxEvent_keeps K | apply cxFold_keeps K | (apply keeps_fst; assumption) | (apply keeps_snd; assumption))
    | exact off_sub rfl hb | exact off_bit rfl hb | dsimp only | split

end
end Sys2Proof.Machine
end

