-- ==== Sys2Proof/Laws/KeepsPorts.lean ====
section
/-!
SUPPORT. What each operation of Sys2Proof/Machine/Ports.lean can change: its footprint (Sys2Proof/Laws/Keeps.lean).
-/
namespace Sys2Proof.Machine
set_option linter.all false
section
variable {P : State → Prop} {nb : Nat}

theorem postOpt_keeps (K : Keeps nb P) (s : State) (c : Bool) (e : Option Nat) (hb : Off
    0x100000000000000000000000000000000000000000000000000000000000000000000000000000000000000000000000400000000000000000000000000000000000000000000000000000000000000000000000000000000000000000000000000000000000000000000000000000000000000000000000000000000000000000000000000000000000000000000000000000000000000000000000000000000000000000000000000000000000000
    nb) (h : P s) : P (postOpt s c e) := by
  unfold postOpt
  repeat' first
    | (with_reducible first
        | assumption | intro _ | apply postIf_keeps K)
    | exact off_sub rfl hb | exact off_bit rfl hb | dsimp only | split

theorem portError_keeps (K : Keeps nb P) (s : State) (p : Nat) (hb : Off
    0x100000000000000000000000000000000000000000000000000000000000000000000000000000000000000000000000400000000000000000000000000000000000000000000000000000000000000000000000000000000000000000000000000000000000000000000000000000000000000000000000000000000000000000000000000000000000000000000000000000000000000000000000000000000000000000000000000000000000000
    nb) (h : P s) : P (portError s p) := by
  unfold portError
  repeat' first
    | (with_reducible first
        | assumption | intro _ | apply postIf_keeps K)
    | exact off_sub rfl hb | exact off_bit rfl hb | dsimp only | split

theorem rxPut_keeps (K : Keeps nb P) (s : State) (p : Nat) (l : List Nat) (frame : Bool) (hb : Off
    0x1100000000000000000000000000000000000000000000000000000000000000000000000000000000000000000000000400000000000000000000000000000000000000000000000000000000000000000000000000000000000000000000000000000000000000000000000000000000000000000000000000000000000000000000000000000000000000000000000000000000000000000000000000000000000000000000000000000000000000
    nb) (h : P s) : P (rxPut s p l frame) := by
  unfold rxPut
  repeat' first
    | (with_reducible first
        | assumption | intro _ | apply K.setq | apply postOpt_keeps K)
    | exact off_sub rfl hb | exact off_bit rfl hb | dsimp only | split

theorem txKeep_keeps (K : Keeps nb P) (s : State) (p : Nat) (l : List Nat) (hb : Off
    0x2100000000000000000000000000000000000000000000000000000000000000000000000000000000000000000000000400000000000000000000000000000000000000000000000000000000000000000000000000000000000000000000000000000000000000000000000000000000000000000000000000000000000000000000000000000000000000000000000000000000000000000000000000000000000000000000000000000000000000
    nb) (h : P s) : P (txKeep s p l) := by
  unfold txKeep
  repeat' first
    | (with_reducible first
        | assumption | intro _ | apply K.setq | apply postOpt_keeps K)
    | exact off_sub rfl hb | exact off_bit rfl hb | dsimp only | split

theorem ethSendPause_keeps (K : Keeps nb P) (s : State) (t : Nat) (hb : Off
    0x2000000000000000000000000000000000000000000000000000000000000000000000000000000000000000000000000000000000000000000000000000080000000000000000000000000000000000000000000000000000000000000000000000000000000000000000000000000000000000000000000000000000000000000000000000000000000000000000000000000000000000000000000000000000000
    nb) (h : P s) : P (ethSendPause s t) := by
  unfold ethSendPause
  repeat' first
    | (with_reducible first
        | assumption | intro _ | apply K.wr | apply bump_keeps K)
    | exact off_sub rfl hb | exact off_bit rfl hb | dsimp only | split

theorem ethXoff_keeps (K : Keeps nb P) (s : State) (was : Nat) (hb : Off
    0x2200000000000000000000000000000000000000000000000000000000000000000000000000000000000000000000000000000000000000000000000000080000000000000000000000000000000000000000000000000000000000000000000000000000000000000000000000000000000000000000000000000000000000000000000000000000000000000000000000000000000000000000000000000000000
    nb) (h : P s) : P (ethXoff s was) := by
  unfold ethXoff
  repeat' first
    | (with_reducible first
        | assumption | intro _ | apply keeps_ite | apply up_keeps K | apply ethSendPause_keeps K)
    | exact off_sub rfl hb | exact off_bit rfl hb | dsimp only | split

theorem ethXon_keeps (K : Keeps nb P) (s : State) (hb : Off
    0x2200000000000000000000000000000000000000000000000000000000000000000000000000000000000000000000000000000000000000000000000000080000000000000000000000000000000000000000000000000000000000000000000000000000000000000000000000000000000000000000000000000000000000000000000000000000000000000000000000000000000000000000000000000000000
    nb) (h : P s) : P (ethXon s) := by
  unfold ethXon
  repeat' first
    | (with_reducible first
        | assumption | intro _ | apply keeps_ite | apply down_keeps K | apply ethSendPause_keeps K)
    | exact off_sub rfl hb | exact off_bit rfl hb | dsimp only | split

theorem ethRepeat_keeps (K : Keeps nb P) (s : State) (hb : Off
    0x2000000000000000000000000000000000000000000000000000000000000000000000000000000000000000000000000000000000000000000000000000080000000000000000000000000000000000000000000000000000000000000000000000000000000000000000000000000000000000000000000000000000000000000000000000000000000000000000000000000000000000000000000000000000000
    nb) (h : P s) : P (ethRepeat s) := by
  unfold ethRepeat
  repeat' first
    | (with_reducible first
        | assumption | intro _ | apply keeps_ite | apply ethSendPause_keeps K)
    | exact off_sub rfl hb | exact off_bit rfl hb | dsimp only | split

theorem ethReceive_keeps (K : Keeps nb P) (s : State) (l : List Byte) (hb : Off
    0x11000000000000000000000000022000000000000000000000000000000000000000000000000000000000000000000004000000000000000000000000000000000000000000000000000008E0000000000000000000000000000000000000000000000000000000000000000000000000000000000000000000000000000000000000000000000000000000000000000000000000000000000000000000000000000000000000000000000000000000
    nb) (h : P s) : P (ethReceive s l) := by
  unfold ethReceive
  repeat' first
    | (with_reducible first
        | assumption | intro _ | apply keeps_ite | apply bump_keeps K | apply ethXoff_keeps K | apply portError_keeps K
        | apply rxPut_keeps K)
    | exact off_sub rfl hb | exact off_bit rfl hb | dsimp only | split

theorem ethPauseReceive_keeps (K : Keeps nb P) (s : State) (t : Nat) (hb : Off
    0xC00000000000000000000000000000000000000000000000000000000000000000000000000000000000000000000000000000000000000000000000000100000000000000000000000000000000000000000000000000000000000000000000000000000000000000000000000000000000000000000000000000000000000000000000000000000000000000000000000000000000000000000000000000000000
    nb) (h : P s) : P (ethPauseReceive s t) := by
  unfold ethPauseReceive
  repeat' first
    | (with_reducible first
        | assumption | intro _ | apply keeps_ite | apply K.wr | apply bump_keeps K | apply wrb_keeps K)
    | exact off_sub rfl hb | exact off_bit rfl hb | dsimp only | split

theorem ethPauseExpire_keeps (K : Keeps nb P) (s : State) (hb : Off
    0xC00000000000000000000000000000000000000000000000000000000000000000000000000000000000000000000000000000000000000000000000000000000000000000000000000000000000000000000000000000000000000000000000000000000000000000000000000000000000000000000000000000000000000000000000000000000000000000000000000000000000000000000000000000000000
    nb) (h : P s) : P (ethPauseExpire s) := by
  unfold ethPauseExpire
  repeat' first
    | (with_reducible first
        | assumption | intro _ | apply K.wr | apply down_keeps K)
    | exact off_sub rfl hb | exact off_bit rfl hb | dsimp only | split

theorem ethDropHead_keeps (K : Keeps nb P) (s : State) (hb : Off
    0x2100000000000000000000000000000000000000000000000000000000000000000000000000000000000000000000000400000000000000000000000000000000000000000000000000000000000000000000000000000000000000000000000000000000000000000000000000000000000000000000000000000000000000000000000000000000000000000000000000000000000000000000000000000000000000000000000000000000000000
    nb) (h : P s) : P (ethDropHead s) := by
  unfold ethDropHead
  repeat' first
    | (with_reducible first
        | assumption | intro _ | apply txKeep_keeps K)
    | exact off_sub rfl hb | exact off_bit rfl hb | dsimp only | split

theorem ethTransmit_keeps (K : Keeps nb P) (s : State) (hb : Off
    0x802100000000000000000000000000180000000000000000000000000000000000000000000000000000000000000000000400000000000000000000000000000000000000000000000000000200000000000000000000000000000000000000000000000000000000000000000000000000000000000000000000000000000000000000000000000000000000000000000000000000000000000000000000000000000000000000000000000000000000
    nb) (h : P s) : P (ethTransmit s) := by
  unfold ethTransmit
  repeat' first
    | (with_reducible first
        | assumption | intro _ | apply keeps_ite | apply K.setq | apply K.wr | apply bump_keeps K | apply up_keeps K
        | apply ethDropHead_keeps K | apply portError_keeps K | (apply keeps_fst; assumption)
        | (apply keeps_snd; assumption))
    | exact off_sub rfl hb | exact off_bit rfl hb | dsimp only | split

theorem ethSent_keeps (K : Keeps nb P) (s : State) (collision : Bool) (hb : Off
    0x802100000000000000000000000001080000000000000000000000000000000000000000000000000000000000000000000400000000000000000000000000000000000000000000000000000400000000000000000000000000000000000000000000000000000000000000000000000000000000000000000000000000000000000000000000000000000000000000000000000000000000000000000000000000000000000000000000000000000000
    nb) (h : P s) : P (ethSent s collision) := by
  unfold ethSent
  repeat' first
    | (with_reducible first
        | assumption | intro _ | apply keeps_ite | apply K.setq | apply K.wr | apply bump_keeps K | apply down_keeps K
        | apply ethDropHead_keeps K | apply portError_keeps K)
    | exact off_sub rfl hb | exact off_bit rfl hb | dsimp only | split

theorem mdioCmd_keeps (K : Keeps nb P) (s : State) (v : Nat) (hb : Off
    0x4000000000000000000000000000000000000000000000000000000000000000000000000000000000000000000000000000000000000000000000000000018000000000000000000000000000000000000000000000000000000000000000000000000000000000000000000000000000000000000000000000000000000000000000000000000000000000000000000000000000000000000000000000000000000
    nb) (h : P s) : P (mdioCmd s v) := by
  unfold mdioCmd
  repeat' first
    | (with_reducible first
        | assumption | intro _ | apply keeps_ite | apply K.wr | apply up_keeps K)
    | exact off_sub rfl hb | exact off_bit rfl hb | dsimp only | split

theorem mdioDone_keeps (K : Keeps nb P) (s : State) (data : Nat) (hb : Off
    0x10000000000000000000000000000000000000000000000000000000000000000000000000000000000000000000000040000000000000000000000000000000000000000000000000000000C000000000000000000000000000000000000000000000000000000000000000000000000000000000000000000000000000000000000000000000000000000000000000000000000000000000000000000000000000000000000000000000000000000
    nb) (h : P s) : P (mdioDone s data) := by
  unfold mdioDone
  repeat' first
    | (with_reducible first
        | assumption | intro _ | apply keeps_ite | apply K.wr | apply down_keeps K | apply post_keeps K)
    | exact off_sub rfl hb | exact off_bit rfl hb | dsimp only | split

theorem uartRts_keeps (K : Keeps nb P) (s : State) (u : Nat) (hb : Off
    0x800000000000000000000000000000000000000000000000000000000000000000000000000000000000000000000000000000000000000000000000000000000000000000000000000000000000000000000000000000000000000000000000000000000000
    nb) (h : P s) : P (uartRts s u) := by
  unfold uartRts
  repeat' first
    | (with_reducible first
        | assumption | intro _ | apply keeps_ite | apply down_keeps K | apply up_keeps K)
    | exact off_sub rfl hb | exact off_bit rfl hb | dsimp only | split

theorem uartXoff_keeps (K : Keeps nb P) (s : State) (u : Nat) (hb : Off
    0x100000000000000000000000000000000000000000000000000000000000000000000000000000000000000000000000000000000000000000000000000000000000000000000000000000000000000000000000000000000000000000000000000000000000000000000000000000000000000000000000000000000000000000000000000000000000000000000000000000000000000000000000000000000000000
    nb) (h : P s) : P (uartXoff s u) := by
  unfold uartXoff
  repeat' first
    | (with_reducible first
        | assumption | intro _ | apply keeps_ite | apply K.wr)
    | exact off_sub rfl hb | exact off_bit rfl hb | dsimp only | split

theorem uartReceive_keeps (K : Keeps nb P) (s : State) (u data : Nat) (framing par brk : Bool) (hb : Off
    0x110000000000000000000000010000000000000000000000000000000000000000000000000000000000000000000000040000000000000000000000000000000000000000000000003D800000000000000080000000000000000000000000000000000000000000000000000000000000000000000000000000000000000000000000000000000000000000000000000000000000000000000000000000000000000000000000000000000000000000
    nb) (h : P s) : P (uartReceive s u data framing par brk) := by
  unfold uartReceive
  repeat' first
    | (with_reducible first
        | assumption | intro _ | apply keeps_when | apply keeps_ite | apply bump_keeps K | apply up_keeps K
        | apply wrb_keeps K | apply portError_keeps K | apply rxPut_keeps K | apply uartRts_keeps K | apply uartXoff_keeps K)
    | exact off_sub rfl hb | exact off_bit rfl hb | dsimp only | split

theorem uartTransmit_keeps (K : Keeps nb P) (s : State) (u : Nat) (cts : Bool) (hb : Off
    0x2100000000000000000000000700080000000000000000000000000000000000000000000000000000000000000000000400000000000000000000000000000000000000000000000002400000000000000000000000000000000000000000000000000000000000000000000000000000000000000000000000000000000000000000000000000000000000000000000000000000000000000000000000000000000000000000000000000000000000
    nb) (h : P s) : P (uartTransmit s u cts) := by
  unfold uartTransmit
  repeat' first
    | (with_reducible first
        | assumption | intro _ | apply keeps_ite | apply K.wr | apply down_keeps K | apply up_keeps K | apply wrb_keeps K
        | apply txKeep_keeps K)
    | exact off_sub rfl hb | exact off_bit rfl hb | dsimp only | split

theorem uartSent_keeps (K : Keeps nb P) (s : State) (u : Nat) (hb : Off
    0x80000000000000000000000000000000000000000000000000000000000000000000000000000000000000000000000000000000000000000000000000000000000000000000000000000000000000000000000000000000000000000000000000000000000000000000000000000000000000000000000000000000000000000000000000000000000000000000000000000000000000000000000000000000000
    nb) (h : P s) : P (uartSent s u) := by
  unfold uartSent
  repeat' first
    | (with_reducible first
        | assumption | intro _ | apply down_keeps K)
    | exact off_sub rfl hb | exact off_bit rfl hb | dsimp only | split

theorem modStart_keeps (K : Keeps nb P) (s : State) (hb : Off
    0x802100000000000000000000C03800000000000000000000000000000000000000000000000000000000000000000000000400000000000000000000000000000000000000000000000400000000000000000000000000000000000000000000000000000000000000000000000000000000000000000000000000000000000000000000000000000000000000000000000000000000000000000000000000000000000000000000000000000000000000
    nb) (h : P s) : P (modStart s) := by
  unfold modStart
  repeat' first
    | (with_reducible first
        | assumption | intro _ | apply keeps_ite | apply K.setq | apply K.wr | apply down_keeps K | apply up_keeps K
        | apply txKeep_keeps K)
    | exact off_sub rfl hb | exact off_bit rfl hb | dsimp only | split

theorem modBlock_keeps (K : Keeps nb P) (s : State) (hb : Off
    0x3800000000000000000000000000000000000000000000000000000000000000000000000000000000000000000000000000000000000000000000000000000000000000000000000000000000000000000000000000000000000000000000000000000000000000000000000000000000000000000000000000000000000000000000000000000000000000000000000000000000000000000000000000000000000000
    nb) (h : P s) : P (modBlock s) := by
  unfold modBlock
  repeat' first
    | (with_reducible first
        | assumption | intro _ | apply keeps_ite | apply K.wr)
    | exact off_sub rfl hb | exact off_bit rfl hb | dsimp only | split

theorem modDeliver_keeps (K : Keeps nb P) (s : State) (l : List Byte) (status : Nat) (hb : Off
    0x801100000000000000000000802000000000000000000000000000000000000000000000000000000000000000000000000400000000000000000000000000000000000000000000000400000000000000000000000000000000000000000000000000000000000000000000000000000000000000000000000000000000000000000000000000000000000000000000000000000000000000000000000000000000000000000000000000000000000000
    nb) (h : P s) : P (modDeliver s l status) := by
  unfold modDeliver
  repeat' first
    | (with_reducible first
        | assumption | intro _ | apply K.setq | apply K.wr | apply down_keeps K | apply post_keeps K | apply rxPut_keeps K)
    | exact off_sub rfl hb | exact off_bit rfl hb | dsimp only | split

theorem modDone_keeps (K : Keeps nb P) (s : State) (rx : List Byte) (hb : Off
    0x1000000000000000000000801100000000000000000000802000000000000000000000000000000000000000000000000000000000000000000000000400000000000000000000000000000000000000000000004400000000000000000000000000000000000000000000000000000000000000000000000000000000000000000000000000000000000000000000000000000000000000000000000000000000000000000000000000000000000000000000000000000000000000
    nb) (h : P s) : P (modDone s rx) := by
  unfold modDone
  repeat' first
    | (with_reducible first
        | assumption | intro _ | apply keeps_ite | apply up_keeps K | apply modDeliver_keeps K | apply portError_keeps K)
    | exact off_sub rfl hb | exact off_bit rfl hb | dsimp only | split

theorem pathLeave_keeps (K : Keeps nb P) (s : State) (p : Nat) (hb : Off
    0x1000000000000000000000000000000000000000000000000000000000000000000000000000000000000000000000000000000000000000000000000000000000000000000000000000000000000000000000000000000
    nb) (h : P s) : P (pathLeave s p) := by
  unfold pathLeave
  repeat' first
    | (with_reducible first
        | assumption | intro _ | apply down_keeps K)
    | exact off_sub rfl hb | exact off_bit rfl hb | dsimp only | split

theorem modRdyTimeout_keeps (K : Keeps nb P) (s : State) (rx : List Byte) (hb : Off
    0x801100000000000000000000802000000000000000000000000000000000000000000000000000000000000000000000000400000000000000000000000000000000000000000000002400000000000000000000000000000001000000000000000000000000000000000000000000000000000000000000000000000000000000000000000000000000000000000000000000000000000000000000000000000000000000000000000000000000000000
    nb) (h : P s) : P (modRdyTimeout s rx) := by
  unfold modRdyTimeout
  repeat' first
    | (with_reducible first
        | assumption | intro _ | apply keeps_ite | apply up_keeps K | apply modDeliver_keeps K | apply pathLeave_keeps K
        | apply portError_keeps K)
    | exact off_sub rfl hb | exact off_bit rfl hb | dsimp only | split

theorem modIrqFall_keeps (K : Keeps nb P) (s : State) (hb : Off
    0x100000000000000000000000000000000000000000000000000000000000000000000000000000000000000000000000400000000000000000000000000000000000000000000000000000000000000000000000000000000000000000000000000000000000000000000000000000000000000000000000000000000000000000000000000000000000000000000000000000000000000000000000000000000000000000000000000000000000000
    nb) (h : P s) : P (modIrqFall s) := by
  unfold modIrqFall
  repeat' first
    | (with_reducible first
        | assumption | intro _ | apply keeps_ite | apply post_keeps K)
    | exact off_sub rfl hb | exact off_bit rfl hb | dsimp only | split

theorem slSend_keeps (K : Keeps nb P) (s : State) (type cret seq : Nat) (body : List Byte) (hb : Off
    0x800000000000000000000001060000180000000000000000000000000000000000000000000000000000000000000000000000000000000000000000000000000000000000000000000000000000000000000000000000000000000000000000000000000000000000000000000000000000000000000000000000000000000000000000000000000000000000000000000000000000000000000000000000000000000000000000000000000000000000
    nb) (h : P s) : P (slSend s type cret seq body) := by
  unfold slSend
  repeat' first
    | (with_reducible first
        | assumption | intro _ | apply K.setq | apply K.wr | apply up_keeps K | (apply keeps_fst; assumption)
        | (apply keeps_snd; assumption))
    | exact off_sub rfl hb | exact off_bit rfl hb | dsimp only | split

theorem slFree_keeps (K : Keeps nb P) (s : State) (n : Nat) (hb : Off
    0x10000000000000000000000000000000000000000000000000000000000000000000000000000000000000000000000000000000000000000000000040000000000000000000000000000000000000000000000000000000000000000000000000000000000000000000000000000000000000000000000000000000000000000000000000000000000000000000000000000000000000000000000000000000000000000
    nb) (h : P s) : P (slFree s n) := by
  unfold slFree
  repeat' first
    | (with_reducible first
        | assumption | intro _ | apply K.wr)
    | exact off_sub rfl hb | exact off_bit rfl hb | dsimp only | split

theorem slDataSend_keeps (K : Keeps nb P) (s : State) (hb : Off
    0x802100000000000000000001060000180000000000000000000000000000000000000000000000000000000000000000000400000000000000000000000000000000000000000000260000000000000000000000000000000000000000000000000000000000000000000000000000000000000000000000000000000000000000000000000000000000000000000000000000000000000000000000000000000000000000000000000000000000000000
    nb) (h : P s) : P (slDataSend s) := by
  unfold slDataSend
  repeat' first
    | (with_reducible first
        | assumption | intro _ | apply keeps_ite | apply K.wr | apply slSend_keeps K | apply txKeep_keeps K
        | (apply keeps_fst; assumption) | (apply keeps_snd; assumption))
    | exact off_sub rfl hb | exact off_bit rfl hb | dsimp only | split

theorem slCreditTimeout_keeps (K : Keeps nb P) (s : State) (hb : Off
    0x800000000000000000000001060000180000000000000000000000000000000000000000000000000000000000000000000000000000000000000000000000000000000000000000040000000000000000000000000000000000000000000000000000000000000000000000000000000000000000000000000000000000000000000000000000000000000000000000000000000000000000000000000000000000000000000000000000000000000000
    nb) (h : P s) : P (slCreditTimeout s) := by
  unfold slCreditTimeout
  repeat' first
    | (with_reducible first
        | assumption | intro _ | apply keeps_ite | apply K.wr | apply slSend_keeps K)
    | exact off_sub rfl hb | exact off_bit rfl hb | dsimp only | split

theorem slUpCheck_keeps (K : Keeps nb P) (s : State) (hb : Off
    0x10000000000000000000000000000000000000000000000000000000000000000000000000000000000000000000000000000000000000000000000000000000000000000000000000000000000000000000000000000000000000000000000000000000000000000
    nb) (h : P s) : P (slUpCheck s) := by
  unfold slUpCheck
  repeat' first
    | (with_reducible first
        | assumption | intro _ | apply keeps_ite | apply K.wr)
    | exact off_sub rfl hb | exact off_bit rfl hb | dsimp only | split

theorem slHelloTimer_keeps (K : Keeps nb P) (s : State) (hb : Off
    0x800000000000000000000001064000180000000000000000000000000000000000000000000000000000000000000000000000000000000000000000000000000000000000000000050000000000000000000000000000000000000000000000000000000000000000000000000000000000000000000000000000000000000000000000000000000000000000000000000000000000000000000000000000000000000000000000000000000000000000
    nb) (h : P s) : P (slHelloTimer s) := by
  unfold slHelloTimer
  repeat' first
    | (with_reducible first
        | assumption | intro _ | apply keeps_ite | apply K.wr | apply up_keeps K | apply slSend_keeps K
        | apply slUpCheck_keeps K)
    | exact off_sub rfl hb | exact off_bit rfl hb | dsimp only | split

theorem slRxDone_keeps (K : Keeps nb P) (s : State) (hb : Off
    0x800000000000000000000001000000000000000000000000000000000000000000000000000000000000000000000000000000000000000000000000000000000000000000000000000000000000000000000000000000000000000000000000000000000000000000000000000000000000000000000000000000000000000000000000000000000000000000000000000000000000000000000000000000000000000000000000000000000000000000
    nb) (h : P s) : P (slRxDone s) := by
  unfold slRxDone
  repeat' first
    | (with_reducible first
        | assumption | intro _ | apply K.setq | apply K.wr)
    | exact off_sub rfl hb | exact off_bit rfl hb | dsimp only | split

theorem slCredit_keeps (K : Keeps nb P) (s : State) (n : Nat) (hb : Off
    0x100000000000000000000000000000000000000000000000000000000000000000000000000000000000000000000000400000000000000000000000000000000000000000008020000000000000000000000000000000000000000000000000000000000000000000000000000000000000000000000000000000000000000000000000000000000000000000000000000000000000000000000000000000000000000000000000000000000000000
    nb) (h : P s) : P (slCredit s n) := by
  unfold slCredit
  repeat' first
    | (with_reducible first
        | assumption | intro _ | apply keeps_ite | apply K.wr | apply bumpBy_keeps K | apply portError_keeps K)
    | exact off_sub rfl hb | exact off_bit rfl hb | dsimp only | split

theorem slMismatch_keeps (K : Keeps nb P) (s : State) (l : List Byte) (hb : Off
    0x100000000000000000000000000000000000000000000000000000000000000000000000000000000000000000000000400000000000000000000000000000000000000000000840000000000000000000000000000000000000000000000000000000000000000000000000000000000000000000000000000000000000000000000000000000000000000000000000000000000000000000000000000000000000000000000000000000000000000
    nb) (h : P s) : P (slMismatch s l) := by
  unfold slMismatch
  repeat' first
    | (with_reducible first
        | assumption | intro _ | apply keeps_ite | apply K.wr | apply bump_keeps K | apply portError_keeps K)
    | exact off_sub rfl hb | exact off_bit rfl hb | dsimp only | split

theorem slReceive_keeps (K : Keeps nb P) (s : State) (type : Nat) (frame : List Byte) (f : State → Nat → Nat → List Byte →
    State) (hb : Off
    0x800100000000000000000001000000000000000000000000000000000000000000000000000000000000000000000000000400000000000000000000000000000000000000000000840000000000000000000000000000000000000000000000000000000000000000000000000000000000000000000000000000000000000000000000000000000000000000000000000000000000000000000000000000000000000000000000000000000000000000
    nb) (h : P s) (hf : ∀ t a b l, P t → P (f t a b l)) : P (slReceive s type frame f) := by
  unfold slReceive
  repeat' first
    | (with_reducible first
        | assumption | intro _ | apply keeps_ite | apply hf | apply slMismatch_keeps K | apply slRxDone_keeps K
        | (apply keeps_fst; assumption) | (apply keeps_snd; assumption))
    | exact off_sub rfl hb | exact off_bit rfl hb | dsimp only | split

theorem slData_keeps (K : Keeps nb P) (s : State) (cret seq : Nat) (l : List Byte) (hb : Off
    0x110000000000000000000001000000000000000000000000000000000000000000000000000000000000000000000000040000000000000000000000000000000000000000000B420000000000000000000000000000000000000000000000000000000000000000000000000000000000000000000000000000000000000000000000000000000000000000000000000000000000000000000000000000000000000000000000000000000000000000
    nb) (h : P s) : P (slData s cret seq l) := by
  unfold slData
  repeat' first
    | (with_reducible first
        | assumption | intro _ | apply keeps_ite | apply K.wr | apply bump_keeps K | apply portError_keeps K
        | apply rxPut_keeps K | apply slCredit_keeps K)
    | exact off_sub rfl hb | exact off_bit rfl hb | dsimp only | split

theorem slHello_keeps (K : Keeps nb P) (s : State) (cret _seq : Nat) (_l : List Byte) (hb : Off
    0x1000000000000000000000080000000000000000000000000000000000000000000000000000000000000000000000004000000000000000000000000000000000000000000006B0000000000000000000000000000000000000000000000000000000000000000000000000000000000000000000000000000000000000000000000000000000000000000000000000000000000000000000000000000000000000000000000000000000000000000
    nb) (h : P s) : P (slHello s cret _seq _l) := by
  unfold slHello
  repeat' first
    | (with_reducible first
        | assumption | intro _ | apply keeps_ite | apply K.wr | apply post_keeps K | apply up_keeps K
        | apply slUpCheck_keeps K)
    | exact off_sub rfl hb | exact off_bit rfl hb | dsimp only | split

theorem slHeaderError_keeps (K : Keeps nb P) (s : State) (hb : Off
    0x800100000000000000000001000000000000000000000000000000000000000000000000000000000000000000000000000400000000000000000000000000000000000000000004000000000000000000000000000000000001000000000000000000000000000000000000000000000000000000000000000000000000000000000000000000000000000000000000000000000000000000000000000000000000000000000000000000000000000000
    nb) (h : P s) : P (slHeaderError s) := by
  unfold slHeaderError
  repeat' first
    | (with_reducible first
        | assumption | intro _ | apply keeps_ite | apply bump_keeps K | apply pathLeave_keeps K | apply portError_keeps K
        | apply slRxDone_keeps K)
    | exact off_sub rfl hb | exact off_bit rfl hb | dsimp only | split

theorem slLinkTimeout_keeps (K : Keeps nb P) (s : State) (hb : Off
    0x80010000000000000000000100C000000000000000000000000000000000000000000000000000000000000000000000000400000000000000000000000000000000000000000000010000000000000000000000000000000001000000000000000000000000000000000000000000000000000000000000000000000000000000000000000000000000000000000000000000000000000000000000000000000000000000000000000000000000000000
    nb) (h : P s) : P (slLinkTimeout s) := by
  unfold slLinkTimeout
  repeat' first
    | (with_reducible first
        | assumption | intro _ | apply keeps_ite | apply K.wr | apply down_keeps K | apply post_keeps K
        | apply pathLeave_keeps K | apply slRxDone_keeps K)
    | exact off_sub rfl hb | exact off_bit rfl hb | dsimp only | split

theorem slEnChanged_keeps (K : Keeps nb P) (s : State) (was : Bool) (hb : Off
    0xC000000000000000000000000000000000000000000000000000000000000000000000000000000000000000000000000000000000000000000000010000000000000000000000000000000000000000000000000000000000000000000000000000000000000000000000000000000000000000000000000000000000000000000000000000000000000000000000000000000000000000000000000000000000000000
    nb) (h : P s) : P (slEnChanged s was) := by
  unfold slEnChanged
  repeat' first
    | (with_reducible first
        | assumption | intro _ | apply keeps_ite | apply K.wr | apply down_keeps K)
    | exact off_sub rfl hb | exact off_bit rfl hb | dsimp only | split

theorem slPopped_keeps (K : Keeps nb P) (s : State) (w : Nat) (hb : Off
    0x6010000000000000000000000000000000000000000000000000000000000000000000000000000000000000000000000000000000000000000000000040000000000000000000000000000000000000000000000000000000000000000000000000000000000000000000000000000000000000000000000000000000000000000000000000000000000000000000000000000000000000000000000000000000000000000
    nb) (h : P s) : P (slPopped s w) := by
  unfold slPopped
  repeat' first
    | (with_reducible first
        | assumption | intro _ | apply keeps_ite | apply K.wr | apply slFree_keeps K)
    | exact off_sub rfl hb | exact off_bit rfl hb | dsimp only | split

theorem usbClose_keeps (K : Keeps nb P) (s : State) (e n : Nat) (hb : Off
    0x4000000000000000000000000000000000000000000000000000000000000000000000000000000000000000000000000000000000000000000000000000000000000000000000000000000000000000000000000000000000000000000000000000000000000000000000000000000000000000000000000000000000000000000000000000000000000000000000000000000000000000000000000000000000000000000000000000000000000000
    nb) (h : P s) : P (usbClose s e n) := by
  unfold usbClose
  repeat' first
    | (with_reducible first
        | assumption | intro _ | apply K.setq)
    | exact off_sub rfl hb | exact off_bit rfl hb | dsimp only | split

theorem usbPush_keeps (K : Keeps nb P) (s : State) (e w : Nat) (hb : Off
    0x4000000000000000000000100000000000000000000000000000000000000000000000000000000000000000000000000000000000000000000000000000000000000000000000000000000000000000000000000000000000000000000000000000000000000000000000000000000000000000000000000000000000000000000000000000000000000000000000000000000000000000000000000000000000000000000000000000000000000000
    nb) (h : P s) : P (usbPush s e w) := by
  unfold usbPush
  repeat' first
    | (with_reducible first
        | assumption | intro _ | apply keeps_ite | apply K.setq | apply K.wr | apply usbClose_keeps K)
    | exact off_sub rfl hb | exact off_bit rfl hb | dsimp only | split

theorem usbPop_keeps (K : Keeps nb P) (s : State) (e : Nat) (hb : Off
    0x4000000000000000000000080000000000000000000000000000000000000000000000000000000000000000000000000000000000000000000000000000000000000000000000000000000000000000000000000000000000000000000000000000000000000000000000000000000000000000000000000000000000000000000000000000000000000000000000000000000000000000000000000000000000000000000000000000000000000000
    nb) (h : P s) : P (usbPop s e).2 := by
  unfold usbPop
  repeat' first
    | (with_reducible first
        | assumption | intro _ | apply keeps_ite | apply K.setq | apply K.wr | (apply keeps_fst; assumption)
        | (apply keeps_snd; assumption))
    | exact off_sub rfl hb | exact off_bit rfl hb | dsimp only | split

theorem usbAnswer_keeps (K : Keeps nb P) (s : State) (a : Nat) (hb : Off
    0x80000000000000000000000000000000000000000000000000000000000000000000000000000000000000000000000000000000000000000000000000000000000000000000000000000000000000000000000000000000000000000000000000000000000000000000000000000000000000000000000000000000000000000000000000000000000000000000000000000000000000000000000000000000000000
    nb) (h : P s) : P (usbAnswer s a) := by
  unfold usbAnswer
  repeat' first
    | (with_reducible first
        | assumption | intro _ | apply K.wr)
    | exact off_sub rfl hb | exact off_bit rfl hb | dsimp only | split

theorem usbNak_keeps (K : Keeps nb P) (s : State) (e : Nat) (hb : Off
    0x80000000000000000000000000000000000000000000000000000000000000000000000000000000000000000000000000000000000000000000000000000000000002000000000000000000000000000000000000000000000000000000000000000000000000000000000000000000000000000000000000000000000000000000000000000000000000000000000000000000000000000000000000000000000000
    nb) (h : P s) : P (usbNak s e) := by
  unfold usbNak
  repeat' first
    | (with_reducible first
        | assumption | intro _ | apply bump_keeps K | apply usbAnswer_keeps K)
    | exact off_sub rfl hb | exact off_bit rfl hb | dsimp only | split

theorem usbStatusStage_keeps (K : Keeps nb P) (s : State) (hb : Off
    0x30000000000000000000000000000000000000000000000000000000000000000000000000000000000000000000000000000000000000000000000000000000000000000000000000000000000000000000000000000000000000000000000000000000000000000000000000000000000000000000000000000000000000000000000000000000000000000000000000000000000000000000000000000000000000
    nb) (h : P s) : P (usbStatusStage s) := by
  unfold usbStatusStage
  repeat' first
    | (with_reducible first
        | assumption | intro _ | apply keeps_ite | apply K.wr | apply down_keeps K)
    | exact off_sub rfl hb | exact off_bit rfl hb | dsimp only | split

theorem usbRxEvent_keeps (K : Keeps nb P) (s : State) (hb : Off
    0x100000000000000000000000000000000000000000000000000000000000000000000000000000000000000000000000400000000000000000000000000000000000000000000000000000000000000000000000000000000000000000000000000000000000000000000000000000000000000000000000000000000000000000000000000000000000000000000000000000000000000000000000000000000000000000000000000000000000000
    nb) (h : P s) : P (usbRxEvent s) := by
  unfold usbRxEvent
  repeat' first
    | (with_reducible first
        | assumption | intro _ | apply postIf_keeps K)
    | exact off_sub rfl hb | exact off_bit rfl hb | dsimp only | split

theorem usbOut_keeps (K : Keeps nb P) (s : State) (addr e : Nat) (ping : Bool) (toggle : Nat) (l : List Byte) (hb : Off
    0x41000000000000000000000000B0000000000000000000000000000000000000000000000000000000000000000000000400000000000000000000000000000000000000000000000000000000000043000000000000000000000000000000000000000000000000000000000000000000000000000000000000000000000000000000000000000000000000000000000000000000000000000000000000000000000000000000000000000000000000
    nb) (h : P s) : P (usbOut s addr e ping toggle l) := by
  unfold usbOut
  repeat' first
    | (with_reducible first
        | assumption | intro _ | apply keeps_ite | apply K.setq | apply K.wr | apply bump_keeps K | apply usbAnswer_keeps K
        | apply usbNak_keeps K | apply usbRxEvent_keeps K | apply usbStatusStage_keeps K)
    | exact off_sub rfl hb | exact off_bit rfl hb | dsimp only | split

theorem usbIn_keeps (K : Keeps nb P) (s : State) (addr ep : Nat) (acked : Bool) (hb : Off
    0x41000000000000000000002000B0000000000000000000000000000000000000000000000000000000000000000000000400000000000000000000000000000000000000000000000000000000000003000000000000000000000000000000000000000000000000000000000000000000000000000000000000000000000000000000000000000000000000000000000000000000000000000000000000000000000000000000000000000000000000
    nb) (h : P s) : P (usbIn s addr ep acked) := by
  unfold usbIn
  repeat' first
    | (with_reducible first
        | assumption | intro _ | apply keeps_ite | apply K.setq | apply K.wr | apply postIf_keeps K
        | apply usbAnswer_keeps K | apply usbNak_keeps K | apply usbStatusStage_keeps K)
    | exact off_sub rfl hb | exact off_bit rfl hb | dsimp only | split

theorem usbFlush_keeps (K : Keeps nb P) (s : State) (e : Nat) (hb : Off
    0x4000000000000000000000180000000000000000000000000000000000000000000000000000000000000000000000000000000000000000000000000000000000000000000000000000000000000000000000000000000000000000000000000000000000000000000000000000000000000000000000000000000000000000000000000000000000000000000000000000000000000000000000000000000000000000000000000000000000000000
    nb) (h : P s) : P (usbFlush s e) := by
  unfold usbFlush
  repeat' first
    | (with_reducible first
        | assumption | intro _ | apply K.setq | apply K.wr)
    | exact off_sub rfl hb | exact off_bit rfl hb | dsimp only | split

theorem recoveryEndpoint_keeps (K : Keeps nb P) (s : State) (e base : Nat) (isIn : Bool) (hb : Off
    0x3F0000000000000000000000000000000000000000000000000000000000000000000000000000000000000000000000000000000000000000000000000000000000000000000000000000000000000000000000000000000000000000000000
    nb) (h : P s) : P (recoveryEndpoint s e base isIn) := by
  unfold recoveryEndpoint
  repeat' first
    | (with_reducible first
        | assumption | intro _ | apply K.wr | apply down_keeps K | apply up_keeps K | apply wrb_keeps K)
    | exact off_sub rfl hb | exact off_bit rfl hb | dsimp only | split

theorem recoveryEndpoints_keeps (K : Keeps nb P) (s : State) (hb : Off
    0x3F0000000000000000000000000000000000000000000000000000000000000000000000000000000000000000000000000000000000000000000000000000000000000000000000000000000000000000000000000000000000000000000000
    nb) (h : P s) : P (recoveryEndpoints s) := by
  unfold recoveryEndpoints
  repeat' first
    | (with_reducible first
        | assumption | intro _ | apply keeps_ite | apply recoveryEndpoint_keeps K)
    | exact off_sub rfl hb | exact off_bit rfl hb | dsimp only | split

theorem recoveryConnect_keeps (K : Keeps nb P) (s : State) (hb : Off
    0x400000000000000000000000000000000000000000000000000000000000000000000000000000000000003F0100007000000000000000000000000000000000000000000000000000000000000000000000000000000000000000000000000000000000000000000000000000000000000000000000080000000000000000000000000000000000000000
    nb) (h : P s) : P (recoveryConnect s) := by
  unfold recoveryConnect
  repeat' first
    | (with_reducible first
        | assumption | intro _ | apply keeps_ite | apply up_keeps K | apply clockRequest_keeps K
        | apply recoveryEndpoints_keeps K)
    | exact off_sub rfl hb | exact off_bit rfl hb | dsimp only | split

theorem recoverySetup_keeps (K : Keeps nb P) (s : State) (l : List Byte) (hb : Off
    0x4000000000000000000000000018000000000000000000000000000000000000000000000000000000000000000000000000000000000000000000000000000000000000000000000000000000000000008000000000000000000000000000000000000000000000000000000000000000000000000000000000000000000000000000000000000000000000000000000000000000000000000000000000000000000000000000000000000000000000
    nb) (h : P s) : P (recoverySetup s l) := by
  unfold recoverySetup
  repeat' first
    | (with_reducible first
        | assumption | intro _ | apply keeps_ite | apply K.setq | apply K.wr | apply drew_keeps K | apply up_keeps K)
    | exact off_sub rfl hb | exact off_bit rfl hb | dsimp only | split

theorem recoverySend_keeps (K : Keeps nb P) (s : State) (l : List Byte) (hb : Off
    0x4000000000000000000000000000000000000000000000000000000000000000000000000000000000000000000000000000000000000000000000000000000000000000000000000000000000000000000000000000000000000000000000000000000000000000000000000000000000000000000000000000000000000000000000000000000000000000000000000000000000000000000000000000000000000000000000000000000000000000
    nb) (h : P s) : P (recoverySend s l) := by
  unfold recoverySend
  repeat' first
    | (with_reducible first
        | assumption | intro _ | apply keeps_ite | apply K.setq)
    | exact off_sub rfl hb | exact off_bit rfl hb | dsimp only | split

theorem usbSetup_keeps (K : Keeps nb P) (s : State) (addr : Nat) (l : List Byte) (hb : Off
    0x4100000000000000000000380098000000000000000000000000000000000000000000000000000000000000000000000400000000000000000000000000000000000000000000000000000000000001008000000000000000000000000000000000000000000000000000000000000000000000000000000000000000000000000000000000000000000000000000000000000000000000000000000000000000000000000000000000000000000000
    nb) (h : P s) : P (usbSetup s addr l) := by
  unfold usbSetup
  repeat' first
    | (with_reducible first
        | assumption | intro _ | apply keeps_ite | apply K.setq | apply K.wr | apply recoverySetup_keeps K
        | apply usbAnswer_keeps K | apply usbFlush_keeps K | apply usbRxEvent_keeps K)
    | exact off_sub rfl hb | exact off_bit rfl hb | dsimp only | split

theorem usbVbusRise_keeps (K : Keeps nb P) (s : State) (hb : Off
    0x400000000000000000000000000000000000000000000000000000000000000000000000000000000000003F0900007000000000000000000000000000000000000000000000000000000000000000000000000000000000000000000000000000000000000000000000000000000000000000000000080000000000000000000000000000000000000000
    nb) (h : P s) : P (usbVbusRise s) := by
  unfold usbVbusRise
  repeat' first
    | (with_reducible first
        | assumption | intro _ | apply keeps_ite | apply up_keeps K | apply recoveryConnect_keeps K)
    | exact off_sub rfl hb | exact off_bit rfl hb | dsimp only | split

theorem usbVbusFall_keeps (K : Keeps nb P) (s : State) (hb : Off
    0x4100000000000000000000180000000000000000000000000000000000000000000000000000000000000000000000000400000000000000000000000000000000000000000000000000000000000000000800000000000000000000000000000000000000000000000000000000000000000000000000000000000000000000000000000000000000000000000000000000000000000000000000000000000000000000000000000000000000000000
    nb) (h : P s) : P (usbVbusFall s) := by
  unfold usbVbusFall
  repeat' first
    | (with_reducible first
        | assumption | intro _ | apply keeps_each | apply keeps_ite | apply down_keeps K | apply post_keeps K
        | apply usbFlush_keeps K)
    | exact off_sub rfl hb | exact off_bit rfl hb | dsimp only | split

theorem usbBusReset_keeps (K : Keeps nb P) (s : State) (hs : Bool) (hb : Off
    0x1000000000000000000002000380000000000000000000000000000000000000000000000000000000000000000000004000000000000000000000000000000000000000000000000000000000000013FF000000000000000000000000000000000000000000000000000000000000000000000000000000000000000000000000000000000000000000000000000000000000000000000000000000000000000000000000000000000000000000000
    nb) (h : P s) : P (usbBusReset s hs) := by
  unfold usbBusReset
  repeat' first
    | (with_reducible first
        | assumption | intro _ | apply keeps_each | apply keeps_ite | apply K.wr | apply down_keeps K | apply post_keeps K
        | apply up_keeps K | apply wrb_keeps K | apply recoveryEndpoints_keeps K)
    | exact off_sub rfl hb | exact off_bit rfl hb | dsimp only | split

theorem usbSuspend_keeps (K : Keeps nb P) (s : State) (hb : Off
    0x100000000000000000000000000000000000000000000000000000000000000000000000000000000000000000000000400000000000000000000000000000000000000000000000000000000000000002000000000000000000000000000000000000000000000000000000000000000000000000000000000000000000000000000000000000000000000000000000000000000000000000000000000000000000000000000000000000000000000
    nb) (h : P s) : P (usbSuspend s) := by
  unfold usbSuspend
  repeat' first
    | (with_reducible first
        | assumption | intro _ | apply keeps_ite | apply post_keeps K | apply up_keeps K)
    | exact off_sub rfl hb | exact off_bit rfl hb | dsimp only | split

theorem usbResume_keeps (K : Keeps nb P) (s : State) (hb : Off
    0x2000000000000000000000000000000000000000000000000000000000000000000000000000000000000000000000000000000000000000000000000000000000000000000000000000000000000000000000000000000000000000000000
    nb) (h : P s) : P (usbResume s) := by
  unfold usbResume
  repeat' first
    | (with_reducible first
        | assumption | intro _ | apply keeps_ite | apply down_keeps K)
    | exact off_sub rfl hb | exact off_bit rfl hb | dsimp only | split

theorem usbRwake_keeps (K : Keeps nb P) (s : State) (hb : Off
    0x40000000000000000000000000000000000000000000000000000000000000000000000000000000000000000000000000000000000000000000000000000000000000000000000000000000000000000000000000000000000000000000000000000000000000000000000000000000000000000000000000000000000000000000000000000000000000000000000000000000000000000000000000000000000000
    nb) (h : P s) : P (usbRwake s) := by
  unfold usbRwake
  repeat' first
    | (with_reducible first
        | assumption | intro _ | apply keeps_ite | apply up_keeps K)
    | exact off_sub rfl hb | exact off_bit rfl hb | dsimp only | split

theorem usbAddrWritten_keeps (K : Keeps nb P) (s : State) (hb : Off
    0x18000000000000000000000000000000000000000000000000000000000000000000000000000000000000000000000000000000000000000000000000000000000000000000000000000000000000000000000000000000000000000000000000000000000000000000000000000000000000000000000000000000000000000000000000000000000000000000000000000000000000000000000000000000000000
    nb) (h : P s) : P (usbAddrWritten s) := by
  unfold usbAddrWritten
  repeat' first
    | (with_reducible first
        | assumption | intro _ | apply K.wr | apply up_keeps K)
    | exact off_sub rfl hb | exact off_bit rfl hb | dsimp only | split

theorem pushApply_keeps (K : Keeps nb P) (s : State) (p data n ep : Nat) (hb : Off
    0x6000000000000000000000100000000000000000000000000000000000000000000000000000000000000000000000000000000000000000000000000000000000000000000000000000000000000000000000000000000000000000000000000000000000000000000000000000000000000000000000000000000000000000000000000000000000000000000000000000000000000000000000000000000000000000000000000000000000000000
    nb) (h : P s) : P (pushApply s p data n ep) := by
  unfold pushApply
  repeat' first
    | (with_reducible first
        | assumption | intro _ | apply keeps_ite | apply K.setq | apply usbPush_keeps K)
    | exact off_sub rfl hb | exact off_bit rfl hb | dsimp only | split

theorem rxPop_keeps (K : Keeps nb P) (s : State) (p : Nat) (hb : Off
    0x1000000000000000000006010102200000000000000000000000000000000000000000000000000000000000000000000000000000000000000000000000000000000000000000040000800080000000000000000000000000000000000000000000000000000000000000000000000000000000000000000000000000000000000000000000000000000000000000000000000000000000000000000000000000000000000000000000000000000000
    nb) (h : P s) : P (rxPop s p).2 := by
  unfold rxPop
  repeat' first
    | (with_reducible first
        | assumption | intro _ | apply keeps_ite | apply K.setq | apply ethXon_keeps K | apply slPopped_keeps K
        | apply uartRts_keeps K | apply uartXoff_keeps K | (apply keeps_fst; assumption) | (apply keeps_snd; assumption))
    | exact off_sub rfl hb | exact off_bit rfl hb | dsimp only | split

theorem pathFrameStart_keeps (K : Keeps nb P) (s : State) (p : Nat) (hb : Off
    0x1800000004000000000000000000000000000000000000000000000000000000000000000000000000000000000000000000000000000000000000000000000000000000000000000000000000081000000000000000000000000000000000000000000000000000000000000000000000000000000000000000000000000000000000000000000000000000000000000000000000000000000000000000000000000000000
    nb) (h : P s) : P (pathFrameStart s p) := by
  unfold pathFrameStart
  repeat' first
    | (with_reducible first
        | assumption | intro _ | apply keeps_ite | apply K.wr | apply cxFrameStart_keeps K)
    | exact off_sub rfl hb | exact off_bit rfl hb | dsimp only | split

theorem slSent_keeps (K : Keeps nb P) (s : State) (hb : Off
    0x800000000000000000000001000000080000000000000000000000000000000000000000000000000000000000000000000000000000000000000000000000000000000000000000000000000000000000000000000000000000000000000000000000000000000000000000000000000000000000000000000000000000000000000000000000000000000000000000000000000000000000000000000000000000000000000000000000000000000000
    nb) (h : P s) : P (slSent s) := by
  unfold slSent
  repeat' first
    | (with_reducible first
        | assumption | intro _ | apply K.setq | apply K.wr | apply down_keeps K)
    | exact off_sub rfl hb | exact off_bit rfl hb | dsimp only | split

theorem pathAppend_keeps (K : Keeps nb P) (s : State) (p : Nat) (hb : Off
    0x8000000000000000000000018000000E4000000000000000000000000000000000000000000000000000000000000000000000000000000000000000000000000000000000000000000000000000000000000000000000000181000000000000000000000000000000000000000000000000000000000000000000000000000000000000000000000000000000000000000000000000000000000000000000000000000000000000000000000000000000
    nb) (h : P s) : P (pathAppend s p) := by
  unfold pathAppend
  repeat' first
    | (with_reducible first
        | assumption | intro _ | apply keeps_ite | apply K.wr | apply cxAppend_keeps K | apply slSent_keeps K)
    | exact off_sub rfl hb | exact off_bit rfl hb | dsimp only | split

theorem pathStrip_keeps (K : Keeps nb P) (s : State) (p : Nat) (l : List Byte) (hb : Off
    0x800100000000000000000001800000014000000000000000000000000000000000000000000000000000000000000000000400000000000000000000000000000000000000000000000000000000000000000000000000006181200000000000000000000000000000000000000000000000000000000000000000000000000000000000000000000000000000000000000000000000000000000000000000000000000000000000000000000000000000
    nb) (h : P s) : P (pathStrip s p l) := by
  unfold pathStrip
  repeat' first
    | (with_reducible first
        | assumption | intro _ | apply keeps_ite | apply K.setq | apply K.wr | apply cxStrip_keeps K)
    | exact off_sub rfl hb | exact off_bit rfl hb | dsimp only | split

theorem cxDrain_keeps (K : Keeps nb P) (s : State) (hb : Off
    0x800000000000000000000001C02800088000000000000000000000000000000000000000000000000000000000000000000000000000000000000000000000000000000000000000000000000000000000000000000000000001040000000000000000000000000000000000000000000000000000000000000000000000000000000000000000000000000000000000000000000000000000000000000000000000000000000000000000000000000000
    nb) (h : P s) : P (cxDrain s) := by
  unfold cxDrain
  repeat' first
    | (with_reducible first
        | assumption | intro _ | apply keeps_each | apply keeps_ite | apply K.wr | apply down_keeps K | apply up_keeps K
        | apply slRxDone_keeps K | apply slSent_keeps K)
    | exact off_sub rfl hb | exact off_bit rfl hb | dsimp only | split

theorem portDrain_keeps (K : Keeps nb P) (s : State) (p : Nat) (hb : Off
    0x80700000000000000000000B992000080000000000000000000000000000000000000000000000000000000000000000000000000000000000000000000000000000000000000000000400000000000000000000000000000001000000000000000000000000000000000000000000000000000000000000000000000000000000000000000000000000000000000000000000000000000000000000000000000000000000000000000000000000000000
    nb) (h : P s) : P (portDrain s p) := by
  unfold portDrain
  repeat' first
    | (with_reducible first
        | assumption | intro _ | apply keeps_each | apply K.setq | apply K.wr | apply down_keeps K | apply up_keeps K
        | apply pathLeave_keeps K | apply usbFlush_keeps K)
    | exact off_sub rfl hb | exact off_bit rfl hb | dsimp only | split

end
end Sys2Proof.Machine
end

