-- ==== Sys2Proof/Laws/KeepsTimingRows.lean ====
section
/-!
SUPPORT. What each operation of Sys2Proof/Machine/TimingRows.lean can change: its footprint (Sys2Proof/Laws/Keeps.lean).
-/
namespace Sys2Proof.Machine
set_option linter.all false
section
variable {P : State → Prop} {nb : Nat}

theorem ctPulses_keeps (K : Keeps nb P) (s : State) (n p : Nat) (hb : Off
    0x2000000000000000000000001000000000000000000000000000000000000000000000000000000000000000000000000000000000000000000000000000000000000000000000000000000000000000000000000000000000000000000000000000000000000000000000000000000000000000000000000000000000000000000000000000000000000000000000000000000
    nb) (h : P s) : P (ctPulses s n p) := by
  unfold ctPulses
  repeat' first
    | (with_reducible first
        | assumption | intro _ | apply keeps_each | apply keeps_ite | apply routePulse_keeps K)
    | exact off_sub rfl hb | exact off_bit rfl hb | dsimp only | split

theorem ctSeen_keeps (K : Keeps nb P) (s : State) (n : Nat) (hb : Off
    0x40000000000000000000000000000000000000000000000000000000000000000000000000000000000000000000000000000000000000000000000000000000000000000000000000000000000000000000000000000000000000000000000000000000000000000000000000000000000000000000000000000000000000000000000000000000000000000000000
    nb) (h : P s) : P (ctSeen s n) := by
  unfold ctSeen
  repeat' first
    | (with_reducible first
        | assumption | intro _ | apply keeps_each | apply keeps_when | apply K.wr)
    | exact off_sub rfl hb | exact off_bit rfl hb | dsimp only | split

theorem sliceStep_keeps (K : Keeps nb P) (s : State) (n : Nat) (hb : Off
    0x100000000000000000000000000000000000000000000000000000002000006F4C080000000000001800000000000000400000000000000000000000000000000000000000000000000000000000000000000000000000000000000000000000000000000000000000000000000000000000000000000000000000000000000000000000000200400000070164000040000000000000000000000000000000000000000000000000000000000000000
    nb) (h : P s) : P (sliceStep s n) := by
  unfold sliceStep
  repeat' first
    | (with_reducible first
        | assumption | intro _ | apply keeps_ite | apply K.wr | apply down_keeps K | apply postIf_keeps K
        | apply armAtPeriodStart_keeps K | apply cmPeriodStart_keeps K | apply ctPulses_keeps K | apply ctSeen_keeps K
        | apply ctSetCount_keeps K | apply ctTransferAll_keeps K | (apply keeps_fst; assumption)
        | (apply keeps_snd; assumption))
    | exact off_sub rfl hb | exact off_bit rfl hb | dsimp only | split

theorem sliceStart_keeps (K : Keeps nb P) (s : State) (n : Nat) (hb : Off
    0x1000000000000000000000000000000000000000000000000000000000000000000000000000000000000000000000000000000000000000000000000000000000000000000000000000000000000000000000000000000000000000000000000000000004000000000000000000000000000000000000000000000000000000000000000000000
    nb) (h : P s) : P (sliceStart s n) := by
  unfold sliceStart
  repeat' first
    | (with_reducible first
        | assumption | intro _ | apply keeps_ite | apply up_keeps K | apply edgeTaken_keeps K)
    | exact off_sub rfl hb | exact off_bit rfl hb | dsimp only | split

theorem sliceSync_keeps (K : Keeps nb P) (s : State) (n : Nat) (hb : Off
    0x8000000000000001000000000000000000000000000000000000000000000000000000000000000000000000000000000000000000000000000000000000000000000000000000000000000000000000000000000000000000000000000000000000000000000000000000000000000000000000000000000000000000000000000000000000000000000000000000
    nb) (h : P s) : P (sliceSync s n) := by
  unfold sliceSync
  repeat' first
    | (with_reducible first
        | assumption | intro _ | apply keeps_ite | apply up_keeps K | apply edgeTaken_keeps K)
    | exact off_sub rfl hb | exact off_bit rfl hb | dsimp only | split

theorem cutterHome_keeps (K : Keeps nb P) (s : State) (n : Nat) (hb : Off
    0x100000000000000000000000000000000000000000000000000000000000006E00000000000000000000000000000000400000000000000000000000000000000000000000000000000000000000000000000000000000000000000000000000000000000000000000000000000000000000001000000000000000000000000000000000000200400000000000000000000000000000000000000000000000000000000000000000000000000000000
    nb) (h : P s) : P (cutterHome s n) := by
  unfold cutterHome
  repeat' first
    | (with_reducible first
        | assumption | intro _ | apply keeps_each | apply keeps_ite | apply post_keeps K | apply up_keeps K
        | apply legDisarm_keeps K)
    | exact off_sub rfl hb | exact off_bit rfl hb | dsimp only | split

theorem captureTake_keeps (K : Keeps nb P) (s : State) (n : Nat) (rise : Bool) (hb : Off
    0x500000000000000000000000000000000000000000000000000000002000006E00000000000000001000000000000000400000000000000000000000000000000000000000000000000000000000000000000000000000000000000000000000000000000000000000000000000000000000001000000000000000000000000000800000000200400000000000000000000000000000000000000000000000000000000000000000000000000000000
    nb) (h : P s) : P (captureTake s n rise) := by
  unfold captureTake
  repeat' first
    | (with_reducible first
        | assumption | intro _ | apply keeps_ite | apply capture_keeps K | apply cutterHome_keeps K)
    | exact off_sub rfl hb | exact off_bit rfl hb | dsimp only | split

theorem qdTake_keeps (K : Keeps nb P) (s : State) (q ab : Nat) (hb : Off
    0x2000100000000000000000001000000000000000000000000000000000000000000000000000000000000000000000000000000000000000000000000000000000000000000000000000000000000000000000000000000000000000000000000000000580000000000000000000000000000000000000000000000000000000000000000000000000000000000000000000000
    nb) (h : P s) : P (qdTake s q ab) := by
  unfold qdTake
  repeat' first
    | (with_reducible first
        | assumption | intro _ | apply keeps_ite | apply qdStep_keeps K)
    | exact off_sub rfl hb | exact off_bit rfl hb | dsimp only | split

theorem captureEdge_keeps (K : Keeps nb P) (s : State) (n : Nat) (rise : Bool) (hb : Off
    0x500000000000000000000000000000000000000000000000000000002000106E00000000000000001000000000000000400000000000000000000000000000000000000000000000000000000000000000000000000000000000000000000000000000000000000000000000000000000000001000000000000000000000000580800000000200400000000000000000000000000000000000000000000000000000000000000000000000000000000
    nb) (h : P s) : P (captureEdge s n rise) := by
  unfold captureEdge
  repeat' first
    | (with_reducible first
        | assumption | intro _ | apply keeps_ite | apply captureTake_keeps K | apply edgeTaken_keeps K
        | apply qdTake_keeps K)
    | exact off_sub rfl hb | exact off_bit rfl hb | dsimp only | split

theorem qdTransition_keeps (K : Keeps nb P) (s : State) (q : Nat) (a b : Bool) (hb : Off
    0x500000000000000000000000000000000000000000000000000000002000106E00000000000000001000000000000000400000000000000000000000000000000000000000000000000000000000000000000000000000000000000000000000000000000000000000000000000000000000001000000000000000000000000580800000000200400000000000000000000000000000000000000000000000000000000000000000000000000000000
    nb) (h : P s) : P (qdTransition s q a b) := by
  unfold qdTransition
  repeat' first
    | (with_reducible first
        | assumption | intro _ | apply keeps_each | apply keeps_ite | apply captureTake_keeps K | apply qdTake_keeps K)
    | exact off_sub rfl hb | exact off_bit rfl hb | dsimp only | split

theorem qdIndex_keeps (K : Keeps nb P) (s : State) (q : Nat) (level : Bool) (hb : Off
    0x100000000000000000000000000000000000000000000000000000002000000000000000000000001000000000000000400000000000000000000000000000000000000000000000000000000000000000000000000000000000000000000000000000000000000000000000000000000000000000000000000000000000000280000000000000000000000000000000000000000000000000000000000000000000000000000000000000000000000
    nb) (h : P s) : P (qdIndex s q level) := by
  unfold qdIndex
  repeat' first
    | (with_reducible first
        | assumption | intro _ | apply keeps_ite | apply K.wr | apply postIf_keeps K | apply routePulse_keeps K)
    | exact off_sub rfl hb | exact off_bit rfl hb | dsimp only | split

theorem legRefEdge_keeps (K : Keeps nb P) (s : State) (k : Nat) (hb : Off
    0xF00000000000000000000000000000000000000000000000000000000000000000000000000000000000000000000000000000000000000000000000000000000000000000000000000000000000000000000000000000000000000000000000000000000000200000000000000000000000000000000000000000000000000000000000000000000000000000000000
    nb) (h : P s) : P (legRefEdge s k) := by
  unfold legRefEdge
  repeat' first
    | (with_reducible first
        | assumption | intro _ | apply keeps_ite | apply wrb_keeps K | apply driveLeg_keeps K)
    | exact off_sub rfl hb | exact off_bit rfl hb | dsimp only | split

theorem deadTimeExpire_keeps (K : Keeps nb P) (s : State) (k j : Nat) (hb : Off
    0xE00000000000000000000000000000000000000000000000000000000000000000000000000000000000000000000000000000000000000000000000000000000000000000000000000000000000000000000000000000000000000000000000000000000000000000000000000000000000000000000000000000000000000000000000000000000000000000000000
    nb) (h : P s) : P (deadTimeExpire s k j) := by
  unfold deadTimeExpire
  repeat' first
    | (with_reducible first
        | assumption | intro _ | apply keeps_ite | apply down_keeps K | apply setSide_keeps K)
    | exact off_sub rfl hb | exact off_bit rfl hb | dsimp only | split

theorem blankEnd_keeps (K : Keeps nb P) (s : State) (k : Nat) (hb : Off
    0x100000000000000000000000000000000000000000000000000000000000007E80000000000000001800000000000000400000000000000000000000000000000000000000000000000000000000000000000000000000000000000000000000000000000000000000000000000000000000000000000000000000000000000000000001F9838FC00000000000000000000000000000000000000000000000000000000100000000000000000000000
    nb) (h : P s) : P (blankEnd s k) := by
  unfold blankEnd
  repeat' first
    | (with_reducible first
        | assumption | intro _ | apply keeps_ite | apply bump_keeps K | apply down_keeps K | apply up_keeps K
        | apply trip_keeps K | (apply keeps_fst; assumption) | (apply keeps_snd; assumption))
    | exact off_sub rfl hb | exact off_bit rfl hb | dsimp only | split

theorem legExtTrip_keeps (K : Keeps nb P) (s : State) (k : Nat) (hb : Off
    0x100000000000000000000000000000000000000000000000000000000000006E80000000000000001800000000000000400000000000000000000000000000000000000000000000000000000000000000000000000000000000000000000000000000000000000000000000000000000000000000000000000000000000000000000001F98287C00000000000000000000000000000000000000000000000000000000100000000000000000000000
    nb) (h : P s) : P (legExtTrip s k) := by
  unfold legExtTrip
  repeat' first
    | (with_reducible first
        | assumption | intro _ | apply keeps_ite | apply edgeTaken_keeps K | apply trip_keeps K)
    | exact off_sub rfl hb | exact off_bit rfl hb | dsimp only | split

theorem routeBurst_keeps (K : Keeps nb P) (s : State) (hb : Off
    0x20000F8000000000000000001000000000000000000000000000000000000000000000000000000000000000000000000000000000000000000000000000000000000000000000000000000000000000000000000000000000000000000000000000000000000C00000000000000000000000000000000000000000000000000000000000000000000000000000000000000000
    nb) (h : P s) : P (routeBurst s) := by
  unfold routeBurst
  repeat' first
    | (with_reducible first
        | assumption | intro _ | apply keeps_ite | apply burstStart_keeps K | apply edgeTaken_keeps K
        | apply routePulse_keeps K)
    | exact off_sub rfl hb | exact off_bit rfl hb | dsimp only | split

theorem strobeActivate_keeps (K : Keeps nb P) (s : State) (n : Nat) (hb : Off
    0x10000000000000000000000000000000000000000000000000000001A0000600000000000000000010000000000000004000000000000000000000000000000000000000000000000000000000000000000000000000000000000000000000000000000000000000000000000000000000000000000143C0000000000000000000000080000000000000000000000000000000000000000000000000000000000000000000000000000000000000000
    nb) (h : P s) : P (strobeActivate s n) := by
  unfold strobeActivate
  repeat' first
    | (with_reducible first
        | assumption | intro _ | apply keeps_ite | apply K.wr | apply down_keeps K | apply burstOver_keeps K)
    | exact off_sub rfl hb | exact off_bit rfl hb | dsimp only | split

theorem strobeWidthEnd_keeps (K : Keeps nb P) (s : State) (n : Nat) (hb : Off
    0x10000000000000000000000000000000000000000000000000000001A0000400000000000000000010000000000000004000000000000000000000000000000000000000000000000000000000000000000000000000000000000000000000000000000000000000000000000000000000000000000143C0000000000000000000000080000000000000000000000000000000000000000000000000000000000000000000000000000000000000000
    nb) (h : P s) : P (strobeWidthEnd s n) := by
  unfold strobeWidthEnd
  repeat' first
    | (with_reducible first
        | assumption | intro _ | apply keeps_ite | apply K.wr | apply down_keeps K | apply burstOver_keeps K)
    | exact off_sub rfl hb | exact off_bit rfl hb | dsimp only | split

theorem execSliceStep_keeps (K : Keeps nb P) (slice : Fin 16) (s : State) (hb : Off
    0x100000000000000000000000000000000000000000000000000000002000006F4C080000000000001800000000000000400000000000000000000000000000000000000000000000000000000000000000000000000000000000000000000000000000000000000000000000000000000000000000000000000000000000000000000000000200400000070164000040000000000000000000000000000000000000000000000000000000000000000
    nb) (h : P s) : OutKeeps P (execSliceStep slice s) := by
  unfold execSliceStep
  repeat' first
    | (with_reducible first
        | assumption | intro _ | apply outKeeps_next | apply sliceStep_keeps K)
    | exact off_sub rfl hb | exact off_bit rfl hb | dsimp only | split

theorem execSliceStartEdge_keeps (K : Keeps nb P) (slice : Fin 16) (s : State) (hb : Off
    0x1000000000000000000000000000000000000000000000000000000000000000000000000000000000000000000000000000000000000000000000000000000000000000000000000000000000000000000000000000000000000000000000000000000004000000000000000000000000000000000000000000000000000000000000000000000
    nb) (h : P s) : OutKeeps P (execSliceStartEdge slice s) := by
  unfold execSliceStartEdge
  repeat' first
    | (with_reducible first
        | assumption | intro _ | apply outKeeps_next | apply sliceStart_keeps K)
    | exact off_sub rfl hb | exact off_bit rfl hb | dsimp only | split

theorem execSliceSyncEdge_keeps (K : Keeps nb P) (slice : Fin 16) (s : State) (hb : Off
    0x8000000000000001000000000000000000000000000000000000000000000000000000000000000000000000000000000000000000000000000000000000000000000000000000000000000000000000000000000000000000000000000000000000000000000000000000000000000000000000000000000000000000000000000000000000000000000000000000
    nb) (h : P s) : OutKeeps P (execSliceSyncEdge slice s) := by
  unfold execSliceSyncEdge
  repeat' first
    | (with_reducible first
        | assumption | intro _ | apply outKeeps_next | apply sliceSync_keeps K)
    | exact off_sub rfl hb | exact off_bit rfl hb | dsimp only | split

theorem execCaptureEdge_keeps (K : Keeps nb P) (ch : Fin 16) (rise : Bool) (s : State) (hb : Off
    0x500000000000000000000000000000000000000000000000000000002000106E00000000000000001000000000000000400000000000000000000000000000000000000000000000000000000000000000000000000000000000000000000000000000000000000000000000000000000000001000000000000000000000000580800000000200400000000000000000000000000000000000000000000000000000000000000000000000000000000
    nb) (h : P s) : OutKeeps P (execCaptureEdge ch rise s) := by
  unfold execCaptureEdge
  repeat' first
    | (with_reducible first
        | assumption | intro _ | apply outKeeps_next | apply captureEdge_keeps K)
    | exact off_sub rfl hb | exact off_bit rfl hb | dsimp only | split

theorem execQdTransition_keeps (K : Keeps nb P) (qd : Fin 2) (a b : Bool) (s : State) (hb : Off
    0x500000000000000000000000000000000000000000000000000000002000106E00000000000000001000000000000000400000000000000000000000000000000000000000000000000000000000000000000000000000000000000000000000000000000000000000000000000000000000001000000000000000000000000580800000000200400000000000000000000000000000000000000000000000000000000000000000000000000000000
    nb) (h : P s) : OutKeeps P (execQdTransition qd a b s) := by
  unfold execQdTransition
  repeat' first
    | (with_reducible first
        | assumption | intro _ | apply outKeeps_next | apply qdTransition_keeps K)
    | exact off_sub rfl hb | exact off_bit rfl hb | dsimp only | split

theorem execQdIndexEdge_keeps (K : Keeps nb P) (edge : IndexEdge) (s : State) (hb : Off
    0x100000000000000000000000000000000000000000000000000000002000000000000000000000001000000000000000400000000000000000000000000000000000000000000000000000000000000000000000000000000000000000000000000000000000000000000000000000000000000000000000000000000000000280000000000000000000000000000000000000000000000000000000000000000000000000000000000000000000000
    nb) (h : P s) : OutKeeps P (execQdIndexEdge edge s) := by
  unfold execQdIndexEdge
  repeat' first
    | (with_reducible first
        | assumption | intro _ | apply outKeeps_next | apply qdIndex_keeps K)
    | exact off_sub rfl hb | exact off_bit rfl hb | dsimp only | split

theorem execLegRefEdge_keeps (K : Keeps nb P) (leg : Fin 16) (s : State) (hb : Off
    0xF00000000000000000000000000000000000000000000000000000000000000000000000000000000000000000000000000000000000000000000000000000000000000000000000000000000000000000000000000000000000000000000000000000000000200000000000000000000000000000000000000000000000000000000000000000000000000000000000
    nb) (h : P s) : OutKeeps P (execLegRefEdge leg s) := by
  unfold execLegRefEdge
  repeat' first
    | (with_reducible first
        | assumption | intro _ | apply outKeeps_next | apply legRefEdge_keeps K)
    | exact off_sub rfl hb | exact off_bit rfl hb | dsimp only | split

theorem execDeadTimeExpire_keeps (K : Keeps nb P) (leg : Fin 16) (side : Fin 2) (s : State) (hb : Off
    0xE00000000000000000000000000000000000000000000000000000000000000000000000000000000000000000000000000000000000000000000000000000000000000000000000000000000000000000000000000000000000000000000000000000000000000000000000000000000000000000000000000000000000000000000000000000000000000000000000
    nb) (h : P s) : OutKeeps P (execDeadTimeExpire leg side s) := by
  unfold execDeadTimeExpire
  repeat' first
    | (with_reducible first
        | assumption | intro _ | apply outKeeps_next | apply deadTimeExpire_keeps K)
    | exact off_sub rfl hb | exact off_bit rfl hb | dsimp only | split

theorem execBlankWindowEnd_keeps (K : Keeps nb P) (leg : Fin 16) (s : State) (hb : Off
    0x100000000000000000000000000000000000000000000000000000000000007E80000000000000001800000000000000400000000000000000000000000000000000000000000000000000000000000000000000000000000000000000000000000000000000000000000000000000000000000000000000000000000000000000000001F9838FC00000000000000000000000000000000000000000000000000000000100000000000000000000000
    nb) (h : P s) : OutKeeps P (execBlankWindowEnd leg s) := by
  unfold execBlankWindowEnd
  repeat' first
    | (with_reducible first
        | assumption | intro _ | apply outKeeps_next | apply blankEnd_keeps K)
    | exact off_sub rfl hb | exact off_bit rfl hb | dsimp only | split

theorem execLegExtTrip_keeps (K : Keeps nb P) (leg : Fin 16) (s : State) (hb : Off
    0x100000000000000000000000000000000000000000000000000000000000006E80000000000000001800000000000000400000000000000000000000000000000000000000000000000000000000000000000000000000000000000000000000000000000000000000000000000000000000000000000000000000000000000000000001F98287C00000000000000000000000000000000000000000000000000000000100000000000000000000000
    nb) (h : P s) : OutKeeps P (execLegExtTrip leg s) := by
  unfold execLegExtTrip
  repeat' first
    | (with_reducible first
        | assumption | intro _ | apply outKeeps_next | apply legExtTrip_keeps K)
    | exact off_sub rfl hb | exact off_bit rfl hb | dsimp only | split

theorem execStrobeBurstStart_keeps (K : Keeps nb P) (s : State) (hb : Off
    0x20000F8000000000000000001000000000000000000000000000000000000000000000000000000000000000000000000000000000000000000000000000000000000000000000000000000000000000000000000000000000000000000000000000000000000C00000000000000000000000000000000000000000000000000000000000000000000000000000000000000000
    nb) (h : P s) : OutKeeps P (execStrobeBurstStart s) := by
  unfold execStrobeBurstStart
  repeat' first
    | (with_reducible first
        | assumption | intro _ | apply outKeeps_next | apply routeBurst_keeps K)
    | exact off_sub rfl hb | exact off_bit rfl hb | dsimp only | split

theorem execStrobeActivate_keeps (K : Keeps nb P) (strobe : Fin 8) (s : State) (hb : Off
    0x10000000000000000000000000000000000000000000000000000001A0000600000000000000000010000000000000004000000000000000000000000000000000000000000000000000000000000000000000000000000000000000000000000000000000000000000000000000000000000000000143C0000000000000000000000080000000000000000000000000000000000000000000000000000000000000000000000000000000000000000
    nb) (h : P s) : OutKeeps P (execStrobeActivate strobe s) := by
  unfold execStrobeActivate
  repeat' first
    | (with_reducible first
        | assumption | intro _ | apply outKeeps_next | apply strobeActivate_keeps K)
    | exact off_sub rfl hb | exact off_bit rfl hb | dsimp only | split

theorem execStrobeWidthEnd_keeps (K : Keeps nb P) (strobe : Fin 8) (s : State) (hb : Off
    0x10000000000000000000000000000000000000000000000000000001A0000400000000000000000010000000000000004000000000000000000000000000000000000000000000000000000000000000000000000000000000000000000000000000000000000000000000000000000000000000000143C0000000000000000000000080000000000000000000000000000000000000000000000000000000000000000000000000000000000000000
    nb) (h : P s) : OutKeeps P (execStrobeWidthEnd strobe s) := by
  unfold execStrobeWidthEnd
  repeat' first
    | (with_reducible first
        | assumption | intro _ | apply outKeeps_next | apply strobeWidthEnd_keeps K)
    | exact off_sub rfl hb | exact off_bit rfl hb | dsimp only | split

end
end Sys2Proof.Machine
end

