-- ==== Sys2Proof/Laws/KeepsPrint.lean ====
section
/-!
SUPPORT. What each operation of Sys2Proof/Machine/Print.lean can change: its footprint (Sys2Proof/Laws/Keeps.lean).
-/
namespace Sys2Proof.Machine
set_option linter.all false
section
variable {P : State → Prop} {nb : Nat}

theorem shiftPlane_keeps (K : Keeps nb P) (s : State) (j : Nat) (hb : Off
    0x68000000000000000000000000000000000000000000000000000000000000000000000000000000000000000000000000000000000000000000000000000000000000000000000000000000000000000000000000000000000000200000000000000000000000000000000000000000000000000000000000000000000000000000000000000000000000000000000000000000
    nb) (h : P s) : P (shiftPlane s j) := by
  unfold shiftPlane
  repeat' first
    | (with_reducible first
        | assumption | intro _ | apply K.wr | apply down_keeps K)
    | exact off_sub rfl hb | exact off_bit rfl hb | dsimp only | split

theorem lineStart_keeps (K : Keeps nb P) (s : State) (hb : Off
    0x100000000000000000000000000000000000000000000000000002FEA0000000000000000000000010000000000000004000000000000000000000000000000000000000000000000000000000000000000000000000000000000000000000000000000000000000000000000000000000000000000173C0000000000000000000000000000000000000000000000000000000000000000000000000000000000000000000000000000000000000000
    nb) (h : P s) : P (lineStart s) := by
  unfold lineStart
  repeat' first
    | (with_reducible first
        | assumption | intro _ | apply keeps_each | apply keeps_ite | apply K.wr | apply bump_keeps K | apply down_keeps K
        | apply post_keeps K | apply up_keeps K | apply wrb_keeps K | apply lineDone_keeps K | apply routePulse_keeps K
        | apply shiftPlane_keeps K)
    | exact off_sub rfl hb | exact off_bit rfl hb | dsimp only | split

theorem planeShifted_keeps (K : Keeps nb P) (s : State) (hb : Off
    0xC048000000000000000000000000000000000000000000000000000000000000000000000000000000000000000000000000000000000000000000000000000000000000000000000000000000000000000000000000000000000000000000000000000000000000000000000000000000000000000000000000000000000000000000000000000000000000000000000000000000
    nb) (h : P s) : P (planeShifted s) := by
  unfold planeShifted
  repeat' first
    | (with_reducible first
        | assumption | intro _ | apply keeps_each | apply keeps_ite | apply K.wr | apply up_keeps K)
    | exact off_sub rfl hb | exact off_bit rfl hb | dsimp only | split

theorem latchStart_keeps (K : Keeps nb P) (s : State) (hb : Off
    0x10008000000000000000000000000000000000000000000000000000000000000000000000000000000000000000000000000000000000000000000000000000000000000000000000000000000000000000000000000000000000000000000000000000000000000000000000000000000000000000000000000000000000000000000000000000000000000000000000000000000
    nb) (h : P s) : P (latchStart s) := by
  unfold latchStart
  repeat' first
    | (with_reducible first
        | assumption | intro _ | apply keeps_ite | apply K.wr)
    | exact off_sub rfl hb | exact off_bit rfl hb | dsimp only | split

theorem latchEnd_keeps (K : Keeps nb P) (s : State) (hb : Off
    0x10000000000000000000000000000000000000000000000000000387A0000F80000000000000000010000000000000004000000000000000000000000000000000000000000000000000000000000000000000000000000000000000000000000000000000000000000000000000000000000000000143C0000000000000000000000C00000000000000000000000000000000000000000000000000000000000000000000000000000000000000000
    nb) (h : P s) : P (latchEnd s) := by
  unfold latchEnd
  repeat' first
    | (with_reducible first
        | assumption | intro _ | apply keeps_ite | apply K.wr | apply up_keeps K | apply burstOver_keeps K
        | apply burstStart_keeps K | apply routePulse_keeps K | apply shiftPlane_keeps K | (apply keeps_fst; assumption)
        | (apply keeps_snd; assumption))
    | exact off_sub rfl hb | exact off_bit rfl hb | dsimp only | split

theorem routeLine_keeps (K : Keeps nb P) (s : State) (hb : Off
    0x100000000000000000000000000000000000000000000000000002FEA0000000000000000000000010000000000000004000000000000000000000000000000000000000000000000000000000000000000000000000000000000000000000000000000000000000000000000000000000000000000173C0000000000000000000000000000000000000000000000000000000000000000000000000000000000000000000000000000000000000000
    nb) (h : P s) : P (routeLine s) := by
  unfold routeLine
  repeat' first
    | (with_reducible first
        | assumption | intro _ | apply keeps_ite | apply edgeTaken_keeps K | apply lineStart_keeps K)
    | exact off_sub rfl hb | exact off_bit rfl hb | dsimp only | split

theorem hdsCommit_keeps (K : Keeps nb P) (s : State) (m : Nat) (hb : Off
    0x8040000000000000000000000000000000000000000000000000000000000000000000000000000000000000000000000000000000000000000
    nb) (h : P s) : P (hdsCommit s m) := by
  unfold hdsCommit
  repeat' first
    | (with_reducible first
        | assumption | intro _ | apply keeps_each | apply keeps_ite | apply K.wr | apply bump_keeps K)
    | exact off_sub rfl hb | exact off_bit rfl hb | dsimp only | split

theorem hdsEnChanged_keeps (K : Keeps nb P) (s : State) (old : Bool) (hb : Off
    0x580000000000000000000000000000000000000000000000000000000000000000000000000000000000000000000000000000000000000000000000000000000000000000000000000000000000000000000000000000000000003C0000000000000000000000000000000000000000000000000000000000000000000000000000000000000000000000000000000000000000
    nb) (h : P s) : P (hdsEnChanged s old) := by
  unfold hdsEnChanged
  repeat' first
    | (with_reducible first
        | assumption | intro _ | apply keeps_ite | apply K.wr | apply hdsAbandon_keeps K)
    | exact off_sub rfl hb | exact off_bit rfl hb | dsimp only | split

theorem yank_keeps (K : Keeps nb P) (s : State) (hb : Off
    0x10000000000000000000000000000000000000000000000000000201A000066E000000000000000018000000000000004000000000000000000000000000000000000000000000000000000000000000000000000000000000000000000000000000000000000000000000000000000000000001200143C0000000000000000000000280000200400000000000000000000000000000000000000000000000000000000000000000000000000000000
    nb) (h : P s) : P (yank s) := by
  unfold yank
  repeat' first
    | (with_reducible first
        | assumption | intro _ | apply keeps_each | apply bump_keeps K | apply post_keeps K | apply up_keeps K
        | apply applyInhibit_keeps K | apply legDisarm_keeps K | apply routeFollow_keeps K)
    | exact off_sub rfl hb | exact off_bit rfl hb | dsimp only | split

theorem yankDetect_keeps (K : Keeps nb P) (s : State) (a : Nat) (hb : Off
    0x10000000000000000000000000000000000000000000000000000201A000066E000000000000000018000000000000004000000000000000000000000000000000000000000000000000000000000000000000000000000000000000000000000000000000000000000000000000000000000001E00143C0000000000000000000000280000200400000000000000000000000000000000000000000000000000000000000000000000000000000000
    nb) (h : P s) : P (yankDetect s a) := by
  unfold yankDetect
  repeat' first
    | (with_reducible first
        | assumption | intro _ | apply keeps_ite | apply K.wr | apply yank_keeps K)
    | exact off_sub rfl hb | exact off_bit rfl hb | dsimp only | split

theorem conversionEnd_keeps (K : Keeps nb P) (s : State) (n : Nat) (x : Int) (hb : Off
    0x10000000000000000000000000000000000000000000000000000201A000066E0003DF800000000018000000000000004000000000000000000000000000000000000000000000000000000000000000000000000000000000000000000000000000000000000000000000000000000000000001E00143C0000000000000000000000280000200400000000000000000000600660000000000000000000000000000000000000000000000000000000
    nb) (h : P s) : P (conversionEnd s n x) := by
  unfold conversionEnd
  repeat' first
    | (with_reducible first
        | assumption | intro _ | apply keeps_ite | apply adConversionEnd_keeps K | apply yankDetect_keeps K)
    | exact off_sub rfl hb | exact off_bit rfl hb | dsimp only | split

theorem dkFire_keeps (K : Keeps nb P) (s : State) (d : Nat) (hb : Off
    0x50000000000000000000000000000000000000000000000000000000000000000000000000000000000000000000000000000000000000000000000000
    nb) (h : P s) : P (dkFire s d) := by
  unfold dkFire
  repeat' first
    | (with_reducible first
        | assumption | intro _ | apply keeps_ite | apply K.wr)
    | exact off_sub rfl hb | exact off_bit rfl hb | dsimp only | split

theorem dkPulseEnd_keeps (K : Keeps nb P) (s : State) (d : Nat) (hb : Off
    0x100000000000000000000000000000000000000000000000000000000000000000000000000000000000000000000000400000000000000000000000000000000000000000000000000000000000000000000000000000000000000000000000000000000000000000000000000000000000030000000000000000000000000000000000000000000000000000000000000000000000000000000000000000000000000000000000000000000000000
    nb) (h : P s) : P (dkPulseEnd s d) := by
  unfold dkPulseEnd
  repeat' first
    | (with_reducible first
        | assumption | intro _ | apply keeps_ite | apply K.wr | apply post_keeps K)
    | exact off_sub rfl hb | exact off_bit rfl hb | dsimp only | split

theorem dkCoolEnd_keeps (K : Keeps nb P) (s : State) (d : Nat) (hb : Off
    0x20000000000000000000000000000000000000000000000000000000000000000000000000000000000000000000000000000000000000000000000000
    nb) (h : P s) : P (dkCoolEnd s d) := by
  unfold dkCoolEnd
  repeat' first
    | (with_reducible first
        | assumption | intro _ | apply K.wr)
    | exact off_sub rfl hb | exact off_bit rfl hb | dsimp only | split

theorem execAdcConversionEnd_keeps (K : Keeps nb P) (ad : Fin 4) (uv : BitVec 32) (s : State) (hb : Off
    0x10000000000000000000000000000000000000000000000000000201A000066E0003DF800000000018000000000000004000000000000000000000000000000000000000000000000000000000000000000000000000000000000000000000000000000000000000000000000000000000000001E00143C0000000000000000000000280000200400000000000000000000600660000000000000000000000000000000000000000000000000000000
    nb) (h : P s) : OutKeeps P (execAdcConversionEnd ad uv s) := by
  unfold execAdcConversionEnd
  repeat' first
    | (with_reducible first
        | assumption | intro _ | apply outKeeps_next | apply conversionEnd_keeps K)
    | exact off_sub rfl hb | exact off_bit rfl hb | dsimp only | split

theorem execLineStart_keeps (K : Keeps nb P) (s : State) (hb : Off
    0x100000000000000000000000000000000000000000000000000002FEA0000000000000000000000010000000000000004000000000000000000000000000000000000000000000000000000000000000000000000000000000000000000000000000000000000000000000000000000000000000000173C0000000000000000000000000000000000000000000000000000000000000000000000000000000000000000000000000000000000000000
    nb) (h : P s) : OutKeeps P (execLineStart s) := by
  unfold execLineStart
  repeat' first
    | (with_reducible first
        | assumption | intro _ | apply outKeeps_next | apply routeLine_keeps K)
    | exact off_sub rfl hb | exact off_bit rfl hb | dsimp only | split

theorem execPlaneShiftDone_keeps (K : Keeps nb P) (s : State) (hb : Off
    0xC048000000000000000000000000000000000000000000000000000000000000000000000000000000000000000000000000000000000000000000000000000000000000000000000000000000000000000000000000000000000000000000000000000000000000000000000000000000000000000000000000000000000000000000000000000000000000000000000000000000
    nb) (h : P s) : OutKeeps P (execPlaneShiftDone s) := by
  unfold execPlaneShiftDone
  repeat' first
    | (with_reducible first
        | assumption | intro _ | apply outKeeps_next | apply planeShifted_keeps K)
    | exact off_sub rfl hb | exact off_bit rfl hb | dsimp only | split

theorem execLatchPulseStart_keeps (K : Keeps nb P) (s : State) (hb : Off
    0x10008000000000000000000000000000000000000000000000000000000000000000000000000000000000000000000000000000000000000000000000000000000000000000000000000000000000000000000000000000000000000000000000000000000000000000000000000000000000000000000000000000000000000000000000000000000000000000000000000000000
    nb) (h : P s) : OutKeeps P (execLatchPulseStart s) := by
  unfold execLatchPulseStart
  repeat' first
    | (with_reducible first
        | assumption | intro _ | apply outKeeps_next | apply latchStart_keeps K)
    | exact off_sub rfl hb | exact off_bit rfl hb | dsimp only | split

theorem execLatchPulseEnd_keeps (K : Keeps nb P) (s : State) (hb : Off
    0x10000000000000000000000000000000000000000000000000000387A0000F80000000000000000010000000000000004000000000000000000000000000000000000000000000000000000000000000000000000000000000000000000000000000000000000000000000000000000000000000000143C0000000000000000000000C00000000000000000000000000000000000000000000000000000000000000000000000000000000000000000
    nb) (h : P s) : OutKeeps P (execLatchPulseEnd s) := by
  unfold execLatchPulseEnd
  repeat' first
    | (with_reducible first
        | assumption | intro _ | apply outKeeps_next | apply latchEnd_keeps K)
    | exact off_sub rfl hb | exact off_bit rfl hb | dsimp only | split

theorem execDkPulseEnd_keeps (K : Keeps nb P) (dk : Fin 2) (s : State) (hb : Off
    0x100000000000000000000000000000000000000000000000000000000000000000000000000000000000000000000000400000000000000000000000000000000000000000000000000000000000000000000000000000000000000000000000000000000000000000000000000000000000030000000000000000000000000000000000000000000000000000000000000000000000000000000000000000000000000000000000000000000000000
    nb) (h : P s) : OutKeeps P (execDkPulseEnd dk s) := by
  unfold execDkPulseEnd
  repeat' first
    | (with_reducible first
        | assumption | intro _ | apply outKeeps_next | apply dkPulseEnd_keeps K)
    | exact off_sub rfl hb | exact off_bit rfl hb | dsimp only | split

theorem execDkCoolEnd_keeps (K : Keeps nb P) (dk : Fin 2) (s : State) (hb : Off
    0x20000000000000000000000000000000000000000000000000000000000000000000000000000000000000000000000000000000000000000000000000
    nb) (h : P s) : OutKeeps P (execDkCoolEnd dk s) := by
  unfold execDkCoolEnd
  repeat' first
    | (with_reducible first
        | assumption | intro _ | apply outKeeps_next | apply dkCoolEnd_keeps K)
    | exact off_sub rfl hb | exact off_bit rfl hb | dsimp only | split

end
end Sys2Proof.Machine
end

