-- ==== Sys2Proof/Laws/KeepsStartup.lean ====
section
/-!
SUPPORT. What each operation of Sys2Proof/Machine/Startup.lean can change: its footprint (Sys2Proof/Laws/Keeps.lean).
-/
namespace Sys2Proof.Machine
set_option linter.all false
section
variable {P : State → Prop} {nb : Nat}

theorem sysReset_keeps (K : Keeps nb P) (s : State) (hb : Off
    0x300000000000000000000000010000000000001C20000000000000000000000000000000000000001A000066E000000001000000010000000000000004080100000000000000000000000000000100000000000000000000000000000000000000000000000000000000000000000000000000000000000000000000000000000000143C0000000000000000000000280000200400000000000000000000000000000000000000000003C60000000000000820000200000200000080
    nb) (h : P s) : P (sysReset s) := by
  unfold sysReset
  repeat' first
    | (with_reducible first
        | assumption | intro _ | apply bReset_keeps K)
    | exact off_sub rfl hb | exact off_bit rfl hb | dsimp only | split

theorem pwdKick_keeps (K : Keeps nb P) (s : State) (hb : Off
    0x2000000000000000000000000000000000000000000000000000000000000000000000000000000000000000000000000000000000000000000000000000000000000000000000000000000000000000000000000000000000000000000000000000000000000000000000000000000000000000000000000000000000000000000000000
    nb) (h : P s) : P (pwdKick s) := by
  unfold pwdKick
  repeat' first
    | (with_reducible first
        | assumption | intro _ | apply keeps_ite | apply K.wr)
    | exact off_sub rfl hb | exact off_bit rfl hb | dsimp only | split

theorem giveUp_keeps (K : Keeps nb P) (s : State) (hb : Off
    0x300000000000000000000140010000000000001C20000000000000000000000000000000000000005A000066E000000001C3DF80010001000000000004580000000000000000000000000000000100000000000000000000000000000000000000000000000000000000000000000000000000000000000000000000000000100000143C0020000000000000000000280000200400000000800000000000000000000000000000100003C6060F000002060200008200000200042180
    nb) (h : P s) : P (giveUp s) := by
  unfold giveUp
  repeat' first
    | (with_reducible first
        | assumption | intro _ | apply up_keeps K | apply cDieLoss_keeps K)
    | exact off_sub rfl hb | exact off_bit rfl hb | dsimp only | split

theorem romDone_keeps (K : Keeps nb P) (s : State) (hb : Off 0x30000000000000000 nb) (h : P s) : P (romDone s) := by
  unfold romDone
  repeat' first
    | (with_reducible first
        | assumption | intro _ | apply keeps_ite | apply down_keeps K)
    | exact off_sub rfl hb | exact off_bit rfl hb | dsimp only | split

theorem ledgerClear_keeps (K : Keeps nb P) (s : State) (m : Nat) (hb : Off
    0x100000000000000000000000000000000000000000000000000000000000000000000000000000000000000000000000000000000000000000000000000000000000000000000000000000000000000000000000000000000000000000000000000000000000000000000000000000000000000000000000002000000000000000000000000
    nb) (h : P s) : P (ledgerClear s m) := by
  unfold ledgerClear
  repeat' first
    | (with_reducible first
        | assumption | intro _ | apply keeps_when | apply K.wr | apply up_keeps K)
    | exact off_sub rfl hb | exact off_bit rfl hb | dsimp only | split

theorem stkReset_keeps (K : Keeps nb P) (s : State) (c m : Bool) (hb : Off
    0x300000000000000000000140010000000000001C20000000000000000000000000000000000000005A000066E000000001C3DF80010001000840000004F80000000000000000000000000000000100080000000000000000000000000000000000000000000000000000000000000000000000000000000000000000000000100000143C0020000000000000000000280000200400000000800000000000000000000000000000100003C6060F0000020606000002000002000C6380
    nb) (h : P s) : P (stkReset s c m) := by
  unfold stkReset
  repeat' first
    | (with_reducible first
        | assumption | intro _ | apply keeps_when | apply cDieLoss_keeps K | apply mDieLoss_keeps K)
    | exact off_sub rfl hb | exact off_bit rfl hb | dsimp only | split

end
end Sys2Proof.Machine
end

