-- ==== Sys2Proof/Laws/KeepsRegView.lean ====
section
/-!
SUPPORT. What each operation of Sys2Proof/Machine/RegView.lean can change: its footprint (Sys2Proof/Laws/Keeps.lean).
-/
namespace Sys2Proof.Machine
set_option linter.all false
section
variable {P : State → Prop} {nb : Nat}

theorem afterRead_keeps (K : Keeps nb P) (s : State) (l : Loc) (k : Nat) (hb : Off
    0x5400000000000000000006090102200000000000000000000000000000000000000000000000000000000000000000000000000000000000000000000000000000000000000000040000800080000000000000000000000000000000000000000000000000000000000000000000000000000000000000000000000000000000000000000000000000000000000000000000000000000000000000000000000000000000000000000000000000000000
    nb) (h : P s) : P (afterRead s l k) := by
  unfold afterRead
  repeat' first
    | (with_reducible first
        | assumption | intro _ | apply keeps_ite | apply capturePop_keeps K | apply rxPop_keeps K | apply usbPop_keeps K)
    | exact off_sub rfl hb | exact off_bit rfl hb | dsimp only | split

end
end Sys2Proof.Machine
end

