-- ==== Sys2Proof/Laws/KeepsRegWrite.lean ====
section
/-!
SUPPORT. What each operation of Sys2Proof/Machine/RegWrite.lean can change: its footprint (Sys2Proof/Laws/Keeps.lean).
-/
namespace Sys2Proof.Machine
set_option linter.all false
section
variable {P : State → Prop} {nb : Nat}

theorem fieldWrite_keeps (K : Keeps nb P) (b : Blk) (i k v : Nat) (s : State) (r : FieldRow) (hb : Off fpRegs nb) (h : P s)
    : P (fieldWrite b i k v s r) := by
  unfold fieldWrite
  repeat' first
    | (with_reducible first
        | assumption | intro _ | apply K.wr)
    | exact off_sub rfl hb | exact off_bit rfl hb | exact off_any (off_sub rfl hb) | dsimp only | split

theorem plainWrite_keeps (K : Keeps nb P) (s : State) (l : Loc) (row : RegRow) (k v : Nat) (hb : Off fpRegs nb) (h : P s) :
    P (plainWrite s l row k v) := by
  unfold plainWrite
  repeat' first
    | (with_reducible first
        | assumption | intro _ | apply keeps_foldl | apply keeps_fold1 | apply keeps_fold2 | apply fieldWrite_keeps K)
    | exact off_sub rfl hb | exact off_bit rfl hb | dsimp only | split

theorem stkWrite_keeps (K : Keeps nb P) (s : State) (off v : Nat) (hb : Off
    0x300000000000000000000140010000000000001C20000000000000000000000000000000000000005A000066E000000001C3DF80010001000840000004F80000000000000000000000000000000100080000000000000000000000000000000000000000000000000000000000000000000000000000000000000000000000100000143C0020000000000000000000280000200400000000800000000000000000000000000000100003C6060F0000020606000002000002000C6380
    nb) (h : P s) : P (stkWrite s off v) := by
  unfold stkWrite
  repeat' first
    | (with_reducible first
        | assumption | intro _ | apply keeps_ite | apply stkReset_keeps K)
    | exact off_sub rfl hb | exact off_bit rfl hb | dsimp only | split

theorem suWrite_keeps (K : Keeps nb P) (s : State) (off v : Nat) (hb : Off
    0x300000000000000000000140010000000000001C20000000000000000000000000000000000000005A000066E000000001C3DF80010001020000000004580100000000000000000000000000000100000000000000000000000000000000000000000000000000000000000000000000000000000000000000000000000000100000143C0020000000000000000000280000200400000000800000000000000000000000000000100003C6060F000002060A20038200000200042180
    nb) (h : P s) : P (suWrite s off v) := by
  unfold suWrite
  repeat' first
    | (with_reducible first
        | assumption | intro _ | apply keeps_when | apply up_keeps K | apply giveUp_keeps K | apply ledgerClear_keeps K
        | apply pwdKick_keeps K | apply romDone_keeps K | apply sysReset_keeps K)
    | exact off_sub rfl hb | exact off_bit rfl hb | dsimp only | split

theorem patWrite_keeps (K : Keeps nb P) (s : State) (off v : Nat) (hb : Off
    0x40000000000000000000100000000000000000000000000000000000000000000000000000000000000000440000000000000000000000000000000000000000000000000000000000000000000000000000000000000040000000000000000000000000000000000000000000000000000000000000000000000000000000000000000000000000000000000000000000000000000000000000000000000000060F000000000000000000000000000000
    nb) (h : P s) : P (patWrite s off v) := by
  unfold patWrite
  repeat' first
    | (with_reducible first
        | assumption | intro _ | apply keeps_when | apply keeps_ite | apply liveCancel_keeps K | apply liveGo_keeps K)
    | exact off_sub rfl hb | exact off_bit rfl hb | dsimp only | split

theorem ptmWrite_keeps (K : Keeps nb P) (s0 s : State) (k off v : Nat) (hb : Off
    0x5C0000000000000000000000000000000000000000000000000000000000000000000000000000000000000000000000000000000000000000000000000000000000000000000000000000000000000000000000000000000000000000000000000000000000000000000000000000000000000F00000100900000000000000000000000000000000000000
    nb) (hs0 : P s0) (h : P s) : P (ptmWrite s0 s k off v) := by
  unfold ptmWrite
  repeat' first
    | (with_reducible first
        | assumption | intro _ | apply keeps_ite | apply clkReqWritten_keeps K | apply domCtrlWritten_keeps K
        | apply stateRequest_keeps K)
    | exact off_sub rfl hb | exact off_bit rfl hb | dsimp only | split

theorem pinWrite_keeps (K : Keeps nb P) (s : State) (off v : Nat) (hb : Off
    0x6000000000000000000000000000000000000000000000000000000000000000000000000000000000000000000000000000000000000000000000000000000000000000000000000000000000000000000000000000000000000000000000000000000000000000000000000000000000000008000000000000000000000000000000000000000000000000
    nb) (h : P s) : P (pinWrite s off v) := by
  unfold pinWrite
  repeat' first
    | (with_reducible first
        | assumption | intro _ | apply keeps_ite | apply K.wr | apply gpFreed_keeps K)
    | exact off_sub rfl hb | exact off_bit rfl hb | dsimp only | split

theorem adWrite_keeps (K : Keeps nb P) (s : State) (i off v : Nat) (hb : Off
    0x3E7800000000000000000000000000000000000000000000000000000000000000000000000000000000000000000000000000000000000000000000000000000000000000000000000000000000000000000000000000000000000000000000000000000000000000000000000000000181E0000000000000000000000000000000000000000000000000000000
    nb) (h : P s) : P (adWrite s i off v) := by
  unfold adWrite
  repeat' first
    | (with_reducible first
        | assumption | intro _ | apply keeps_when | apply adTrigger_keeps K)
    | exact off_sub rfl hb | exact off_bit rfl hb | dsimp only | split

theorem csaWrite_keeps (K : Keeps nb P) (s0 s : State) (k off v : Nat) (hb : Off
    0x100000000000000000000000000000000000000000000000000000000000000000000000000000000000000000000000000000000000000000000000000000000000000000000000000000000000000000000000000000000000000000000000000000000000000000000000000000001000000000000000000000000000000000000000000000000000000000000
    nb) (h : P s) : P (csaWrite s0 s k off v) := by
  unfold csaWrite
  repeat' first
    | (with_reducible first
        | assumption | intro _ | apply keeps_each | apply keeps_ite | apply wrb_keeps K | apply caChanged_keeps K)
    | exact off_sub rfl hb | exact off_bit rfl hb | dsimp only | split

theorem cmWrite_keeps (K : Keeps nb P) (s0 s : State) (k off v : Nat) (hb : Off
    0x10000000000000000000000000000000000000000000000000000201A000067E800800000000000018000000000000004000000000000000000000000000000000000000000000000000000000000000000000000000000000000000000000000000000000000000000000000000000000000000000143C0000000000000000000000281F98287C000000000000000D3FE0000000000000000000000000000000000000100000000000000000000000
    nb) (hs0 : P s0) (h : P s) : P (cmWrite s0 s k off v) := by
  unfold cmWrite
  repeat' first
    | (with_reducible first
        | assumption | intro _ | apply keeps_ite | apply bump_keeps K | apply cmCfgWrite_keeps K
        | apply cmLatchClear_keeps K)
    | exact off_sub rfl hb | exact off_bit rfl hb | dsimp only | split

theorem swWrite_keeps (K : Keeps nb P) (s : State) (off v : Nat) (hb : Off
    0x3E00000000000000000000000000000000000000000000000000000000000000000000000000000000000000000000000000000000000000000000000000000000000000000000000000000000000000000000000000000000000000000000000000000000000000000000000018000000000000000000000000000000000000000000000000000000000000000000
    nb) (h : P s) : P (swWrite s off v) := by
  unfold swWrite
  repeat' first
    | (with_reducible first
        | assumption | intro _ | apply keeps_ite | apply swGo_keeps K)
    | exact off_sub rfl hb | exact off_bit rfl hb | dsimp only | split

theorem ctWrite_keeps (K : Keeps nb P) (s0 s : State) (i k off v : Nat) (put : State → State) (hb : Off
    0x14000000000000000000000000000000000000000000000000000000000000000000000000000000000000000000000000000000000000000000000000000000000000000000000000000000000000000000000000000000000000000000000000000000000000000000170104000000000000000000000000000000000000000000000000000000000000000000000
    nb) (hs0 : P s0) (h : P s) (hput : ∀ t, P t → P (put t)) : P (ctWrite s0 s i k off v put) := by
  unfold ctWrite
  repeat' first
    | (with_reducible first
        | assumption | intro _ | apply keeps_each | apply keeps_when | apply keeps_ite | apply hput | apply up_keeps K
        | apply ctSoftShadow_keeps K | apply ctTransferAll_keeps K)
    | exact off_sub rfl hb | exact off_bit rfl hb | dsimp only | split

theorem lgArmWrite_keeps (K : Keeps nb P) (s : State) (i v : Nat) (hb : Off
    0x100000000000000000000000000000000000000000000000000000000000006F80000000000000001800000000000000400000000000000000000000000000000000000000000000000000000000000000000000000000000000000000000000000000000000000000000000000000000000000000000000000000000000000000000001F98297C00000000000000000000000000000000000000000000000000000000100000000000000000000000
    nb) (h : P s) : P (lgArmWrite s i v) := by
  unfold lgArmWrite
  repeat' first
    | (with_reducible first
        | assumption | intro _ | apply keeps_when | apply legArm_keeps K | apply legDisarm_keeps K | apply trip_keeps K
        | (apply keeps_fst; assumption) | (apply keeps_snd; assumption))
    | exact off_sub rfl hb | exact off_bit rfl hb | dsimp only | split

theorem lgWrite_keeps (K : Keeps nb P) (s0 s : State) (i off v : Nat) (hb : Off
    0x100000000000000000000000000000000000000000000000000000000000007F80000000000000001800000000000000400000000000000000000000000000000000000000000000000000000000000000000000000000000000000000000000000000000000000000000000000000000000000000000000000000000000000000000001F982D7C00000000000000000000000000000000000000000000000000000000100000000000000000000000
    nb) (hs0 : P s0) (h : P s) : P (lgWrite s0 s i off v) := by
  unfold lgWrite
  repeat' first
    | (with_reducible first
        | assumption | intro _ | apply keeps_ite | apply up_keeps K | apply causesCleared_keeps K | apply lgArmWrite_keeps K
        | apply tripAgain_keeps K)
    | exact off_sub rfl hb | exact off_bit rfl hb | dsimp only | split

theorem tripWrite_keeps (K : Keeps nb P) (s : State) (off v : Nat) (hb : Off
    0x6F00000000000000000000000000000000000000000000000000000000000000000000000000000000000000000000000000000000000000000000000000000000000000000000000000000000000000000000000000000000000000000000000000000000000210400000000000000000000000000000000000000000000000000000000000000000000000000000000
    nb) (h : P s) : P (tripWrite s off v) := by
  unfold tripWrite
  repeat' first
    | (with_reducible first
        | assumption | intro _ | apply keeps_each | apply keeps_ite | apply groupArm_keeps K)
    | exact off_sub rfl hb | exact off_bit rfl hb | dsimp only | split

theorem leWrite_keeps (K : Keeps nb P) (s : State) (k off v : Nat) (hb : Off fpRegs nb) (h : P s) : P (leWrite s k off v)
    := by
  unfold leWrite
  repeat' first
    | (with_reducible first
        | assumption | intro _ | apply keeps_ite | apply leClrWritten_keeps K | apply leSwapWritten_keeps K
        | apply ltRequest_keeps K)
    | exact off_sub rfl hb | exact off_bit rfl hb | dsimp only | split

theorem yankWritten_keeps (K : Keeps nb P) (s0 s : State) (hb : Off
    0x1800000000000000000000000000000000000000000000000000000000000000000000000000000000000000000000000000000000000000000000000000000000000000000000000000000040000000000000000000000000000000000000000000000000000000000000000000000000000000000000000000000000000000000000000000000
    nb) (h : P s) : P (yankWritten s0 s) := by
  unfold yankWritten
  repeat' first
    | (with_reducible first
        | assumption | intro _ | apply keeps_ite | apply K.wr | apply routeFollow_keeps K)
    | exact off_sub rfl hb | exact off_bit rfl hb | dsimp only | split

theorem hdsWrite_keeps (K : Keeps nb P) (s0 s : State) (k off v : Nat) (hb : Off
    0x100000000000000000000000000000000000000000000000000002FFA00000000000000000000000180000000000000040000000000000000000000000000000000000000000000000000000000000000000000000000000000000000000000000000000000000000000000000000000000005004001F3C0000000000000000000000000000000000000000000000000000000000000000000000000000000000000000000000000000000000000000
    nb) (h : P s) : P (hdsWrite s0 s k off v) := by
  unfold hdsWrite
  repeat' first
    | (with_reducible first
        | assumption | intro _ | apply keeps_when | apply keeps_ite | apply dkFire_keeps K | apply hdsCommit_keeps K
        | apply hdsEnChanged_keeps K | apply lineStart_keeps K | apply yankWritten_keeps K)
    | exact off_sub rfl hb | exact off_bit rfl hb | dsimp only | split

theorem hcuWrite_keeps (K : Keeps nb P) (s0 s : State) (off v : Nat) (hb : Off
    0x4E0000000000000000000000000000000000000000000000000000000000000000000000000000000000000000000000000000000000000000000000000000000000000000000000000000000000000000000000000000040000000000000000000000000000000000000000000000000000000000000000000000000000000000000000000000000000000000000000000000000000
    nb) (h : P s) : P (hcuWrite s0 s off v) := by
  unfold hcuWrite
  repeat' first
    | (with_reducible first
        | assumption | intro _ | apply keeps_ite | apply K.wr | apply down_keeps K)
    | exact off_sub rfl hb | exact off_bit rfl hb | dsimp only | split

theorem tcWrite_keeps (K : Keeps nb P) (s0 : State) (s : State) (i off v : Nat) (hb : Off
    0x80000000000000000000000000000000000000000000000000000000000000000000000000000000000000000000000000000000000000000000000000000000000000000000000000000000000000000000000000000000040000000000000000000000000000000000000000000000000000000000000000000000000000000000000000000000000000000000000000000000000000000
    nb) (hs0 : P s0) (h : P s) : P (tcWrite s0 s i off v) := by
  unfold tcWrite
  repeat' first
    | (with_reducible first
        | assumption | intro _ | apply dfaultClear_keeps K)
    | exact off_sub rfl hb | exact off_bit rfl hb | dsimp only | split

theorem ccWrite_keeps (K : Keeps nb P) (s : State) (i off v : Nat) (hb : Off
    0x20000000000000000000000000000000000000000000000000000000000000000000000000000000000000000000000000000000000000000000000000000000000000000000000000000000000000000000000000000000000800000000000000000000000000000000000000000000000000000000000000000000000000000000000000000000000000000000000000000000000000000000000
    nb) (h : P s) : P (ccWrite s i off v) := by
  unfold ccWrite
  repeat' first
    | (with_reducible first
        | assumption | intro _ | apply keeps_ite | apply ccInvWrite_keeps K)
    | exact off_sub rfl hb | exact off_bit rfl hb | dsimp only | split

theorem wdWrite_keeps (K : Keeps nb P) (s : State) (i off v : Nat) (hb : Off
    0x400000000000000000000000000000000000000000000000000000000000000000000000000000000000000000000000000000000000000000000000000000000000000
    nb) (h : P s) : P (wdWrite s i off v) := by
  unfold wdWrite
  repeat' first
    | (with_reducible first
        | assumption | intro _ | apply keeps_ite | apply watchdogKick_keeps K)
    | exact off_sub rfl hb | exact off_bit rfl hb | dsimp only | split

theorem dspWrite_keeps (K : Keeps nb P) (s0 s : State) (off v : Nat) (hb : Off
    0x10000000000000000000000809000000000000000000400000000000000000F8018000000000000000000000000000000000000000000100000000000400000000000000000000000000000000000000000C00000000000000000000000000000000000000000000000000000000007C000005800153EC8100000000000000000000000000000000000000000000000000000000000000000000000000000000000000000000000400C3C60000000002000000000000000200000000
    nb) (hs0 : P s0) (h : P s) : P (dspWrite s0 s off v) := by
  unfold dspWrite
  repeat' first
    | (with_reducible first
        | assumption | intro _ | apply dispatchEnable_keeps K | apply postTask_keeps K | apply recoverTask_keeps K)
    | exact off_sub rfl hb | exact off_bit rfl hb | dsimp only | split

theorem mpuWrite_keeps (K : Keeps nb P) (s : State) (i off v : Nat) (hb : Off
    0x80000000000000000000000000000000000000000000000000000000000000000000000000000000000000000000000000000000000000000000000000000000000000000000000000000
    nb) (h : P s) : P (mpuWrite s i off v) := by
  unfold mpuWrite
  repeat' first
    | (with_reducible first
        | assumption | intro _ | apply keeps_ite | apply up_keeps K)
    | exact off_sub rfl hb | exact off_bit rfl hb | dsimp only | split

theorem hingeWrite_keeps (K : Keeps nb P) (s : State) (v : Nat) (hb : Off
    0x300000000000000000000140010000000000001C2000000000000000005CF00000000000000000005A000066E000000001C3DF80010001000850000004F8000000000000000000000000000000010008000000000000000000000000000000000000000000000000000000BFD7E00000000000000000000000000000000000100000143C0020000000000000000000280000200400000000800000000000000000000000000000100003C6060F0004022E06000802000002000C6380
    nb) (h : P s) : P (hingeWrite s v) := by
  unfold hingeWrite
  repeat' first
    | (with_reducible first
        | assumption | intro _ | apply keeps_when | apply hingeRequest_keeps K)
    | exact off_sub rfl hb | exact off_bit rfl hb | dsimp only | split

theorem spWrite_keeps (K : Keeps nb P) (s : State) (off v : Nat) (hb : Off
    0x300000000000000000000140010000000000001C2000000000000000007FF00000000000000000005A000066E000000001C3DF80010001000850000004F8000000000000000000000000000000010008000000000000000000000000000000000000000000000000000000BFF7E00000000000000000000000000000000000100000143C0020000000000000000000280000200400000000800000000000000000000000000000100003C6060F0004022E06000802000002000C6380
    nb) (h : P s) : P (spWrite s off v) := by
  unfold spWrite
  repeat' first
    | (with_reducible first
        | assumption | intro _ | apply keeps_when | apply up_keeps K | apply degradeRequest_keeps K
        | apply hingeWrite_keeps K)
    | exact off_sub rfl hb | exact off_bit rfl hb | dsimp only | split

theorem dmaWrite_keeps (K : Keeps nb P) (s : State) (off v : Nat) (hb : Off
    0x20000000000000000000000000000000000000000000000000000000000000000000000000000000000000000000000000000000000000000000000000000000000000000000000000000000000000000000
    nb) (h : P s) : P (dmaWrite s off v) := by
  unfold dmaWrite
  repeat' first
    | (with_reducible first
        | assumption | intro _ | apply keeps_ite | apply up_keeps K)
    | exact off_sub rfl hb | exact off_bit rfl hb | dsimp only | split

theorem dmgWrite_keeps (K : Keeps nb P) (s0 s : State) (n off v : Nat) (hb : Off
    0x2000000000000000000000000000000000600000000000000000000000000000000000000000000000000000000000000000000000000000000000000000000000000000000000000000000000000000000000000000000000000000000060040000000000000000000000000000000000000000000000000000000000000000000000000000000000000000000000000000000000000000000000000000000000000000000000000000000000000000000
    nb) (h : P s) : P (dmgWrite s0 s n off v) := by
  unfold dmgWrite
  repeat' first
    | (with_reducible first
        | assumption | intro _ | apply keeps_when | apply keeps_ite | apply dcCfgChanged_keeps K | apply dcClear_keeps K
        | apply dcRing_keeps K | apply dcRingMoved_keeps K | apply dcStop_keeps K)
    | exact off_sub rfl hb | exact off_bit rfl hb | dsimp only | split

theorem cxWrite_keeps (K : Keeps nb P) (s : State) (k off v : Nat) (hb : Off
    0x1000000000000000000000000000080000000000000000000000000000000000000000000000000000000000000000004000000000000000000000000000000000000000000000000000000000000000000000000000001F03D3800000000000000000000000000000000000000000000000000000000000000000000000000000000000000000000000000000000000000000000000000000000000000000000000000000000000000000000000000
    nb) (h : P s) : P (cxWrite s k off v) := by
  unfold cxWrite
  repeat' first
    | (with_reducible first
        | assumption | intro _ | apply keeps_each | apply keeps_when | apply keeps_ite | apply K.wr | apply down_keeps K
        | apply cxFinish_keeps K | apply cxPreset_keeps K | apply cxStart_keeps K)
    | exact off_sub rfl hb | exact off_bit rfl hb | dsimp only | split

theorem crWrite_keeps (K : Keeps nb P) (s : State) (off v : Nat) (hb : Off
    0x1C00000000000000000000000000000000000000000000000000000000000000000000000000000000000000000000000000000000000000000000000000000000000000000000000000000002400000000000000000000000000000000000000000000000000000000000000000000000000000000000000000000000000000000000000000000000000000000000000000000000000000000000000000000000000000000000
    nb) (h : P s) : P (crWrite s off v) := by
  unfold crWrite
  repeat' first
    | (with_reducible first
        | assumption | intro _ | apply keeps_ite | apply crCommand_keeps K)
    | exact off_sub rfl hb | exact off_bit rfl hb | dsimp only | split

theorem portWrite_keeps (K : Keeps nb P) (s0 s : State) (p off v : Nat) (hb : Off
    0x600000000000000000000010C100000000000000000000000000000000000000000000000000000000000000000000000000000000000000000000000000000000000000000000010000800000000000000000000000000000000000000000000000000000000000000000000000000000000000000000000000000000000000000000000000000000000000000000000000000000000000000000000000000000000000000000000000000000000000
    nb) (h : P s) : P (portWrite s0 s p off v) := by
  unfold portWrite
  repeat' first
    | (with_reducible first
        | assumption | intro _ | apply keeps_ite | apply pushApply_keeps K | apply slEnChanged_keeps K
        | apply uartRts_keeps K | apply uartXoff_keeps K)
    | exact off_sub rfl hb | exact off_bit rfl hb | dsimp only | split

theorem usbWrite_keeps (K : Keeps nb P) (s0 s : State) (k off v : Nat) (hb : Off
    0x600000000000000000000010C158000000000000000000000000000000000000000000000000000000000000000000000000000000000000000000000000000000000000000000010000800000000000000000000000000000000000000000000000000000000000000000000000000000000000000000000000000000000000000000000000000000000000000000000000000000000000000000000000000000000000000000000000000000000000
    nb) (h : P s) : P (usbWrite s0 s k off v) := by
  unfold usbWrite
  repeat' first
    | (with_reducible first
        | assumption | intro _ | apply keeps_when | apply keeps_ite | apply portWrite_keeps K | apply pushApply_keeps K
        | apply usbAddrWritten_keeps K | apply usbRwake_keeps K)
    | exact off_sub rfl hb | exact off_bit rfl hb | dsimp only | split

theorem ethWrite_keeps (K : Keeps nb P) (s0 s : State) (off v : Nat) (hb : Off
    0x600000000000000000000010C104000000000000000000000000000000000000000000000000000000000000000000000000000000000000000000000000000000000000000000010000800018000000000000000000000000000000000000000000000000000000000000000000000000000000000000000000000000000000000000000000000000000000000000000000000000000000000000000000000000000000000000000000000000000000
    nb) (h : P s) : P (ethWrite s0 s off v) := by
  unfold ethWrite
  repeat' first
    | (with_reducible first
        | assumption | intro _ | apply keeps_ite | apply mdioCmd_keeps K | apply portWrite_keeps K)
    | exact off_sub rfl hb | exact off_bit rfl hb | dsimp only | split

theorem uartWrite_keeps (K : Keeps nb P) (s0 s : State) (i off v : Nat) (hb : Off
    0x600000000000000000000010C100000000000000000000000000000000000000000000000000000000000000000000000000000000000000000000000000000000000000000000010000800000000000000000000000000000000000000000000000000000000000000000000000000000000000000000000000000000000000000000000000000000000000000000000000000000000000000000000000000000000000000000000000000000000000
    nb) (h : P s) : P (uartWrite s0 s i off v) := by
  unfold uartWrite
  repeat' first
    | (with_reducible first
        | assumption | intro _ | apply keeps_ite | apply portWrite_keeps K | apply uartRts_keeps K | apply uartXoff_keeps K)
    | exact off_sub rfl hb | exact off_bit rfl hb | dsimp only | split

theorem nvmWrite_keeps (K : Keeps nb P) (s : State) (off v : Nat) (hb : Off
    0x80000000000000000000000000000000000000000000000000000000000000000000000000000000000000000000000000000000000000000000000080000000000000000000000000000000000000000000000000000000000000000000000000000000000000000000000000000000000000000000000000000000000000000000000000000000000000000000000000000000000000000000000000000000000000000000
    nb) (h : P s) : P (nvmWrite s off v) := by
  unfold nvmWrite
  repeat' first
    | (with_reducible first
        | assumption | intro _ | apply keeps_ite | apply tallySaveStart_keeps K)
    | exact off_sub rfl hb | exact off_bit rfl hb | dsimp only | split

theorem keyWrite_keeps (K : Keeps nb P) (s : State) (k off v : Nat) (hb : Off
    0x7300000000000000000000000000000000000000000000000000000000000000000000000000000000000000000000000000000000000000000014000000000000000000000000000000000000400000000000000000000000000000000000000000000000000000000000000000000000000000000000000000000000000000000000000000000000000000000000000000000000000000000000000000000000000000000000
    nb) (h : P s) : P (keyWrite s k off v) := by
  unfold keyWrite
  repeat' first
    | (with_reducible first
        | assumption | intro _ | apply keeps_ite | apply ctrRaise_keeps K | apply keyCommit_keeps K)
    | exact off_sub rfl hb | exact off_bit rfl hb | dsimp only | split

theorem tstWrite_keeps (K : Keeps nb P) (s : State) (off v : Nat) (hb : Off
    0x400000000000000000000000000000050000000000000000000000000000000000000000000000000000000000000000000000000000000000000000000000000000000000000000000000000000000000000000000000000000000000000000000000000000000000000000000000000000000000000000000000000000
    nb) (h : P s) : P (tstWrite s off v) := by
  unfold tstWrite
  repeat' first
    | (with_reducible first
        | assumption | intro _ | apply keeps_when | apply fuseProg_keeps K | apply lockWrite_keeps K)
    | exact off_sub rfl hb | exact off_bit rfl hb | dsimp only | split

theorem dbgWrite_keeps (K : Keeps nb P) (s : State) (k off v : Nat) (hb : Off
    0x4000000000000000000000000000000000000000000000013FBFE000000000000000000000000000000000000000000000000000000000000000000000000000000000000000000000000000000000000000000000000000000000000000000000000000000000000000000000000000000000000000000000000000000000000000000000000000000000000000000000000000000000000000000000000000000000000000000000000000000000000
    nb) (h : P s) : P (dbgWrite s k off v) := by
  unfold dbgWrite
  repeat' first
    | (with_reducible first
        | assumption | intro _ | apply keeps_ite | apply dbgHalt_keeps K | apply dbgResume_keeps K | apply dbgStep_keeps K
        | apply dbgWriteThread_keeps K)
    | exact off_sub rfl hb | exact off_bit rfl hb | dsimp only | split

theorem regWrite_keeps (K : Keeps nb P) (s0 : State) (l : Loc) (row : RegRow) (k v : Nat) (hb : Off fpAll nb) (hs0 : P s0)
    : P (regWrite s0 l row k v) := by
  unfold regWrite
  repeat' first
    | (with_reducible first
        | assumption | intro _ | apply adWrite_keeps K | apply ccWrite_keeps K | apply cmWrite_keeps K
        | apply crWrite_keeps K | apply csaWrite_keeps K | apply ctWrite_keeps K | apply cxWrite_keeps K
        | apply dbgWrite_keeps K | apply dmaWrite_keeps K | apply dmgWrite_keeps K | apply dspWrite_keeps K
        | apply ethWrite_keeps K | apply hcuWrite_keeps K | apply hdsWrite_keeps K | apply keyWrite_keeps K
        | apply leWrite_keeps K | apply lgWrite_keeps K | apply mpuWrite_keeps K | apply nvmWrite_keeps K
        | apply patWrite_keeps K | apply pinWrite_keeps K | apply plainWrite_keeps K | apply portWrite_keeps K
        | apply ptmWrite_keeps K | apply spWrite_keeps K | apply stkWrite_keeps K | apply suWrite_keeps K
        | apply swWrite_keeps K | apply tcWrite_keeps K | apply tripWrite_keeps K | apply tstWrite_keeps K
        | apply uartWrite_keeps K | apply usbWrite_keeps K | apply wdWrite_keeps K)
    | exact off_sub rfl hb | exact off_bit rfl hb | dsimp only | split

end
end Sys2Proof.Machine
end

