-- ==== Sys2Proof/Laws/KeepsBus.lean ====
section
/-!
SUPPORT. What each operation of Sys2Proof/Machine/Bus.lean can change: its footprint (Sys2Proof/Laws/Keeps.lean).
-/
namespace Sys2Proof.Machine
set_option linter.all false
section
variable {P : State → Prop} {nb : Nat}

theorem countDuplicate_keeps (K : Keeps nb P) (s : State) (l : Loc) (k : Nat) (hb : Off
    0x80000000000000000000000000000010000000000000000000000000000000000000000000000000000000000000000000000000000000000000000000000000000000000000000000000000000000000000000000
    nb) (h : P s) : P (countDuplicate s l k) := by
  unfold countDuplicate
  repeat' first
    | (with_reducible first
        | assumption | intro _ | apply bump_keeps K)
    | exact off_sub rfl hb | exact off_bit rfl hb | dsimp only | split

theorem writeReg_keeps (K : Keeps nb P) (s : State) (r : Held) (l : Loc) (row : RegRow) (k : Nat) (hb : Off fpAll nb) (h :
    P s) : P (writeReg s r l row k) := by
  unfold writeReg
  repeat' first
    | (with_reducible first
        | assumption | intro _ | apply keeps_ite | apply countDuplicate_keeps K | apply padsFreed_keeps K
        | apply regWrite_keeps K | apply respond_keeps K | apply respondCode_keeps K | apply routeFollow_keeps K
        | apply ticketTake_keeps K | (apply keeps_fst; assumption) | (apply keeps_snd; assumption))
    | exact off_sub rfl hb | exact off_bit rfl hb | dsimp only | split

theorem readReg_keeps (K : Keeps nb P) (s : State) (r : Held) (l : Loc) (row : RegRow) (k : Nat) (hb : Off
    0x5500000000000000000006090102200000000000000000000000000000000000000000000000000000000000000000000400000000000000000000000000000000000000000000040000800080000000000000000000000000000000000000000000000000000000000000000000000000000000000000000000000000000000000000000000000000000000000000000000000000000000000000000003C60000000000000000000000000200000000
    nb) (h : P s) : P (readReg s r l row k) := by
  unfold readReg
  repeat' first
    | (with_reducible first
        | assumption | intro _ | apply afterRead_keeps K | apply respondData_keeps K)
    | exact off_sub rfl hb | exact off_bit rfl hb | dsimp only | split

theorem serveAt_keeps (K : Keeps nb P) (s : State) (r : Held) (g : Gate) (hb : Off fpAll nb) (h : P s) : P (serveAt s r g)
    := by
  unfold serveAt
  repeat' first
    | (with_reducible first
        | assumption | intro _ | apply keeps_ite | apply mset_keeps K | apply cxFold_keeps K | apply fwRefuse_keeps K
        | apply memAtomic_keeps K | apply memRead_keeps K | apply memServe_keeps K | apply memWrite_keeps K
        | apply readReg_keeps K | apply respondCode_keeps K | apply respondData_keeps K | apply writeReg_keeps K
        | apply parts_of K)
    | exact off_sub rfl hb | exact off_bit rfl hb | dsimp only | split | simp only [parts_mk K]

theorem serveOne_keeps (K : Keeps nb P) (s : State) (r : Held) (g : Gate) (hb : Off fpAll nb) (h : P s) : P (serveOne s r
    g) := by
  unfold serveOne
  repeat' first
    | (with_reducible first
        | assumption | intro _ | apply serveAt_keeps K | apply setsOut_keeps K)
    | exact off_sub rfl hb | exact off_bit rfl hb | dsimp only | split

theorem retryHeld_keeps (K : Keeps nb P) (s : State) (r : Held) (hb : Off fpAll nb) (h : P s) : P (retryHeld s r) := by
  unfold retryHeld
  repeat' first
    | (with_reducible first
        | assumption | intro _ | apply keeps_ite | apply K.wr | apply serveOne_keeps K | apply parts_of K)
    | exact off_sub rfl hb | exact off_bit rfl hb | exact off_any (off_sub rfl hb) | dsimp only | split
    | simp only [parts_mk K]

theorem releaseHeld_keeps (K : Keeps nb P) (s : State) (hb : Off fpAll nb) (h : P s) : P (releaseHeld s) := by
  unfold releaseHeld
  repeat' first
    | (with_reducible first
        | assumption | intro _ | apply keeps_foldl | apply keeps_fold1 | apply keeps_fold2 | apply retryHeld_keeps K
        | apply parts_of K)
    | exact off_sub rfl hb | exact off_bit rfl hb | dsimp only | with_reducible apply parts_noQueues K | split
    | simp only [parts_mk K]

theorem serve_keeps (K : Keeps nb P) (s : State) (r : Held) (g : Gate) (hb : Off fpAll nb) (h : P s) : P (serve s r g) :=
    by
  unfold serve
  repeat' first
    | (with_reducible first
        | assumption | intro _ | apply keeps_ite | apply releaseHeld_keeps K | apply serveOne_keeps K | apply parts_of K)
    | exact off_sub rfl hb | exact off_bit rfl hb | dsimp only | split | simp only [parts_mk K]

theorem busRequest_keeps (K : Keeps nb P) (s : State) (r : Held) (hb : Off fpAll nb) (h : P s) : P (busRequest s r) := by
  unfold busRequest
  repeat' first
    | (with_reducible first
        | assumption | intro _ | apply keeps_ite | apply serve_keeps K | apply parts_of K)
    | exact off_sub rfl hb | exact off_bit rfl hb | dsimp only | split | simp only [parts_mk K]

theorem answerHeld_keeps (K : Keeps nb P) (s : State) (p : Held → Bool) (c : Code) (hb : Off
    0x100000000000000000000000000000000000000000000000000000000000000000000000000000000000000000000000400000000000000000000000000000000000000000000000000000000000000000000000000000000000000000000000000000000000000000000000000000000000000000000000000000000000000000000000000000000000000000000000000000000000000000000000003C60000000000000000000000000200000000
    nb) (h : P s) : P (answerHeld s p c) := by
  unfold answerHeld
  repeat' first
    | (with_reducible first
        | assumption | intro _ | apply keeps_foldl | apply keeps_fold1 | apply keeps_fold2 | apply respondCode_keeps K
        | apply parts_of K | apply parts_regs K | apply parts_queues K | apply parts_mem K | apply parts_bad K)
    | exact off_sub rfl hb | exact off_bit rfl hb | dsimp only | split | simp only [parts_mk K]

theorem drainHeld_keeps (K : Keeps nb P) (s0 s : State) (d : Nat) (hb : Off
    0x100000000000000000000000000000000000000000000000000000000000000000000000000000000000000000000000400000000000000000000000000000000000000000000000000000000000000000000000000000000000000000000000000000000000000000000000000000000000000000000000000000000000000000000000000000000000000000000000000000000000000000000000003C60000000000000000000000000200000000
    nb) (h : P s) : P (drainHeld s0 s d) := by
  unfold drainHeld
  repeat' first
    | (with_reducible first
        | assumption | intro _ | apply answerHeld_keeps K)
    | exact off_sub rfl hb | exact off_bit rfl hb | dsimp only | split

theorem expireHeld_keeps (K : Keeps nb P) (s : State) (who : Master) (p : HoldWhy → Bool) (c : Code) (hb : Off
    0x100000000000000000000000000000000000000000000000000000000000000000000000000000000000000000000000400000000000000000000000000000000000000000000000000000000000000000040000000000000000000000000000000000000000000000000000000000000000000000000000000000000000000000000000000000000000000000000000000000000000000000000000003C60000000000000000000000000200000000
    nb) (h : P s) : P (expireHeld s who p c) := by
  unfold expireHeld
  repeat' first
    | (with_reducible first
        | assumption | intro _ | apply bump_keeps K | apply respondCode_keeps K | apply parts_of K
        | (apply keeps_fst; assumption) | (apply keeps_snd; assumption))
    | exact off_sub rfl hb | exact off_bit rfl hb | dsimp only | split | simp only [parts_mk K]

end
end Sys2Proof.Machine
end

