-- ==== Sys2Proof/Laws/KeepsDebugRows.lean ====
section
/-!
SUPPORT. What each operation of Sys2Proof/Machine/DebugRows.lean can change: its footprint (Sys2Proof/Laws/Keeps.lean).
-/
namespace Sys2Proof.Machine
set_option linter.all false
section
variable {P : State → Prop} {nb : Nat}

theorem scanSelect_keeps (K : Keeps nb P) (s : State) (ir cells : Nat) (hb : Off
    0x1F0000000000000000000000000000000000000000000000000000000000000000000000000000000000000000000000000000000000000000000000000000000000000000000000000000000000000000000000000000000000000000000000000000000000000000000000000000000000000000000000000000000000000000000000000000000000000000000000000000000000000000000000000000000000000000000000
    nb) (h : P s) : P (scanSelect s ir cells) := by
  unfold scanSelect
  repeat' first
    | (with_reducible first
        | assumption | intro _ | apply keeps_ite | apply K.wr | apply tapSelect_keeps K)
    | exact off_sub rfl hb | exact off_bit rfl hb | dsimp only | split

theorem bypassSelect_keeps (K : Keeps nb P) (s : State) (ir : Nat) (hb : Off
    0x170000000000000000000000000000000000000000000000000000000000000000000000000000000000000000000000000000000000000000000000000000000000000000000000000000000000000000000000000000000000000000000000000000000000000000000000000000000000000000000000000000000000000000000000000000000000000000000000000000000000000000000000000000000000000000000000
    nb) (h : P s) : P (bypassSelect s ir) := by
  unfold bypassSelect
  repeat' first
    | (with_reducible first
        | assumption | intro _ | apply K.wr | apply tapSelect_keeps K)
    | exact off_sub rfl hb | exact off_bit rfl hb | dsimp only | split

theorem accSelect_keeps (K : Keeps nb P) (s : State) (hb : Off
    0x170000000000000000000000000000000000000000000000000000000000000000000000000000000000000000000000000000000000000000000000000000000000000000000000000000000000000000000000000000000000000000000000000000000000000000000000000000000000000000000000000000000000000000000000000000000000000000000000000000000000000000000000000000000000000000000000
    nb) (h : P s) : P (accSelect s) := by
  unfold accSelect
  repeat' first
    | (with_reducible first
        | assumption | intro _ | apply keeps_ite | apply K.wr | apply tapSelect_keeps K)
    | exact off_sub rfl hb | exact off_bit rfl hb | dsimp only | split

theorem tapStackReset_keeps (K : Keeps nb P) (s : State) (hb : Off
    0x300000000000000000000000010000000000001C37000000000000000000000000000000000000001A000066E000000001000000010000000000000004080100000000000000000000000000000100000000000000000000000000000000000000000000000000000000000000000000000000000000000000000000000000000000143C0000000000000000000000280000200400000000000000000000000000000000000000000003C60000000000000840000200000200000080
    nb) (h : P s) : P (tapStackReset s) := by
  unfold tapStackReset
  repeat' first
    | (with_reducible first
        | assumption | intro _ | apply keeps_ite | apply bReset_keeps K | apply bypassSelect_keeps K)
    | exact off_sub rfl hb | exact off_bit rfl hb | dsimp only | split

theorem accAnswered_keeps (K : Keeps nb P) (s : State) (hb : Off
    0xC200000000000000000000000000000000000000000000000000000000000000000000000000000000000000000000000000000000000000000000000000000000000000000000000000000000000000000000000000000000000000000000000000000000000000000000000000000000000000000000000000000000000000000000000000000000000000000000000000000000000000000000000000000000000000000000000
    nb) (h : P s) : P (accAnswered s) := by
  unfold accAnswered
  repeat' first
    | (with_reducible first
        | assumption | intro _ | apply K.wr | apply down_keeps K)
    | exact off_sub rfl hb | exact off_bit rfl hb | dsimp only | split

theorem accRespond_keeps (K : Keeps nb P) (s : State) (hb : Off fpAll nb) (h : P s) : P (accRespond s) := by
  unfold accRespond
  repeat' first
    | (with_reducible first
        | assumption | intro _ | apply keeps_ite | apply accAnswered_keeps K | apply busRequest_keeps K)
    | exact off_sub rfl hb | exact off_bit rfl hb | dsimp only | split

theorem accExpire_keeps (K : Keeps nb P) (s : State) (p : HoldWhy → Bool) (c : Code) (hb : Off
    0x10000000000000C200000000000000000000000000000000000000000000000000000000000000000000000000000000400000000000000000000000000000000000000000000000000000000000000000040000000000000000000000000000000000000000000000000000000000000000000000000000000000000000000000000000000000000000000000000000000000000000000000000000003C60000000000000000000000000200000000
    nb) (h : P s) : P (accExpire s p c) := by
  unfold accExpire
  repeat' first
    | (with_reducible first
        | assumption | intro _ | apply keeps_ite | apply bump_keeps K | apply accAnswered_keeps K
        | apply respondCode_keeps K | (apply keeps_fst; assumption) | (apply keeps_snd; assumption))
    | exact off_sub rfl hb | exact off_bit rfl hb | dsimp only | split

theorem execTapReset_keeps (K : Keeps nb P) (s : State) (hb : Off
    0x110000000000000000000000000000000000000000000000000000000000000000000000000000000000000000000000000000000000000000000000000000000000000000000000000000000000000000000000000000000000000000000000000000000000000000000000000000000000000000000000000000000000000000000000000000000000000000000000000000000000000000000000000000000000000000000000
    nb) (h : P s) : OutKeeps P (execTapReset s) := by
  unfold execTapReset
  repeat' first
    | (with_reducible first
        | assumption | intro _ | apply outKeeps_next | apply tapReset_keeps K)
    | exact off_sub rfl hb | exact off_bit rfl hb | dsimp only | split

theorem execTapExtest_keeps (K : Keeps nb P) (cells : BitVec 311) (s : State) (hb : Off
    0x1F0000000000000000000000000000000000000000000000000000000000000000000000000000000000000000000000000000000000000000000000000000000000000000000000000000000000000000000000000000000000000000000000000000000000000000000000000000000000000000000000000000000000000000000000000000000000000000000000000000000000000000000000000000000000000000000000
    nb) (h : P s) : OutKeeps P (execTapExtest cells s) := by
  unfold execTapExtest
  repeat' first
    | (with_reducible first
        | assumption | intro _ | apply outKeeps_next | apply scanSelect_keeps K)
    | exact off_sub rfl hb | exact off_bit rfl hb | dsimp only | split

theorem execTapSamplePreload_keeps (K : Keeps nb P) (cells : BitVec 311) (s : State) (hb : Off
    0x1F0000000000000000000000000000000000000000000000000000000000000000000000000000000000000000000000000000000000000000000000000000000000000000000000000000000000000000000000000000000000000000000000000000000000000000000000000000000000000000000000000000000000000000000000000000000000000000000000000000000000000000000000000000000000000000000000
    nb) (h : P s) : OutKeeps P (execTapSamplePreload cells s) := by
  unfold execTapSamplePreload
  repeat' first
    | (with_reducible first
        | assumption | intro _ | apply outKeeps_next | apply scanSelect_keeps K)
    | exact off_sub rfl hb | exact off_bit rfl hb | dsimp only | split

theorem execTapIdcode_keeps (K : Keeps nb P) (s : State) (hb : Off
    0x170000000000000000000000000000000000000000000000000000000000000000000000000000000000000000000000000000000000000000000000000000000000000000000000000000000000000000000000000000000000000000000000000000000000000000000000000000000000000000000000000000000000000000000000000000000000000000000000000000000000000000000000000000000000000000000000
    nb) (h : P s) : OutKeeps P (execTapIdcode s) := by
  unfold execTapIdcode
  repeat' first
    | (with_reducible first
        | assumption | intro _ | apply outKeeps_next | apply K.wr | apply tapSelect_keeps K)
    | exact off_sub rfl hb | exact off_bit rfl hb | dsimp only | split

theorem execTapClamp_keeps (K : Keeps nb P) (s : State) (hb : Off
    0x170000000000000000000000000000000000000000000000000000000000000000000000000000000000000000000000000000000000000000000000000000000000000000000000000000000000000000000000000000000000000000000000000000000000000000000000000000000000000000000000000000000000000000000000000000000000000000000000000000000000000000000000000000000000000000000000
    nb) (h : P s) : OutKeeps P (execTapClamp s) := by
  unfold execTapClamp
  repeat' first
    | (with_reducible first
        | assumption | intro _ | apply outKeeps_next | apply bypassSelect_keeps K)
    | exact off_sub rfl hb | exact off_bit rfl hb | dsimp only | split

theorem execTapHighz_keeps (K : Keeps nb P) (s : State) (hb : Off
    0x170000000000000000000000000000000000000000000000000000000000000000000000000000000000000000000000000000000000000000000000000000000000000000000000000000000000000000000000000000000000000000000000000000000000000000000000000000000000000000000000000000000000000000000000000000000000000000000000000000000000000000000000000000000000000000000000
    nb) (h : P s) : OutKeeps P (execTapHighz s) := by
  unfold execTapHighz
  repeat' first
    | (with_reducible first
        | assumption | intro _ | apply outKeeps_next | apply bypassSelect_keeps K)
    | exact off_sub rfl hb | exact off_bit rfl hb | dsimp only | split

theorem execTapDbgAcc_keeps (K : Keeps nb P) (s : State) (hb : Off
    0x170000000000000000000000000000000000000000000000000000000000000000000000000000000000000000000000000000000000000000000000000000000000000000000000000000000000000000000000000000000000000000000000000000000000000000000000000000000000000000000000000000000000000000000000000000000000000000000000000000000000000000000000000000000000000000000000
    nb) (h : P s) : OutKeeps P (execTapDbgAcc s) := by
  unfold execTapDbgAcc
  repeat' first
    | (with_reducible first
        | assumption | intro _ | apply outKeeps_next | apply accSelect_keeps K)
    | exact off_sub rfl hb | exact off_bit rfl hb | dsimp only | split

theorem execTapBypass_keeps (K : Keeps nb P) (s : State) (hb : Off
    0x170000000000000000000000000000000000000000000000000000000000000000000000000000000000000000000000000000000000000000000000000000000000000000000000000000000000000000000000000000000000000000000000000000000000000000000000000000000000000000000000000000000000000000000000000000000000000000000000000000000000000000000000000000000000000000000000
    nb) (h : P s) : OutKeeps P (execTapBypass s) := by
  unfold execTapBypass
  repeat' first
    | (with_reducible first
        | assumption | intro _ | apply outKeeps_next | apply bypassSelect_keeps K)
    | exact off_sub rfl hb | exact off_bit rfl hb | dsimp only | split

theorem execTapStackReset_keeps (K : Keeps nb P) (s : State) (hb : Off
    0x300000000000000000000000010000000000001C37000000000000000000000000000000000000001A000066E000000001000000010000000000000004080100000000000000000000000000000100000000000000000000000000000000000000000000000000000000000000000000000000000000000000000000000000000000143C0000000000000000000000280000200400000000000000000000000000000000000000000003C60000000000000840000200000200000080
    nb) (h : P s) : OutKeeps P (execTapStackReset s) := by
  unfold execTapStackReset
  repeat' first
    | (with_reducible first
        | assumption | intro _ | apply outKeeps_next | apply tapStackReset_keeps K)
    | exact off_sub rfl hb | exact off_bit rfl hb | dsimp only | split

theorem execTapDbgAuth_keeps (K : Keeps nb P) (s : State) (hb : Off
    0x70170000000000000000000000000000000000000000000000000000000000000000000000000000000000000000000000000000000000000000000000000000000000000000000000000000000000000000000000000000000000000000000000000000000000000000000000000000000000000000000000000000000000000000000000000000000000000000000000000000000000000000000000000000000000000000000000
    nb) (h : P s) : OutKeeps P (execTapDbgAuth s) := by
  unfold execTapDbgAuth
  repeat' first
    | (with_reducible first
        | assumption | intro _ | apply outKeeps_next | apply authSelect_keeps K)
    | exact off_sub rfl hb | exact off_bit rfl hb | dsimp only | split

theorem execDbgAuthSubmit_keeps (K : Keeps nb P) (dr : BitVec 520) (s : State) (hb : Off
    0xD0000000000000000000000000000000000000000000000000000000000000000000000000000000000000000000000000000000000000000000000000000000000000000000000000000000000000000000000000000000000000000000000000000000000000000000000000000000000000000000000000000000000000000000000000000000000000000000000000000000000000000000000000000000000000000000000000
    nb) (h : P s) : OutKeeps P (execDbgAuthSubmit dr s) := by
  unfold execDbgAuthSubmit
  repeat' first
    | (with_reducible first
        | assumption | intro _ | apply outKeeps_next | apply authSubmit_keeps K)
    | exact off_sub rfl hb | exact off_bit rfl hb | dsimp only | split

theorem execDbgAuthVerified_keeps (K : Keeps nb P) (s : State) (hb : Off
    0x10000000000000000000000000000000000000000000000000000000000000000000000000000000000000000000000000000000000000000000410000000000000000000000000000000000000000000000000000000000000000000000000000000000000000000000000000000000000000000000000000000000000000000000000000000000000000000000000000000000000000000000000000000000000000000000000000
    nb) (h : P s) : OutKeeps P (execDbgAuthVerified s) := by
  unfold execDbgAuthVerified
  repeat' first
    | (with_reducible first
        | assumption | intro _ | apply outKeeps_next | apply authVerified_keeps K)
    | exact off_sub rfl hb | exact off_bit rfl hb | dsimp only | split

theorem execDbgAuthLockoutEnd_keeps (K : Keeps nb P) (s : State) (hb : Off
    0x10000000000000000000000000000000000000000000000000000000000000000000000000000000000000000000000000000000000000000000000000000000000000000000000000000000000000000000000000000000000000000000000000000000000000000000000000000000000000000000000000000000000000000000000000000000000000000000000000000000000000000000000000000000000000000000000000
    nb) (h : P s) : OutKeeps P (execDbgAuthLockoutEnd s) := by
  unfold execDbgAuthLockoutEnd
  repeat' first
    | (with_reducible first
        | assumption | intro _ | apply outKeeps_next | apply authLockoutEnd_keeps K)
    | exact off_sub rfl hb | exact off_bit rfl hb | dsimp only | split

theorem execDbgAccGo_keeps (K : Keeps nb P) (dr : BitVec 99) (s : State) (hb : Off
    0x3E00000000000000000000000000000000000000000000000000000000000000000000000000000000000000000000000000000000000000000000000000000000000000000000000000000000000000000000000000000000000000000000000000000000000000000000000000000000000000000000000000000000000000000000000000000000000000000000000000000000000000000000000000000000000000000000000
    nb) (h : P s) : OutKeeps P (execDbgAccGo dr s) := by
  unfold execDbgAccGo
  repeat' first
    | (with_reducible first
        | assumption | intro _ | apply outKeeps_next | apply accGo_keeps K)
    | exact off_sub rfl hb | exact off_bit rfl hb | dsimp only | split

theorem execDbgAccResponse_keeps (K : Keeps nb P) (s : State) (hb : Off fpAll nb) (h : P s) : OutKeeps P
    (execDbgAccResponse s) := by
  unfold execDbgAccResponse
  repeat' first
    | (with_reducible first
        | assumption | intro _ | apply outKeeps_next | apply accRespond_keeps K)
    | exact off_sub rfl hb | exact off_bit rfl hb | dsimp only | split

theorem execDbgHalted_keeps (K : Keeps nb P) (t : Fin 40) (s : State) (hb : Off
    0xC000000000000000000000000000000000000000000000000000000000000000000000000000000000000000000000000000000000000000000000000000000000000000000000000000000000000000000000000000000000000000000000000000000000000000000000000000000000000000000000000000000000000000000000000000000000000000000000000000000000000000
    nb) (h : P s) : OutKeeps P (execDbgHalted t s) := by
  unfold execDbgHalted
  repeat' first
    | (with_reducible first
        | assumption | intro _ | apply outKeeps_next | apply dbgHalted_keeps K)
    | exact off_sub rfl hb | exact off_bit rfl hb | dsimp only | split

theorem execTestEnRise_keeps (K : Keeps nb P) (s : State) (hb : Off
    0x100000000000000000000000000000000000000000000000000000000000000000000000000000000000000000000000000000000000000000000000000000000000000000000000000000000000000000000000000000000000000000000000000000000000000000000000000000
    nb) (h : P s) : OutKeeps P (execTestEnRise s) := by
  unfold execTestEnRise
  repeat' first
    | (with_reducible first
        | assumption | intro _ | apply outKeeps_next | apply up_keeps K)
    | exact off_sub rfl hb | exact off_bit rfl hb | dsimp only | split

end
end Sys2Proof.Machine
end

