-- ==== Sys2Proof/Laws/KeepsDmaRows.lean ====
section
/-!
SUPPORT. What each operation of Sys2Proof/Machine/DmaRows.lean can change: its footprint (Sys2Proof/Laws/Keeps.lean).
-/
namespace Sys2Proof.Machine
set_option linter.all false
section
variable {P : State → Prop} {nb : Nat}

theorem dcServe_keeps (K : Keeps nb P) (s : State) (n : Nat) (r : Held) (hb : Off fpAll nb) (h : P s) : P (dcServe s n r)
    := by
  unfold dcServe
  repeat' first
    | (with_reducible first
        | assumption | intro _ | apply keeps_ite | apply bump_keeps K | apply serve_keeps K)
    | exact off_sub rfl hb | exact off_bit rfl hb | exact off_any (off_sub rfl hb) | dsimp only | split

theorem dcFetch_keeps (K : Keeps nb P) (s : State) (n : Nat) (hb : Off fpAll nb) (h : P s) : P (dcFetch s n) := by
  unfold dcFetch
  repeat' first
    | (with_reducible first
        | assumption | intro _ | apply keeps_ite | apply dcFetched_keeps K | apply dcHalt_keeps K | apply dcServe_keeps K)
    | exact off_sub rfl hb | exact off_bit rfl hb | dsimp only | split

theorem dcAsked_keeps (K : Keeps nb P) (s : State) (n : Nat) (hb : Off
    0x900000000000000000000000000000000000000800000000000000000000000000000000000000000000000000000000000000000000000000000000000000000000000000000000000000000000000000000000000000000000000000000000000000000000000000000000000000000000000000000000000000000000000000000000000000000000000000000000000000000000000000000000000000000
    nb) (h : P s) : P (dcAsked s n) := by
  unfold dcAsked
  repeat' first
    | (with_reducible first
        | assumption | intro _ | apply paceBegin_keeps K)
    | exact off_sub rfl hb | exact off_bit rfl hb | dsimp only | split

theorem dcReadStep_keeps (K : Keeps nb P) (s : State) (n : Nat) (hb : Off fpAll nb) (h : P s) : P (dcReadStep s n) := by
  unfold dcReadStep
  repeat' first
    | (with_reducible first
        | assumption | intro _ | apply keeps_ite | apply K.setq | apply K.wr | apply dcAsked_keeps K | apply dcHalt_keeps K
        | apply dcServe_keeps K | apply paceDone_keeps K | (apply keeps_fst; assumption) | (apply keeps_snd; assumption))
    | exact off_sub rfl hb | exact off_bit rfl hb | exact off_any (off_sub rfl hb) | dsimp only | split

theorem dcWriteStep_keeps (K : Keeps nb P) (s : State) (n : Nat) (hb : Off fpAll nb) (h : P s) : P (dcWriteStep s n) := by
  unfold dcWriteStep
  repeat' first
    | (with_reducible first
        | assumption | intro _ | apply keeps_ite | apply K.setq | apply K.wr | apply dcHalt_keeps K | apply dcServe_keeps K
        | (apply keeps_fst; assumption) | (apply keeps_snd; assumption))
    | exact off_sub rfl hb | exact off_bit rfl hb | exact off_any (off_sub rfl hb) | dsimp only | split

theorem dcPut_keeps (K : Keeps nb P) (s : State) (n a z v : Nat) (hb : Off fpAll nb) (h : P s) : P (dcPut s n a z v).1 :=
    by
  unfold dcPut
  repeat' first
    | (with_reducible first
        | assumption | intro _ | apply keeps_ite | apply dcHalt_keeps K | apply dcServe_keeps K
        | (apply keeps_fst; assumption) | (apply keeps_snd; assumption))
    | exact off_sub rfl hb | exact off_bit rfl hb | dsimp only | split

theorem dcCompleted_keeps (K : Keeps nb P) (s : State) (n : Nat) (hb : Off
    0x100000000000000000000000000000680000000000000000000000000000000000000000000000000000000000000000400000000000000000000000000000000000000000000000000000000000000000000000000000000000043E61040000000000000000000000000000000000000000000000000000000000000000000000000000000000000000000000000000000000000000000000000000000000000000000000000000000000000000000
    nb) (h : P s) : P (dcCompleted s n) := by
  unfold dcCompleted
  repeat' first
    | (with_reducible first
        | assumption | intro _ | apply keeps_ite | apply K.wr | apply bump_keeps K | apply down_keeps K
        | apply postIf_keeps K | apply dcHalt_keeps K)
    | exact off_sub rfl hb | exact off_bit rfl hb | dsimp only | split

theorem dcPutRecord_keeps (K : Keeps nb P) (s : State) (n : Nat) (hb : Off fpAll nb) (h : P s) : P (dcPutRecord s n) := by
  unfold dcPutRecord
  repeat' first
    | (with_reducible first
        | assumption | intro _ | apply keeps_ite | apply K.wr | apply bump_keeps K | apply dcCompleted_keeps K
        | apply dcPut_keeps K | (apply keeps_fst; assumption) | (apply keeps_snd; assumption))
    | exact off_sub rfl hb | exact off_bit rfl hb | exact off_any (off_sub rfl hb) | dsimp only | split

theorem dcComplete_keeps (K : Keeps nb P) (s : State) (n : Nat) (hb : Off fpAll nb) (h : P s) : P (dcComplete s n) := by
  unfold dcComplete
  repeat' first
    | (with_reducible first
        | assumption | intro _ | apply keeps_ite | apply up_keeps K | apply dcCompleted_keeps K | apply dcPut_keeps K
        | apply dcPutRecord_keeps K | (apply keeps_fst; assumption) | (apply keeps_snd; assumption))
    | exact off_sub rfl hb | exact off_bit rfl hb | exact off_any (off_sub rfl hb) | dsimp only | split

theorem paceRequest_keeps (K : Keeps nb P) (s : State) (src : Nat) (hb : Off
    0x900000000000000000000000000000000000000800000000001000000000000000000000000000000000000000000000000000000000000000000000000000000000000000000000000000000000000000000000000000000000000000000000000000000000000000000000000000000000000000000000000000000000000000000000000000000000000000000000000000000000000000000000000000000
    nb) (h : P s) : P (paceRequest s src) := by
  unfold paceRequest
  repeat' first
    | (with_reducible first
        | assumption | intro _ | apply keeps_each | apply keeps_ite | apply up_keeps K | apply dcAsked_keeps K
        | apply edgeTaken_keeps K)
    | exact off_sub rfl hb | exact off_bit rfl hb | dsimp only | split

theorem dcExpire_keeps (K : Keeps nb P) (s : State) (n : Nat) (p : HoldWhy → Bool) (c : Code) (hb : Off
    0x100000000000000000000000000000400000000000000000000000000000000000000000000000000000000000000000400000000000000000000000000000000000000000000000000000000000000000040000000000000000003E20040000000000000000000000000000000000000000000000000000000000000000000000000000000000000000000000000000000000000000000000000000003C60000000000000000000000000200000000
    nb) (h : P s) : P (dcExpire s n p c) := by
  unfold dcExpire
  repeat' first
    | (with_reducible first
        | assumption | intro _ | apply keeps_ite | apply bump_keeps K | apply dcHalt_keeps K | apply respondCode_keeps K
        | (apply keeps_fst; assumption) | (apply keeps_snd; assumption))
    | exact off_sub rfl hb | exact off_bit rfl hb | dsimp only | split

theorem execDescriptorFetched_keeps (K : Keeps nb P) (ch : Fin 32) (s : State) (hb : Off fpAll nb) (h : P s) : OutKeeps P
    (execDescriptorFetched ch s) := by
  unfold execDescriptorFetched
  repeat' first
    | (with_reducible first
        | assumption | intro _ | apply outKeeps_next | apply dcFetch_keeps K)
    | exact off_sub rfl hb | exact off_bit rfl hb | dsimp only | split

theorem execDmaReadResponse_keeps (K : Keeps nb P) (ch : Fin 32) (s : State) (hb : Off fpAll nb) (h : P s) : OutKeeps P
    (execDmaReadResponse ch s) := by
  unfold execDmaReadResponse
  repeat' first
    | (with_reducible first
        | assumption | intro _ | apply outKeeps_next | apply dcReadStep_keeps K)
    | exact off_sub rfl hb | exact off_bit rfl hb | dsimp only | split

theorem execDmaWriteResponse_keeps (K : Keeps nb P) (ch : Fin 32) (s : State) (hb : Off fpAll nb) (h : P s) : OutKeeps P
    (execDmaWriteResponse ch s) := by
  unfold execDmaWriteResponse
  repeat' first
    | (with_reducible first
        | assumption | intro _ | apply outKeeps_next | apply dcWriteStep_keeps K)
    | exact off_sub rfl hb | exact off_bit rfl hb | dsimp only | split

theorem execDescriptorComplete_keeps (K : Keeps nb P) (ch : Fin 32) (s : State) (hb : Off fpAll nb) (h : P s) : OutKeeps P
    (execDescriptorComplete ch s) := by
  unfold execDescriptorComplete
  repeat' first
    | (with_reducible first
        | assumption | intro _ | apply outKeeps_next | apply dcComplete_keeps K)
    | exact off_sub rfl hb | exact off_bit rfl hb | dsimp only | split

theorem execDmaPaceRequest_keeps (K : Keeps nb P) (source : Fin 64) (s : State) (hb : Off
    0x900000000000000000000000000000000000000800000000001000000000000000000000000000000000000000000000000000000000000000000000000000000000000000000000000000000000000000000000000000000000000000000000000000000000000000000000000000000000000000000000000000000000000000000000000000000000000000000000000000000000000000000000000000000
    nb) (h : P s) : OutKeeps P (execDmaPaceRequest source s) := by
  unfold execDmaPaceRequest
  repeat' first
    | (with_reducible first
        | assumption | intro _ | apply outKeeps_next | apply paceRequest_keeps K)
    | exact off_sub rfl hb | exact off_bit rfl hb | dsimp only | split

theorem execDcStopped_keeps (K : Keeps nb P) (ch : Fin 32) (s : State) (hb : Off
    0x400000000000000000000000000000000000000000000000000000000000000000000000000000000000000000000000000000000000000000000000000000000000000000000000000000000220000000000000000000000000000000000000000000000000000000000000000000000000000000000000000000000000000000000000000000000000000000000000000000000000000000000000000000000
    nb) (h : P s) : OutKeeps P (execDcStopped ch s) := by
  unfold execDcStopped
  repeat' first
    | (with_reducible first
        | assumption | intro _ | apply outKeeps_next | apply dcStopped_keeps K)
    | exact off_sub rfl hb | exact off_bit rfl hb | dsimp only | split

end
end Sys2Proof.Machine
end

