-- ==== Sys2Proof/Laws/KeepsRegRows.lean ====
section
/-!
SUPPORT. What each operation of Sys2Proof/Machine/RegRows.lean can change: its footprint (Sys2Proof/Laws/Keeps.lean).
-/
namespace Sys2Proof.Machine
set_option linter.all false
section
variable {P : State → Prop} {nb : Nat}

theorem writeRow_keeps (K : Keeps nb P) (s : State) (src : Source) (b : Blk) (i off v : Nat) (hb : Off fpAll nb) (h : P s)
    : OutKeeps P (writeRow s src b i off v) := by
  unfold writeRow
  repeat' first
    | (with_reducible first
        | assumption | intro _ | apply outKeeps_next | apply busRequest_keeps K)
    | exact off_sub rfl hb | exact off_bit rfl hb | dsimp only | split

theorem readRow_keeps (K : Keeps nb P) (s : State) (src : Source) (b : Blk) (i off : Nat) (hb : Off fpAll nb) (h : P s) :
    OutKeeps P (readRow s src b i off) := by
  unfold readRow
  repeat' first
    | (with_reducible first
        | assumption | intro _ | apply outKeeps_next | apply busRequest_keeps K)
    | exact off_sub rfl hb | exact off_bit rfl hb | dsimp only | split

theorem execStkResetCRst_keeps (K : Keeps nb P) (src : Source) (ticket : BitVec 16) (s : State) (hb : Off fpAll nb) (h : P
    s) : OutKeeps P (execStkResetCRst src ticket s) := by
  unfold execStkResetCRst
  repeat' first
    | (with_reducible first
        | assumption | intro _ | apply outKeeps_next | apply writeRow_keeps K)
    | exact off_sub rfl hb | exact off_bit rfl hb | dsimp only | split

theorem execStkResetMRst_keeps (K : Keeps nb P) (src : Source) (ticket : BitVec 16) (s : State) (hb : Off fpAll nb) (h : P
    s) : OutKeeps P (execStkResetMRst src ticket s) := by
  unfold execStkResetMRst
  repeat' first
    | (with_reducible first
        | assumption | intro _ | apply outKeeps_next | apply writeRow_keeps K)
    | exact off_sub rfl hb | exact off_bit rfl hb | dsimp only | split

theorem execSysResetStack_keeps (K : Keeps nb P) (src : Source) (ticket : BitVec 16) (s : State) (hb : Off fpAll nb) (h : P
    s) : OutKeeps P (execSysResetStack src ticket s) := by
  unfold execSysResetStack
  repeat' first
    | (with_reducible first
        | assumption | intro _ | apply outKeeps_next | apply writeRow_keeps K)
    | exact off_sub rfl hb | exact off_bit rfl hb | dsimp only | split

theorem execPwdKick_keeps (K : Keeps nb P) (src : Source) (basic : Bool) (ticket : BitVec 16) (s : State) (hb : Off fpAll
    nb) (h : P s) : OutKeeps P (execPwdKick src basic ticket s) := by
  unfold execPwdKick
  repeat' first
    | (with_reducible first
        | assumption | intro _ | apply outKeeps_next | apply keeps_ite | apply writeRow_keeps K)
    | exact off_sub rfl hb | exact off_bit rfl hb | dsimp only | split

theorem execGiveUpWrite_keeps (K : Keeps nb P) (src : Source) (s : State) (hb : Off fpAll nb) (h : P s) : OutKeeps P
    (execGiveUpWrite src s) := by
  unfold execGiveUpWrite
  repeat' first
    | (with_reducible first
        | assumption | intro _ | apply outKeeps_next | apply writeRow_keeps K)
    | exact off_sub rfl hb | exact off_bit rfl hb | dsimp only | split

theorem execRomDoneWrite_keeps (K : Keeps nb P) (src : Source) (s : State) (hb : Off fpAll nb) (h : P s) : OutKeeps P
    (execRomDoneWrite src s) := by
  unfold execRomDoneWrite
  repeat' first
    | (with_reducible first
        | assumption | intro _ | apply outKeeps_next | apply writeRow_keeps K)
    | exact off_sub rfl hb | exact off_bit rfl hb | dsimp only | split

theorem execRecoverWrite_keeps (K : Keeps nb P) (src : Source) (s : State) (hb : Off fpAll nb) (h : P s) : OutKeeps P
    (execRecoverWrite src s) := by
  unfold execRecoverWrite
  repeat' first
    | (with_reducible first
        | assumption | intro _ | apply outKeeps_next | apply writeRow_keeps K)
    | exact off_sub rfl hb | exact off_bit rfl hb | dsimp only | split

theorem execLedgerClr_keeps (K : Keeps nb P) (src : Source) (causes : BitVec 8) (ticket : BitVec 16) (s : State) (hb : Off
    fpAll nb) (h : P s) : OutKeeps P (execLedgerClr src causes ticket s) := by
  unfold execLedgerClr
  repeat' first
    | (with_reducible first
        | assumption | intro _ | apply outKeeps_next | apply writeRow_keeps K)
    | exact off_sub rfl hb | exact off_bit rfl hb | dsimp only | split

theorem execPatLiveGo_keeps (K : Keeps nb P) (src : Source) (ticket : BitVec 16) (s : State) (hb : Off fpAll nb) (h : P s)
    : OutKeeps P (execPatLiveGo src ticket s) := by
  unfold execPatLiveGo
  repeat' first
    | (with_reducible first
        | assumption | intro _ | apply outKeeps_next | apply writeRow_keeps K)
    | exact off_sub rfl hb | exact off_bit rfl hb | dsimp only | split

theorem execPatLiveCancel_keeps (K : Keeps nb P) (src : Source) (ticket : BitVec 16) (s : State) (hb : Off fpAll nb) (h : P
    s) : OutKeeps P (execPatLiveCancel src ticket s) := by
  unfold execPatLiveCancel
  repeat' first
    | (with_reducible first
        | assumption | intro _ | apply outKeeps_next | apply writeRow_keeps K)
    | exact off_sub rfl hb | exact off_bit rfl hb | dsimp only | split

theorem execStateReqDoze_keeps (K : Keeps nb P) (src : Source) (fastNap : Bool) (s : State) (hb : Off fpAll nb) (h : P s) :
    OutKeeps P (execStateReqDoze src fastNap s) := by
  unfold execStateReqDoze
  repeat' first
    | (with_reducible first
        | assumption | intro _ | apply outKeeps_next | apply writeRow_keeps K)
    | exact off_sub rfl hb | exact off_bit rfl hb | dsimp only | split

theorem execStateReqNap_keeps (K : Keeps nb P) (src : Source) (fastNap : Bool) (s : State) (hb : Off fpAll nb) (h : P s) :
    OutKeeps P (execStateReqNap src fastNap s) := by
  unfold execStateReqNap
  repeat' first
    | (with_reducible first
        | assumption | intro _ | apply outKeeps_next | apply writeRow_keeps K)
    | exact off_sub rfl hb | exact off_bit rfl hb | dsimp only | split

theorem execStateReqHibernate_keeps (K : Keeps nb P) (src : Source) (fastNap : Bool) (s : State) (hb : Off fpAll nb) (h : P
    s) : OutKeeps P (execStateReqHibernate src fastNap s) := by
  unfold execStateReqHibernate
  repeat' first
    | (with_reducible first
        | assumption | intro _ | apply outKeeps_next | apply writeRow_keeps K)
    | exact off_sub rfl hb | exact off_bit rfl hb | dsimp only | split

theorem execStateReqShutdown_keeps (K : Keeps nb P) (src : Source) (fastNap : Bool) (s : State) (hb : Off fpAll nb) (h : P
    s) : OutKeeps P (execStateReqShutdown src fastNap s) := by
  unfold execStateReqShutdown
  repeat' first
    | (with_reducible first
        | assumption | intro _ | apply outKeeps_next | apply writeRow_keeps K)
    | exact off_sub rfl hb | exact off_bit rfl hb | dsimp only | split

theorem execDomCtrlOn_keeps (K : Keeps nb P) (src : Source) (dom : Fin 136) (s : State) (hb : Off fpAll nb) (h : P s) :
    OutKeeps P (execDomCtrlOn src dom s) := by
  unfold execDomCtrlOn
  repeat' first
    | (with_reducible first
        | assumption | intro _ | apply outKeeps_next | apply writeRow_keeps K)
    | exact off_sub rfl hb | exact off_bit rfl hb | dsimp only | split

theorem execDomCtrlOff_keeps (K : Keeps nb P) (src : Source) (dom : Fin 136) (s : State) (hb : Off fpAll nb) (h : P s) :
    OutKeeps P (execDomCtrlOff src dom s) := by
  unfold execDomCtrlOff
  repeat' first
    | (with_reducible first
        | assumption | intro _ | apply outKeeps_next | apply writeRow_keeps K)
    | exact off_sub rfl hb | exact off_bit rfl hb | dsimp only | split

theorem execAdSwtrigA_keeps (K : Keeps nb P) (src : Source) (ad : Fin 4) (s : State) (hb : Off fpAll nb) (h : P s) :
    OutKeeps P (execAdSwtrigA src ad s) := by
  unfold execAdSwtrigA
  repeat' first
    | (with_reducible first
        | assumption | intro _ | apply outKeeps_next | apply writeRow_keeps K)
    | exact off_sub rfl hb | exact off_bit rfl hb | dsimp only | split

theorem execAdSwtrigB_keeps (K : Keeps nb P) (src : Source) (ad : Fin 4) (s : State) (hb : Off fpAll nb) (h : P s) :
    OutKeeps P (execAdSwtrigB src ad s) := by
  unfold execAdSwtrigB
  repeat' first
    | (with_reducible first
        | assumption | intro _ | apply outKeeps_next | apply writeRow_keeps K)
    | exact off_sub rfl hb | exact off_bit rfl hb | dsimp only | split

theorem execCmCfgWrite_keeps (K : Keeps nb P) (src : Source) (cmp : Fin 24) (dac : Bool) (data : BitVec 32) (s : State) (hb
    : Off fpAll nb) (h : P s) : OutKeeps P (execCmCfgWrite src cmp dac data s) := by
  unfold execCmCfgWrite
  repeat' first
    | (with_reducible first
        | assumption | intro _ | apply outKeeps_next | apply keeps_ite | apply writeRow_keeps K)
    | exact off_sub rfl hb | exact off_bit rfl hb | dsimp only | split

theorem execSwGo_keeps (K : Keeps nb P) (src : Source) (s : State) (hb : Off fpAll nb) (h : P s) : OutKeeps P (execSwGo src
    s) := by
  unfold execSwGo
  repeat' first
    | (with_reducible first
        | assumption | intro _ | apply outKeeps_next | apply writeRow_keeps K)
    | exact off_sub rfl hb | exact off_bit rfl hb | dsimp only | split

theorem execCtGstart_keeps (K : Keeps nb P) (src : Source) (slices : BitVec 16) (s : State) (hb : Off fpAll nb) (h : P s) :
    OutKeeps P (execCtGstart src slices s) := by
  unfold execCtGstart
  repeat' first
    | (with_reducible first
        | assumption | intro _ | apply outKeeps_next | apply writeRow_keeps K)
    | exact off_sub rfl hb | exact off_bit rfl hb | dsimp only | split

theorem execCtShctlForce_keeps (K : Keeps nb P) (src : Source) (slice : Fin 16) (hold : Bool) (s : State) (hb : Off fpAll
    nb) (h : P s) : OutKeeps P (execCtShctlForce src slice hold s) := by
  unfold execCtShctlForce
  repeat' first
    | (with_reducible first
        | assumption | intro _ | apply outKeeps_next | apply writeRow_keeps K)
    | exact off_sub rfl hb | exact off_bit rfl hb | dsimp only | split

theorem execCtShadowWrite_keeps (K : Keeps nb P) (src : Source) (slice : Fin 16) (which : Fin 5) (data : BitVec 32) (s :
    State) (hb : Off fpAll nb) (h : P s) : OutKeeps P (execCtShadowWrite src slice which data s) := by
  unfold execCtShadowWrite
  repeat' first
    | (with_reducible first
        | assumption | intro _ | apply outKeeps_next | apply keeps_ite | apply writeRow_keeps K)
    | exact off_sub rfl hb | exact off_bit rfl hb | dsimp only | split

theorem execLgArmArm_keeps (K : Keeps nb P) (src : Source) (leg : Fin 16) (s : State) (hb : Off fpAll nb) (h : P s) :
    OutKeeps P (execLgArmArm src leg s) := by
  unfold execLgArmArm
  repeat' first
    | (with_reducible first
        | assumption | intro _ | apply outKeeps_next | apply writeRow_keeps K)
    | exact off_sub rfl hb | exact off_bit rfl hb | dsimp only | split

theorem execLgArmNow_keeps (K : Keeps nb P) (src : Source) (leg : Fin 16) (s : State) (hb : Off fpAll nb) (h : P s) :
    OutKeeps P (execLgArmNow src leg s) := by
  unfold execLgArmNow
  repeat' first
    | (with_reducible first
        | assumption | intro _ | apply outKeeps_next | apply writeRow_keeps K)
    | exact off_sub rfl hb | exact off_bit rfl hb | dsimp only | split

theorem execLgArmDisarm_keeps (K : Keeps nb P) (src : Source) (leg : Fin 16) (s : State) (hb : Off fpAll nb) (h : P s) :
    OutKeeps P (execLgArmDisarm src leg s) := by
  unfold execLgArmDisarm
  repeat' first
    | (with_reducible first
        | assumption | intro _ | apply outKeeps_next | apply writeRow_keeps K)
    | exact off_sub rfl hb | exact off_bit rfl hb | dsimp only | split

theorem execLgArmSwtrip_keeps (K : Keeps nb P) (src : Source) (leg : Fin 16) (s : State) (hb : Off fpAll nb) (h : P s) :
    OutKeeps P (execLgArmSwtrip src leg s) := by
  unfold execLgArmSwtrip
  repeat' first
    | (with_reducible first
        | assumption | intro _ | apply outKeeps_next | apply writeRow_keeps K)
    | exact off_sub rfl hb | exact off_bit rfl hb | dsimp only | split

theorem execBgArm_keeps (K : Keeps nb P) (src : Source) (groups : BitVec 6) (s : State) (hb : Off fpAll nb) (h : P s) :
    OutKeeps P (execBgArm src groups s) := by
  unfold execBgArm
  repeat' first
    | (with_reducible first
        | assumption | intro _ | apply outKeeps_next | apply writeRow_keeps K)
    | exact off_sub rfl hb | exact off_bit rfl hb | dsimp only | split

theorem execLgCfgWrite_keeps (K : Keeps nb P) (src : Source) (leg : Fin 16) (dt : Bool) (data : BitVec 32) (s : State) (hb
    : Off fpAll nb) (h : P s) : OutKeeps P (execLgCfgWrite src leg dt data s) := by
  unfold execLgCfgWrite
  repeat' first
    | (with_reducible first
        | assumption | intro _ | apply outKeeps_next | apply keeps_ite | apply writeRow_keeps K)
    | exact off_sub rfl hb | exact off_bit rfl hb | dsimp only | split

theorem execYankClear_keeps (K : Keeps nb P) (src : Source) (s : State) (hb : Off fpAll nb) (h : P s) : OutKeeps P
    (execYankClear src s) := by
  unfold execYankClear
  repeat' first
    | (with_reducible first
        | assumption | intro _ | apply outKeeps_next | apply writeRow_keeps K)
    | exact off_sub rfl hb | exact off_bit rfl hb | dsimp only | split

theorem execLeSwap_keeps (K : Keeps nb P) (src : Source) (high : Bool) (slots : BitVec 32) (s : State) (hb : Off fpAll nb)
    (h : P s) : OutKeeps P (execLeSwap src high slots s) := by
  unfold execLeSwap
  repeat' first
    | (with_reducible first
        | assumption | intro _ | apply outKeeps_next | apply keeps_ite | apply writeRow_keeps K)
    | exact off_sub rfl hb | exact off_bit rfl hb | dsimp only | split

theorem execLeClr_keeps (K : Keeps nb P) (src : Source) (high : Bool) (slots : BitVec 32) (s : State) (hb : Off fpAll nb)
    (h : P s) : OutKeeps P (execLeClr src high slots s) := by
  unfold execLeClr
  repeat' first
    | (with_reducible first
        | assumption | intro _ | apply outKeeps_next | apply keeps_ite | apply writeRow_keeps K)
    | exact off_sub rfl hb | exact off_bit rfl hb | dsimp only | split

theorem execLtPreload_keeps (K : Keeps nb P) (src : Source) (table : Fin 4) (freeze : Bool) (s : State) (hb : Off fpAll nb)
    (h : P s) : OutKeeps P (execLtPreload src table freeze s) := by
  unfold execLtPreload
  repeat' first
    | (with_reducible first
        | assumption | intro _ | apply outKeeps_next | apply writeRow_keeps K)
    | exact off_sub rfl hb | exact off_bit rfl hb | dsimp only | split

theorem execLtSnap_keeps (K : Keeps nb P) (src : Source) (table : Fin 4) (freeze : Bool) (s : State) (hb : Off fpAll nb) (h
    : P s) : OutKeeps P (execLtSnap src table freeze s) := by
  unfold execLtSnap
  repeat' first
    | (with_reducible first
        | assumption | intro _ | apply outKeeps_next | apply writeRow_keeps K)
    | exact off_sub rfl hb | exact off_bit rfl hb | dsimp only | split

theorem execHdsCommit_keeps (K : Keeps nb P) (src : Source) (slots : BitVec 2) (s : State) (hb : Off fpAll nb) (h : P s) :
    OutKeeps P (execHdsCommit src slots s) := by
  unfold execHdsCommit
  repeat' first
    | (with_reducible first
        | assumption | intro _ | apply outKeeps_next | apply writeRow_keeps K)
    | exact off_sub rfl hb | exact off_bit rfl hb | dsimp only | split

theorem execHdsCtrlWrite_keeps (K : Keeps nb P) (src : Source) (data : BitVec 32) (s : State) (hb : Off fpAll nb) (h : P s)
    : OutKeeps P (execHdsCtrlWrite src data s) := by
  unfold execHdsCtrlWrite
  repeat' first
    | (with_reducible first
        | assumption | intro _ | apply outKeeps_next | apply writeRow_keeps K)
    | exact off_sub rfl hb | exact off_bit rfl hb | dsimp only | split

theorem execHdsGoLine_keeps (K : Keeps nb P) (src : Source) (s : State) (hb : Off fpAll nb) (h : P s) : OutKeeps P
    (execHdsGoLine src s) := by
  unfold execHdsGoLine
  repeat' first
    | (with_reducible first
        | assumption | intro _ | apply outKeeps_next | apply writeRow_keeps K)
    | exact off_sub rfl hb | exact off_bit rfl hb | dsimp only | split

theorem execHcuInWrWrite_keeps (K : Keeps nb P) (src : Source) (data : BitVec 32) (s : State) (hb : Off fpAll nb) (h : P s)
    : OutKeeps P (execHcuInWrWrite src data s) := by
  unfold execHcuInWrWrite
  repeat' first
    | (with_reducible first
        | assumption | intro _ | apply outKeeps_next | apply writeRow_keeps K)
    | exact off_sub rfl hb | exact off_bit rfl hb | dsimp only | split

theorem execHcuErrClear_keeps (K : Keeps nb P) (src : Source) (s : State) (hb : Off fpAll nb) (h : P s) : OutKeeps P
    (execHcuErrClear src s) := by
  unfold execHcuErrClear
  repeat' first
    | (with_reducible first
        | assumption | intro _ | apply outKeeps_next | apply writeRow_keeps K)
    | exact off_sub rfl hb | exact off_bit rfl hb | dsimp only | split

theorem execHcuHistClr_keeps (K : Keeps nb P) (src : Source) (data : BitVec 32) (s : State) (hb : Off fpAll nb) (h : P s) :
    OutKeeps P (execHcuHistClr src data s) := by
  unfold execHcuHistClr
  repeat' first
    | (with_reducible first
        | assumption | intro _ | apply outKeeps_next | apply writeRow_keeps K)
    | exact off_sub rfl hb | exact off_bit rfl hb | dsimp only | split

theorem execDkFire_keeps (K : Keeps nb P) (src : Source) (dk : Fin 2) (s : State) (hb : Off fpAll nb) (h : P s) : OutKeeps
    P (execDkFire src dk s) := by
  unfold execDkFire
  repeat' first
    | (with_reducible first
        | assumption | intro _ | apply outKeeps_next | apply writeRow_keeps K)
    | exact off_sub rfl hb | exact off_bit rfl hb | dsimp only | split

theorem execWdKick_keeps (K : Keeps nb P) (src : Source) (basic : Bool) (threads : BitVec 8) (s : State) (hb : Off fpAll
    nb) (h : P s) : OutKeeps P (execWdKick src basic threads s) := by
  unfold execWdKick
  repeat' first
    | (with_reducible first
        | assumption | intro _ | apply outKeeps_next | apply keeps_ite | apply writeRow_keeps K)
    | exact off_sub rfl hb | exact off_bit rfl hb | dsimp only | split

theorem execTcDfaultClear_keeps (K : Keeps nb P) (src : Source) (core : Fin 5) (threads : BitVec 8) (s : State) (hb : Off
    fpAll nb) (h : P s) : OutKeeps P (execTcDfaultClear src core threads s) := by
  unfold execTcDfaultClear
  repeat' first
    | (with_reducible first
        | assumption | intro _ | apply outKeeps_next | apply writeRow_keeps K)
    | exact off_sub rfl hb | exact off_bit rfl hb | dsimp only | split

theorem execCcInvIcAll_keeps (K : Keeps nb P) (src : Source) (s : State) (hb : Off fpAll nb) (h : P s) : OutKeeps P
    (execCcInvIcAll src s) := by
  unfold execCcInvIcAll
  repeat' first
    | (with_reducible first
        | assumption | intro _ | apply outKeeps_next | apply writeRow_keeps K)
    | exact off_sub rfl hb | exact off_bit rfl hb | dsimp only | split

theorem execCcInvRcAll_keeps (K : Keeps nb P) (src : Source) (s : State) (hb : Off fpAll nb) (h : P s) : OutKeeps P
    (execCcInvRcAll src s) := by
  unfold execCcInvRcAll
  repeat' first
    | (with_reducible first
        | assumption | intro _ | apply outKeeps_next | apply writeRow_keeps K)
    | exact off_sub rfl hb | exact off_bit rfl hb | dsimp only | split

theorem execCcInvIcRange_keeps (K : Keeps nb P) (src : Source) (s : State) (hb : Off fpAll nb) (h : P s) : OutKeeps P
    (execCcInvIcRange src s) := by
  unfold execCcInvIcRange
  repeat' first
    | (with_reducible first
        | assumption | intro _ | apply outKeeps_next | apply writeRow_keeps K)
    | exact off_sub rfl hb | exact off_bit rfl hb | dsimp only | split

theorem execCcInvRcRange_keeps (K : Keeps nb P) (src : Source) (s : State) (hb : Off fpAll nb) (h : P s) : OutKeeps P
    (execCcInvRcRange src s) := by
  unfold execCcInvRcRange
  repeat' first
    | (with_reducible first
        | assumption | intro _ | apply outKeeps_next | apply writeRow_keeps K)
    | exact off_sub rfl hb | exact off_bit rfl hb | dsimp only | split

theorem execDspPost_keeps (K : Keeps nb P) (src : Source) (basic : Bool) (task : BitVec 8) (ticket : BitVec 16) (s : State)
    (hb : Off fpAll nb) (h : P s) : OutKeeps P (execDspPost src basic task ticket s) := by
  unfold execDspPost
  repeat' first
    | (with_reducible first
        | assumption | intro _ | apply outKeeps_next | apply keeps_ite | apply writeRow_keeps K)
    | exact off_sub rfl hb | exact off_bit rfl hb | dsimp only | split

theorem execDspRecover_keeps (K : Keeps nb P) (src : Source) (task : BitVec 8) (s : State) (hb : Off fpAll nb) (h : P s) :
    OutKeeps P (execDspRecover src task s) := by
  unfold execDspRecover
  repeat' first
    | (with_reducible first
        | assumption | intro _ | apply outKeeps_next | apply writeRow_keeps K)
    | exact off_sub rfl hb | exact off_bit rfl hb | dsimp only | split

theorem execDspCtrlEn_keeps (K : Keeps nb P) (src : Source) (en : Bool) (s : State) (hb : Off fpAll nb) (h : P s) :
    OutKeeps P (execDspCtrlEn src en s) := by
  unfold execDspCtrlEn
  repeat' first
    | (with_reducible first
        | assumption | intro _ | apply outKeeps_next | apply writeRow_keeps K)
    | exact off_sub rfl hb | exact off_bit rfl hb | dsimp only | split

theorem execMpuLock_keeps (K : Keeps nb P) (src : Source) (defEn : Bool) (s : State) (hb : Off fpAll nb) (h : P s) :
    OutKeeps P (execMpuLock src defEn s) := by
  unfold execMpuLock
  repeat' first
    | (with_reducible first
        | assumption | intro _ | apply outKeeps_next | apply writeRow_keeps K)
    | exact off_sub rfl hb | exact off_bit rfl hb | dsimp only | split

theorem execSpSplit_keeps (K : Keeps nb P) (src : Source) (s : State) (hb : Off fpAll nb) (h : P s) : OutKeeps P
    (execSpSplit src s) := by
  unfold execSpSplit
  repeat' first
    | (with_reducible first
        | assumption | intro _ | apply outKeeps_next | apply writeRow_keeps K)
    | exact off_sub rfl hb | exact off_bit rfl hb | dsimp only | split

theorem execSpRejoin_keeps (K : Keeps nb P) (src : Source) (s : State) (hb : Off fpAll nb) (h : P s) : OutKeeps P
    (execSpRejoin src s) := by
  unfold execSpRejoin
  repeat' first
    | (with_reducible first
        | assumption | intro _ | apply outKeeps_next | apply writeRow_keeps K)
    | exact off_sub rfl hb | exact off_bit rfl hb | dsimp only | split

theorem execSpDegrade_keeps (K : Keeps nb P) (src : Source) (s : State) (hb : Off fpAll nb) (h : P s) : OutKeeps P
    (execSpDegrade src s) := by
  unfold execSpDegrade
  repeat' first
    | (with_reducible first
        | assumption | intro _ | apply outKeeps_next | apply writeRow_keeps K)
    | exact off_sub rfl hb | exact off_bit rfl hb | dsimp only | split

theorem execSpInjC_keeps (K : Keeps nb P) (src : Source) (s : State) (hb : Off fpAll nb) (h : P s) : OutKeeps P (execSpInjC
    src s) := by
  unfold execSpInjC
  repeat' first
    | (with_reducible first
        | assumption | intro _ | apply outKeeps_next | apply writeRow_keeps K)
    | exact off_sub rfl hb | exact off_bit rfl hb | dsimp only | split

theorem execSpInjI_keeps (K : Keeps nb P) (src : Source) (s : State) (hb : Off fpAll nb) (h : P s) : OutKeeps P (execSpInjI
    src s) := by
  unfold execSpInjI
  repeat' first
    | (with_reducible first
        | assumption | intro _ | apply outKeeps_next | apply writeRow_keeps K)
    | exact off_sub rfl hb | exact off_bit rfl hb | dsimp only | split

theorem execDcDoorbell_keeps (K : Keeps nb P) (src : Source) (ch : Fin 32) (ticket : BitVec 16) (s : State) (hb : Off fpAll
    nb) (h : P s) : OutKeeps P (execDcDoorbell src ch ticket s) := by
  unfold execDcDoorbell
  repeat' first
    | (with_reducible first
        | assumption | intro _ | apply outKeeps_next | apply writeRow_keeps K)
    | exact off_sub rfl hb | exact off_bit rfl hb | dsimp only | split

theorem execDcStop_keeps (K : Keeps nb P) (src : Source) (ch : Fin 32) (s : State) (hb : Off fpAll nb) (h : P s) : OutKeeps
    P (execDcStop src ch s) := by
  unfold execDcStop
  repeat' first
    | (with_reducible first
        | assumption | intro _ | apply outKeeps_next | apply writeRow_keeps K)
    | exact off_sub rfl hb | exact off_bit rfl hb | dsimp only | split

theorem execDcClear_keeps (K : Keeps nb P) (src : Source) (ch : Fin 32) (s : State) (hb : Off fpAll nb) (h : P s) :
    OutKeeps P (execDcClear src ch s) := by
  unfold execDcClear
  repeat' first
    | (with_reducible first
        | assumption | intro _ | apply outKeeps_next | apply writeRow_keeps K)
    | exact off_sub rfl hb | exact off_bit rfl hb | dsimp only | split

theorem execDcCfgWrite_keeps (K : Keeps nb P) (src : Source) (ch : Fin 32) (data : BitVec 32) (s : State) (hb : Off fpAll
    nb) (h : P s) : OutKeeps P (execDcCfgWrite src ch data s) := by
  unfold execDcCfgWrite
  repeat' first
    | (with_reducible first
        | assumption | intro _ | apply outKeeps_next | apply writeRow_keeps K)
    | exact off_sub rfl hb | exact off_bit rfl hb | dsimp only | split

theorem execDcNextWrite_keeps (K : Keeps nb P) (src : Source) (ch : Fin 32) (data : BitVec 32) (s : State) (hb : Off fpAll
    nb) (h : P s) : OutKeeps P (execDcNextWrite src ch data s) := by
  unfold execDcNextWrite
  repeat' first
    | (with_reducible first
        | assumption | intro _ | apply outKeeps_next | apply writeRow_keeps K)
    | exact off_sub rfl hb | exact off_bit rfl hb | dsimp only | split

theorem execDcRingRdWrite_keeps (K : Keeps nb P) (src : Source) (ch : Fin 32) (data : BitVec 32) (s : State) (hb : Off
    fpAll nb) (h : P s) : OutKeeps P (execDcRingRdWrite src ch data s) := by
  unfold execDcRingRdWrite
  repeat' first
    | (with_reducible first
        | assumption | intro _ | apply outKeeps_next | apply writeRow_keeps K)
    | exact off_sub rfl hb | exact off_bit rfl hb | dsimp only | split

theorem execDmaMidWrite_keeps (K : Keeps nb P) (src : Source) (ch : Fin 32) (mid : BitVec 6) (s : State) (hb : Off fpAll
    nb) (h : P s) : OutKeeps P (execDmaMidWrite src ch mid s) := by
  unfold execDmaMidWrite
  repeat' first
    | (with_reducible first
        | assumption | intro _ | apply outKeeps_next | apply writeRow_keeps K)
    | exact off_sub rfl hb | exact off_bit rfl hb | dsimp only | split

theorem execDmaMidLock_keeps (K : Keeps nb P) (src : Source) (s : State) (hb : Off fpAll nb) (h : P s) : OutKeeps P
    (execDmaMidLock src s) := by
  unfold execDmaMidLock
  repeat' first
    | (with_reducible first
        | assumption | intro _ | apply outKeeps_next | apply writeRow_keeps K)
    | exact off_sub rfl hb | exact off_bit rfl hb | dsimp only | split

theorem execCxStart_keeps (K : Keeps nb P) (src : Source) (ctx : Fin 16) (s : State) (hb : Off fpAll nb) (h : P s) :
    OutKeeps P (execCxStart src ctx s) := by
  unfold execCxStart
  repeat' first
    | (with_reducible first
        | assumption | intro _ | apply outKeeps_next | apply writeRow_keeps K)
    | exact off_sub rfl hb | exact off_bit rfl hb | dsimp only | split

theorem execCxFinish_keeps (K : Keeps nb P) (src : Source) (ctx : Fin 16) (s : State) (hb : Off fpAll nb) (h : P s) :
    OutKeeps P (execCxFinish src ctx s) := by
  unfold execCxFinish
  repeat' first
    | (with_reducible first
        | assumption | intro _ | apply outKeeps_next | apply writeRow_keeps K)
    | exact off_sub rfl hb | exact off_bit rfl hb | dsimp only | split

theorem execCxPreset_keeps (K : Keeps nb P) (src : Source) (ctx : Fin 16) (code : BitVec 3) (s : State) (hb : Off fpAll nb)
    (h : P s) : OutKeeps P (execCxPreset src ctx code s) := by
  unfold execCxPreset
  repeat' first
    | (with_reducible first
        | assumption | intro _ | apply outKeeps_next | apply writeRow_keeps K)
    | exact off_sub rfl hb | exact off_bit rfl hb | dsimp only | split

theorem execCxConfigWrite_keeps (K : Keeps nb P) (src : Source) (ctx : Fin 16) (which : Fin 5) (data : BitVec 64) (s :
    State) (hb : Off fpAll nb) (h : P s) : OutKeeps P (execCxConfigWrite src ctx which data s) := by
  unfold execCxConfigWrite
  repeat' first
    | (with_reducible first
        | assumption | intro _ | apply outKeeps_next | apply keeps_ite | apply writeRow_keeps K)
    | exact off_sub rfl hb | exact off_bit rfl hb | dsimp only | split

theorem execPtTxPush_keeps (K : Keeps nb P) (src : Source) (port : Fin 6) (data : BitVec 32) (n : Fin 4) (ep : Fin 8)
    (ticket : BitVec 16) (s : State) (hb : Off fpAll nb) (h : P s) : OutKeeps P (execPtTxPush src port data n ep ticket s)
    := by
  unfold execPtTxPush
  repeat' first
    | (with_reducible first
        | assumption | intro _ | apply outKeeps_next | apply writeRow_keeps K)
    | exact off_sub rfl hb | exact off_bit rfl hb | dsimp only | split

theorem execPtTxStream_keeps (K : Keeps nb P) (src : Source) (port : Fin 6) (ep : Fin 8) (data : BitVec 32) (s : State) (hb
    : Off fpAll nb) (h : P s) : OutKeeps P (execPtTxStream src port ep data s) := by
  unfold execPtTxStream
  repeat' first
    | (with_reducible first
        | assumption | intro _ | apply outKeeps_next | apply keeps_ite | apply writeRow_keeps K)
    | exact off_sub rfl hb | exact off_bit rfl hb | dsimp only | split

theorem execUsbRwake_keeps (K : Keeps nb P) (src : Source) (connect hsEn : Bool) (s : State) (hb : Off fpAll nb) (h : P s)
    : OutKeeps P (execUsbRwake src connect hsEn s) := by
  unfold execUsbRwake
  repeat' first
    | (with_reducible first
        | assumption | intro _ | apply outKeeps_next | apply writeRow_keeps K)
    | exact off_sub rfl hb | exact off_bit rfl hb | dsimp only | split

theorem execUsbEpcfgWrite_keeps (K : Keeps nb P) (src : Source) (ep : Fin 7) (data : BitVec 32) (s : State) (hb : Off fpAll
    nb) (h : P s) : OutKeeps P (execUsbEpcfgWrite src ep data s) := by
  unfold execUsbEpcfgWrite
  repeat' first
    | (with_reducible first
        | assumption | intro _ | apply outKeeps_next | apply writeRow_keeps K)
    | exact off_sub rfl hb | exact off_bit rfl hb | dsimp only | split

theorem execEthMdioCmd_keeps (K : Keeps nb P) (src : Source) (data : BitVec 32) (s : State) (hb : Off fpAll nb) (h : P s) :
    OutKeeps P (execEthMdioCmd src data s) := by
  unfold execEthMdioCmd
  repeat' first
    | (with_reducible first
        | assumption | intro _ | apply outKeeps_next | apply writeRow_keeps K)
    | exact off_sub rfl hb | exact off_bit rfl hb | dsimp only | split

theorem execNvmTallySave_keeps (K : Keeps nb P) (src : Source) (s : State) (hb : Off fpAll nb) (h : P s) : OutKeeps P
    (execNvmTallySave src s) := by
  unfold execNvmTallySave
  repeat' first
    | (with_reducible first
        | assumption | intro _ | apply outKeeps_next | apply writeRow_keeps K)
    | exact off_sub rfl hb | exact off_bit rfl hb | dsimp only | split

theorem execKeyCommit_keeps (K : Keeps nb P) (src : Source) (slot : Fin 4) (ticket : BitVec 16) (s : State) (hb : Off fpAll
    nb) (h : P s) : OutKeeps P (execKeyCommit src slot ticket s) := by
  unfold execKeyCommit
  repeat' first
    | (with_reducible first
        | assumption | intro _ | apply outKeeps_next | apply writeRow_keeps K)
    | exact off_sub rfl hb | exact off_bit rfl hb | dsimp only | split

theorem execCtrRaise_keeps (K : Keeps nb P) (src : Source) (ctr : Fin 8) (value : BitVec 32) (s : State) (hb : Off fpAll
    nb) (h : P s) : OutKeeps P (execCtrRaise src ctr value s) := by
  unfold execCtrRaise
  repeat' first
    | (with_reducible first
        | assumption | intro _ | apply outKeeps_next | apply writeRow_keeps K)
    | exact off_sub rfl hb | exact off_bit rfl hb | dsimp only | split

theorem execCrHash_keeps (K : Keeps nb P) (src : Source) (s : State) (hb : Off fpAll nb) (h : P s) : OutKeeps P (execCrHash
    src s) := by
  unfold execCrHash
  repeat' first
    | (with_reducible first
        | assumption | intro _ | apply outKeeps_next | apply writeRow_keeps K)
    | exact off_sub rfl hb | exact off_bit rfl hb | dsimp only | split

theorem execCrVerify_keeps (K : Keeps nb P) (src : Source) (s : State) (hb : Off fpAll nb) (h : P s) : OutKeeps P
    (execCrVerify src s) := by
  unfold execCrVerify
  repeat' first
    | (with_reducible first
        | assumption | intro _ | apply outKeeps_next | apply writeRow_keeps K)
    | exact off_sub rfl hb | exact off_bit rfl hb | dsimp only | split

theorem execCrImage_keeps (K : Keeps nb P) (src : Source) (kind : BitVec 3) (s : State) (hb : Off fpAll nb) (h : P s) :
    OutKeeps P (execCrImage src kind s) := by
  unfold execCrImage
  repeat' first
    | (with_reducible first
        | assumption | intro _ | apply outKeeps_next | apply writeRow_keeps K)
    | exact off_sub rfl hb | exact off_bit rfl hb | dsimp only | split

theorem execCrRevoke_keeps (K : Keeps nb P) (src : Source) (s : State) (hb : Off fpAll nb) (h : P s) : OutKeeps P
    (execCrRevoke src s) := by
  unfold execCrRevoke
  repeat' first
    | (with_reducible first
        | assumption | intro _ | apply outKeeps_next | apply writeRow_keeps K)
    | exact off_sub rfl hb | exact off_bit rfl hb | dsimp only | split

theorem execDbgHalt_keeps (K : Keeps nb P) (src : Source) (high : Bool) (threads : BitVec 32) (s : State) (hb : Off fpAll
    nb) (h : P s) : OutKeeps P (execDbgHalt src high threads s) := by
  unfold execDbgHalt
  repeat' first
    | (with_reducible first
        | assumption | intro _ | apply outKeeps_next | apply keeps_ite | apply writeRow_keeps K)
    | exact off_sub rfl hb | exact off_bit rfl hb | dsimp only | split

theorem execDbgResume_keeps (K : Keeps nb P) (src : Source) (high : Bool) (threads : BitVec 32) (s : State) (hb : Off fpAll
    nb) (h : P s) : OutKeeps P (execDbgResume src high threads s) := by
  unfold execDbgResume
  repeat' first
    | (with_reducible first
        | assumption | intro _ | apply outKeeps_next | apply keeps_ite | apply writeRow_keeps K)
    | exact off_sub rfl hb | exact off_bit rfl hb | dsimp only | split

theorem execDbgStep_keeps (K : Keeps nb P) (src : Source) (high : Bool) (threads : BitVec 32) (s : State) (hb : Off fpAll
    nb) (h : P s) : OutKeeps P (execDbgStep src high threads s) := by
  unfold execDbgStep
  repeat' first
    | (with_reducible first
        | assumption | intro _ | apply outKeeps_next | apply keeps_ite | apply writeRow_keeps K)
    | exact off_sub rfl hb | exact off_bit rfl hb | dsimp only | split

theorem execTstLock_keeps (K : Keeps nb P) (src : Source) (s : State) (hb : Off fpAll nb) (h : P s) : OutKeeps P
    (execTstLock src s) := by
  unfold execTstLock
  repeat' first
    | (with_reducible first
        | assumption | intro _ | apply outKeeps_next | apply writeRow_keeps K)
    | exact off_sub rfl hb | exact off_bit rfl hb | dsimp only | split

theorem execTstFuseProg_keeps (K : Keeps nb P) (src : Source) (fuses : BitVec 2) (s : State) (hb : Off fpAll nb) (h : P s)
    : OutKeeps P (execTstFuseProg src fuses s) := by
  unfold execTstFuseProg
  repeat' first
    | (with_reducible first
        | assumption | intro _ | apply outKeeps_next | apply writeRow_keeps K)
    | exact off_sub rfl hb | exact off_bit rfl hb | dsimp only | split

theorem execCpDataPop_keeps (K : Keeps nb P) (src : Source) (ch : Fin 16) (s : State) (hb : Off fpAll nb) (h : P s) :
    OutKeeps P (execCpDataPop src ch s) := by
  unfold execCpDataPop
  repeat' first
    | (with_reducible first
        | assumption | intro _ | apply outKeeps_next | apply readRow_keeps K)
    | exact off_sub rfl hb | exact off_bit rfl hb | dsimp only | split

theorem execPtRxPop_keeps (K : Keeps nb P) (src : Source) (port : Fin 6) (ep : Fin 8) (s : State) (hb : Off fpAll nb) (h :
    P s) : OutKeeps P (execPtRxPop src port ep s) := by
  unfold execPtRxPop
  repeat' first
    | (with_reducible first
        | assumption | intro _ | apply outKeeps_next | apply keeps_ite | apply readRow_keeps K)
    | exact off_sub rfl hb | exact off_bit rfl hb | dsimp only | split

theorem execCxFeedWrite_keeps (K : Keeps nb P) (src : Source) (ctx : Fin 16) (place : Fin 32) (size : Fin 6) (data : BitVec
    256) (s : State) (hb : Off fpAll nb) (h : P s) : OutKeeps P (execCxFeedWrite src ctx place size data s) := by
  unfold execCxFeedWrite
  repeat' first
    | (with_reducible first
        | assumption | intro _ | apply outKeeps_next | apply busRequest_keeps K)
    | exact off_sub rfl hb | exact off_bit rfl hb | dsimp only | split

theorem execDbgRegAccess_keeps (K : Keeps nb P) (src : Source) (reg : Fin 18) (write : Bool) (data : BitVec 32) (s : State)
    (hb : Off fpAll nb) (h : P s) : OutKeeps P (execDbgRegAccess src reg write data s) := by
  unfold execDbgRegAccess
  repeat' first
    | (with_reducible first
        | assumption | intro _ | apply outKeeps_next | apply keeps_ite | apply readRow_keeps K | apply writeRow_keeps K)
    | exact off_sub rfl hb | exact off_bit rfl hb | dsimp only | split

theorem execRegisterWrite_keeps (K : Keeps nb P) (src : Source) (addr : BitVec 32) (size : Fin 6) (data : BitVec 256) (s :
    State) (hb : Off fpAll nb) (h : P s) : OutKeeps P (execRegisterWrite src addr size data s) := by
  unfold execRegisterWrite
  repeat' first
    | (with_reducible first
        | assumption | intro _ | apply outKeeps_next | apply busRequest_keeps K)
    | exact off_sub rfl hb | exact off_bit rfl hb | dsimp only | split

theorem execTallyWrite_keeps (K : Keeps nb P) (src : Source) (addr : BitVec 32) (size : Fin 6) (data : BitVec 256) (s :
    State) (hb : Off fpAll nb) (h : P s) : OutKeeps P (execTallyWrite src addr size data s) := by
  unfold execTallyWrite
  repeat' first
    | (with_reducible first
        | assumption | intro _ | apply outKeeps_next | apply busRequest_keeps K)
    | exact off_sub rfl hb | exact off_bit rfl hb | dsimp only | split

end
end Sys2Proof.Machine
end

