-- ==== Sys2Proof/Laws/KeepsEngineRows.lean ====
section
/-!
SUPPORT. What each operation of Sys2Proof/Machine/EngineRows.lean can change: its footprint (Sys2Proof/Laws/Keeps.lean).
-/
namespace Sys2Proof.Machine
set_option linter.all false
section
variable {P : State → Prop} {nb : Nat}

theorem agentAccess_keeps (K : Keeps nb P) (s : State) (m op a z v : Nat) (hb : Off fpAll nb) (h : P s) : P (agentAccess s
    m op a z v) := by
  unfold agentAccess
  repeat' first
    | (with_reducible first
        | assumption | intro _ | apply respondCode_keeps K | apply serve_keeps K)
    | exact off_sub rfl hb | exact off_bit rfl hb | dsimp only | split

theorem engineLines_keeps (K : Keeps nb P) (s : State) (m a n : Nat) (hb : Off fpAll nb) (h : P s) : P (engineLines s m a
    n).1 := by
  unfold engineLines
  repeat' first
    | (with_reducible first
        | assumption | intro _ | apply keeps_foldl | apply keeps_fold1 | apply keeps_fold2 | apply keeps_ite
        | apply agentAccess_keeps K | (apply keeps_fst; assumption) | (apply keeps_snd; assumption))
    | exact off_sub rfl hb | exact off_bit rfl hb | dsimp only | split

theorem rowTake_keeps (K : Keeps nb P) (s : State) (r : Nat) (hb : Off fpAll nb) (h : P s) : P (rowTake s r) := by
  unfold rowTake
  repeat' first
    | (with_reducible first
        | assumption | intro _ | apply keeps_ite | apply rowEnds_keeps K | apply rowTrigger_keeps K)
    | exact off_sub rfl hb | exact off_bit rfl hb | dsimp only | split

theorem rowRelay_keeps (K : Keeps nb P) (s : State) (r : Nat) (hb : Off fpAll nb) (h : P s) : P (rowRelay s r) := by
  unfold rowRelay
  repeat' first
    | (with_reducible first
        | assumption | intro _ | apply keeps_ite | apply K.wr | apply rowTake_keeps K)
    | exact off_sub rfl hb | exact off_bit rfl hb | exact off_any (off_sub rfl hb) | dsimp only | split

theorem napSwitch_keeps (K : Keeps nb P) (s : State) (hb : Off fpAll nb) (h : P s) : P (napSwitch s) := by
  unfold napSwitch
  repeat' first
    | (with_reducible first
        | assumption | intro _ | apply keeps_each | apply keeps_ite | apply K.wr | apply fastNapSwitch_keeps K
        | apply rowTake_keeps K)
    | exact off_sub rfl hb | exact off_bit rfl hb | exact off_any (off_sub rfl hb) | dsimp only | split

theorem satTrip_keeps (K : Keeps nb P) (s : State) (leg : Option Nat) (hb : Off fpAll nb) (h : P s) : P (satTrip s leg) :=
    by
  unfold satTrip
  repeat' first
    | (with_reducible first
        | assumption | intro _ | apply busRequest_keeps K | (apply keeps_fst; assumption) | (apply keeps_snd; assumption))
    | exact off_sub rfl hb | exact off_bit rfl hb | dsimp only | split

theorem stitchBits_keeps (K : Keeps nb P) (s : State) (n ecc : Nat) (hb : Off
    0x1000000000000000000000000000000000000000000000000000000000000000000000000000000000000000000000000000000000000000000000000000000000000000000000000000000000000000000000000000000000000000000000000000000000000000000000000000000000000000000000000000000000000000000000000000000040000000000000000000000000000000000000000000000000000000000000000000000000000000000000000000000000000000
    nb) (h : P s) : P (stitchBits s n ecc) := by
  unfold stitchBits
  repeat' first
    | (with_reducible first
        | assumption | intro _ | apply keeps_ite | apply K.spoil | apply bump_keeps K)
    | exact off_sub rfl hb | exact off_bit rfl hb | dsimp only | split

theorem runStitch_keeps (K : Keeps nb P) (s : State) (n ecc : Nat) (hb : Off fpAll nb) (h : P s) : P (runStitch s n ecc) :=
    by
  unfold runStitch
  repeat' first
    | (with_reducible first
        | assumption | intro _ | apply keeps_ite | apply satTrip_keeps K | apply stitch_keeps K | apply stitchBits_keeps K)
    | exact off_sub rfl hb | exact off_bit rfl hb | dsimp only | split

theorem startRow_keeps (K : Keeps nb P) {s t : State} (hb : Off fpAll nb) (e : startRow s = some t) (h : P s) : P t := by
  unfold startRow at e
  split at e
  · cases e; exact h
  · split at e
    · exact absurd e (by simp)
    · cases e
      repeat' first
        | (with_reducible first | assumption | apply K.wr | apply up_keeps K)
        | exact off_sub rfl hb | exact off_bit rfl hb

theorem stitchStep_keeps (K : Keeps nb P) (s : State) (ecc : Nat) (hb : Off fpAll nb) (h : P s) : P (stitchStep s ecc) := by
  unfold stitchStep
  repeat' first
    | (with_reducible first
        | assumption | apply keeps_ite | apply rowEnds_keeps K | apply K.wr | apply down_keeps K
        | apply runStitch_keeps K | (apply startRow_keeps K hb; assumption))
    | exact off_sub rfl hb | exact off_bit rfl hb
    | dsimp only | split

theorem expressStep_keeps (K : Keeps nb P) (s : State) (ecc : Nat) (hb : Off fpAll nb) (h : P s) : P (expressStep s ecc) :=
    by
  unfold expressStep
  repeat' first
    | (with_reducible first
        | assumption | intro _ | apply keeps_ite | apply runStitch_keeps K | apply startExpress_keeps K)
    | exact off_sub rfl hb | exact off_bit rfl hb | dsimp only | split

theorem hcuFail_keeps (K : Keeps nb P) (s : State) (ecode : Nat) (c : Code) (hb : Off
    0x1000000000000000000000000000000000000000000000000004000000000000000000000000000000000000000000004000000000000000000000000000000000000000000000000000000000000000000000000000000000000000000000000000000000000000000000000000000003C0000000000000000000000000000000000000000000000000000000000000000000000000000000000000000000000000000000000000000000000000000
    nb) (h : P s) : P (hcuFail s ecode c) := by
  unfold hcuFail
  repeat' first
    | (with_reducible first
        | assumption | intro _ | apply K.wr | apply down_keeps K | apply post_keeps K | apply up_keeps K)
    | exact off_sub rfl hb | exact off_bit rfl hb | dsimp only | split

theorem hcuWritePlanes_keeps (K : Keeps nb P) (s : State) (hb : Off fpAll nb) (h : P s) : P (hcuWritePlanes s) := by
  unfold hcuWritePlanes
  repeat' first
    | (with_reducible first
        | assumption | intro _ | apply keeps_foldl | apply keeps_fold1 | apply keeps_fold2 | apply keeps_ite | apply K.wr
        | apply agentAccess_keeps K | apply hcuFail_keeps K | (apply keeps_fst; assumption) | (apply keeps_snd; assumption))
    | exact off_sub rfl hb | exact off_bit rfl hb | exact off_any (off_sub rfl hb) | dsimp only | split

theorem hcuTrySlot_keeps (K : Keeps nb P) (s : State) (hb : Off fpAll nb) (h : P s) : P (hcuTrySlot s) := by
  unfold hcuTrySlot
  repeat' first
    | (with_reducible first
        | assumption | intro _ | apply keeps_ite | apply agentAccess_keeps K | apply hcuFail_keeps K
        | apply hcuWritePlanes_keeps K)
    | exact off_sub rfl hb | exact off_bit rfl hb | dsimp only | split

theorem hcuProcess_keeps (K : Keeps nb P) (s : State) (hb : Off fpAll nb) (h : P s) : P (hcuProcess s) := by
  unfold hcuProcess
  repeat' first
    | (with_reducible first
        | assumption | intro _ | apply keeps_each | apply keeps_ite | apply K.wr | apply up_keeps K
        | apply engineLines_keeps K | apply hcuFail_keeps K | apply hcuTrySlot_keeps K)
    | exact off_sub rfl hb | exact off_bit rfl hb | exact off_any (off_sub rfl hb) | dsimp only | split

theorem hcuPoll_keeps (K : Keeps nb P) (s : State) (hb : Off fpAll nb) (h : P s) : P (hcuPoll s) := by
  unfold hcuPoll
  repeat' first
    | (with_reducible first
        | assumption | intro _ | apply keeps_ite | apply hcuTrySlot_keeps K)
    | exact off_sub rfl hb | exact off_bit rfl hb | dsimp only | split

theorem hcuCommit_keeps (K : Keeps nb P) (s : State) (hb : Off fpAll nb) (h : P s) : P (hcuCommit s) := by
  unfold hcuCommit
  repeat' first
    | (with_reducible first
        | assumption | intro _ | apply keeps_ite | apply K.wr | apply bump_keeps K | apply down_keeps K
        | apply postIf_keeps K | apply agentAccess_keeps K | apply hcuFail_keeps K)
    | exact off_sub rfl hb | exact off_bit rfl hb | exact off_any (off_sub rfl hb) | dsimp only | split

theorem scrubPeriod_keeps (K : Keeps nb P) (s : State) (x : Nat) (hb : Off
    0x80000000000000000000000000000000000000000000000000000000000000000000000000000000000000000000000000000000000000000000000000000000000000000000000080803C0000000000000000000000000000000000000000000000000000000000000000000000000000000000000000000000000000000000000000000000000000000000000000000000000000000000000000000000000000
    nb) (h : P s) : P (scrubPeriod s x) := by
  unfold scrubPeriod
  repeat' first
    | (with_reducible first
        | assumption | intro _ | apply keeps_ite | apply bump_keeps K | apply cxPassStart_keeps K)
    | exact off_sub rfl hb | exact off_bit rfl hb | dsimp only | split

theorem scrubPassEnd_keeps (K : Keeps nb P) (s : State) (x : Nat) (hb : Off fpAll nb) (h : P s) : P (scrubPassEnd s x) :=
    by
  unfold scrubPassEnd
  repeat' first
    | (with_reducible first
        | assumption | intro _ | apply keeps_ite | apply K.wr | apply down_keeps K | apply up_keeps K
        | apply cxEvent_keeps K | apply cxFinish_keeps K | apply cxFold_keeps K | apply engineLines_keeps K)
    | exact off_sub rfl hb | exact off_bit rfl hb | exact off_any (off_sub rfl hb) | dsimp only | split

theorem cxSlice_keeps (K : Keeps nb P) (s : State) (hb : Off fpAll nb) (h : P s) : P (cxSlice s) := by
  unfold cxSlice
  repeat' first
    | (with_reducible first
        | assumption | intro _ | apply keeps_foldl | apply keeps_fold1 | apply keeps_fold2 | apply K.wr | apply down_keeps K
        | apply cxFold_keeps K | apply releaseHeld_keeps K | apply respondCode_keeps K | apply setsOut_keeps K
        | apply parts_of K)
    | exact off_sub rfl hb | exact off_bit rfl hb | exact off_any (off_sub rfl hb) | dsimp only | split
    | simp only [parts_mk K]

theorem execFastNapPllSwitch_keeps (K : Keeps nb P) (s : State) (hb : Off fpAll nb) (h : P s) : OutKeeps P
    (execFastNapPllSwitch s) := by
  unfold execFastNapPllSwitch
  repeat' first
    | (with_reducible first
        | assumption | intro _ | apply outKeeps_next | apply napSwitch_keeps K)
    | exact off_sub rfl hb | exact off_bit rfl hb | dsimp only | split

theorem execRowTrigger_keeps (K : Keeps nb P) (row : Fin 16) (s : State) (hb : Off fpAll nb) (h : P s) : OutKeeps P
    (execRowTrigger row s) := by
  unfold execRowTrigger
  repeat' first
    | (with_reducible first
        | assumption | intro _ | apply outKeeps_next | apply rowRelay_keeps K)
    | exact off_sub rfl hb | exact off_bit rfl hb | dsimp only | split

theorem execStitch_keeps (K : Keeps nb P) (ecc : Fin 3) (s : State) (hb : Off fpAll nb) (h : P s) : OutKeeps P (execStitch
    ecc s) := by
  unfold execStitch
  repeat' first
    | (with_reducible first
        | assumption | intro _ | apply outKeeps_next | apply stitchStep_keeps K)
    | exact off_sub rfl hb | exact off_bit rfl hb | dsimp only | split

theorem execExpressStitch_keeps (K : Keeps nb P) (ecc : Fin 3) (s : State) (hb : Off fpAll nb) (h : P s) : OutKeeps P
    (execExpressStitch ecc s) := by
  unfold execExpressStitch
  repeat' first
    | (with_reducible first
        | assumption | intro _ | apply outKeeps_next | apply expressStep_keeps K)
    | exact off_sub rfl hb | exact off_bit rfl hb | dsimp only | split

theorem execResultReceive_keeps (K : Keeps nb P) (s : State) (hb : Off
    0x3E00000000000000000000000000000000000000000000000000000000000000000000000000000000000000000000000000000000000000000000000000000000000000000000000000000000000000000000000000000000000000000004001000000000000000000000000000000000000000000000000000000000000000000000000000000000000000000000000000
    nb) (h : P s) : OutKeeps P (execResultReceive s) := by
  unfold execResultReceive
  repeat' first
    | (with_reducible first
        | assumption | intro _ | apply outKeeps_next | apply resultReceive_keeps K)
    | exact off_sub rfl hb | exact off_bit rfl hb | dsimp only | split

theorem execLtCopyDone_keeps (K : Keeps nb P) (table : Fin 4) (s : State) (hb : Off
    0x10000000000000000000000001000000000000000000000000000000000000000000000000000000000E0000000000000000000000000000000000000400000000000000000000000000000000000000000000000000000000000000000000000000000000000000000000000000000000000000000000000000000000000000000000000000000000800000000000000000000000000000000000000000000000000000000000000000000000000000000000000000000000000000
    nb) (h : P s) : OutKeeps P (execLtCopyDone table s) := by
  unfold execLtCopyDone
  repeat' first
    | (with_reducible first
        | assumption | intro _ | apply outKeeps_next | apply ltCopyDone_keeps K)
    | exact off_sub rfl hb | exact off_bit rfl hb | dsimp only | split

theorem execHcuLineProcess_keeps (K : Keeps nb P) (s : State) (hb : Off fpAll nb) (h : P s) : OutKeeps P
    (execHcuLineProcess s) := by
  unfold execHcuLineProcess
  repeat' first
    | (with_reducible first
        | assumption | intro _ | apply outKeeps_next | apply hcuProcess_keeps K)
    | exact off_sub rfl hb | exact off_bit rfl hb | dsimp only | split

theorem execHcuSlotPoll_keeps (K : Keeps nb P) (s : State) (hb : Off fpAll nb) (h : P s) : OutKeeps P (execHcuSlotPoll s)
    := by
  unfold execHcuSlotPoll
  repeat' first
    | (with_reducible first
        | assumption | intro _ | apply outKeeps_next | apply hcuPoll_keeps K)
    | exact off_sub rfl hb | exact off_bit rfl hb | dsimp only | split

theorem execHcuCommit_keeps (K : Keeps nb P) (s : State) (hb : Off fpAll nb) (h : P s) : OutKeeps P (execHcuCommit s) := by
  unfold execHcuCommit
  repeat' first
    | (with_reducible first
        | assumption | intro _ | apply outKeeps_next | apply hcuCommit_keeps K)
    | exact off_sub rfl hb | exact off_bit rfl hb | dsimp only | split

theorem execCxFrameStart_keeps (K : Keeps nb P) (path : Fin 4) (s : State) (hb : Off
    0x1800000004000000000000000000000000000000000000000000000000000000000000000000000000000000000000000000000000000000000000000000000000000000000000000000000000081000000000000000000000000000000000000000000000000000000000000000000000000000000000000000000000000000000000000000000000000000000000000000000000000000000000000000000000000000000
    nb) (h : P s) : OutKeeps P (execCxFrameStart path s) := by
  unfold execCxFrameStart
  repeat' first
    | (with_reducible first
        | assumption | intro _ | apply outKeeps_next | apply pathFrameStart_keeps K)
    | exact off_sub rfl hb | exact off_bit rfl hb | dsimp only | split

theorem execCxAppend_keeps (K : Keeps nb P) (link : Bool) (s : State) (hb : Off
    0x8000000000000000000000018000000E4000000000000000000000000000000000000000000000000000000000000000000000000000000000000000000000000000000000000000000000000000000000000000000000000181000000000000000000000000000000000000000000000000000000000000000000000000000000000000000000000000000000000000000000000000000000000000000000000000000000000000000000000000000000
    nb) (h : P s) : OutKeeps P (execCxAppend link s) := by
  unfold execCxAppend
  repeat' first
    | (with_reducible first
        | assumption | intro _ | apply outKeeps_next | apply keeps_ite | apply pathAppend_keeps K)
    | exact off_sub rfl hb | exact off_bit rfl hb | dsimp only | split

theorem execCxStrip_keeps (K : Keeps nb P) (link : Bool) (frame : List (BitVec 8)) (s : State) (hb : Off
    0x800100000000000000000001800000014000000000000000000000000000000000000000000000000000000000000000000400000000000000000000000000000000000000000000000000000000000000000000000000006181200000000000000000000000000000000000000000000000000000000000000000000000000000000000000000000000000000000000000000000000000000000000000000000000000000000000000000000000000000
    nb) (h : P s) : OutKeeps P (execCxStrip link frame s) := by
  unfold execCxStrip
  repeat' first
    | (with_reducible first
        | assumption | intro _ | apply outKeeps_next | apply keeps_ite | apply pathStrip_keeps K)
    | exact off_sub rfl hb | exact off_bit rfl hb | dsimp only | split

theorem execCxScrubPeriod_keeps (K : Keeps nb P) (ctx : Fin 16) (s : State) (hb : Off
    0x80000000000000000000000000000000000000000000000000000000000000000000000000000000000000000000000000000000000000000000000000000000000000000000000080803C0000000000000000000000000000000000000000000000000000000000000000000000000000000000000000000000000000000000000000000000000000000000000000000000000000000000000000000000000000
    nb) (h : P s) : OutKeeps P (execCxScrubPeriod ctx s) := by
  unfold execCxScrubPeriod
  repeat' first
    | (with_reducible first
        | assumption | intro _ | apply outKeeps_next | apply scrubPeriod_keeps K)
    | exact off_sub rfl hb | exact off_bit rfl hb | dsimp only | split

theorem execCxScrubPassEnd_keeps (K : Keeps nb P) (ctx : Fin 16) (s : State) (hb : Off fpAll nb) (h : P s) : OutKeeps P
    (execCxScrubPassEnd ctx s) := by
  unfold execCxScrubPassEnd
  repeat' first
    | (with_reducible first
        | assumption | intro _ | apply outKeeps_next | apply scrubPassEnd_keeps K)
    | exact off_sub rfl hb | exact off_bit rfl hb | dsimp only | split

theorem execCxSlice_keeps (K : Keeps nb P) (s : State) (hb : Off fpAll nb) (h : P s) : OutKeeps P (execCxSlice s) := by
  unfold execCxSlice
  repeat' first
    | (with_reducible first
        | assumption | intro _ | apply outKeeps_next | apply cxSlice_keeps K)
    | exact off_sub rfl hb | exact off_bit rfl hb | dsimp only | split

end
end Sys2Proof.Machine
end

