-- ==== Sys2Proof/Laws/KeepsLinks.lean ====
section
/-!
SUPPORT. What each operation of Sys2Proof/Machine/Links.lean can change: its footprint (Sys2Proof/Laws/Keeps.lean).
-/
namespace Sys2Proof.Machine
set_option linter.all false
section
variable {P : State → Prop} {nb : Nat}

theorem loadFusedMap_keeps (K : Keeps nb P) (s : State) (b : Nat) (m : BitVec 28) (hb : Off 0x1FF1000000000 nb) (h : P s) :
    P (loadFusedMap s b m) := by
  unfold loadFusedMap
  repeat' first
    | (with_reducible first
        | assumption | intro _ | apply keeps_each | apply keeps_ite | apply K.wr | apply setSpare_keeps K)
    | exact off_sub rfl hb | exact off_bit rfl hb | dsimp only | split

theorem bFuseRead_keeps (K : Keeps nb P) (s : State) (site : Nat) (f : BFuses) (hb : Off
    0x10000000000000000000000000000000000000000000000000000001A000066E0000000000000000100000000000000040FFF00000000000000000000000000000500000000000000000000000000000000000000000000000000000000000000000000000000000000000000000000000000000000143C00000000000000000000002800002004000000000000000000000000000000000000000000000000000001E0000000000201FF1000008480
    nb) (h : P s) : P (bFuseRead s site f) := by
  unfold bFuseRead
  repeat' first
    | (with_reducible first
        | assumption | intro _ | apply keeps_each | apply keeps_when | apply keeps_ite | apply K.wr | apply up_keeps K
        | apply confine_keeps K | apply loadFusedMap_keeps K | apply lockFollows_keeps K)
    | exact off_sub rfl hb | exact off_bit rfl hb | dsimp only | split

theorem upperFuseRead_keeps (K : Keeps nb P) (s : State) (cSite mSite cId mId : Nat) (hb : Off
    0x10000000000000000000000000000000000000000000000000000001A000066E000000000000000010000000000000004380000000000000000000000000000000000000000000000000000000000000000000000000000000000000000000000000000000000000000000000000000000000000000143C0000000000000000000000280000200400000000000000000000000000000000000000000000000000000000000000000200000000037B80
    nb) (h : P s) : P (upperFuseRead s cSite mSite cId mId) := by
  unfold upperFuseRead
  repeat' first
    | (with_reducible first
        | assumption | intro _ | apply keeps_ite | apply K.wr | apply up_keeps K | apply confine_keeps K)
    | exact off_sub rfl hb | exact off_bit rfl hb | dsimp only | split

theorem trainLink_keeps (K : Keeps nb P) (s : State) (l : Nat) (bad : List (Fin 32 × Fin 68)) (hb : Off
    0x300000000000000000000140010000000000001C20000000000000000000000000000000000000005A000066E000000001C3DF8001000100084300007CF80000000000000000000000000000000100080000000000000000000000000000000000000000000000000000000000000000000000000000000000000000000000100000143C0020000000000000000000280000200400000000800000000000000000000000000000100003C6060F000002060600000201FF1E002C6380
    nb) (h : P s) : P (trainLink s l bad) := by
  unfold trainLink
  repeat' first
    | (with_reducible first
        | assumption | intro _ | apply keeps_each | apply keeps_ite | apply K.wr | apply down_keeps K
        | apply assignControl_keeps K | apply freshBundle_keeps K | apply ledgerRaise_keeps K | apply trainLane_keeps K)
    | exact off_sub rfl hb | exact off_bit rfl hb | dsimp only | split

theorem linkTrainingDone_keeps (K : Keeps nb P) (s : State) (bad : List (Fin 32 × Fin 68)) (hb : Off
    0x300000000000000000000140010000000000001C20000000000000000000000000000000000000005A000066E000000001C3DF8001000100084300007CF80000000000000000000000000000000100080000000000000000000000000000000000000000000000000000000000000000000000000000000000000000000000100000143C0020000000000000000000280000200400000000800000000000000000000000000000100003C6060F000002060600000201FF1E002C6380
    nb) (h : P s) : P (linkTrainingDone s bad) := by
  unfold linkTrainingDone
  repeat' first
    | (with_reducible first
        | assumption | intro _ | apply keeps_ite | apply K.wr | apply trainLink_keeps K)
    | exact off_sub rfl hb | exact off_bit rfl hb | dsimp only | split

theorem sendNak_keeps (K : Keeps nb P) (s : State) (e : Nat) (hb : Off
    0x31000000000000000000000000000000000000000000000000000000000000000000000000000000000000000000000000000000000000000000000000000000000000000000000000000000000000000000000000000000000000000000000000000000000000000000000000000000000000000000000000000000000000000
    nb) (h : P s) : P (sendNak s e) := by
  unfold sendNak
  repeat' first
    | (with_reducible first
        | assumption | intro _ | apply K.wr | apply bump_keeps K | apply up_keeps K)
    | exact off_sub rfl hb | exact off_bit rfl hb | dsimp only | split

theorem sendAck_keeps (K : Keeps nb P) (s : State) (e : Nat) (hb : Off
    0x4A000000000000000000000000000000000000000000000000000000000000000000000000000000000000000000000000000000000000000000000000000000000000000000000000000000000000000000000000000000000000000000000000000000000000000000000000000000000000000000000000000000000000000
    nb) (h : P s) : P (sendAck s e) := by
  unfold sendAck
  repeat' first
    | (with_reducible first
        | assumption | intro _ | apply K.wr | apply bump_keeps K)
    | exact off_sub rfl hb | exact off_bit rfl hb | dsimp only | split

theorem ackReceive_keeps (K : Keeps nb P) (s : State) (e seq : Nat) (hb : Off
    0x100000000000000000000000000000000000000000000000000000000000000000000000000000000000000000000000000000000000000000000000000000000000000000000000000000000000000000000000000000000000000000000000000000000000000000000000000000000000000000000000000000000000000000000000000000000000000000000000000000000000000000000000000000000000000000000000000000000000000
    nb) (h : P s) : P (ackReceive s e seq) := by
  unfold ackReceive
  repeat' first
    | (with_reducible first
        | assumption | intro _ | apply keeps_ite | apply K.setq)
    | exact off_sub rfl hb | exact off_bit rfl hb | dsimp only | split

theorem nakReceive_keeps (K : Keeps nb P) (s : State) (e seq : Nat) (hb : Off
    0x80000000000000000000000000000000000000000000000000000000000000000000000000000000000000000000000000000000000000000000000000000000000000000000000000000000000000000000000000000000000000000000000000000000000000000000000000000000000000000000000000000004000000000
    nb) (h : P s) : P (nakReceive s e seq) := by
  unfold nakReceive
  repeat' first
    | (with_reducible first
        | assumption | intro _ | apply keeps_ite | apply K.wr | apply bump_keeps K)
    | exact off_sub rfl hb | exact off_bit rfl hb | dsimp only | split

theorem crcError_keeps (K : Keeps nb P) (s : State) (b : Nat) (hb : Off
    0x8000000000000000000000000000000000000000000000000000000000000000000000000000000000000000000000000400000000000000000000000000000000000000000000000000000000000000000000000000000000000000000000000000000000000000000000000000000000000000000000000000000000000000000000000000000000000000000000000000000000000000000000000000000000000000000000000000000002000000000
    nb) (h : P s) : P (crcError s b) := by
  unfold crcError
  repeat' first
    | (with_reducible first
        | assumption | intro _ | apply keeps_ite | apply K.setq | apply bump_keeps K | apply up_keeps K)
    | exact off_sub rfl hb | exact off_bit rfl hb | dsimp only | split

theorem flitAccepted_keeps (K : Keeps nb P) (s : State) (e flit : Nat) (hb : Off
    0x100000000000000000000000000000000000000000000000000000000000000000000000000000000000000000000000000000000000000000000000000000000000000000000000000000000000000000000000000000000000000000000000000000000000000000000000000000100000000000000000000000000000000000
    nb) (h : P s) : P (flitAccepted s e flit) := by
  unfold flitAccepted
  repeat' first
    | (with_reducible first
        | assumption | intro _ | apply keeps_when | apply keeps_ite | apply bump_keeps K | apply up_keeps K)
    | exact off_sub rfl hb | exact off_bit rfl hb | dsimp only | split

theorem flitReceive_keeps (K : Keeps nb P) (s : State) (e flit : Nat) (hb : Off
    0x80001000000000000000000000000000000000000000000000000000000000000000000000000000000000000000000005FF80000000000000000000000000000000000000000000000000000000000000000000000000000000000000000000000000000000000000000000000000000000000000000000000000000000000000000000000000000000000000000000000000000000000000000000000000010000000000000000000000000E000000000
    nb) (h : P s) : P (flitReceive s e flit) := by
  unfold flitReceive
  repeat' first
    | (with_reducible first
        | assumption | intro _ | apply keeps_ite | apply K.wr | apply bump_keeps K | apply down_keeps K
        | apply ackReceive_keeps K | apply crcError_keeps K | apply flitAccepted_keeps K | apply nakReceive_keeps K
        | apply sendAck_keeps K | apply sendNak_keeps K)
    | exact off_sub rfl hb | exact off_bit rfl hb | dsimp only | split

theorem ackTimer_keeps (K : Keeps nb P) (s : State) (e : Nat) (hb : Off
    0x4A000000000000000000000000000000000000000000000000000000000000000000000000000000000000000000000000000000000000000000000000000000000000000000000000000000000000000000000000000000000000000000000000000000000000000000000000000000000000000000000000000000000000000
    nb) (h : P s) : P (ackTimer s e) := by
  unfold ackTimer
  repeat' first
    | (with_reducible first
        | assumption | intro _ | apply keeps_ite | apply sendAck_keeps K)
    | exact off_sub rfl hb | exact off_bit rfl hb | dsimp only | split

theorem heartbeatSend_keeps (K : Keeps nb P) (s : State) (hb : Off
    0x100000000000000000000000000000000000000000000000000000000000000000000000000000000000000000000000400000000000000000000000000000000000000000000000000000000000000000000000000000000000000000000000000000000000000000000000000000000000000000000000000000000000000000000000000000000000000000000000000000000000000000000000000000000000000000000000000000000000000
    nb) (h : P s) : P (heartbeatSend s) := by
  unfold heartbeatSend
  repeat' first
    | (with_reducible first
        | assumption | intro _ | apply keeps_each | apply keeps_ite | apply sendFlit_keeps K)
    | exact off_sub rfl hb | exact off_bit rfl hb | dsimp only | split

theorem heartbeatMiss_keeps (K : Keeps nb P) (s : State) (hb : Off
    0x100000000000000000000000000000000000000000000000000000000000000000000000000000000000000000000000000000000000000000000000000000000000000000000000000000000000000000000000000000000000000000000000000000000000000000000000000000000000000000000000000000000080000000
    nb) (h : P s) : P (heartbeatMiss s) := by
  unfold heartbeatMiss
  repeat' first
    | (with_reducible first
        | assumption | intro _ | apply keeps_ite | apply bump_keeps K | apply down_keeps K)
    | exact off_sub rfl hb | exact off_bit rfl hb | dsimp only | split

theorem heartbeatTimeout_keeps (K : Keeps nb P) (s : State) (hb : Off
    0x300000000000000000000140010000000000001C20000000000000000000000000000000000000005A000066E000000001C3DF80010001000000000004580000000000000000000000000000000100000000000000000000000000000000000000000000000000000000000000000000000000000000000000000000000000100000143C0020000000000000000000280000200400000000800000000000000000000000000000100003C6060F000002060200000200000200042180
    nb) (h : P s) : P (heartbeatTimeout s) := by
  unfold heartbeatTimeout
  repeat' first
    | (with_reducible first
        | assumption | intro _ | apply keeps_ite | apply cDieLoss_keeps K)
    | exact off_sub rfl hb | exact off_bit rfl hb | dsimp only | split

theorem mLinkSilent_keeps (K : Keeps nb P) (s : State) (hb : Off
    0x300000000000000000000000010000000000000C2000000000000000000000000000000000000000000000000000000001C3DF80000001000840000004A0000000000000000000000000000000000008000000000000000000000000000000000000000000000000000000000000000000000000000000000000000000000000000000000000000000000000000000000000000000000000000000000000000000000000000000100003C60000000002000400000000000200084200
    nb) (h : P s) : P (mLinkSilent s) := by
  unfold mLinkSilent
  repeat' first
    | (with_reducible first
        | assumption | intro _ | apply keeps_ite | apply mDieLoss_keeps K)
    | exact off_sub rfl hb | exact off_bit rfl hb | dsimp only | split

theorem orphanTimeout_keeps (K : Keeps nb P) (s : State) (k : Nat) (hb : Off
    0x6E00000000000000000000000000000000000000000000000000000000000000000000000000000000000000000000000000000000000000000000000000000000000000000000000000000000000000000000000000000000000000000000000000000000000200400000000000000000000000000000000000000000000000000000000000000000000000000000000
    nb) (h : P s) : P (orphanTimeout s k) := by
  unfold orphanTimeout
  repeat' first
    | (with_reducible first
        | assumption | intro _ | apply keeps_ite | apply legToSafe_keeps K)
    | exact off_sub rfl hb | exact off_bit rfl hb | dsimp only | split

theorem takeTurn_keeps (K : Keeps nb P) (s : State) (l : Nat) (hb : Off
    0xC4C00000000000000000000000000000000000000000000000000000000000000000000000000000000000000000000000000000000000000000000000000000000000000000000000000000000000000000000000000000000000000000000000000000000000000000000000000000000000000000000000000000000000000000
    nb) (h : P s) : P (takeTurn s l).1 := by
  unfold takeTurn
  repeat' first
    | (with_reducible first
        | assumption | intro _ | apply keeps_ite | apply K.wr | apply down_keeps K | (apply keeps_fst; assumption)
        | (apply keeps_snd; assumption))
    | exact off_sub rfl hb | exact off_bit rfl hb | dsimp only | split

theorem steer_keeps (K : Keeps nb P) (s : State) (l b : Nat) (hb : Off
    0x100000000000000000000000000000000000000000000000000000000000000000000000000000000000000000010000400000000000000000000000000000000000000000000000000000000000000000000000000000000000000000000000000000000000000000000000000000000000000000000000000000000000000000000000000000000000000000000000000000000000000000000000000000000000000000000000000000000000000
    nb) (h : P s) : P (steer s l b) := by
  unfold steer
  repeat' first
    | (with_reducible first
        | assumption | intro _ | apply K.wr | apply sendFlit_keeps K | (apply keeps_fst; assumption)
        | (apply keeps_snd; assumption))
    | exact off_sub rfl hb | exact off_bit rfl hb | dsimp only | split

theorem skipTurn_keeps (K : Keeps nb P) (s : State) (l : Nat) (trig : Bool) (hb : Off
    0x4000000000000000000000000000000000000000000000000000000000000000000000000000000000000000000000000000000000000000000000000000000000000000000000000000000000000000000000000000000000000000000000000000000000000000000000000000000000000000000000000000000000100000000
    nb) (h : P s) : P (skipTurn s l trig) := by
  unfold skipTurn
  repeat' first
    | (with_reducible first
        | assumption | intro _ | apply keeps_when | apply K.wr | apply bump_keeps K)
    | exact off_sub rfl hb | exact off_bit rfl hb | dsimp only | split

theorem laneTestStart_keeps (K : Keeps nb P) (s : State) (l : Nat) (hb : Off
    0x1000000000000000000000000000000000000000000000000000000000000000000000000000000000000000000FFC00400000000000000000000000000000000000000000000000000000000000000000000000000000000000000000000000000000000000000000000000000000000000000000000000000000000000000000000000000000000000000000000000000000000000000000000000000000000000000000000000000000100000000
    nb) (h : P s) : P (laneTestStart s l) := by
  unfold laneTestStart
  repeat' first
    | (with_reducible first
        | assumption | intro _ | apply keeps_ite | apply K.wr | apply up_keeps K | apply skipTurn_keeps K
        | apply steer_keeps K | apply takeTurn_keeps K)
    | exact off_sub rfl hb | exact off_bit rfl hb | dsimp only | split

theorem laneTestDone_keeps (K : Keeps nb P) (s : State) (l : Nat) (bad : Bool) (hb : Off
    0x100000000000000000000000000000000000000000000000000000000000000000000000000000000000100000138000400000000000000000000000000000000000000000000000000000000000000000000000000000000000000000000000000000000000000000000000000000000000000000000000000000000000000000000000000000000000000000000000000000000000000000000000000000000000002000000000001FF1000100000
    nb) (h : P s) : P (laneTestDone s l bad) := by
  unfold laneTestDone
  repeat' first
    | (with_reducible first
        | assumption | intro _ | apply keeps_ite | apply K.wr | apply down_keeps K | apply post_keeps K | apply up_keeps K
        | apply repairLane_keeps K | apply steer_keeps K)
    | exact off_sub rfl hb | exact off_bit rfl hb | dsimp only | split

theorem execBDieFuseRead_keeps (K : Keeps nb P) (site : BitVec 3) (fuses : BFuses) (s : State) (hb : Off
    0x10000000000000000000000000000000000000000000000000000001A000066E0000000000000000100000000000000040FFF00000000000000000000000000000500000000000000000000000000000000000000000000000000000000000000000000000000000000000000000000000000000000143C00000000000000000000002800002004000000000000000000000000000000000000000000000000000001E0000000000201FF1000008480
    nb) (h : P s) : OutKeeps P (execBDieFuseRead site fuses s) := by
  unfold execBDieFuseRead
  repeat' first
    | (with_reducible first
        | assumption | intro _ | apply outKeeps_next | apply bFuseRead_keeps K)
    | exact off_sub rfl hb | exact off_bit rfl hb | dsimp only | split

theorem execUpperFuseRead_keeps (K : Keeps nb P) (cSite mSite : BitVec 3) (cId mId : BitVec 64) (s : State) (hb : Off
    0x10000000000000000000000000000000000000000000000000000001A000066E000000000000000010000000000000004380000000000000000000000000000000000000000000000000000000000000000000000000000000000000000000000000000000000000000000000000000000000000000143C0000000000000000000000280000200400000000000000000000000000000000000000000000000000000000000000000200000000037B80
    nb) (h : P s) : OutKeeps P (execUpperFuseRead cSite mSite cId mId s) := by
  unfold execUpperFuseRead
  repeat' first
    | (with_reducible first
        | assumption | intro _ | apply outKeeps_next | apply upperFuseRead_keeps K)
    | exact off_sub rfl hb | exact off_bit rfl hb | dsimp only | split

theorem execLinkTrainingDone_keeps (K : Keeps nb P) (bad : List (Fin 32 × Fin 68)) (s : State) (hb : Off
    0x300000000000000000000140010000000000001C20000000000000000000000000000000000000005A000066E000000001C3DF8001000100084300007CF80000000000000000000000000000000100080000000000000000000000000000000000000000000000000000000000000000000000000000000000000000000000100000143C0020000000000000000000280000200400000000800000000000000000000000000000100003C6060F000002060600000201FF1E002C6380
    nb) (h : P s) : OutKeeps P (execLinkTrainingDone bad s) := by
  unfold execLinkTrainingDone
  repeat' first
    | (with_reducible first
        | assumption | intro _ | apply outKeeps_next | apply linkTrainingDone_keeps K)
    | exact off_sub rfl hb | exact off_bit rfl hb | dsimp only | split

theorem execNakReceive_keeps (K : Keeps nb P) (linkEnd : Fin 64) (seq : BitVec 8) (s : State) (hb : Off
    0x80000000000000000000000000000000000000000000000000000000000000000000000000000000000000000000000000000000000000000000000000000000000000000000000000000000000000000000000000000000000000000000000000000000000000000000000000000000000000000000000000000004000000000
    nb) (h : P s) : OutKeeps P (execNakReceive linkEnd seq s) := by
  unfold execNakReceive
  repeat' first
    | (with_reducible first
        | assumption | intro _ | apply outKeeps_next | apply nakReceive_keeps K)
    | exact off_sub rfl hb | exact off_bit rfl hb | dsimp only | split

theorem execAckTimerExpire_keeps (K : Keeps nb P) (linkEnd : Fin 64) (s : State) (hb : Off
    0x4A000000000000000000000000000000000000000000000000000000000000000000000000000000000000000000000000000000000000000000000000000000000000000000000000000000000000000000000000000000000000000000000000000000000000000000000000000000000000000000000000000000000000000
    nb) (h : P s) : OutKeeps P (execAckTimerExpire linkEnd s) := by
  unfold execAckTimerExpire
  repeat' first
    | (with_reducible first
        | assumption | intro _ | apply outKeeps_next | apply ackTimer_keeps K)
    | exact off_sub rfl hb | exact off_bit rfl hb | dsimp only | split

theorem execHeartbeatSend_keeps (K : Keeps nb P) (s : State) (hb : Off
    0x100000000000000000000000000000000000000000000000000000000000000000000000000000000000000000000000400000000000000000000000000000000000000000000000000000000000000000000000000000000000000000000000000000000000000000000000000000000000000000000000000000000000000000000000000000000000000000000000000000000000000000000000000000000000000000000000000000000000000
    nb) (h : P s) : OutKeeps P (execHeartbeatSend s) := by
  unfold execHeartbeatSend
  repeat' first
    | (with_reducible first
        | assumption | intro _ | apply outKeeps_next | apply heartbeatSend_keeps K)
    | exact off_sub rfl hb | exact off_bit rfl hb | dsimp only | split

theorem execHeartbeatPeriodMiss_keeps (K : Keeps nb P) (s : State) (hb : Off
    0x100000000000000000000000000000000000000000000000000000000000000000000000000000000000000000000000000000000000000000000000000000000000000000000000000000000000000000000000000000000000000000000000000000000000000000000000000000000000000000000000000000000080000000
    nb) (h : P s) : OutKeeps P (execHeartbeatPeriodMiss s) := by
  unfold execHeartbeatPeriodMiss
  repeat' first
    | (with_reducible first
        | assumption | intro _ | apply outKeeps_next | apply heartbeatMiss_keeps K)
    | exact off_sub rfl hb | exact off_bit rfl hb | dsimp only | split

theorem execHeartbeatTimeout_keeps (K : Keeps nb P) (s : State) (hb : Off
    0x300000000000000000000140010000000000001C20000000000000000000000000000000000000005A000066E000000001C3DF80010001000000000004580000000000000000000000000000000100000000000000000000000000000000000000000000000000000000000000000000000000000000000000000000000000100000143C0020000000000000000000280000200400000000800000000000000000000000000000100003C6060F000002060200000200000200042180
    nb) (h : P s) : OutKeeps P (execHeartbeatTimeout s) := by
  unfold execHeartbeatTimeout
  repeat' first
    | (with_reducible first
        | assumption | intro _ | apply outKeeps_next | apply heartbeatTimeout_keeps K)
    | exact off_sub rfl hb | exact off_bit rfl hb | dsimp only | split

theorem execMLinkSilentTimeout_keeps (K : Keeps nb P) (s : State) (hb : Off
    0x300000000000000000000000010000000000000C2000000000000000000000000000000000000000000000000000000001C3DF80000001000840000004A0000000000000000000000000000000000008000000000000000000000000000000000000000000000000000000000000000000000000000000000000000000000000000000000000000000000000000000000000000000000000000000000000000000000000000000100003C60000000002000400000000000200084200
    nb) (h : P s) : OutKeeps P (execMLinkSilentTimeout s) := by
  unfold execMLinkSilentTimeout
  repeat' first
    | (with_reducible first
        | assumption | intro _ | apply outKeeps_next | apply mLinkSilent_keeps K)
    | exact off_sub rfl hb | exact off_bit rfl hb | dsimp only | split

theorem execOrphanTimeout_keeps (K : Keeps nb P) (leg : Fin 16) (s : State) (hb : Off
    0x6E00000000000000000000000000000000000000000000000000000000000000000000000000000000000000000000000000000000000000000000000000000000000000000000000000000000000000000000000000000000000000000000000000000000000200400000000000000000000000000000000000000000000000000000000000000000000000000000000
    nb) (h : P s) : OutKeeps P (execOrphanTimeout leg s) := by
  unfold execOrphanTimeout
  repeat' first
    | (with_reducible first
        | assumption | intro _ | apply outKeeps_next | apply orphanTimeout_keeps K)
    | exact off_sub rfl hb | exact off_bit rfl hb | dsimp only | split

theorem execLaneTestStart_keeps (K : Keeps nb P) (link : Fin 2) (s : State) (hb : Off
    0x1000000000000000000000000000000000000000000000000000000000000000000000000000000000000000000FFC00400000000000000000000000000000000000000000000000000000000000000000000000000000000000000000000000000000000000000000000000000000000000000000000000000000000000000000000000000000000000000000000000000000000000000000000000000000000000000000000000000000100000000
    nb) (h : P s) : OutKeeps P (execLaneTestStart link s) := by
  unfold execLaneTestStart
  repeat' first
    | (with_reducible first
        | assumption | intro _ | apply outKeeps_next | apply laneTestStart_keeps K)
    | exact off_sub rfl hb | exact off_bit rfl hb | dsimp only | split

theorem execLaneTestDone_keeps (K : Keeps nb P) (link : Fin 2) (bad : Bool) (s : State) (hb : Off
    0x100000000000000000000000000000000000000000000000000000000000000000000000000000000000100000138000400000000000000000000000000000000000000000000000000000000000000000000000000000000000000000000000000000000000000000000000000000000000000000000000000000000000000000000000000000000000000000000000000000000000000000000000000000000000002000000000001FF1000100000
    nb) (h : P s) : OutKeeps P (execLaneTestDone link bad s) := by
  unfold execLaneTestDone
  repeat' first
    | (with_reducible first
        | assumption | intro _ | apply outKeeps_next | apply laneTestDone_keeps K)
    | exact off_sub rfl hb | exact off_bit rfl hb | dsimp only | split

end
end Sys2Proof.Machine
end

