-- ==== Sys2Proof/Laws/KeepsFabricRows.lean ====
section
/-!
SUPPORT. What each operation of Sys2Proof/Machine/FabricRows.lean can change: its footprint (Sys2Proof/Laws/Keeps.lean).
-/
namespace Sys2Proof.Machine
set_option linter.all false
section
variable {P : State → Prop} {nb : Nat}

theorem tagFields_keeps (K : Keeps nb P) (s : State) (t : Nat) (r : Held) (code : Nat) (hb : Off
    0x3FF8000000000000000000000000000000000000000000000000000000000000000000000000000000000000000000000000000000000000000000000000000000000000000000000000000000000000000000000000000000000000000000000000000000000000000000000000000000000000000000000000000000000000000000000000000000000
    nb) (h : P s) : P (tagFields s t r code) := by
  unfold tagFields
  repeat' first
    | (with_reducible first
        | assumption | intro _ | apply keeps_each | apply K.wr | apply up_keeps K)
    | exact off_sub rfl hb | exact off_bit rfl hb | dsimp only | split

theorem takeTag_keeps (K : Keeps nb P) (s : State) (t : Nat) (r : Held) (code : Nat) (hb : Off
    0x100000000000000000000000000000000000000000000000000000000000000000000000003FF8000000000000000000400000000000000000000000000000000000000000000000000000000000000000000000000000000000000000000000000000000000000000000000000000000000000000000000000000000000000000000000000000000000000000000000000000000000000000000000000020000000000000000000000000000000000
    nb) (h : P s) : P (takeTag s t r code) := by
  unfold takeTag
  repeat' first
    | (with_reducible first
        | assumption | intro _ | apply peak_keeps K | apply sendOn_keeps K | apply tagFields_keeps K)
    | exact off_sub rfl hb | exact off_bit rfl hb | dsimp only | split

theorem headerArrive_keeps (K : Keeps nb P) (s : State) (r : Held) (hb : Off
    0x1000100000000000000000000000000000000000000000000000000000000000000000000000003FF8000000000000000000400000000000000000000000000000000000000000000000000000000000000000000000000000000000000000000000000007C00000000000000000000000000000000000000000000000000000000000000000000000000000000000000000000000000000000000000000003C60000000000000000000000000200000000
    nb) (h : P s) : P (headerArrive s r) := by
  unfold headerArrive
  repeat' first
    | (with_reducible first
        | assumption | intro _ | apply keeps_ite | apply pushq_keeps K | apply fwRefuse_keeps K | apply respondCode_keeps K
        | apply sendFirst_keeps K | apply takeTag_keeps K)
    | exact off_sub rfl hb | exact off_bit rfl hb | dsimp only | split

theorem heldHeader_keeps (K : Keeps nb P) (s : State) (hb : Off
    0x1000100000000000000000000000000000000000000000000000000000000000000000000000003FF8000000000000000000400000000000000000000000000000000000000000000000000000000000000000000000000000000000000000000000000000000000000000000000000000000000000000000000000000000000000000000000000000000000000000000000000000000000000000000000003C60000000000000000000000000200000000
    nb) (h : P s) : P (heldHeader s) := by
  unfold heldHeader
  repeat' first
    | (with_reducible first
        | assumption | intro _ | apply keeps_ite | apply K.setq | apply bump_keeps K | apply respondCode_keeps K
        | apply takeTag_keeps K | (apply keeps_fst; assumption) | (apply keeps_snd; assumption))
    | exact off_sub rfl hb | exact off_bit rfl hb | dsimp only | split

theorem tagTimeout_keeps (K : Keeps nb P) (s : State) (t : Nat) (hb : Off
    0x100000000000000000000000000000000000000000000000000000000000000000000000003DF8000000000000000000400000000000000000000000000000000000000000000000000000000000000000000000000000000000000000000000000000000000000000000000000000000000000000000000000000000000000000000000000000000000000000000000000000000000000000000000003CE0000000000000000000000000200000000
    nb) (h : P s) : P (tagTimeout s t) := by
  unfold tagTimeout
  repeat' first
    | (with_reducible first
        | assumption | intro _ | apply keeps_ite | apply bump_keeps K | apply answerTag_keeps K)
    | exact off_sub rfl hb | exact off_bit rfl hb | dsimp only | split

theorem targetDid_keeps (K : Keeps nb P) (s : State) (t : Nat) (c : Code) (hb : Off
    0x1000000000000000000000000000000000000000000040000000000000000000000000000000000000000000000000000000000000000100000000000000000000000000000000000000000000000000000400000000000000000000000000000000000000000000000000000000000000000000000000000000000000000000000000000000000000000000000000000000000000000000000000000000000000000000000000000000000000000002000000000000000000000000
    nb) (h : P s) : P (targetDid s t c) := by
  unfold targetDid
  repeat' first
    | (with_reducible first
        | assumption | intro _ | apply keeps_ite | apply memStore_keeps K)
    | exact off_sub rfl hb | exact off_bit rfl hb | dsimp only | split

theorem responseReceive_keeps (K : Keeps nb P) (s : State) (t : Nat) (r : Resp) (hb : Off
    0x1000000000000000000000000100000000000000000040000000000000000000000000000000000000000000000000000003DF8000000100000000000400000000000000000000000000000000000000000400000000000000000000000000000000000000000000000000000000000000000000000000000000000000000000000000000000000000000000000000000000000000000000000000000000000000000000000000000003CE0000000002000000000000000200000000
    nb) (h : P s) : P (responseReceive s t r) := by
  unfold responseReceive
  repeat' first
    | (with_reducible first
        | assumption | intro _ | apply keeps_ite | apply bump_keeps K | apply freeTag_keeps K | apply reply_keeps K
        | apply tagTimeout_keeps K | apply targetDid_keeps K | (apply keeps_fst; assumption) | (apply keeps_snd; assumption))
    | exact off_sub rfl hb | exact off_bit rfl hb | dsimp only | split

theorem shadowArrive_keeps (K : Keeps nb P) (s : State) (hb : Off
    0x24000000000000000000000000000000000000000000000000000000000000000000000000000000000000000000000000000000000000000000000000000000000000000000000000000000000000000000000000000000000000000000000000000006000000000000176180000000000000000000000000000000000100000000000000000000000000000000000
    nb) (h : P s) : P (shadowArrive s) := by
  unfold shadowArrive
  repeat' first
    | (with_reducible first
        | assumption | intro _ | apply keeps_ite | apply K.wr | apply bump_keeps K | apply ctHardShadow_keeps K
        | apply parts_of K | (apply keeps_fst; assumption) | (apply keeps_snd; assumption))
    | exact off_sub rfl hb | exact off_bit rfl hb | dsimp only | split | simp only [parts_mk K]

theorem checkBits_keeps (K : Keeps nb P) (s : State) (r : Held) (ecc : Nat) (hb : Off
    0x1000000000000000000000000000000000000000000000000000000000000000000000000000000000000000000000000000000000000000000000000000000000000000000000000000000000000000000000000000000000000000000000000000000000000000000000000000000000000000000000000000000000000000000000000000000040000000000000000000000000000000000000000000000000000000000000000000000000000000000000000000000000000000
    nb) (h : P s) : P (checkBits s r ecc) := by
  unfold checkBits
  repeat' first
    | (with_reducible first
        | assumption | intro _ | apply keeps_ite | apply K.spoil | apply bump_keeps K | (apply keeps_fst; assumption)
        | (apply keeps_snd; assumption))
    | exact off_sub rfl hb | exact off_bit rfl hb | dsimp only | split

theorem execHeaderArrive_keeps (K : Keeps nb P) (src : Source) (op : BitVec 4) (addr : BitVec 32) (body : Payload) (s :
    State) (hb : Off
    0x1000100000000000000000000000000000000000000000000000000000000000000000000000003FF8000000000000000000400000000000000000000000000000000000000000000000000000000000000000000000000000000000000000000000000007C00000000000000000000000000000000000000000000000000000000000000000000000000000000000000000000000000000000000000000003C60000000000000000000000000200000000
    nb) (h : P s) : OutKeeps P (execHeaderArrive src op addr body s) := by
  unfold execHeaderArrive
  repeat' first
    | (with_reducible first
        | assumption | intro _ | apply outKeeps_next | apply headerArrive_keeps K)
    | exact off_sub rfl hb | exact off_bit rfl hb | dsimp only | split

theorem execFlitReceive_keeps (K : Keeps nb P) (linkEnd : Fin 64) (flit : BitVec 256) (s : State) (hb : Off fpAll nb) (h :
    P s) : OutKeeps P (execFlitReceive linkEnd flit s) := by
  unfold execFlitReceive
  repeat' first
    | (with_reducible first
        | assumption | intro _ | apply outKeeps_next | apply flitReceive_keeps K | apply releaseHeld_keeps K)
    | exact off_sub rfl hb | exact off_bit rfl hb | dsimp only | split

theorem execAckReceive_keeps (K : Keeps nb P) (linkEnd : Fin 64) (seq : BitVec 8) (s : State) (hb : Off fpAll nb) (h : P s)
    : OutKeeps P (execAckReceive linkEnd seq s) := by
  unfold execAckReceive
  repeat' first
    | (with_reducible first
        | assumption | intro _ | apply outKeeps_next | apply ackReceive_keeps K | apply releaseHeld_keeps K)
    | exact off_sub rfl hb | exact off_bit rfl hb | dsimp only | split

theorem execHeldHeaderTagged_keeps (K : Keeps nb P) (s : State) (hb : Off
    0x1000100000000000000000000000000000000000000000000000000000000000000000000000003FF8000000000000000000400000000000000000000000000000000000000000000000000000000000000000000000000000000000000000000000000000000000000000000000000000000000000000000000000000000000000000000000000000000000000000000000000000000000000000000000003C60000000000000000000000000200000000
    nb) (h : P s) : OutKeeps P (execHeldHeaderTagged s) := by
  unfold execHeldHeaderTagged
  repeat' first
    | (with_reducible first
        | assumption | intro _ | apply outKeeps_next | apply heldHeader_keeps K)
    | exact off_sub rfl hb | exact off_bit rfl hb | dsimp only | split

theorem execTagTimeout_keeps (K : Keeps nb P) (tag : BitVec 12) (s : State) (hb : Off fpAll nb) (h : P s) : OutKeeps P
    (execTagTimeout tag s) := by
  unfold execTagTimeout
  repeat' first
    | (with_reducible first
        | assumption | intro _ | apply outKeeps_next | apply releaseHeld_keeps K | apply tagTimeout_keeps K)
    | exact off_sub rfl hb | exact off_bit rfl hb | dsimp only | split

theorem execResponseReceive_keeps (K : Keeps nb P) (tag : BitVec 12) (code : Fin 8) (dup : Bool) (data : BitVec 256) (s :
    State) (hb : Off fpAll nb) (h : P s) : OutKeeps P (execResponseReceive tag code dup data s) := by
  unfold execResponseReceive
  repeat' first
    | (with_reducible first
        | assumption | intro _ | apply outKeeps_next | apply releaseHeld_keeps K | apply responseReceive_keeps K)
    | exact off_sub rfl hb | exact off_bit rfl hb | dsimp only | split

theorem execMemoryRead_keeps (K : Keeps nb P) (src : Source) (addr : BitVec 32) (size : Fin 6) (ecc : Fin 3) (s : State)
    (hb : Off fpAll nb) (h : P s) : OutKeeps P (execMemoryRead src addr size ecc s) := by
  unfold execMemoryRead
  repeat' first
    | (with_reducible first
        | assumption | intro _ | apply outKeeps_next | apply busRequest_keeps K | apply checkBits_keeps K)
    | exact off_sub rfl hb | exact off_bit rfl hb | dsimp only | split

theorem execMemoryWrite_keeps (K : Keeps nb P) (src : Source) (addr : BitVec 32) (size : Fin 6) (data : BitVec 256) (s :
    State) (hb : Off fpAll nb) (h : P s) : OutKeeps P (execMemoryWrite src addr size data s) := by
  unfold execMemoryWrite
  repeat' first
    | (with_reducible first
        | assumption | intro _ | apply outKeeps_next | apply busRequest_keeps K)
    | exact off_sub rfl hb | exact off_bit rfl hb | dsimp only | split

theorem execAtomicSwap_keeps (K : Keeps nb P) (src : Source) (addr : BitVec 32) (wide : Bool) (data : BitVec 64) (s :
    State) (hb : Off fpAll nb) (h : P s) : OutKeeps P (execAtomicSwap src addr wide data s) := by
  unfold execAtomicSwap
  repeat' first
    | (with_reducible first
        | assumption | intro _ | apply outKeeps_next | apply keeps_ite | apply busRequest_keeps K)
    | exact off_sub rfl hb | exact off_bit rfl hb | dsimp only | split

theorem execAtomicAdd_keeps (K : Keeps nb P) (src : Source) (addr : BitVec 32) (wide : Bool) (data : BitVec 64) (s : State)
    (hb : Off fpAll nb) (h : P s) : OutKeeps P (execAtomicAdd src addr wide data s) := by
  unfold execAtomicAdd
  repeat' first
    | (with_reducible first
        | assumption | intro _ | apply outKeeps_next | apply keeps_ite | apply busRequest_keeps K)
    | exact off_sub rfl hb | exact off_bit rfl hb | dsimp only | split

theorem execShadowWrite_keeps (K : Keeps nb P) (s : State) (hb : Off
    0x24000000000000000000000000000000000000000000000000000000000000000000000000000000000000000000000000000000000000000000000000000000000000000000000000000000000000000000000000000000000000000000000000000006000000000000176180000000000000000000000000000000000100000000000000000000000000000000000
    nb) (h : P s) : OutKeeps P (execShadowWrite s) := by
  unfold execShadowWrite
  repeat' first
    | (with_reducible first
        | assumption | intro _ | apply outKeeps_next | apply shadowArrive_keeps K)
    | exact off_sub rfl hb | exact off_bit rfl hb | dsimp only | split

end
end Sys2Proof.Machine
end

