-- ==== Sys2Proof/Laws/KeepsThreadRows.lean ====
section
/-!
SUPPORT. What each operation of Sys2Proof/Machine/ThreadRows.lean can change: its footprint (Sys2Proof/Laws/Keeps.lean).
-/
namespace Sys2Proof.Machine
set_option linter.all false
section
variable {P : State → Prop} {nb : Nat}

theorem loadAnswered_keeps (K : Keeps nb P) (s : State) (u : Nat) (miss : Bool) (hb : Off
    0x10000000000000000000000801000000000000000000400000000000000131003C00004801FF000000000000000000000000000000000100000000000400000000000000000000000000000000000000000C00000000000000000000000000000000000000000000000000000000007C000003800153800000000003C0000000000000000000000000000000000000000000000000000000000000000000000000000000000000000003C60000000002000000000000000200000000
    nb) (h : P s) : P (loadAnswered s u miss) := by
  unfold loadAnswered
  repeat' first
    | (with_reducible first
        | assumption | intro _ | apply keeps_ite | apply K.wr | apply up_keeps K | apply wrb_keeps K | apply deliver_keeps K)
    | exact off_sub rfl hb | exact off_bit rfl hb | dsimp only | split

theorem localAccess_keeps (K : Keeps nb P) (s : State) (u : Nat) (r : Held) (hb : Off
    0x1000000000000000000000000000000000000000000040000000000000000000000000000000000000000000000000000000000000000100000000000000000000000000000000000000000000000000000400000000000000000000000000000000000000000000000000000000000000000000000000000000000000000000000000000000000000000000000000000000000000000000000000000000000000000000000000000000000000000002000000000000000000000000
    nb) (h : P s) : P (localAccess s u r) := by
  unfold localAccess
  repeat' first
    | (with_reducible first
        | assumption | intro _ | apply keeps_ite | apply atomicStore_keeps K | apply parts_of K
        | (apply keeps_fst; assumption) | (apply keeps_snd; assumption))
    | exact off_sub rfl hb | exact off_bit rfl hb | dsimp only | split | simp only [parts_mk K]

theorem cachedLoad_keeps (K : Keeps nb P) (s : State) (u : Nat) (parity : Bool) (hb : Off
    0x10000000000000000000000901000000000000000000400000000000000131007C00004801FF000000000000000000000000000000000100000000000400000000000000000000000000000000000000000C00000000000000000000000000000000000000000000000000000000007C000003800153800000700003C0000000000000000000000000000000000000000000000000000000000000000000000000000000000000000003C60000000002000000000000000200000000
    nb) (h : P s) : P (cachedLoad s u parity) := by
  unfold cachedLoad
  repeat' first
    | (with_reducible first
        | assumption | intro _ | apply K.wr | apply down_keeps K | apply cachedLine_keeps K | apply loadAnswered_keeps K
        | apply parts_of K | (apply keeps_fst; assumption) | (apply keeps_snd; assumption))
    | exact off_sub rfl hb | exact off_bit rfl hb | dsimp only | split | simp only [parts_mk K]

theorem checkerLoad_keeps (K : Keeps nb P) (s : State) (u : Nat) (hb : Off
    0x10000000000000000000000801000000000000000000400000000000000131000400004801FF000000000000000000000000000000000100000000000400000000000000000000000000000000000000000C00000000000000000000000000000000000000000000000000000000007C000003800153800000000003C0000000000000000000000000000000000000000000000000000000000000000000000000000000000000000003C60000000002000000000000000200000000
    nb) (h : P s) : P (checkerLoad s u) := by
  unfold checkerLoad
  repeat' first
    | (with_reducible first
        | assumption | intro _ | apply keeps_ite | apply down_keeps K | apply deliver_keeps K | apply foldRequest_keeps K)
    | exact off_sub rfl hb | exact off_bit rfl hb | dsimp only | split

theorem loadResponse_keeps (K : Keeps nb P) (s : State) (u : Nat) (parity : Bool) (hb : Off fpAll nb) (h : P s) : P
    (loadResponse s u parity) := by
  unfold loadResponse
  repeat' first
    | (with_reducible first
        | assumption | intro _ | apply keeps_ite | apply cachedLoad_keeps K | apply checkerLoad_keeps K
        | apply loadAnswered_keeps K | apply localAccess_keeps K | apply serve_keeps K)
    | exact off_sub rfl hb | exact off_bit rfl hb | dsimp only | split

theorem storeAnswered_keeps (K : Keeps nb P) (s : State) (u : Nat) (hb : Off 0 nb) (h : P s) : P (storeAnswered s u) := by
  unfold storeAnswered
  repeat' first
    | (with_reducible first
        | assumption | intro _ | apply parts_of K)
    | exact off_sub rfl hb | exact off_bit rfl hb | dsimp only | split | simp only [parts_mk K]

theorem storeDrain_keeps (K : Keeps nb P) (s : State) (u : Nat) (hb : Off fpAll nb) (h : P s) : P (storeDrain s u) := by
  unfold storeDrain
  repeat' first
    | (with_reducible first
        | assumption | intro _ | apply keeps_ite | apply serve_keeps K | apply storeAnswered_keeps K)
    | exact off_sub rfl hb | exact off_bit rfl hb | dsimp only | split

theorem countFull_keeps (K : Keeps nb P) (s : State) (r : Held) (hb : Off
    0x40000000000000000000000000000000000000000000000000000000000000000000000000000000000000000000000000000000000000000000000000000000000000000000000000000000000000000000000000000000000000000000
    nb) (h : P s) : P (countFull s r) := by
  unfold countFull
  repeat' first
    | (with_reducible first
        | assumption | intro _ | apply bump_keeps K | (apply keeps_fst; assumption) | (apply keeps_snd; assumption))
    | exact off_sub rfl hb | exact off_bit rfl hb | dsimp only | split

theorem threadExpire_keeps (K : Keeps nb P) (s : State) (u : Nat) (p : HoldWhy → Bool) (c : Code) (hb : Off
    0x10000000000000000000000801000000000000000000400000000000000131003C00004801FF000000000000000000000000000000000100000000000400000000000000000000000000000000000000000C00000000000000000000000040000000000000000000000000000000007C000003800153800000000003C0000000000000000000000000000000000000000000000000000000000000000000000000000000000000000003C60000000002000000000000000200000000
    nb) (h : P s) : P (threadExpire s u p c) := by
  unfold threadExpire
  repeat' first
    | (with_reducible first
        | assumption | intro _ | apply keeps_ite | apply countFull_keeps K | apply loadAnswered_keeps K
        | apply raise_keeps K | apply respondCode_keeps K | apply storeAnswered_keeps K)
    | exact off_sub rfl hb | exact off_bit rfl hb | dsimp only | split

theorem mfs_keeps (K : Keeps nb P) (s : State) (u rd num w : Nat) (hb : Off
    0x10000000000000000000000801000000000000000000400000000000000131000000000801FF000000000000000000000000000000000100000000000400000000000000000000000000000000000000000C00000000000000000000000000000000000000000000000000000000007C000003800153800000000003C0000000000000000000000000000000000000000000000000000000000000000000000000000000000000000003C60000000002000000000000000200000000
    nb) (h : P s) : P (mfs s u rd num w) := by
  unfold mfs
  repeat' first
    | (with_reducible first
        | assumption | intro _ | apply keeps_ite | apply raisePriv_keeps K | apply result_keeps K)
    | exact off_sub rfl hb | exact off_bit rfl hb | dsimp only | split

theorem mts_keeps (K : Keeps nb P) (s : State) (u ra num w : Nat) (hb : Off
    0x1000000000000000000000080100000000000000000040000000000000013100000000083BFD000000000000000000000000000000000100000000000400000000000000000000000000000000000000000C00000000000000000000000000000000000000000000000000000000007C000003800153800000000003C0000000000000000000000000000000000000000000000000000000000000000000000000000000000000000003C60000000002000000000000000200000000
    nb) (h : P s) : P (mts s u ra num w) := by
  unfold mts
  repeat' first
    | (with_reducible first
        | assumption | intro _ | apply keeps_ite | apply advance_keeps K | apply raisePriv_keeps K | apply sysWrite_keeps K)
    | exact off_sub rfl hb | exact off_bit rfl hb | dsimp only | split

theorem retx_keeps (K : Keeps nb P) (s : State) (u w : Nat) (hb : Off
    0x10000000000000000000000801000000000000000000400000000000000131000000000801FD000000000000000000000000000000000100000000000400000000000000000000000000000000000000000C00000000000000000000000000000000000000000000000000000000007C000003800153800000000003C0000000000000000000000000000000000000000000000000000000000000000000000000000000000000000003C60000000002000000000000000200000000
    nb) (h : P s) : P (retx s u w) := by
  unfold retx
  repeat' first
    | (with_reducible first
        | assumption | intro _ | apply keeps_ite | apply K.wr | apply raisePriv_keeps K)
    | exact off_sub rfl hb | exact off_bit rfl hb | dsimp only | split

theorem execFetchRefillDone_keeps (K : Keeps nb P) (t : Fin 48) (parity : Bool) (s : State) (hb : Off
    0x10000000000000000000000881000000000000000000400000000000000131004000003B81FD000000000000000000000000000000000100000000000400000000000000000000000000000000000000000C00000000000000000000000000000000000000000000000000000000007C0010038001538000004C0003C0000000000000000000000000000000000000000000000000000000000000000000000000000000000000000003C60000000002000000000000000200000000
    nb) (h : P s) : OutKeeps P (execFetchRefillDone t parity s) := by
  unfold execFetchRefillDone
  repeat' first
    | (with_reducible first
        | assumption | intro _ | apply outKeeps_next | apply fetchRefill_keeps K)
    | exact off_sub rfl hb | exact off_bit rfl hb | dsimp only | split

theorem execLoadResponse_keeps (K : Keeps nb P) (t : Fin 48) (parity : Bool) (s : State) (hb : Off fpAll nb) (h : P s) :
    OutKeeps P (execLoadResponse t parity s) := by
  unfold execLoadResponse
  repeat' first
    | (with_reducible first
        | assumption | intro _ | apply outKeeps_next | apply loadResponse_keeps K)
    | exact off_sub rfl hb | exact off_bit rfl hb | dsimp only | split

theorem execStoreBufferDrain_keeps (K : Keeps nb P) (t : Fin 48) (s : State) (hb : Off fpAll nb) (h : P s) : OutKeeps P
    (execStoreBufferDrain t s) := by
  unfold execStoreBufferDrain
  repeat' first
    | (with_reducible first
        | assumption | intro _ | apply outKeeps_next | apply storeDrain_keeps K)
    | exact off_sub rfl hb | exact off_bit rfl hb | dsimp only | split

theorem execStoreResponse_keeps (K : Keeps nb P) (t : Fin 48) (s : State) (hb : Off
    0x3E00000000000000000000000000000000000000000000000000000000000000000000000000000000000000000000000000000000000000000000000000000000000000000000000000000000000000000000000000000000002000000000000000000000000000000000000000000000000000000000000000000000000000000000000000000000000000000000000000000000000000000000
    nb) (h : P s) : OutKeeps P (execStoreResponse t s) := by
  unfold execStoreResponse
  repeat' first
    | (with_reducible first
        | assumption | intro _ | apply outKeeps_next | apply storeResponse_keeps K)
    | exact off_sub rfl hb | exact off_bit rfl hb | dsimp only | split

theorem execDivideDone_keeps (K : Keeps nb P) (t : Fin 48) (s : State) (hb : Off
    0x13000000040000002000000000000000000000000000000000000000000000000000000000000000000000000000000000000000000000000000000000000000000000000000000000000000000000000000000000000000000000000000000000000000000000000000000000000000000000000000000000000000000000000000000000000000000000000000000000000000000000000000000000000
    nb) (h : P s) : OutKeeps P (execDivideDone t s) := by
  unfold execDivideDone
  repeat' first
    | (with_reducible first
        | assumption | intro _ | apply outKeeps_next | apply divideDone_keeps K)
    | exact off_sub rfl hb | exact off_bit rfl hb | dsimp only | split

theorem execAsyncException_keeps (K : Keeps nb P) (t : Fin 48) (s : State) (hb : Off
    0x100000000000000000000008010000000000000000004000000000000001310001FC000801FD000000000000000000000000000000000100000000000400000000000000000000000000000000000000000C00000000000000000000000000000000000000000000000000000000007C000003800153800000000003C0000000000000000000000000000000000000000000000000000000000000000000000000000000000000000003C60000000002000000000000000200000000
    nb) (h : P s) : OutKeeps P (execAsyncException t s) := by
  unfold execAsyncException
  repeat' first
    | (with_reducible first
        | assumption | intro _ | apply outKeeps_next | apply takeAsync_keeps K)
    | exact off_sub rfl hb | exact off_bit rfl hb | dsimp only | split

theorem execThreadWatchdogExpire_keeps (K : Keeps nb P) (t : Fin 40) (s : State) (hb : Off
    0x4000000000000000000000000000000000000000000000000000000000000000000000000000000000000000000000000000000000000000000000000000000000000000000000000000000000000000000000000000000C00000000000000000000000000000000000000000000000000000000000000000000000000000000000000000000000000000000000000000000000000000000000000
    nb) (h : P s) : OutKeeps P (execThreadWatchdogExpire t s) := by
  unfold execThreadWatchdogExpire
  repeat' first
    | (with_reducible first
        | assumption | intro _ | apply outKeeps_next | apply watchdogExpire_keeps K)
    | exact off_sub rfl hb | exact off_bit rfl hb | dsimp only | split

theorem execCcInvDone_keeps (K : Keeps nb P) (core : Fin 6) (s : State) (hb : Off
    0x18000000000000000000000000000000000000000020000000000000000000000000000000000000000000000000000000000000000000000000000000000000000000000000000000000000000000000000000000000000000000000000000000000000000000000000000000000800000000000000000000000000000000000000000000000000000000000000000000000000000000000000000000000000000000000000000000000000000000000
    nb) (h : P s) : OutKeeps P (execCcInvDone core s) := by
  unfold execCcInvDone
  repeat' first
    | (with_reducible first
        | assumption | intro _ | apply outKeeps_next | apply ccInvDone_keeps K)
    | exact off_sub rfl hb | exact off_bit rfl hb | dsimp only | split

theorem execIllegalInstruction_keeps (K : Keeps nb P) (t : Fin 48) (word : BitVec 32) (s : State) (hb : Off
    0x10000000000000000000000801000000000000000000400000000000000131240000000B81FD000000000000000000000000000000000100000000000400000000000000000000000000000000000000000C00000000000000000000000000000000000000000000000000000000007C001033800153800000000017C0000000000000000000000000000000000000000000000000000000000000000000000000000000000000000003C60000000002000000000000000200000000
    nb) (h : P s) : OutKeeps P (execIllegalInstruction t word s) := by
  unfold execIllegalInstruction
  repeat' first
    | (with_reducible first
        | assumption | intro _ | apply outKeeps_next | apply keeps_ite | apply issue_keeps K)
    | exact off_sub rfl hb | exact off_bit rfl hb | dsimp only | split

theorem execAdd_keeps (K : Keeps nb P) (t : Fin 48) (rd ra rb : Fin 16) (s : State) (hb : Off
    0x10000000000000000000000801000000000000000000400000000000000131240000000B81FF000000000000000000000000000000000100000000000400000000000000000000000000000000000000000C00000000000000000000000000000000000000000000000000000000007C001033800153800000000017C0000000000000000000000000000000000000000000000000000000000000000000000000000000000000000003C60000000002000000000000000200000000
    nb) (h : P s) : OutKeeps P (execAdd t rd ra rb s) := by
  unfold execAdd
  repeat' first
    | (with_reducible first
        | assumption | intro _ | apply outKeeps_next | apply issue_keeps K | apply result_keeps K)
    | exact off_sub rfl hb | exact off_bit rfl hb | dsimp only | split

theorem execSub_keeps (K : Keeps nb P) (t : Fin 48) (rd ra rb : Fin 16) (s : State) (hb : Off
    0x10000000000000000000000801000000000000000000400000000000000131240000000B81FF000000000000000000000000000000000100000000000400000000000000000000000000000000000000000C00000000000000000000000000000000000000000000000000000000007C001033800153800000000017C0000000000000000000000000000000000000000000000000000000000000000000000000000000000000000003C60000000002000000000000000200000000
    nb) (h : P s) : OutKeeps P (execSub t rd ra rb s) := by
  unfold execSub
  repeat' first
    | (with_reducible first
        | assumption | intro _ | apply outKeeps_next | apply issue_keeps K | apply result_keeps K)
    | exact off_sub rfl hb | exact off_bit rfl hb | dsimp only | split

theorem execAnd_keeps (K : Keeps nb P) (t : Fin 48) (rd ra rb : Fin 16) (s : State) (hb : Off
    0x10000000000000000000000801000000000000000000400000000000000131240000000B81FF000000000000000000000000000000000100000000000400000000000000000000000000000000000000000C00000000000000000000000000000000000000000000000000000000007C001033800153800000000017C0000000000000000000000000000000000000000000000000000000000000000000000000000000000000000003C60000000002000000000000000200000000
    nb) (h : P s) : OutKeeps P (execAnd t rd ra rb s) := by
  unfold execAnd
  repeat' first
    | (with_reducible first
        | assumption | intro _ | apply outKeeps_next | apply issue_keeps K | apply result_keeps K)
    | exact off_sub rfl hb | exact off_bit rfl hb | dsimp only | split

theorem execOr_keeps (K : Keeps nb P) (t : Fin 48) (rd ra rb : Fin 16) (s : State) (hb : Off
    0x10000000000000000000000801000000000000000000400000000000000131240000000B81FF000000000000000000000000000000000100000000000400000000000000000000000000000000000000000C00000000000000000000000000000000000000000000000000000000007C001033800153800000000017C0000000000000000000000000000000000000000000000000000000000000000000000000000000000000000003C60000000002000000000000000200000000
    nb) (h : P s) : OutKeeps P (execOr t rd ra rb s) := by
  unfold execOr
  repeat' first
    | (with_reducible first
        | assumption | intro _ | apply outKeeps_next | apply issue_keeps K | apply result_keeps K)
    | exact off_sub rfl hb | exact off_bit rfl hb | dsimp only | split

theorem execXor_keeps (K : Keeps nb P) (t : Fin 48) (rd ra rb : Fin 16) (s : State) (hb : Off
    0x10000000000000000000000801000000000000000000400000000000000131240000000B81FF000000000000000000000000000000000100000000000400000000000000000000000000000000000000000C00000000000000000000000000000000000000000000000000000000007C001033800153800000000017C0000000000000000000000000000000000000000000000000000000000000000000000000000000000000000003C60000000002000000000000000200000000
    nb) (h : P s) : OutKeeps P (execXor t rd ra rb s) := by
  unfold execXor
  repeat' first
    | (with_reducible first
        | assumption | intro _ | apply outKeeps_next | apply issue_keeps K | apply result_keeps K)
    | exact off_sub rfl hb | exact off_bit rfl hb | dsimp only | split

theorem execAndn_keeps (K : Keeps nb P) (t : Fin 48) (rd ra rb : Fin 16) (s : State) (hb : Off
    0x10000000000000000000000801000000000000000000400000000000000131240000000B81FF000000000000000000000000000000000100000000000400000000000000000000000000000000000000000C00000000000000000000000000000000000000000000000000000000007C001033800153800000000017C0000000000000000000000000000000000000000000000000000000000000000000000000000000000000000003C60000000002000000000000000200000000
    nb) (h : P s) : OutKeeps P (execAndn t rd ra rb s) := by
  unfold execAndn
  repeat' first
    | (with_reducible first
        | assumption | intro _ | apply outKeeps_next | apply issue_keeps K | apply result_keeps K)
    | exact off_sub rfl hb | exact off_bit rfl hb | dsimp only | split

theorem execShl_keeps (K : Keeps nb P) (t : Fin 48) (rd ra rb : Fin 16) (s : State) (hb : Off
    0x10000000000000000000000801000000000000000000400000000000000131240000000B81FF000000000000000000000000000000000100000000000400000000000000000000000000000000000000000C00000000000000000000000000000000000000000000000000000000007C001033800153800000000017C0000000000000000000000000000000000000000000000000000000000000000000000000000000000000000003C60000000002000000000000000200000000
    nb) (h : P s) : OutKeeps P (execShl t rd ra rb s) := by
  unfold execShl
  repeat' first
    | (with_reducible first
        | assumption | intro _ | apply outKeeps_next | apply issue_keeps K | apply result_keeps K)
    | exact off_sub rfl hb | exact off_bit rfl hb | dsimp only | split

theorem execShr_keeps (K : Keeps nb P) (t : Fin 48) (rd ra rb : Fin 16) (s : State) (hb : Off
    0x10000000000000000000000801000000000000000000400000000000000131240000000B81FF000000000000000000000000000000000100000000000400000000000000000000000000000000000000000C00000000000000000000000000000000000000000000000000000000007C001033800153800000000017C0000000000000000000000000000000000000000000000000000000000000000000000000000000000000000003C60000000002000000000000000200000000
    nb) (h : P s) : OutKeeps P (execShr t rd ra rb s) := by
  unfold execShr
  repeat' first
    | (with_reducible first
        | assumption | intro _ | apply outKeeps_next | apply issue_keeps K | apply result_keeps K)
    | exact off_sub rfl hb | exact off_bit rfl hb | dsimp only | split

theorem execSar_keeps (K : Keeps nb P) (t : Fin 48) (rd ra rb : Fin 16) (s : State) (hb : Off
    0x10000000000000000000000801000000000000000000400000000000000131240000000B81FF000000000000000000000000000000000100000000000400000000000000000000000000000000000000000C00000000000000000000000000000000000000000000000000000000007C001033800153800000000017C0000000000000000000000000000000000000000000000000000000000000000000000000000000000000000003C60000000002000000000000000200000000
    nb) (h : P s) : OutKeeps P (execSar t rd ra rb s) := by
  unfold execSar
  repeat' first
    | (with_reducible first
        | assumption | intro _ | apply outKeeps_next | apply issue_keeps K | apply result_keeps K)
    | exact off_sub rfl hb | exact off_bit rfl hb | dsimp only | split

theorem execRor_keeps (K : Keeps nb P) (t : Fin 48) (rd ra rb : Fin 16) (s : State) (hb : Off
    0x10000000000000000000000801000000000000000000400000000000000131240000000B81FF000000000000000000000000000000000100000000000400000000000000000000000000000000000000000C00000000000000000000000000000000000000000000000000000000007C001033800153800000000017C0000000000000000000000000000000000000000000000000000000000000000000000000000000000000000003C60000000002000000000000000200000000
    nb) (h : P s) : OutKeeps P (execRor t rd ra rb s) := by
  unfold execRor
  repeat' first
    | (with_reducible first
        | assumption | intro _ | apply outKeeps_next | apply issue_keeps K | apply result_keeps K)
    | exact off_sub rfl hb | exact off_bit rfl hb | dsimp only | split

theorem execSlt_keeps (K : Keeps nb P) (t : Fin 48) (rd ra rb : Fin 16) (s : State) (hb : Off
    0x10000000000000000000000801000000000000000000400000000000000131240000000B81FF000000000000000000000000000000000100000000000400000000000000000000000000000000000000000C00000000000000000000000000000000000000000000000000000000007C001033800153800000000017C0000000000000000000000000000000000000000000000000000000000000000000000000000000000000000003C60000000002000000000000000200000000
    nb) (h : P s) : OutKeeps P (execSlt t rd ra rb s) := by
  unfold execSlt
  repeat' first
    | (with_reducible first
        | assumption | intro _ | apply outKeeps_next | apply issue_keeps K | apply result_keeps K)
    | exact off_sub rfl hb | exact off_bit rfl hb | dsimp only | split

theorem execSltu_keeps (K : Keeps nb P) (t : Fin 48) (rd ra rb : Fin 16) (s : State) (hb : Off
    0x10000000000000000000000801000000000000000000400000000000000131240000000B81FF000000000000000000000000000000000100000000000400000000000000000000000000000000000000000C00000000000000000000000000000000000000000000000000000000007C001033800153800000000017C0000000000000000000000000000000000000000000000000000000000000000000000000000000000000000003C60000000002000000000000000200000000
    nb) (h : P s) : OutKeeps P (execSltu t rd ra rb s) := by
  unfold execSltu
  repeat' first
    | (with_reducible first
        | assumption | intro _ | apply outKeeps_next | apply issue_keeps K | apply result_keeps K)
    | exact off_sub rfl hb | exact off_bit rfl hb | dsimp only | split

theorem execMin_keeps (K : Keeps nb P) (t : Fin 48) (rd ra rb : Fin 16) (s : State) (hb : Off
    0x10000000000000000000000801000000000000000000400000000000000131240000000B81FF000000000000000000000000000000000100000000000400000000000000000000000000000000000000000C00000000000000000000000000000000000000000000000000000000007C001033800153800000000017C0000000000000000000000000000000000000000000000000000000000000000000000000000000000000000003C60000000002000000000000000200000000
    nb) (h : P s) : OutKeeps P (execMin t rd ra rb s) := by
  unfold execMin
  repeat' first
    | (with_reducible first
        | assumption | intro _ | apply outKeeps_next | apply issue_keeps K | apply result_keeps K)
    | exact off_sub rfl hb | exact off_bit rfl hb | dsimp only | split

theorem execMax_keeps (K : Keeps nb P) (t : Fin 48) (rd ra rb : Fin 16) (s : State) (hb : Off
    0x10000000000000000000000801000000000000000000400000000000000131240000000B81FF000000000000000000000000000000000100000000000400000000000000000000000000000000000000000C00000000000000000000000000000000000000000000000000000000007C001033800153800000000017C0000000000000000000000000000000000000000000000000000000000000000000000000000000000000000003C60000000002000000000000000200000000
    nb) (h : P s) : OutKeeps P (execMax t rd ra rb s) := by
  unfold execMax
  repeat' first
    | (with_reducible first
        | assumption | intro _ | apply outKeeps_next | apply issue_keeps K | apply result_keeps K)
    | exact off_sub rfl hb | exact off_bit rfl hb | dsimp only | split

theorem execMinu_keeps (K : Keeps nb P) (t : Fin 48) (rd ra rb : Fin 16) (s : State) (hb : Off
    0x10000000000000000000000801000000000000000000400000000000000131240000000B81FF000000000000000000000000000000000100000000000400000000000000000000000000000000000000000C00000000000000000000000000000000000000000000000000000000007C001033800153800000000017C0000000000000000000000000000000000000000000000000000000000000000000000000000000000000000003C60000000002000000000000000200000000
    nb) (h : P s) : OutKeeps P (execMinu t rd ra rb s) := by
  unfold execMinu
  repeat' first
    | (with_reducible first
        | assumption | intro _ | apply outKeeps_next | apply issue_keeps K | apply result_keeps K)
    | exact off_sub rfl hb | exact off_bit rfl hb | dsimp only | split

theorem execMaxu_keeps (K : Keeps nb P) (t : Fin 48) (rd ra rb : Fin 16) (s : State) (hb : Off
    0x10000000000000000000000801000000000000000000400000000000000131240000000B81FF000000000000000000000000000000000100000000000400000000000000000000000000000000000000000C00000000000000000000000000000000000000000000000000000000007C001033800153800000000017C0000000000000000000000000000000000000000000000000000000000000000000000000000000000000000003C60000000002000000000000000200000000
    nb) (h : P s) : OutKeeps P (execMaxu t rd ra rb s) := by
  unfold execMaxu
  repeat' first
    | (with_reducible first
        | assumption | intro _ | apply outKeeps_next | apply issue_keeps K | apply result_keeps K)
    | exact off_sub rfl hb | exact off_bit rfl hb | dsimp only | split

theorem execMul_keeps (K : Keeps nb P) (t : Fin 48) (rd ra rb : Fin 16) (s : State) (hb : Off
    0x10000000000000000000000801000000000000000000400000000000000131240000000B81FF000000000000000000000000000000000100000000000400000000000000000000000000000000000000000C00000000000000000000000000000000000000000000000000000000007C001033800153800000000017C0000000000000000000000000000000000000000000000000000000000000000000000000000000000000000003C60000000002000000000000000200000000
    nb) (h : P s) : OutKeeps P (execMul t rd ra rb s) := by
  unfold execMul
  repeat' first
    | (with_reducible first
        | assumption | intro _ | apply outKeeps_next | apply issue_keeps K | apply result_keeps K)
    | exact off_sub rfl hb | exact off_bit rfl hb | dsimp only | split

theorem execMulh_keeps (K : Keeps nb P) (t : Fin 48) (rd ra rb : Fin 16) (s : State) (hb : Off
    0x10000000000000000000000801000000000000000000400000000000000131240000000B81FF000000000000000000000000000000000100000000000400000000000000000000000000000000000000000C00000000000000000000000000000000000000000000000000000000007C001033800153800000000017C0000000000000000000000000000000000000000000000000000000000000000000000000000000000000000003C60000000002000000000000000200000000
    nb) (h : P s) : OutKeeps P (execMulh t rd ra rb s) := by
  unfold execMulh
  repeat' first
    | (with_reducible first
        | assumption | intro _ | apply outKeeps_next | apply issue_keeps K | apply result_keeps K)
    | exact off_sub rfl hb | exact off_bit rfl hb | dsimp only | split

theorem execMulhu_keeps (K : Keeps nb P) (t : Fin 48) (rd ra rb : Fin 16) (s : State) (hb : Off
    0x10000000000000000000000801000000000000000000400000000000000131240000000B81FF000000000000000000000000000000000100000000000400000000000000000000000000000000000000000C00000000000000000000000000000000000000000000000000000000007C001033800153800000000017C0000000000000000000000000000000000000000000000000000000000000000000000000000000000000000003C60000000002000000000000000200000000
    nb) (h : P s) : OutKeeps P (execMulhu t rd ra rb s) := by
  unfold execMulhu
  repeat' first
    | (with_reducible first
        | assumption | intro _ | apply outKeeps_next | apply issue_keeps K | apply result_keeps K)
    | exact off_sub rfl hb | exact off_bit rfl hb | dsimp only | split

theorem execMulq_keeps (K : Keeps nb P) (t : Fin 48) (rd ra rb : Fin 16) (s : State) (hb : Off
    0x10000000000000000000000801000000000000000000400000000000000131240000000B81FF000000000000000000000000000000000100000000000400000000000000000000000000000000000000000C00000000000000000000000000000000000000000000000000000000007C001033800153800000000017C0000000000000000000000000000000000000000000000000000000000000000000000000000000000000000003C60000000002000000000000000200000000
    nb) (h : P s) : OutKeeps P (execMulq t rd ra rb s) := by
  unfold execMulq
  repeat' first
    | (with_reducible first
        | assumption | intro _ | apply outKeeps_next | apply issue_keeps K | apply result_keeps K)
    | exact off_sub rfl hb | exact off_bit rfl hb | dsimp only | split

theorem execMulx_keeps (K : Keeps nb P) (t : Fin 48) (rd ra rb : Fin 16) (s : State) (hb : Off
    0x10000000000000000000000801000000000000000000400000000000000131240000000B81FF000000000000000000000000000000000100000000000400000000000000000000000000000000000000000C00000000000000000000000000000000000000000000000000000000007C001033800153800000000017C0000000000000000000000000000000000000000000000000000000000000000000000000000000000000000003C60000000002000000000000000200000000
    nb) (h : P s) : OutKeeps P (execMulx t rd ra rb s) := by
  unfold execMulx
  repeat' first
    | (with_reducible first
        | assumption | intro _ | apply outKeeps_next | apply issue_keeps K | apply result_keeps K)
    | exact off_sub rfl hb | exact off_bit rfl hb | dsimp only | split

theorem execDiv_keeps (K : Keeps nb P) (t : Fin 48) (rd ra rb : Fin 16) (s : State) (hb : Off
    0x10000000000000000000000801000000000000000000400000000000000131240001C00B81FD000000000000000000000000000000000100000000000400000000000000000000000000000000000000000C00000000000000000000000000000000000000000000000000000000007C001033800153800000000017C0000000000000000000000000000000000000000000000000000000000000000000000000000000000000000003C60000000002000000000000000200000000
    nb) (h : P s) : OutKeeps P (execDiv t rd ra rb s) := by
  unfold execDiv
  repeat' first
    | (with_reducible first
        | assumption | intro _ | apply outKeeps_next | apply divide_keeps K | apply issue_keeps K)
    | exact off_sub rfl hb | exact off_bit rfl hb | dsimp only | split

theorem execDivu_keeps (K : Keeps nb P) (t : Fin 48) (rd ra rb : Fin 16) (s : State) (hb : Off
    0x10000000000000000000000801000000000000000000400000000000000131240001C00B81FD000000000000000000000000000000000100000000000400000000000000000000000000000000000000000C00000000000000000000000000000000000000000000000000000000007C001033800153800000000017C0000000000000000000000000000000000000000000000000000000000000000000000000000000000000000003C60000000002000000000000000200000000
    nb) (h : P s) : OutKeeps P (execDivu t rd ra rb s) := by
  unfold execDivu
  repeat' first
    | (with_reducible first
        | assumption | intro _ | apply outKeeps_next | apply divide_keeps K | apply issue_keeps K)
    | exact off_sub rfl hb | exact off_bit rfl hb | dsimp only | split

theorem execRem_keeps (K : Keeps nb P) (t : Fin 48) (rd ra rb : Fin 16) (s : State) (hb : Off
    0x10000000000000000000000801000000000000000000400000000000000131240001C00B81FD000000000000000000000000000000000100000000000400000000000000000000000000000000000000000C00000000000000000000000000000000000000000000000000000000007C001033800153800000000017C0000000000000000000000000000000000000000000000000000000000000000000000000000000000000000003C60000000002000000000000000200000000
    nb) (h : P s) : OutKeeps P (execRem t rd ra rb s) := by
  unfold execRem
  repeat' first
    | (with_reducible first
        | assumption | intro _ | apply outKeeps_next | apply divide_keeps K | apply issue_keeps K)
    | exact off_sub rfl hb | exact off_bit rfl hb | dsimp only | split

theorem execRemu_keeps (K : Keeps nb P) (t : Fin 48) (rd ra rb : Fin 16) (s : State) (hb : Off
    0x10000000000000000000000801000000000000000000400000000000000131240001C00B81FD000000000000000000000000000000000100000000000400000000000000000000000000000000000000000C00000000000000000000000000000000000000000000000000000000007C001033800153800000000017C0000000000000000000000000000000000000000000000000000000000000000000000000000000000000000003C60000000002000000000000000200000000
    nb) (h : P s) : OutKeeps P (execRemu t rd ra rb s) := by
  unfold execRemu
  repeat' first
    | (with_reducible first
        | assumption | intro _ | apply outKeeps_next | apply divide_keeps K | apply issue_keeps K)
    | exact off_sub rfl hb | exact off_bit rfl hb | dsimp only | split

theorem execAdds_keeps (K : Keeps nb P) (t : Fin 48) (rd ra rb : Fin 16) (s : State) (hb : Off
    0x10000000000000000000000801000000000000000000400000000000000131240000000B81FF000000000000000000000000000000000100000000000400000000000000000000000000000000000000000C00000000000000000000000000000000000000000000000000000000007C001033800153800000000017C0000000000000000000000000000000000000000000000000000000000000000000000000000000000000000003C60000000002000000000000000200000000
    nb) (h : P s) : OutKeeps P (execAdds t rd ra rb s) := by
  unfold execAdds
  repeat' first
    | (with_reducible first
        | assumption | intro _ | apply outKeeps_next | apply issue_keeps K | apply result_keeps K)
    | exact off_sub rfl hb | exact off_bit rfl hb | dsimp only | split

theorem execSubs_keeps (K : Keeps nb P) (t : Fin 48) (rd ra rb : Fin 16) (s : State) (hb : Off
    0x10000000000000000000000801000000000000000000400000000000000131240000000B81FF000000000000000000000000000000000100000000000400000000000000000000000000000000000000000C00000000000000000000000000000000000000000000000000000000007C001033800153800000000017C0000000000000000000000000000000000000000000000000000000000000000000000000000000000000000003C60000000002000000000000000200000000
    nb) (h : P s) : OutKeeps P (execSubs t rd ra rb s) := by
  unfold execSubs
  repeat' first
    | (with_reducible first
        | assumption | intro _ | apply outKeeps_next | apply issue_keeps K | apply result_keeps K)
    | exact off_sub rfl hb | exact off_bit rfl hb | dsimp only | split

theorem execAddus_keeps (K : Keeps nb P) (t : Fin 48) (rd ra rb : Fin 16) (s : State) (hb : Off
    0x10000000000000000000000801000000000000000000400000000000000131240000000B81FF000000000000000000000000000000000100000000000400000000000000000000000000000000000000000C00000000000000000000000000000000000000000000000000000000007C001033800153800000000017C0000000000000000000000000000000000000000000000000000000000000000000000000000000000000000003C60000000002000000000000000200000000
    nb) (h : P s) : OutKeeps P (execAddus t rd ra rb s) := by
  unfold execAddus
  repeat' first
    | (with_reducible first
        | assumption | intro _ | apply outKeeps_next | apply issue_keeps K | apply result_keeps K)
    | exact off_sub rfl hb | exact off_bit rfl hb | dsimp only | split

theorem execSubus_keeps (K : Keeps nb P) (t : Fin 48) (rd ra rb : Fin 16) (s : State) (hb : Off
    0x10000000000000000000000801000000000000000000400000000000000131240000000B81FF000000000000000000000000000000000100000000000400000000000000000000000000000000000000000C00000000000000000000000000000000000000000000000000000000007C001033800153800000000017C0000000000000000000000000000000000000000000000000000000000000000000000000000000000000000003C60000000002000000000000000200000000
    nb) (h : P s) : OutKeeps P (execSubus t rd ra rb s) := by
  unfold execSubus
  repeat' first
    | (with_reducible first
        | assumption | intro _ | apply outKeeps_next | apply issue_keeps K | apply result_keeps K)
    | exact off_sub rfl hb | exact off_bit rfl hb | dsimp only | split

theorem execShls_keeps (K : Keeps nb P) (t : Fin 48) (rd ra rb : Fin 16) (s : State) (hb : Off
    0x10000000000000000000000801000000000000000000400000000000000131240000000B81FF000000000000000000000000000000000100000000000400000000000000000000000000000000000000000C00000000000000000000000000000000000000000000000000000000007C001033800153800000000017C0000000000000000000000000000000000000000000000000000000000000000000000000000000000000000003C60000000002000000000000000200000000
    nb) (h : P s) : OutKeeps P (execShls t rd ra rb s) := by
  unfold execShls
  repeat' first
    | (with_reducible first
        | assumption | intro _ | apply outKeeps_next | apply issue_keeps K | apply result_keeps K)
    | exact off_sub rfl hb | exact off_bit rfl hb | dsimp only | split

theorem execNegs_keeps (K : Keeps nb P) (t : Fin 48) (rd ra : Fin 16) (s : State) (hb : Off
    0x10000000000000000000000801000000000000000000400000000000000131240000000B81FF000000000000000000000000000000000100000000000400000000000000000000000000000000000000000C00000000000000000000000000000000000000000000000000000000007C001033800153800000000017C0000000000000000000000000000000000000000000000000000000000000000000000000000000000000000003C60000000002000000000000000200000000
    nb) (h : P s) : OutKeeps P (execNegs t rd ra s) := by
  unfold execNegs
  repeat' first
    | (with_reducible first
        | assumption | intro _ | apply outKeeps_next | apply issue_keeps K | apply result_keeps K)
    | exact off_sub rfl hb | exact off_bit rfl hb | dsimp only | split

theorem execAbss_keeps (K : Keeps nb P) (t : Fin 48) (rd ra : Fin 16) (s : State) (hb : Off
    0x10000000000000000000000801000000000000000000400000000000000131240000000B81FF000000000000000000000000000000000100000000000400000000000000000000000000000000000000000C00000000000000000000000000000000000000000000000000000000007C001033800153800000000017C0000000000000000000000000000000000000000000000000000000000000000000000000000000000000000003C60000000002000000000000000200000000
    nb) (h : P s) : OutKeeps P (execAbss t rd ra s) := by
  unfold execAbss
  repeat' first
    | (with_reducible first
        | assumption | intro _ | apply outKeeps_next | apply issue_keeps K | apply result_keeps K)
    | exact off_sub rfl hb | exact off_bit rfl hb | dsimp only | split

theorem execSats_keeps (K : Keeps nb P) (t : Fin 48) (rd ra : Fin 16) (n : Fin 32) (s : State) (hb : Off
    0x10000000000000000000000801000000000000000000400000000000000131240000000B81FF000000000000000000000000000000000100000000000400000000000000000000000000000000000000000C00000000000000000000000000000000000000000000000000000000007C001033800153800000000017C0000000000000000000000000000000000000000000000000000000000000000000000000000000000000000003C60000000002000000000000000200000000
    nb) (h : P s) : OutKeeps P (execSats t rd ra n s) := by
  unfold execSats
  repeat' first
    | (with_reducible first
        | assumption | intro _ | apply outKeeps_next | apply issue_keeps K | apply result_keeps K)
    | exact off_sub rfl hb | exact off_bit rfl hb | dsimp only | split

theorem execSatu_keeps (K : Keeps nb P) (t : Fin 48) (rd ra : Fin 16) (n : Fin 32) (s : State) (hb : Off
    0x10000000000000000000000801000000000000000000400000000000000131240000000B81FF000000000000000000000000000000000100000000000400000000000000000000000000000000000000000C00000000000000000000000000000000000000000000000000000000007C001033800153800000000017C0000000000000000000000000000000000000000000000000000000000000000000000000000000000000000003C60000000002000000000000000200000000
    nb) (h : P s) : OutKeeps P (execSatu t rd ra n s) := by
  unfold execSatu
  repeat' first
    | (with_reducible first
        | assumption | intro _ | apply outKeeps_next | apply issue_keeps K | apply result_keeps K)
    | exact off_sub rfl hb | exact off_bit rfl hb | dsimp only | split

theorem execExtu_keeps (K : Keeps nb P) (t : Fin 48) (rd ra : Fin 16) (p w : Fin 32) (s : State) (hb : Off
    0x10000000000000000000000801000000000000000000400000000000000131240000000B81FF000000000000000000000000000000000100000000000400000000000000000000000000000000000000000C00000000000000000000000000000000000000000000000000000000007C001033800153800000000017C0000000000000000000000000000000000000000000000000000000000000000000000000000000000000000003C60000000002000000000000000200000000
    nb) (h : P s) : OutKeeps P (execExtu t rd ra p w s) := by
  unfold execExtu
  repeat' first
    | (with_reducible first
        | assumption | intro _ | apply outKeeps_next | apply issue_keeps K | apply result_keeps K)
    | exact off_sub rfl hb | exact off_bit rfl hb | dsimp only | split

theorem execExts_keeps (K : Keeps nb P) (t : Fin 48) (rd ra : Fin 16) (p w : Fin 32) (s : State) (hb : Off
    0x10000000000000000000000801000000000000000000400000000000000131240000000B81FF000000000000000000000000000000000100000000000400000000000000000000000000000000000000000C00000000000000000000000000000000000000000000000000000000007C001033800153800000000017C0000000000000000000000000000000000000000000000000000000000000000000000000000000000000000003C60000000002000000000000000200000000
    nb) (h : P s) : OutKeeps P (execExts t rd ra p w s) := by
  unfold execExts
  repeat' first
    | (with_reducible first
        | assumption | intro _ | apply outKeeps_next | apply issue_keeps K | apply result_keeps K)
    | exact off_sub rfl hb | exact off_bit rfl hb | dsimp only | split

theorem execIns_keeps (K : Keeps nb P) (t : Fin 48) (rd ra : Fin 16) (p w : Fin 32) (s : State) (hb : Off
    0x10000000000000000000000801000000000000000000400000000000000131240000000B81FF000000000000000000000000000000000100000000000400000000000000000000000000000000000000000C00000000000000000000000000000000000000000000000000000000007C001033800153800000000017C0000000000000000000000000000000000000000000000000000000000000000000000000000000000000000003C60000000002000000000000000200000000
    nb) (h : P s) : OutKeeps P (execIns t rd ra p w s) := by
  unfold execIns
  repeat' first
    | (with_reducible first
        | assumption | intro _ | apply outKeeps_next | apply issue_keeps K | apply result_keeps K)
    | exact off_sub rfl hb | exact off_bit rfl hb | dsimp only | split

theorem execClz_keeps (K : Keeps nb P) (t : Fin 48) (rd ra : Fin 16) (s : State) (hb : Off
    0x10000000000000000000000801000000000000000000400000000000000131240000000B81FF000000000000000000000000000000000100000000000400000000000000000000000000000000000000000C00000000000000000000000000000000000000000000000000000000007C001033800153800000000017C0000000000000000000000000000000000000000000000000000000000000000000000000000000000000000003C60000000002000000000000000200000000
    nb) (h : P s) : OutKeeps P (execClz t rd ra s) := by
  unfold execClz
  repeat' first
    | (with_reducible first
        | assumption | intro _ | apply outKeeps_next | apply issue_keeps K | apply result_keeps K)
    | exact off_sub rfl hb | exact off_bit rfl hb | dsimp only | split

theorem execPopc_keeps (K : Keeps nb P) (t : Fin 48) (rd ra : Fin 16) (s : State) (hb : Off
    0x10000000000000000000000801000000000000000000400000000000000131240000000B81FF000000000000000000000000000000000100000000000400000000000000000000000000000000000000000C00000000000000000000000000000000000000000000000000000000007C001033800153800000000017C0000000000000000000000000000000000000000000000000000000000000000000000000000000000000000003C60000000002000000000000000200000000
    nb) (h : P s) : OutKeeps P (execPopc t rd ra s) := by
  unfold execPopc
  repeat' first
    | (with_reducible first
        | assumption | intro _ | apply outKeeps_next | apply issue_keeps K | apply result_keeps K)
    | exact off_sub rfl hb | exact off_bit rfl hb | dsimp only | split

theorem execRev8_keeps (K : Keeps nb P) (t : Fin 48) (rd ra : Fin 16) (s : State) (hb : Off
    0x10000000000000000000000801000000000000000000400000000000000131240000000B81FF000000000000000000000000000000000100000000000400000000000000000000000000000000000000000C00000000000000000000000000000000000000000000000000000000007C001033800153800000000017C0000000000000000000000000000000000000000000000000000000000000000000000000000000000000000003C60000000002000000000000000200000000
    nb) (h : P s) : OutKeeps P (execRev8 t rd ra s) := by
  unfold execRev8
  repeat' first
    | (with_reducible first
        | assumption | intro _ | apply outKeeps_next | apply issue_keeps K | apply result_keeps K)
    | exact off_sub rfl hb | exact off_bit rfl hb | dsimp only | split

theorem execSwapw_keeps (K : Keeps nb P) (t : Fin 48) (rd ra rb : Fin 16) (s : State) (hb : Off
    0x100000000000000000000008010000000000000000004000000000000001312400003FCB81FD000000000000000000000000000000000100000000000400000000000000000000000000000000000000000C00000000000000000000000000000000000000000000000000000000007C001033800153800000000017C0000000000000000000000000000000000000000000000000000000000000000000000000000000000000000003C60000000002000000000000000200000000
    nb) (h : P s) : OutKeeps P (execSwapw t rd ra rb s) := by
  unfold execSwapw
  repeat' first
    | (with_reducible first
        | assumption | intro _ | apply outKeeps_next | apply atomic_keeps K | apply issue_keeps K)
    | exact off_sub rfl hb | exact off_bit rfl hb | dsimp only | split

theorem execAddw_keeps (K : Keeps nb P) (t : Fin 48) (rd ra rb : Fin 16) (s : State) (hb : Off
    0x100000000000000000000008010000000000000000004000000000000001312400003FCB81FD000000000000000000000000000000000100000000000400000000000000000000000000000000000000000C00000000000000000000000000000000000000000000000000000000007C001033800153800000000017C0000000000000000000000000000000000000000000000000000000000000000000000000000000000000000003C60000000002000000000000000200000000
    nb) (h : P s) : OutKeeps P (execAddw t rd ra rb s) := by
  unfold execAddw
  repeat' first
    | (with_reducible first
        | assumption | intro _ | apply outKeeps_next | apply atomic_keeps K | apply issue_keeps K)
    | exact off_sub rfl hb | exact off_bit rfl hb | dsimp only | split

theorem execSwapd_keeps (K : Keeps nb P) (t : Fin 48) (rd ra rb : Fin 16) (s : State) (hb : Off
    0x100000000000000000000008010000000000000000004000000000000001312400003FCB81FD000000000000000000000000000000000100000000000400000000000000000000000000000000000000000C00000000000000000000000000000000000000000000000000000000007C001033800153800000000017C0000000000000000000000000000000000000000000000000000000000000000000000000000000000000000003C60000000002000000000000000200000000
    nb) (h : P s) : OutKeeps P (execSwapd t rd ra rb s) := by
  unfold execSwapd
  repeat' first
    | (with_reducible first
        | assumption | intro _ | apply outKeeps_next | apply atomic_keeps K | apply issue_keeps K)
    | exact off_sub rfl hb | exact off_bit rfl hb | dsimp only | split

theorem execAddd_keeps (K : Keeps nb P) (t : Fin 48) (rd ra rb : Fin 16) (s : State) (hb : Off
    0x100000000000000000000008010000000000000000004000000000000001312400003FCB81FD000000000000000000000000000000000100000000000400000000000000000000000000000000000000000C00000000000000000000000000000000000000000000000000000000007C001033800153800000000017C0000000000000000000000000000000000000000000000000000000000000000000000000000000000000000003C60000000002000000000000000200000000
    nb) (h : P s) : OutKeeps P (execAddd t rd ra rb s) := by
  unfold execAddd
  repeat' first
    | (with_reducible first
        | assumption | intro _ | apply outKeeps_next | apply atomic_keeps K | apply issue_keeps K)
    | exact off_sub rfl hb | exact off_bit rfl hb | dsimp only | split

theorem execAddi_keeps (K : Keeps nb P) (t : Fin 48) (rd ra : Fin 16) (imm : BitVec 18) (s : State) (hb : Off
    0x10000000000000000000000801000000000000000000400000000000000131240000000B81FF000000000000000000000000000000000100000000000400000000000000000000000000000000000000000C00000000000000000000000000000000000000000000000000000000007C001033800153800000000017C0000000000000000000000000000000000000000000000000000000000000000000000000000000000000000003C60000000002000000000000000200000000
    nb) (h : P s) : OutKeeps P (execAddi t rd ra imm s) := by
  unfold execAddi
  repeat' first
    | (with_reducible first
        | assumption | intro _ | apply outKeeps_next | apply issue_keeps K | apply result_keeps K)
    | exact off_sub rfl hb | exact off_bit rfl hb | dsimp only | split

theorem execAndi_keeps (K : Keeps nb P) (t : Fin 48) (rd ra : Fin 16) (imm : BitVec 18) (s : State) (hb : Off
    0x10000000000000000000000801000000000000000000400000000000000131240000000B81FF000000000000000000000000000000000100000000000400000000000000000000000000000000000000000C00000000000000000000000000000000000000000000000000000000007C001033800153800000000017C0000000000000000000000000000000000000000000000000000000000000000000000000000000000000000003C60000000002000000000000000200000000
    nb) (h : P s) : OutKeeps P (execAndi t rd ra imm s) := by
  unfold execAndi
  repeat' first
    | (with_reducible first
        | assumption | intro _ | apply outKeeps_next | apply issue_keeps K | apply result_keeps K)
    | exact off_sub rfl hb | exact off_bit rfl hb | dsimp only | split

theorem execOri_keeps (K : Keeps nb P) (t : Fin 48) (rd ra : Fin 16) (imm : BitVec 18) (s : State) (hb : Off
    0x10000000000000000000000801000000000000000000400000000000000131240000000B81FF000000000000000000000000000000000100000000000400000000000000000000000000000000000000000C00000000000000000000000000000000000000000000000000000000007C001033800153800000000017C0000000000000000000000000000000000000000000000000000000000000000000000000000000000000000003C60000000002000000000000000200000000
    nb) (h : P s) : OutKeeps P (execOri t rd ra imm s) := by
  unfold execOri
  repeat' first
    | (with_reducible first
        | assumption | intro _ | apply outKeeps_next | apply issue_keeps K | apply result_keeps K)
    | exact off_sub rfl hb | exact off_bit rfl hb | dsimp only | split

theorem execXori_keeps (K : Keeps nb P) (t : Fin 48) (rd ra : Fin 16) (imm : BitVec 18) (s : State) (hb : Off
    0x10000000000000000000000801000000000000000000400000000000000131240000000B81FF000000000000000000000000000000000100000000000400000000000000000000000000000000000000000C00000000000000000000000000000000000000000000000000000000007C001033800153800000000017C0000000000000000000000000000000000000000000000000000000000000000000000000000000000000000003C60000000002000000000000000200000000
    nb) (h : P s) : OutKeeps P (execXori t rd ra imm s) := by
  unfold execXori
  repeat' first
    | (with_reducible first
        | assumption | intro _ | apply outKeeps_next | apply issue_keeps K | apply result_keeps K)
    | exact off_sub rfl hb | exact off_bit rfl hb | dsimp only | split

theorem execSlti_keeps (K : Keeps nb P) (t : Fin 48) (rd ra : Fin 16) (imm : BitVec 18) (s : State) (hb : Off
    0x10000000000000000000000801000000000000000000400000000000000131240000000B81FF000000000000000000000000000000000100000000000400000000000000000000000000000000000000000C00000000000000000000000000000000000000000000000000000000007C001033800153800000000017C0000000000000000000000000000000000000000000000000000000000000000000000000000000000000000003C60000000002000000000000000200000000
    nb) (h : P s) : OutKeeps P (execSlti t rd ra imm s) := by
  unfold execSlti
  repeat' first
    | (with_reducible first
        | assumption | intro _ | apply outKeeps_next | apply issue_keeps K | apply result_keeps K)
    | exact off_sub rfl hb | exact off_bit rfl hb | dsimp only | split

theorem execSltiu_keeps (K : Keeps nb P) (t : Fin 48) (rd ra : Fin 16) (imm : BitVec 18) (s : State) (hb : Off
    0x10000000000000000000000801000000000000000000400000000000000131240000000B81FF000000000000000000000000000000000100000000000400000000000000000000000000000000000000000C00000000000000000000000000000000000000000000000000000000007C001033800153800000000017C0000000000000000000000000000000000000000000000000000000000000000000000000000000000000000003C60000000002000000000000000200000000
    nb) (h : P s) : OutKeeps P (execSltiu t rd ra imm s) := by
  unfold execSltiu
  repeat' first
    | (with_reducible first
        | assumption | intro _ | apply outKeeps_next | apply issue_keeps K | apply result_keeps K)
    | exact off_sub rfl hb | exact off_bit rfl hb | dsimp only | split

theorem execShi_keeps (K : Keeps nb P) (t : Fin 48) (rd ra : Fin 16) (kind : Fin 4) (n : Fin 32) (s : State) (hb : Off
    0x10000000000000000000000801000000000000000000400000000000000131240000000B81FF000000000000000000000000000000000100000000000400000000000000000000000000000000000000000C00000000000000000000000000000000000000000000000000000000007C001033800153800000000017C0000000000000000000000000000000000000000000000000000000000000000000000000000000000000000003C60000000002000000000000000200000000
    nb) (h : P s) : OutKeeps P (execShi t rd ra kind n s) := by
  unfold execShi
  repeat' first
    | (with_reducible first
        | assumption | intro _ | apply outKeeps_next | apply issue_keeps K | apply result_keeps K)
    | exact off_sub rfl hb | exact off_bit rfl hb | dsimp only | split

theorem execLui_keeps (K : Keeps nb P) (t : Fin 48) (rd : Fin 16) (imm : BitVec 22) (s : State) (hb : Off
    0x10000000000000000000000801000000000000000000400000000000000131240000000B81FF000000000000000000000000000000000100000000000400000000000000000000000000000000000000000C00000000000000000000000000000000000000000000000000000000007C001033800153800000000017C0000000000000000000000000000000000000000000000000000000000000000000000000000000000000000003C60000000002000000000000000200000000
    nb) (h : P s) : OutKeeps P (execLui t rd imm s) := by
  unfold execLui
  repeat' first
    | (with_reducible first
        | assumption | intro _ | apply outKeeps_next | apply issue_keeps K | apply result_keeps K)
    | exact off_sub rfl hb | exact off_bit rfl hb | dsimp only | split

theorem execLi_keeps (K : Keeps nb P) (t : Fin 48) (rd : Fin 16) (imm : BitVec 22) (s : State) (hb : Off
    0x10000000000000000000000801000000000000000000400000000000000131240000000B81FF000000000000000000000000000000000100000000000400000000000000000000000000000000000000000C00000000000000000000000000000000000000000000000000000000007C001033800153800000000017C0000000000000000000000000000000000000000000000000000000000000000000000000000000000000000003C60000000002000000000000000200000000
    nb) (h : P s) : OutKeeps P (execLi t rd imm s) := by
  unfold execLi
  repeat' first
    | (with_reducible first
        | assumption | intro _ | apply outKeeps_next | apply issue_keeps K | apply result_keeps K)
    | exact off_sub rfl hb | exact off_bit rfl hb | dsimp only | split

theorem execJal_keeps (K : Keeps nb P) (t : Fin 48) (rd : Fin 16) (imm : BitVec 22) (s : State) (hb : Off
    0x10000000000000000000000801000000000000000000400000000000000131240000000B81FF000000000000000000000000000000000100000000000400000000000000000000000000000000000000000C00000000000000000000000000000000000000000000000000000000007C001033800153800000000017C0000000000000000000000000000000000000000000000000000000000000000000000000000000000000000003C60000000002000000000000000200000000
    nb) (h : P s) : OutKeeps P (execJal t rd imm s) := by
  unfold execJal
  repeat' first
    | (with_reducible first
        | assumption | intro _ | apply outKeeps_next | apply issue_keeps K | apply linkTo_keeps K)
    | exact off_sub rfl hb | exact off_bit rfl hb | dsimp only | split

theorem execJalr_keeps (K : Keeps nb P) (t : Fin 48) (rd ra : Fin 16) (imm : BitVec 18) (s : State) (hb : Off
    0x10000000000000000000000801000000000000000000400000000000000131240000000B81FF000000000000000000000000000000000100000000000400000000000000000000000000000000000000000C00000000000000000000000000000000000000000000000000000000007C001033800153800000000017C0000000000000000000000000000000000000000000000000000000000000000000000000000000000000000003C60000000002000000000000000200000000
    nb) (h : P s) : OutKeeps P (execJalr t rd ra imm s) := by
  unfold execJalr
  repeat' first
    | (with_reducible first
        | assumption | intro _ | apply outKeeps_next | apply issue_keeps K | apply linkTo_keeps K)
    | exact off_sub rfl hb | exact off_bit rfl hb | dsimp only | split

theorem execBr_keeps (K : Keeps nb P) (t : Fin 48) (cond : Fin 8) (ra rb : Fin 16) (disp : BitVec 14) (s : State) (hb : Off
    0x10000000000000000000000801000000000000000000400000000000000131240000000B81FD000000000000000000000000000000000100000000000400000000000000000000000000000000000000000C00000000000000000000000000000000000000000000000000000000007C001033800153800000000017C0000000000000000000000000000000000000000000000000000000000000000000000000000000000000000003C60000000002000000000000000200000000
    nb) (h : P s) : OutKeeps P (execBr t cond ra rb disp s) := by
  unfold execBr
  repeat' first
    | (with_reducible first
        | assumption | intro _ | apply outKeeps_next | apply branch_keeps K | apply issue_keeps K)
    | exact off_sub rfl hb | exact off_bit rfl hb | dsimp only | split

theorem execBrz_keeps (K : Keeps nb P) (t : Fin 48) (cond : Fin 8) (ra : Fin 16) (disp : BitVec 14) (s : State) (hb : Off
    0x10000000000000000000000801000000000000000000400000000000000131240000000B81FD000000000000000000000000000000000100000000000400000000000000000000000000000000000000000C00000000000000000000000000000000000000000000000000000000007C001033800153800000000017C0000000000000000000000000000000000000000000000000000000000000000000000000000000000000000003C60000000002000000000000000200000000
    nb) (h : P s) : OutKeeps P (execBrz t cond ra disp s) := by
  unfold execBrz
  repeat' first
    | (with_reducible first
        | assumption | intro _ | apply outKeeps_next | apply branch_keeps K | apply issue_keeps K)
    | exact off_sub rfl hb | exact off_bit rfl hb | dsimp only | split

theorem execLdb_keeps (K : Keeps nb P) (t : Fin 48) (rd ra : Fin 16) (imm : BitVec 18) (s : State) (hb : Off
    0x100000000000000000000008010000000000000000004000000000000003F12400002FCB81FF000000000000000000000000000000000100000000000400000000000000000000000000000000000000000C00000000000000000000000000000000000000000000000000000000007C001033800153800000000017C0000000000000000000000000000000000000000000000000000000000000000000000000000000000000000003C60000000002000000000000000200000000
    nb) (h : P s) : OutKeeps P (execLdb t rd ra imm s) := by
  unfold execLdb
  repeat' first
    | (with_reducible first
        | assumption | intro _ | apply outKeeps_next | apply issue_keeps K | apply load_keeps K)
    | exact off_sub rfl hb | exact off_bit rfl hb | dsimp only | split

theorem execLdbu_keeps (K : Keeps nb P) (t : Fin 48) (rd ra : Fin 16) (imm : BitVec 18) (s : State) (hb : Off
    0x100000000000000000000008010000000000000000004000000000000003F12400002FCB81FF000000000000000000000000000000000100000000000400000000000000000000000000000000000000000C00000000000000000000000000000000000000000000000000000000007C001033800153800000000017C0000000000000000000000000000000000000000000000000000000000000000000000000000000000000000003C60000000002000000000000000200000000
    nb) (h : P s) : OutKeeps P (execLdbu t rd ra imm s) := by
  unfold execLdbu
  repeat' first
    | (with_reducible first
        | assumption | intro _ | apply outKeeps_next | apply issue_keeps K | apply load_keeps K)
    | exact off_sub rfl hb | exact off_bit rfl hb | dsimp only | split

theorem execLdh_keeps (K : Keeps nb P) (t : Fin 48) (rd ra : Fin 16) (imm : BitVec 18) (s : State) (hb : Off
    0x100000000000000000000008010000000000000000004000000000000003F12400002FCB81FF000000000000000000000000000000000100000000000400000000000000000000000000000000000000000C00000000000000000000000000000000000000000000000000000000007C001033800153800000000017C0000000000000000000000000000000000000000000000000000000000000000000000000000000000000000003C60000000002000000000000000200000000
    nb) (h : P s) : OutKeeps P (execLdh t rd ra imm s) := by
  unfold execLdh
  repeat' first
    | (with_reducible first
        | assumption | intro _ | apply outKeeps_next | apply issue_keeps K | apply load_keeps K)
    | exact off_sub rfl hb | exact off_bit rfl hb | dsimp only | split

theorem execLdhu_keeps (K : Keeps nb P) (t : Fin 48) (rd ra : Fin 16) (imm : BitVec 18) (s : State) (hb : Off
    0x100000000000000000000008010000000000000000004000000000000003F12400002FCB81FF000000000000000000000000000000000100000000000400000000000000000000000000000000000000000C00000000000000000000000000000000000000000000000000000000007C001033800153800000000017C0000000000000000000000000000000000000000000000000000000000000000000000000000000000000000003C60000000002000000000000000200000000
    nb) (h : P s) : OutKeeps P (execLdhu t rd ra imm s) := by
  unfold execLdhu
  repeat' first
    | (with_reducible first
        | assumption | intro _ | apply outKeeps_next | apply issue_keeps K | apply load_keeps K)
    | exact off_sub rfl hb | exact off_bit rfl hb | dsimp only | split

theorem execLdw_keeps (K : Keeps nb P) (t : Fin 48) (rd ra : Fin 16) (imm : BitVec 18) (s : State) (hb : Off
    0x100000000000000000000008010000000000000000004000000000000003F12400002FCB81FF000000000000000000000000000000000100000000000400000000000000000000000000000000000000000C00000000000000000000000000000000000000000000000000000000007C001033800153800000000017C0000000000000000000000000000000000000000000000000000000000000000000000000000000000000000003C60000000002000000000000000200000000
    nb) (h : P s) : OutKeeps P (execLdw t rd ra imm s) := by
  unfold execLdw
  repeat' first
    | (with_reducible first
        | assumption | intro _ | apply outKeeps_next | apply issue_keeps K | apply load_keeps K)
    | exact off_sub rfl hb | exact off_bit rfl hb | dsimp only | split

theorem execLdp_keeps (K : Keeps nb P) (t : Fin 48) (rd ra : Fin 16) (imm : BitVec 18) (s : State) (hb : Off
    0x100000000000000000000008010000000000000000004000000000000003F12400002FCB81FF000000000000000000000000000000000100000000000400000000000000000000000000000000000000000C00000000000000000000000000000000000000000000000000000000007C001033800153800000000017C0000000000000000000000000000000000000000000000000000000000000000000000000000000000000000003C60000000002000000000000000200000000
    nb) (h : P s) : OutKeeps P (execLdp t rd ra imm s) := by
  unfold execLdp
  repeat' first
    | (with_reducible first
        | assumption | intro _ | apply outKeeps_next | apply issue_keeps K | apply load_keeps K)
    | exact off_sub rfl hb | exact off_bit rfl hb | dsimp only | split

theorem execStb_keeps (K : Keeps nb P) (t : Fin 48) (rd ra : Fin 16) (imm : BitVec 18) (s : State) (hb : Off
    0x1000000000000000000000090100000000000000000040000000000000013124003C000B81FD000000000000000000000000000000000100000000000400000000000000000000000000000000000000000C00000000000000000000000000000000000000000000000000000000007C001033800153800000000037C0000000000000000000000000000000000000000000000000000000000000000000000000000000000000000003C60000000002000000000000000200000000
    nb) (h : P s) : OutKeeps P (execStb t rd ra imm s) := by
  unfold execStb
  repeat' first
    | (with_reducible first
        | assumption | intro _ | apply outKeeps_next | apply Stitch.store_keeps K | apply issue_keeps K
        | apply store_keeps K)
    | exact off_sub rfl hb | exact off_bit rfl hb | dsimp only | split

theorem execSth_keeps (K : Keeps nb P) (t : Fin 48) (rd ra : Fin 16) (imm : BitVec 18) (s : State) (hb : Off
    0x1000000000000000000000090100000000000000000040000000000000013124003C000B81FD000000000000000000000000000000000100000000000400000000000000000000000000000000000000000C00000000000000000000000000000000000000000000000000000000007C001033800153800000000037C0000000000000000000000000000000000000000000000000000000000000000000000000000000000000000003C60000000002000000000000000200000000
    nb) (h : P s) : OutKeeps P (execSth t rd ra imm s) := by
  unfold execSth
  repeat' first
    | (with_reducible first
        | assumption | intro _ | apply outKeeps_next | apply Stitch.store_keeps K | apply issue_keeps K
        | apply store_keeps K)
    | exact off_sub rfl hb | exact off_bit rfl hb | dsimp only | split

theorem execStw_keeps (K : Keeps nb P) (t : Fin 48) (rd ra : Fin 16) (imm : BitVec 18) (s : State) (hb : Off
    0x1000000000000000000000090100000000000000000040000000000000013124003C000B81FD000000000000000000000000000000000100000000000400000000000000000000000000000000000000000C00000000000000000000000000000000000000000000000000000000007C001033800153800000000037C0000000000000000000000000000000000000000000000000000000000000000000000000000000000000000003C60000000002000000000000000200000000
    nb) (h : P s) : OutKeeps P (execStw t rd ra imm s) := by
  unfold execStw
  repeat' first
    | (with_reducible first
        | assumption | intro _ | apply outKeeps_next | apply Stitch.store_keeps K | apply issue_keeps K
        | apply store_keeps K)
    | exact off_sub rfl hb | exact off_bit rfl hb | dsimp only | split

theorem execStp_keeps (K : Keeps nb P) (t : Fin 48) (rd ra : Fin 16) (imm : BitVec 18) (s : State) (hb : Off
    0x1000000000000000000000090100000000000000000040000000000000013124003C000B81FD000000000000000000000000000000000100000000000400000000000000000000000000000000000000000C00000000000000000000000000000000000000000000000000000000007C001033800153800000000037C0000000000000000000000000000000000000000000000000000000000000000000000000000000000000000003C60000000002000000000000000200000000
    nb) (h : P s) : OutKeeps P (execStp t rd ra imm s) := by
  unfold execStp
  repeat' first
    | (with_reducible first
        | assumption | intro _ | apply outKeeps_next | apply Stitch.store_keeps K | apply issue_keeps K
        | apply store_keeps K)
    | exact off_sub rfl hb | exact off_bit rfl hb | dsimp only | split

theorem execMfs_keeps (K : Keeps nb P) (t : Fin 48) (rd : Fin 16) (num : BitVec 10) (s : State) (hb : Off
    0x10000000000000000000000801000000000000000000400000000000000131240000000B81FF000000000000000000000000000000000100000000000400000000000000000000000000000000000000000C00000000000000000000000000000000000000000000000000000000007C001033800153800000000017C0000000000000000000000000000000000000000000000000000000000000000000000000000000000000000003C60000000002000000000000000200000000
    nb) (h : P s) : OutKeeps P (execMfs t rd num s) := by
  unfold execMfs
  repeat' first
    | (with_reducible first
        | assumption | intro _ | apply outKeeps_next | apply issue_keeps K | apply mfs_keeps K)
    | exact off_sub rfl hb | exact off_bit rfl hb | dsimp only | split

theorem execMts_keeps (K : Keeps nb P) (t : Fin 48) (ra : Fin 16) (num : BitVec 10) (s : State) (hb : Off
    0x10000000000000000000000801000000000000000000400000000000000131240000000BBBFD000000000000000000000000000000000100000000000400000000000000000000000000000000000000000C00000000000000000000000000000000000000000000000000000000007C001033800153800000000017C0000000000000000000000000000000000000000000000000000000000000000000000000000000000000000003C60000000002000000000000000200000000
    nb) (h : P s) : OutKeeps P (execMts t ra num s) := by
  unfold execMts
  repeat' first
    | (with_reducible first
        | assumption | intro _ | apply outKeeps_next | apply issue_keeps K | apply mts_keeps K)
    | exact off_sub rfl hb | exact off_bit rfl hb | dsimp only | split

theorem execTrap_keeps (K : Keeps nb P) (t : Fin 48) (num : BitVec 10) (s : State) (hb : Off
    0x10000000000000000000000801000000000000000000400000000000000131240000000B81FD000000000000000000000000000000000100000000000400000000000000000000000000000000000000000C00000000000000000000000000000000000000000000000000000000007C001033800153800000000017C0000000000000000000000000000000000000000000000000000000000000000000000000000000000000000003C60000000002000000000000000200000000
    nb) (h : P s) : OutKeeps P (execTrap t num s) := by
  unfold execTrap
  repeat' first
    | (with_reducible first
        | assumption | intro _ | apply outKeeps_next | apply issue_keeps K | apply raiseAt_keeps K)
    | exact off_sub rfl hb | exact off_bit rfl hb | dsimp only | split

theorem execRetx_keeps (K : Keeps nb P) (t : Fin 48) (s : State) (hb : Off
    0x10000000000000000000000801000000000000000000400000000000000131240000000B81FD000000000000000000000000000000000100000000000400000000000000000000000000000000000000000C00000000000000000000000000000000000000000000000000000000007C001033800153800000000017C0000000000000000000000000000000000000000000000000000000000000000000000000000000000000000003C60000000002000000000000000200000000
    nb) (h : P s) : OutKeeps P (execRetx t s) := by
  unfold execRetx
  repeat' first
    | (with_reducible first
        | assumption | intro _ | apply outKeeps_next | apply issue_keeps K | apply retx_keeps K)
    | exact off_sub rfl hb | exact off_bit rfl hb | dsimp only | split

theorem execSync_keeps (K : Keeps nb P) (t : Fin 48) (s : State) (hb : Off
    0x10000000000000000000000801000000000000000000400000000000000131240002000B81FD000000000000000000000000000000000100000000000400000000000000000000000000000000000000000C00000000000000000000000000000000000000000000000000000000007C001033800153800000000017C0000000000000000000000000000000000000000000000000000000000000000000000000000000000000000003C60000000002000000000000000200000000
    nb) (h : P s) : OutKeeps P (execSync t s) := by
  unfold execSync
  repeat' first
    | (with_reducible first
        | assumption | intro _ | apply outKeeps_next | apply issue_keeps K | apply sync_keeps K)
    | exact off_sub rfl hb | exact off_bit rfl hb | dsimp only | split

theorem execTend_keeps (K : Keeps nb P) (t : Fin 48) (s : State) (hb : Off
    0x10000000000000000000000809000000000000000000400000000000000133EC0180000B81FD000000000000000000000000000000000100000000000400000000000000000000000000000000000000000C00000000000000000000000000000000000000000000000000000000007C0010378001538C8000000017C00000000000000000000000000000000000000000000000000000000000000000000000000000000000000400C3C60000000002000000000000000200000000
    nb) (h : P s) : OutKeeps P (execTend t s) := by
  unfold execTend
  repeat' first
    | (with_reducible first
        | assumption | intro _ | apply outKeeps_next | apply issue_keeps K | apply tend_keeps K)
    | exact off_sub rfl hb | exact off_bit rfl hb | dsimp only | split

theorem execTwait_keeps (K : Keeps nb P) (t : Fin 48) (s : State) (hb : Off
    0x10000000000000000000000809000000000000000000400000000000000131EC0180400B81FF000000000000000000000000000000000100000000000400000000000000000000000000000000000000000C00000000000000000000000000000000000000000000000000000000007C0010378001538C8000000017C00000000000000000000000000000000000000000000000000000000000000000000000000000000000000400C3C60000000002000000000000000200000000
    nb) (h : P s) : OutKeeps P (execTwait t s) := by
  unfold execTwait
  repeat' first
    | (with_reducible first
        | assumption | intro _ | apply outKeeps_next | apply issue_keeps K | apply twait_keeps K)
    | exact off_sub rfl hb | exact off_bit rfl hb | dsimp only | split

theorem execBrk_keeps (K : Keeps nb P) (t : Fin 48) (num : BitVec 10) (s : State) (hb : Off
    0x10000000000000000000000801000000000000000000400000000000000131240000000F81FD000000000000000000000000000000000100000000000400000000000000000000000000000000000000000C00000000000000000000000000000000000000000000000000000000007C001033800153800000000017C0000000000000000000000000000000000000000000000000000000000000000000000000000000000000000003C60000000002000000000000000200000000
    nb) (h : P s) : OutKeeps P (execBrk t num s) := by
  unfold execBrk
  repeat' first
    | (with_reducible first
        | assumption | intro _ | apply outKeeps_next | apply brk_keeps K | apply issue_keeps K)
    | exact off_sub rfl hb | exact off_bit rfl hb | dsimp only | split

theorem execIbuf_keeps (K : Keeps nb P) (t : Fin 48) (s : State) (hb : Off
    0x10000000000000000000000801000000000000000000400000000000000131240000001B81FD000000000000000000000000000000000100000000000400000000000000000000000000000000000000000C00000000000000000000000000000000000000000000000000000000007C001033800153800000000017C0000000000000000000000000000000000000000000000000000000000000000000000000000000000000000003C60000000002000000000000000200000000
    nb) (h : P s) : OutKeeps P (execIbuf t s) := by
  unfold execIbuf
  repeat' first
    | (with_reducible first
        | assumption | intro _ | apply outKeeps_next | apply down_keeps K | apply advance_keeps K | apply issue_keeps K)
    | exact off_sub rfl hb | exact off_bit rfl hb | dsimp only | split

theorem execNop_keeps (K : Keeps nb P) (t : Fin 48) (s : State) (hb : Off
    0x10000000000000000000000801000000000000000000400000000000000131240000000B81FD000000000000000000000000000000000100000000000400000000000000000000000000000000000000000C00000000000000000000000000000000000000000000000000000000007C001033800153800000000017C0000000000000000000000000000000000000000000000000000000000000000000000000000000000000000003C60000000002000000000000000200000000
    nb) (h : P s) : OutKeeps P (execNop t s) := by
  unfold execNop
  repeat' first
    | (with_reducible first
        | assumption | intro _ | apply outKeeps_next | apply advance_keeps K | apply issue_keeps K)
    | exact off_sub rfl hb | exact off_bit rfl hb | dsimp only | split

end
end Sys2Proof.Machine
end

