-- ==== Sys2Proof/Laws/KeepsDomainRows.lean ====
section
/-!
SUPPORT. What each operation of Sys2Proof/Machine/DomainRows.lean can change: its footprint (Sys2Proof/Laws/Keeps.lean).
-/
namespace Sys2Proof.Machine
set_option linter.all false
section
variable {P : State → Prop} {nb : Nat}

theorem drainBlocks_keeps (K : Keeps nb P) (s : State) (d : Nat) (hb : Off
    0x100000000000000000000488710000000000000000024BD928000884003C010000000008000100000000000000000000000000000000010000000000040000000000000000000000000000000000000C000C000004000000000000000000000000000000010400000000000030E0007C00000380015380000000000000000000000000000000000000000000000000000000000000000000000000000000000000000000000000000003C60000000002000000000000000200000000
    nb) (h : P s) : P (drainBlocks s d) := by
  unfold drainBlocks
  repeat' first
    | (with_reducible first
        | assumption | intro _ | apply checkerGone_keeps K | apply commitDropped_keeps K | apply cxDrain_keeps K
        | apply dmaDrain_keeps K | apply portDrain_keeps K)
    | exact off_sub rfl hb | exact off_bit rfl hb | dsimp only | split

theorem domainDrain_keeps (K : Keeps nb P) (s : State) (d : Nat) (hb : Off
    0x100000000000000000000488710000000000000000024BD928000884003C010000000008000100005A000066E0000000050000000100010000000000040000000000000000000000000000000000000C000C000004000000000000000000000000000000010400000000000030E0007C000003800153800000000000000000000000143C0000000000000000000000280000200400000000000000000000000000000000000000000903C60000000002000000000000000200000000
    nb) (h : P s) : P (domainDrain s d) := by
  unfold domainDrain
  repeat' first
    | (with_reducible first
        | assumption | intro _ | apply keeps_ite | apply drainBlocks_keeps K | apply drainHeld_keeps K
        | apply drainStart_keeps K | apply refuseLate_keeps K)
    | exact off_sub rfl hb | exact off_bit rfl hb | dsimp only | split

theorem acceptedAbort_keeps (K : Keeps nb P) (s : State) (d : Nat) (hb : Off
    0x100000000000000000000000000000000000000000000000000000000000000000000000003DF8000000000000000000400000000000000000000000000000000000000000000000000000000000000000000000000000000000000000000000000000000000000000000000000000000000000000000000000000000000000000000000000000000000000000000000000000000000000000000000003C60000000000000000000000000200000000
    nb) (h : P s) : P (acceptedAbort s d) := by
  unfold acceptedAbort
  repeat' first
    | (with_reducible first
        | assumption | intro _ | apply keeps_each | apply answerHeld_keeps K | apply answerTag_keeps K)
    | exact off_sub rfl hb | exact off_bit rfl hb | dsimp only | split

theorem drainAbort_keeps (K : Keeps nb P) (s : State) (d : Nat) (hb : Off
    0x100000000000000000000000000000000000000000000000000000000000000000000000003DF8000000000000000000400000000000000000000000000000000000000000000000000000000000000000000000000000000000000000000000000000000000000000000000000000000000000000000000000000000000000000000000000000000000000000000000000000000000000000000000003C60000000000000000000000000200000000
    nb) (h : P s) : P (drainAbort s d) := by
  unfold drainAbort
  repeat' first
    | (with_reducible first
        | assumption | intro _ | apply keeps_ite | apply acceptedAbort_keeps K)
    | exact off_sub rfl hb | exact off_bit rfl hb | dsimp only | split

theorem domainCut_keeps (K : Keeps nb P) (s : State) (d : Nat) (hb : Off
    0x100000000000000000000000000000000000000000000000000000000000000000000000003DF8000000000000000000400000000000000000000000000000000000000000000000000000000000000000000000000000000000000000000000000000000000000000000000000000000000000000000000000000000000000000000000000000000000000000000000000000000000000000000000003C60000000000000000000000000200000000
    nb) (h : P s) : P (domainCut s d) := by
  unfold domainCut
  repeat' first
    | (with_reducible first
        | assumption | intro _ | apply keeps_each | apply bump_keeps K | apply acceptedAbort_keeps K | apply freeTag_keeps K
        | apply parts_of K | apply parts_regs K | apply parts_queues K | apply parts_mem K | apply parts_bad K)
    | exact off_sub rfl hb | exact off_bit rfl hb | dsimp only | split | simp only [parts_mk K]

theorem domainOff_keeps (K : Keeps nb P) (s : State) (d : Nat) (forced : Bool) (hb : Off fpAll nb) (h : P s) : P (domainOff
    s d forced) := by
  unfold domainOff
  repeat' first
    | (with_reducible first
        | assumption | intro _ | apply keeps_ite | apply domainCut_keeps K | apply releaseHeld_keeps K
        | apply switchOff_keeps K)
    | exact off_sub rfl hb | exact off_bit rfl hb | dsimp only | split

theorem domainOn_keeps (K : Keeps nb P) (s : State) (d : Nat) (hb : Off fpAll nb) (h : P s) : P (domainOn s d) := by
  unfold domainOn
  repeat' first
    | (with_reducible first
        | assumption | intro _ | apply keeps_when | apply keeps_ite | apply K.wr | apply releaseHeld_keeps K
        | apply routesSettled_keeps K | apply parts_of K)
    | exact off_sub rfl hb | exact off_bit rfl hb | exact off_any (off_sub rfl hb) | dsimp only
    | with_reducible apply parts_noQueues K | split | simp only [parts_mk K]

theorem wakeFails_keeps (K : Keeps nb P) (s : State) (hb : Off
    0x300000000000000000000140010000000000001C20000000000000000000000000000000000000005A000066E000000019E3DF80010001000000002004580000000000000000000000000000000100000000000000000000000000000000000000000000000000000000000000000000000000000000000000000000000000100000143C0020000000000000000000280000200400000000800000000000000000000000000000720CC3C6060F000002060200000200000200042180
    nb) (h : P s) : P (wakeFails s) := by
  unfold wakeFails
  repeat' first
    | (with_reducible first
        | assumption | intro _ | apply keeps_ite | apply K.wr | apply cDieLoss_keeps K | apply wakeResume_keeps K)
    | exact off_sub rfl hb | exact off_bit rfl hb | dsimp only | split

theorem tracesFail_keeps (K : Keeps nb P) (s : State) (l : List Held) (hb : Off
    0x4380000000000000000000000000000000000000000000000000000000000000000000000000000000000000000000000000000000000000000000000000000000000000000000
    nb) (h : P s) : P (tracesFail s l) := by
  unfold tracesFail
  repeat' first
    | (with_reducible first
        | assumption | intro _ | apply keeps_foldl | apply keeps_fold1 | apply keeps_fold2 | apply traceFails_keeps K)
    | exact off_sub rfl hb | exact off_bit rfl hb | dsimp only | split

theorem domainOnTimeout_keeps (K : Keeps nb P) (s : State) (d : Nat) (hb : Off fpAll nb) (h : P s) : P (domainOnTimeout s
    d) := by
  unfold domainOnTimeout
  repeat' first
    | (with_reducible first
        | assumption | intro _ | apply keeps_ite | apply K.wr | apply down_keeps K | apply checkerGone_keeps K
        | apply domErr_keeps K | apply releaseHeld_keeps K | apply tracesFail_keeps K | apply wakeFails_keeps K)
    | exact off_sub rfl hb | exact off_bit rfl hb | exact off_any (off_sub rfl hb) | dsimp only | split

theorem holdExpires_keeps (K : Keeps nb P) (s : State) (who : Master) (p : HoldWhy → Bool) (c : Code) (hb : Off
    0x100000000000000000000008010000000000000C2000400000000004000131003C00004801FF000000000000000000000000000000000100000000000400000000000000000000000000000000000000000C00000000000000000000000040000000000000000003E20040000000007C000003800153800000000003C0000000000000000000000000000000000000000000000000000000000000000000000000000000000000000003C60000000002000000000000000200000000
    nb) (h : P s) : P (holdExpires s who p c) := by
  unfold holdExpires
  repeat' first
    | (with_reducible first
        | assumption | intro _ | apply keeps_when | apply keeps_ite | apply accExpire_keeps K | apply dcExpire_keeps K
        | apply expireHeld_keeps K | apply threadExpire_keeps K | apply tracesFail_keeps K)
    | exact off_sub rfl hb | exact off_bit rfl hb | dsimp only | split

theorem entryDrained_keeps (K : Keeps nb P) (s : State) (hb : Off
    0x100000000000000000000488710000000000000000024BD928000884003C010000000008000100005A000066E00000000503DF800100010000000000040000000000000000000000000000000000000C000C000004000000000000000000000000000000010400000000000030E0007C000003800153800000000000000000000000143C0000000000000000000000280000200400000000000000000000000000000000000000000903C60000000002000000000000000200000000
    nb) (h : P s) : P (entryDrained s) := by
  unfold entryDrained
  repeat' first
    | (with_reducible first
        | assumption | intro _ | apply keeps_each | apply domainCut_keeps K | apply domainDrain_keeps K)
    | exact off_sub rfl hb | exact off_bit rfl hb | dsimp only | split

theorem waitersAnswered_keeps (K : Keeps nb P) (s : State) (hb : Off
    0x100000000000000000000000000000000000000000000000000000000000000000000000000000000000000000000000400000000000000000000000000000000000000000000000000000000000000000000000000000000000000000000000000000000000000000000000000000000000000000000000000000000000000000000000000000000000000000000000000000000000000000000000003C60000000000000000000000000200000000
    nb) (h : P s) : P (waitersAnswered s) := by
  unfold waitersAnswered
  repeat' first
    | (with_reducible first
        | assumption | intro _ | apply answerHeldBy_keeps K)
    | exact off_sub rfl hb | exact off_bit rfl hb | dsimp only | split

theorem stateEntered_keeps (K : Keeps nb P) (s : State) (hb : Off fpAll nb) (h : P s) : P (stateEntered s) := by
  unfold stateEntered
  repeat' first
    | (with_reducible first
        | assumption | intro _ | apply keeps_ite | apply K.wr | apply commitDropped_keeps K | apply entryComplete_keeps K
        | apply entryDrained_keeps K | apply padsHold_keeps K | apply refuseLate_keeps K | apply tallySaveDone_keeps K
        | apply tallySaveStart_keeps K | apply waitersAnswered_keeps K)
    | exact off_sub rfl hb | exact off_bit rfl hb | exact off_any (off_sub rfl hb) | dsimp only | split

theorem execDomainDrainStart_keeps (K : Keeps nb P) (dom : Fin 136) (s : State) (hb : Off
    0x100000000000000000000488710000000000000000024BD928000884003C010000000008000100005A000066E0000000050000000100010000000000040000000000000000000000000000000000000C000C000004000000000000000000000000000000010400000000000030E0007C000003800153800000000000000000000000143C0000000000000000000000280000200400000000000000000000000000000000000000000903C60000000002000000000000000200000000
    nb) (h : P s) : OutKeeps P (execDomainDrainStart dom s) := by
  unfold execDomainDrainStart
  repeat' first
    | (with_reducible first
        | assumption | intro _ | apply outKeeps_next | apply domainDrain_keeps K)
    | exact off_sub rfl hb | exact off_bit rfl hb | dsimp only | split

theorem execDrainAbortTimeout_keeps (K : Keeps nb P) (dom : Fin 136) (s : State) (hb : Off
    0x100000000000000000000000000000000000000000000000000000000000000000000000003DF8000000000000000000400000000000000000000000000000000000000000000000000000000000000000000000000000000000000000000000000000000000000000000000000000000000000000000000000000000000000000000000000000000000000000000000000000000000000000000000003C60000000000000000000000000200000000
    nb) (h : P s) : OutKeeps P (execDrainAbortTimeout dom s) := by
  unfold execDrainAbortTimeout
  repeat' first
    | (with_reducible first
        | assumption | intro _ | apply outKeeps_next | apply drainAbort_keeps K)
    | exact off_sub rfl hb | exact off_bit rfl hb | dsimp only | split

theorem execDomainSwitchOff_keeps (K : Keeps nb P) (dom : Fin 136) (forced : Bool) (s : State) (hb : Off fpAll nb) (h : P
    s) : OutKeeps P (execDomainSwitchOff dom forced s) := by
  unfold execDomainSwitchOff
  repeat' first
    | (with_reducible first
        | assumption | intro _ | apply outKeeps_next | apply domainOff_keeps K)
    | exact off_sub rfl hb | exact off_bit rfl hb | dsimp only | split

theorem execPowerupHoldTimeout_keeps (K : Keeps nb P) (who : Master) (s : State) (hb : Off
    0x100000000000000000000008010000000000000C2000400000000004000131003C00004801FF000000000000000000000000000000000100000000000400000000000000000000000000000000000000000C00000000000000000000000040000000000000000003E20040000000007C000003800153800000000003C0000000000000000000000000000000000000000000000000000000000000000000000000000000000000000003C60000000002000000000000000200000000
    nb) (h : P s) : OutKeeps P (execPowerupHoldTimeout who s) := by
  unfold execPowerupHoldTimeout
  repeat' first
    | (with_reducible first
        | assumption | intro _ | apply outKeeps_next | apply holdExpires_keeps K)
    | exact off_sub rfl hb | exact off_bit rfl hb | dsimp only | split

theorem execBusyHoldTimeout_keeps (K : Keeps nb P) (who : Master) (s : State) (hb : Off
    0x100000000000000000000008010000000000000C2000400000000004000131003C00004801FF000000000000000000000000000000000100000000000400000000000000000000000000000000000000000C00000000000000000000000040000000000000000003E20040000000007C000003800153800000000003C0000000000000000000000000000000000000000000000000000000000000000000000000000000000000000003C60000000002000000000000000200000000
    nb) (h : P s) : OutKeeps P (execBusyHoldTimeout who s) := by
  unfold execBusyHoldTimeout
  repeat' first
    | (with_reducible first
        | assumption | intro _ | apply outKeeps_next | apply holdExpires_keeps K)
    | exact off_sub rfl hb | exact off_bit rfl hb | dsimp only | split

theorem execTxPushTimeout_keeps (K : Keeps nb P) (who : Master) (s : State) (hb : Off
    0x100000000000000000000008010000000000000C2000400000000004000131003C00004801FF000000000000000000000000000000000100000000000400000000000000000000000000000000000000000C00000000000000000000000040000000000000000003E20040000000007C000003800153800000000003C0000000000000000000000000000000000000000000000000000000000000000000000000000000000000000003C60000000002000000000000000200000000
    nb) (h : P s) : OutKeeps P (execTxPushTimeout who s) := by
  unfold execTxPushTimeout
  repeat' first
    | (with_reducible first
        | assumption | intro _ | apply outKeeps_next | apply holdExpires_keeps K)
    | exact off_sub rfl hb | exact off_bit rfl hb | dsimp only | split

theorem execDomainOn_keeps (K : Keeps nb P) (dom : Fin 136) (s : State) (hb : Off fpAll nb) (h : P s) : OutKeeps P
    (execDomainOn dom s) := by
  unfold execDomainOn
  repeat' first
    | (with_reducible first
        | assumption | intro _ | apply outKeeps_next | apply domainOn_keeps K)
    | exact off_sub rfl hb | exact off_bit rfl hb | dsimp only | split

theorem execDomainOnTimeout_keeps (K : Keeps nb P) (dom : Fin 136) (s : State) (hb : Off fpAll nb) (h : P s) : OutKeeps P
    (execDomainOnTimeout dom s) := by
  unfold execDomainOnTimeout
  repeat' first
    | (with_reducible first
        | assumption | intro _ | apply outKeeps_next | apply domainOnTimeout_keeps K)
    | exact off_sub rfl hb | exact off_bit rfl hb | dsimp only | split

theorem execStateEntryComplete_keeps (K : Keeps nb P) (s : State) (hb : Off fpAll nb) (h : P s) : OutKeeps P
    (execStateEntryComplete s) := by
  unfold execStateEntryComplete
  repeat' first
    | (with_reducible first
        | assumption | intro _ | apply outKeeps_next | apply stateEntered_keeps K)
    | exact off_sub rfl hb | exact off_bit rfl hb | dsimp only | split

theorem execSupplyDropClear_keeps (K : Keeps nb P) (s : State) (hb : Off
    0x4000100000000000000000000000000000000000000000000000000000000000000000000000000000000000000000000000400000000000000000000000000000000000004000000000000000000000000000000000000000000000000000000000000000000000000000000000000000000000000000000000000000000000000000000000000000000000000000000000000000000000000010000000000000000000000000000000000000000000000
    nb) (h : P s) : OutKeeps P (execSupplyDropClear s) := by
  unfold execSupplyDropClear
  repeat' first
    | (with_reducible first
        | assumption | intro _ | apply outKeeps_next | apply keeps_ite | apply commitResumes_keeps K
        | apply dropClear_keeps K)
    | exact off_sub rfl hb | exact off_bit rfl hb | dsimp only | split

end
end Sys2Proof.Machine
end

