-- ==== Sys2Proof/Laws/KeepsLiveRows.lean ====
section
/-!
SUPPORT. What each operation of Sys2Proof/Machine/LiveRows.lean can change: its footprint (Sys2Proof/Laws/Keeps.lean).
-/
namespace Sys2Proof.Machine
set_option linter.all false
section
variable {P : State → Prop} {nb : Nat}

theorem execLiveVerifyDone_keeps (K : Keeps nb P) (s : State) (hb : Off
    0x1000000000000000000000480100000000000000001040000000000000000000000000000000000000000000000000000000000000000100000000000400000000000000000000000000000000000000000C00000000000000000000000000000009400000000000000000000000007C00000000000000000000000000000000000000000000000000000000000000000000000000000000000000000000000000000000000000000003C6060F000002000000000000000200000000
    nb) (h : P s) : OutKeeps P (execLiveVerifyDone s) := by
  unfold execLiveVerifyDone
  repeat' first
    | (with_reducible first
        | assumption | intro _ | apply outKeeps_next | apply liveVerified_keeps K)
    | exact off_sub rfl hb | exact off_bit rfl hb | dsimp only | split

theorem execLiveLoadDone_keeps (K : Keeps nb P) (s : State) (hb : Off fpAll nb) (h : P s) : OutKeeps P (execLiveLoadDone s)
    := by
  unfold execLiveLoadDone
  repeat' first
    | (with_reducible first
        | assumption | intro _ | apply outKeeps_next | apply liveLoaded_keeps K | apply releaseHeld_keeps K)
    | exact off_sub rfl hb | exact off_bit rfl hb | dsimp only | split

theorem execLiveSwitchTimeout_keeps (K : Keeps nb P) (s : State) (hb : Off
    0x40000000000000000000000000000000000000000000000000000000000000000000000000000000000000000000000000000000000000000000000000000000000000000000000000000000000000000000000000000000000000000000000000000000000000000000000000000000000000000000000000000000000000000000000000000000000000000000000000000000000000000000000000000000060F000000000000000000000000000000
    nb) (h : P s) : OutKeeps P (execLiveSwitchTimeout s) := by
  unfold execLiveSwitchTimeout
  repeat' first
    | (with_reducible first
        | assumption | intro _ | apply outKeeps_next | apply liveTimeout_keeps K)
    | exact off_sub rfl hb | exact off_bit rfl hb | dsimp only | split

end
end Sys2Proof.Machine
end

