-- ==== Sys2Proof/Laws/KeepsNvmRows.lean ====
section
/-!
SUPPORT. What each operation of Sys2Proof/Machine/NvmRows.lean can change: its footprint (Sys2Proof/Laws/Keeps.lean).
-/
namespace Sys2Proof.Machine
set_option linter.all false
section
variable {P : State → Prop} {nb : Nat}

theorem nvmCheck_keeps (K : Keeps nb P) (s : State) (r : Held) (w ecc : Nat) (hb : Off
    0x1000000000000000000000000000000000000000000010000000000000000000000000000000000000000000000000000000000000000100000000000000000000000000000000000000000000000000001100000000000000000000000000000000000000000000000000000000000000000000000000000000000000000000000000000000000000000000000000000000000000000000000000000000000000000000000000000000000000000002000000000000000000000000
    nb) (h : P s) : P (nvmCheck s r w ecc) := by
  unfold nvmCheck
  repeat' first
    | (with_reducible first
        | assumption | intro _ | apply keeps_ite | apply K.spoil | apply nvmCorrected_keeps K)
    | exact off_sub rfl hb | exact off_bit rfl hb | dsimp only | split

theorem nvmStore_keeps (K : Keeps nb P) (s : State) (r : Held) (fail : Option (Fin 4)) (hb : Off fpAll nb) (h : P s) : P
    (nvmStore s r fail) := by
  unfold nvmStore
  repeat' first
    | (with_reducible first
        | assumption | intro _ | apply keeps_ite | apply busRequest_keeps K | apply nvmProgram_keeps K
        | apply respondCode_keeps K | apply setsOut_keeps K)
    | exact off_sub rfl hb | exact off_bit rfl hb | dsimp only | split

theorem execNvmRead_keeps (K : Keeps nb P) (src : Source) (offset : BitVec 25) (size : Fin 6) (word : Fin 4) (ecc : Fin 3)
    (s : State) (hb : Off fpAll nb) (h : P s) : OutKeeps P (execNvmRead src offset size word ecc s) := by
  unfold execNvmRead
  repeat' first
    | (with_reducible first
        | assumption | intro _ | apply outKeeps_next | apply busRequest_keeps K | apply nvmCheck_keeps K
        | (apply keeps_fst; assumption) | (apply keeps_snd; assumption))
    | exact off_sub rfl hb | exact off_bit rfl hb | dsimp only | split

theorem execNvmWrite_keeps (K : Keeps nb P) (src : Source) (offset : BitVec 25) (size : Fin 6) (data : BitVec 256) (fail :
    Option (Fin 4)) (s : State) (hb : Off fpAll nb) (h : P s) : OutKeeps P (execNvmWrite src offset size data fail s) := by
  unfold execNvmWrite
  repeat' first
    | (with_reducible first
        | assumption | intro _ | apply outKeeps_next | apply nvmStore_keeps K)
    | exact off_sub rfl hb | exact off_bit rfl hb | dsimp only | split

theorem execEccBucketRoll_keeps (K : Keeps nb P) (s : State) (hb : Off
    0x30000000000000000000000000000000000000000000000000000000000000000000000000000000000000000000000000000000000000000000000000000000000000000000000000000000000000000000000000000000000000000000000000000000000000000000000000000000000000000000000000000000000000000000000000000000000000000000000000000000000000000000000000000000000000000000
    nb) (h : P s) : OutKeeps P (execEccBucketRoll s) := by
  unfold execEccBucketRoll
  repeat' first
    | (with_reducible first
        | assumption | intro _ | apply outKeeps_next | apply bucketRoll_keeps K)
    | exact off_sub rfl hb | exact off_bit rfl hb | dsimp only | split

theorem execNvmTallySaveTimer_keeps (K : Keeps nb P) (s : State) (hb : Off
    0x80000000000000000000000000000000000000000000000000000000000000000000000000000000000000000000000000000000000000000000000080000000000000000000000000000000000000000000000000000000000000000000000000000000000000000000000000000000000000000000000000000000000000000000000000000000000000000000000000000000000000000000000000000000000000000000
    nb) (h : P s) : OutKeeps P (execNvmTallySaveTimer s) := by
  unfold execNvmTallySaveTimer
  repeat' first
    | (with_reducible first
        | assumption | intro _ | apply outKeeps_next | apply tallySaveStart_keeps K)
    | exact off_sub rfl hb | exact off_bit rfl hb | dsimp only | split

theorem execNvmTallySaveDone_keeps (K : Keeps nb P) (s : State) (hb : Off
    0x10000000000000000000000000000000000000000000C0000000000000000000000000000000000000000000000000000000000000000100000000000000000000000000000000000000000000000000000080000000000000000000000000000000000000000000000000000000000000000000000000000000000000000000000000000000000000000000000000000000000000000000000000000000000000000000000000000000000000000002000000000000000000000000
    nb) (h : P s) : OutKeeps P (execNvmTallySaveDone s) := by
  unfold execNvmTallySaveDone
  repeat' first
    | (with_reducible first
        | assumption | intro _ | apply outKeeps_next | apply tallySaveDone_keeps K)
    | exact off_sub rfl hb | exact off_bit rfl hb | dsimp only | split

theorem execKeyCommitVerified_keeps (K : Keeps nb P) (s : State) (hb : Off
    0x400000000000000000000120000000000000000000000000000000000000000000000000000000000000000000000000000000000000000000000000000000000000000000C000000000000000000000000000000000000400000000000000000000000000000000000000000000000000000000000000000000000000000000000000000000000000000000000000000000000000000000000000000000000000000000000000000000000000000000000
    nb) (h : P s) : OutKeeps P (execKeyCommitVerified s) := by
  unfold execKeyCommitVerified
  repeat' first
    | (with_reducible first
        | assumption | intro _ | apply outKeeps_next | apply commitVerified_keeps K)
    | exact off_sub rfl hb | exact off_bit rfl hb | dsimp only | split

theorem execKeyCommitWritten_keeps (K : Keeps nb P) (fail : Option (Fin 10)) (s : State) (hb : Off
    0x10000000000000000000040801000000000000000000400000000000000000000000000000000000000000000000000000000000000001000000000004000000000000000000000000000000000003CC000C00000000000000000000000000000000000000000000000000000000000000000000000000000000000000000000000000000000000000000000000000000000000000000000000000000000000000000000000000000000000000000002000000000000000000000000
    nb) (h : P s) : OutKeeps P (execKeyCommitWritten fail s) := by
  unfold execKeyCommitWritten
  repeat' first
    | (with_reducible first
        | assumption | intro _ | apply outKeeps_next | apply commitWritten_keeps K)
    | exact off_sub rfl hb | exact off_bit rfl hb | dsimp only | split

theorem execCtrRaiseDone_keeps (K : Keeps nb P) (n : Fin 8) (fail0 fail1 : Bool) (s : State) (hb : Off
    0x1000000000000000000000080100000000000000006040000000000000000000000000000000000000000000000000000000000000000100000000000400000000000000000000000000000000000420000C00000000000000000000000000000000000000000000000000000000000000000000000000000000000000000000000000000000000000000000000000000000000000000000000000000000000000000000000000000000000000000002000000000000000000000000
    nb) (h : P s) : OutKeeps P (execCtrRaiseDone n fail0 fail1 s) := by
  unfold execCtrRaiseDone
  repeat' first
    | (with_reducible first
        | assumption | intro _ | apply outKeeps_next | apply ctrRaiseDone_keeps K)
    | exact off_sub rfl hb | exact off_bit rfl hb | dsimp only | split

theorem execEventLogWrite_keeps (K : Keeps nb P) (s : State) (hb : Off
    0x1000000000000000000000080000000000000000000040000000000000000000000000000000000000000000000000000000000000000100000000000000000000000000000000000000000000006000000000000000000000000000000000000000000000000000000000000000000000000000000000000000000000000000000000000000000000000000000000000000000000000000000000000000000000000000000000000000000000000002000000000000000000000000
    nb) (h : P s) : OutKeeps P (execEventLogWrite s) := by
  unfold execEventLogWrite
  repeat' first
    | (with_reducible first
        | assumption | intro _ | apply outKeeps_next | apply logWrite_keeps K)
    | exact off_sub rfl hb | exact off_bit rfl hb | dsimp only | split

theorem execLogSearchDone_keeps (K : Keeps nb P) (s : State) (hb : Off
    0x80100000000000000008000000000000000000000000000000000000000000000000000000000000000000100000000000400000000000000000000000000000000006000000C00000000000000000000000000000000000000000000000000000000000000000000000000000000000000000000000000000000000000000000000000000000000000000000000000000000000000000000000000000000000000000602000000004000000000000000
    nb) (h : P s) : OutKeeps P (execLogSearchDone s) := by
  unfold execLogSearchDone
  repeat' first
    | (with_reducible first
        | assumption | intro _ | apply outKeeps_next | apply logSearchDone_keeps K)
    | exact off_sub rfl hb | exact off_bit rfl hb | dsimp only | split

theorem execCrCommandDone_keeps (K : Keeps nb P) (s : State) (hb : Off
    0x1000000000000000000000080100000000000000001C40000000000000000000000000000000000000000000000000000000000000000100000000000400200000000000000000000000000000000000000C0000000000000000000000000000001DC00000000000000000000000007C00000000000000000000000000000000000000000000000000000000000000000000000000000000000000000000000000000000000000000003C60000000002000000000000000200000000
    nb) (h : P s) : OutKeeps P (execCrCommandDone s) := by
  unfold execCrCommandDone
  repeat' first
    | (with_reducible first
        | assumption | intro _ | apply outKeeps_next | apply crDone_keeps K)
    | exact off_sub rfl hb | exact off_bit rfl hb | dsimp only | split

end
end Sys2Proof.Machine
end

