-- ==== Sys2Proof/Laws/KeepsStartupRows.lean ====
section
/-!
SUPPORT. What each operation of Sys2Proof/Machine/StartupRows.lean can change: its footprint (Sys2Proof/Laws/Keeps.lean).
-/
namespace Sys2Proof.Machine
set_option linter.all false
section
variable {P : State → Prop} {nb : Nat}

theorem pinReset_keeps (K : Keeps nb P) (s : State) (ns : Nat) (hb : Off
    0x300000000000000000000000010000000000001C20000000000000000000000000000000000000001A000066E000000001000000010000000000000004080100000000000000000000000000000100000000000000000000000000000000000000000000000000000000000000000000000000000000000000000000000000000000143C0000000000000000000000280000200400000000000000000000000000000000000000000003C60000000000000808000200000200000080
    nb) (h : P s) : P (pinReset s ns) := by
  unfold pinReset
  repeat' first
    | (with_reducible first
        | assumption | intro _ | apply keeps_ite | apply drew_keeps K | apply bReset_keeps K)
    | exact off_sub rfl hb | exact off_bit rfl hb | dsimp only | split

theorem cRelease_keeps (K : Keeps nb P) (s : State) (boot : Nat) (hb : Off fpRegs nb) (h : P s) : P (cRelease s boot) := by
  unfold cRelease
  repeat' first
    | (with_reducible first
        | assumption | intro _ | apply keeps_foldl | apply keeps_fold1 | apply keeps_fold2 | apply keeps_when
        | apply keeps_ite | apply K.wr | apply bump_keeps K | apply down_keeps K | apply up_keeps K | apply powerDie_keeps K
        | apply parts_of K | (apply keeps_fst; assumption) | (apply keeps_snd; assumption))
    | exact off_sub rfl hb | exact off_bit rfl hb | exact off_any (off_sub rfl hb) | dsimp only
    | with_reducible apply parts_noQueues K | split | simp only [parts_mk K]

theorem mComesUp_keeps (K : Keeps nb P) (s : State) (hb : Off fpAll nb) (h : P s) : P (mComesUp s) := by
  unfold mComesUp
  repeat' first
    | (with_reducible first
        | assumption | intro _ | apply keeps_ite | apply K.wr | apply down_keeps K | apply mElect_keeps K
        | apply powerDie_keeps K)
    | exact off_sub rfl hb | exact off_bit rfl hb | exact off_any (off_sub rfl hb) | dsimp only | split

theorem upperRelease_keeps (K : Keeps nb P) (s : State) (die : Upper) (boot : Nat) (hb : Off fpAll nb) (h : P s) : P
    (upperRelease s die boot) := by
  unfold upperRelease
  repeat' first
    | (with_reducible first
        | assumption | intro _ | apply keeps_ite | apply cRelease_keeps K | apply mComesUp_keeps K)
    | exact off_sub rfl hb | exact off_bit rfl hb | dsimp only | split

theorem mReturn_keeps (K : Keeps nb P) (s : State) (hb : Off fpAll nb) (h : P s) : P (mReturn s) := by
  unfold mReturn
  repeat' first
    | (with_reducible first
        | assumption | intro _ | apply keeps_ite | apply post_keeps K | apply mComesUp_keeps K)
    | exact off_sub rfl hb | exact off_bit rfl hb | dsimp only | split

theorem tierDown_keeps (K : Keeps nb P) (s : State) (tier cause : Nat) (hb : Off
    0x10000000000000000000000000000000000000000000000000000001A000066E000000000000000010000000000000004000000000000000000000000000000000000000000000000000000000000000000000000000000000000000000000000000000000000000000000000000000000000000000143C0000000000000000000000280000200400000000000000000000000000000000000000000000000000000000000000000200000000000080
    nb) (h : P s) : P (tierDown s tier cause) := by
  unfold tierDown
  repeat' first
    | (with_reducible first
        | assumption | intro _ | apply outcome_keeps K | apply outputsSafe_keeps K)
    | exact off_sub rfl hb | exact off_bit rfl hb | dsimp only | split

theorem recoveryStart_keeps (K : Keeps nb P) (s : State) (cause : Nat) (hb : Off
    0x10000000000000000000000000000000000000000000000000000001A000066E000000000400000010000480020000004000000000000000000000000000000000000000000000000000000000000003F01000070000000000000000000000000000000000000000000000000000000000000000000143C0000000000000000000000280000200400000000000000000000000000000000000000080000000000000000000000030200000000000080
    nb) (h : P s) : P (recoveryStart s cause) := by
  unfold recoveryStart
  repeat' first
    | (with_reducible first
        | assumption | intro _ | apply keeps_ite | apply K.wr | apply up_keeps K | apply recoveryConnect_keeps K
        | apply romDone_keeps K | apply tierDown_keeps K)
    | exact off_sub rfl hb | exact off_bit rfl hb | dsimp only | split

theorem selfCheck_keeps (K : Keeps nb P) (s : State) (romOk bankOk : Bool) (hb : Off
    0x300000000000000000000140010000000000001C20000000000000000000000000000002400000005A000066E000000001C3DF800100014801A0000004580000000000000000000000000000000100000000000000000000000000003F01000070000000000000000000000000000000000000000000000000000000000000100000143C0020000000000000000000280000200400000000800000000000000000000000000000180003C6060F000002060200038200000200042180
    nb) (h : P s) : P (selfCheck s romOk bankOk) := by
  unfold selfCheck
  repeat' first
    | (with_reducible first
        | assumption | intro _ | apply keeps_ite | apply K.wr | apply up_keeps K | apply giveUp_keeps K
        | apply recoveryStart_keeps K | apply romDone_keeps K | apply tierDown_keeps K)
    | exact off_sub rfl hb | exact off_bit rfl hb | dsimp only | split

theorem slotRead_keeps (K : Keeps nb P) (s : State) (i : Nat) (r : ImgRes) (hb : Off
    0x80100000000000000000000000000000000000000000000000000000000000000000000000000000000000000000000000400000000000000000000000000000000000000000C00000000000000000000000000000000000000000000000000000000000000000000000000000000000000000000000000000000000000000000000000000000000000000000000000000000000000000000000000000000000000000000000000000000000000000000
    nb) (h : P s) : P (slotRead s i r) := by
  unfold slotRead
  repeat' first
    | (with_reducible first
        | assumption | intro _ | apply keeps_ite | apply nvmFailed_keeps K)
    | exact off_sub rfl hb | exact off_bit rfl hb | dsimp only | split

theorem slotLog_keeps (K : Keeps nb P) (s : State) (i code : Nat) (hb : Off 0xF00000000000000000 nb) (h : P s) : P (slotLog
    s i code) := by
  unfold slotLog
  repeat' first
    | (with_reducible first
        | assumption | intro _ | apply K.wr)
    | exact off_sub rfl hb | exact off_bit rfl hb | dsimp only | split

theorem slotsExhausted_keeps (K : Keeps nb P) (s : State) (hb : Off
    0x10000000000000000000000000000000000000000000000000000001A000066E000000000400000010000480020000004000000000000000000000000000000000000000000000000000000000000003F01000070000000000000000000000000000000000000000000000000000000000000000000143C0000000000000000000000280000200400000000000000000000000000000000000000080000000000000000000000030200000000000080
    nb) (h : P s) : P (slotsExhausted s) := by
  unfold slotsExhausted
  repeat' first
    | (with_reducible first
        | assumption | intro _ | apply keeps_ite | apply recoveryStart_keeps K)
    | exact off_sub rfl hb | exact off_bit rfl hb | dsimp only | split

theorem slotChecked_keeps (K : Keeps nb P) (s : State) (i : Nat) (r : ImgRes) (hb : Off
    0x8010000000000000000000000000000000000000000000000000000001A000066E0000000004000000100004807A0000004000000000000000000000000000000000000000000000000000000000000003F01000070090000000000000000000000000000000000000000000000000000000000000000143C0000000000000000000000280000200400000000000000000000000000000000000000080000000000000000000000F30200000000000080
    nb) (h : P s) : P (slotChecked s i r) := by
  unfold slotChecked
  repeat' first
    | (with_reducible first
        | assumption | intro _ | apply keeps_ite | apply K.wr | apply up_keeps K | apply signatureNoted_keeps K
        | apply slotLog_keeps K | apply slotsExhausted_keeps K)
    | exact off_sub rfl hb | exact off_bit rfl hb | dsimp only | split

theorem imageCheck_keeps (K : Keeps nb P) (s : State) (hb : Off
    0x8010000000000000000000000000000000000000000000000000000001A000066E0000000004000000100004807A000000400000000000000000000000000000000000000000C000000000000000000003F01000070090000000000000000000000000000000000000000000000000000000000000000143C0000000000000000000000280000200400000000000000000000000000000000000000080000000000000000000000F30200000000000080
    nb) (h : P s) : P (imageCheck s) := by
  unfold imageCheck
  repeat' first
    | (with_reducible first
        | assumption | intro _ | apply keeps_ite | apply recoveryStart_keeps K | apply slotChecked_keeps K
        | apply slotRead_keeps K | apply slotsExhausted_keeps K)
    | exact off_sub rfl hb | exact off_bit rfl hb | dsimp only | split

theorem castFailed_keeps (K : Keeps nb P) (s : State) (i : Nat) (hb : Off
    0x10000000000000000000000000000000000000000000000000000001A000066E000000000400000010000481520000004000000000000000000000000000000000000000000000000000000000000003F01000070000000000000000000000000000000000000000000000000000000000000000000143C0000000000000000000000280000200400000000000000000000000000000000000000080000000000000000000000F30200000000000080
    nb) (h : P s) : P (castFailed s i) := by
  unfold castFailed
  repeat' first
    | (with_reducible first
        | assumption | intro _ | apply keeps_each | apply keeps_ite | apply K.wr | apply down_keeps K | apply up_keeps K
        | apply recoveryStart_keeps K | apply slotLog_keeps K | (apply keeps_fst; assumption)
        | (apply keeps_snd; assumption))
    | exact off_sub rfl hb | exact off_bit rfl hb | dsimp only | split

theorem castDone_keeps (K : Keeps nb P) (s : State) (hb : Off
    0x10000000000000000000000000000000000000000000000000000001A000066E000000000400000010000480020000004000000000000000000000000000000000000000000000000000000000000003F01000070000000000000000000000000000000000000000000000000000000000000000000143C0000000000000000000000280000200400000000000000000000000000000000000000080000000000000000000000030200000000000080
    nb) (h : P s) : P (castDone s) := by
  unfold castDone
  repeat' first
    | (with_reducible first
        | assumption | intro _ | apply keeps_ite | apply K.wr | apply recoveryStart_keeps K)
    | exact off_sub rfl hb | exact off_bit rfl hb | dsimp only | split

theorem castOn_keeps (K : Keeps nb P) (s : State) (fail : Option Nat) (hb : Off fpAll nb) (h : P s) : P (castOn s fail) :=
    by
  unfold castOn
  repeat' first
    | (with_reducible first
        | assumption | intro _ | apply keeps_ite | apply down_keeps K | apply castC_keeps K | apply castDone_keeps K
        | apply castFailed_keeps K | apply castFull_keeps K | apply castUndo_keeps K | apply sysReset_keeps K)
    | exact off_sub rfl hb | exact off_bit rfl hb | exact off_any (off_sub rfl hb) | dsimp only | split

theorem bootTask_keeps (K : Keeps nb P) (s : State) (pc g0 : Nat) (hb : Off
    0x20004C24050040F000000000000000000000000000000000000002000000000000000000000000000000000000000000000000000000000000000000000000000000000000000000000000000000000000001000880000000000400000000000000000000000000000000000000000000000000000000000000000000000000000000000000000000000000000000000000000000000000000000000000
    nb) (h : P s) : P (bootTask s pc g0) := by
  unfold bootTask
  repeat' first
    | (with_reducible first
        | assumption | intro _ | apply keeps_each | apply keeps_ite | apply K.wr | apply down_keeps K | apply up_keeps K
        | apply freshCopy_keeps K)
    | exact off_sub rfl hb | exact off_bit rfl hb | dsimp only | split

theorem copyBody_keeps (K : Keeps nb P) (s : State) (a : Nat) (hb : Off
    0x1000000000000000000000000000000000000000000000000000000000000000000000000000000000000000000000000000000000000000000000000000000000000000000000000000000000000000000000000000000000000000000000000000000000000000000000000000000000000000000000000000000000000000000000000000000000000000000000000000000000000000000000000000000000000000000000000000000000000000000000000000000000000000
    nb) (h : P s) : P (copyBody s a) := by
  unfold copyBody
  repeat' first
    | (with_reducible first
        | assumption | intro _ | apply keeps_ite | apply healRange_keeps K | apply setBytes_keeps K)
    | exact off_sub rfl hb | exact off_bit rfl hb | dsimp only | split

theorem firmwareEntry_keeps (K : Keeps nb P) (s : State) (hb : Off
    0x100000000000000000000000000000000000000000000000000000000000020004C24050040F000000000000000000000000000000000000002800000000000000000000000000000000000000000000000000000000000000000000000000000000000000000000000000000000000001000880000000000400000000000000000000000000000000000000000000000000000000000000000000000000000000000000000000000000000000000000000000031200000000000080
    nb) (h : P s) : P (firmwareEntry s) := by
  unfold firmwareEntry
  repeat' first
    | (with_reducible first
        | assumption | intro _ | apply keeps_ite | apply K.wr | apply up_keeps K | apply bootTask_keeps K
        | apply copyBody_keeps K | apply outcome_keeps K | apply romDone_keeps K)
    | exact off_sub rfl hb | exact off_bit rfl hb | dsimp only | split

theorem pwdExpire_keeps (K : Keeps nb P) (s : State) (hb : Off
    0x300000000000000000000140010000000000001C20000000000000000000000000000000000000005A000066E000000001C3DF80010001020000000004580000000000000000000000000000000100000000000000000000000000000000000000000000000000000000000000000000000000000000000000000000000000100000143C0020000000000000000000280000200400000000800000000000000000000000000000100003C6060F000002060300000200000200042180
    nb) (h : P s) : P (pwdExpire s) := by
  unfold pwdExpire
  repeat' first
    | (with_reducible first
        | assumption | intro _ | apply keeps_ite | apply K.wr | apply up_keeps K | apply cDieLoss_keeps K)
    | exact off_sub rfl hb | exact off_bit rfl hb | dsimp only | split

theorem romSend_keeps (K : Keeps nb P) (s : State) (p : Nat) (l : List Byte) (hb : Off
    0x10004000000000000000000000000000000000000000000000000000000000000000000000000000000000000000000000000000000000000000000000000000000000000000000000000000000000000000000000000000000000000000000000000000000000000000000000000000000000000000000000000000000000000000000000000000000000000000000000000000000000000000000000000000000000000000000000000000000000000000
    nb) (h : P s) : P (romSend s p l) := by
  unfold romSend
  repeat' first
    | (with_reducible first
        | assumption | intro _ | apply keeps_ite | apply K.setq | apply recoverySend_keeps K)
    | exact off_sub rfl hb | exact off_bit rfl hb | dsimp only | split

theorem recoveryPrompt_keeps (K : Keeps nb P) (s : State) (hb : Off
    0x100040000000000000000000000000000000000000000000000000000000000000000000000000400000000000100000000000000000000000000000000000000000000000000000000000000000000000003F0100007000000000000000000000000000000000000000000000000000000000000000000000000000000000000000000000000000000000000000000000000000000000000000000000080000000000000000000000000000000000000000
    nb) (h : P s) : P (recoveryPrompt s) := by
  unfold recoveryPrompt
  repeat' first
    | (with_reducible first
        | assumption | intro _ | apply keeps_each | apply keeps_ite | apply bump_keeps K | apply recoveryConnect_keeps K
        | apply romSend_keeps K | (apply keeps_fst; assumption) | (apply keeps_snd; assumption))
    | exact off_sub rfl hb | exact off_bit rfl hb | dsimp only | split

theorem recoveryAnswer_keeps (K : Keeps nb P) (s : State) (code : Nat) (hb : Off
    0x10204000000000000000000000000000000000000000000000000000000000000000000000000000000000000024000000000000000000000000000000000000000000000000000000000000000000000000000000000000000000000000000000000000000000000000000000000000000000000000000000000000000000000000000000000000000000000000000000000000000000000000000000000000000000000000000001000000000000000000
    nb) (h : P s) : P (recoveryAnswer s code) := by
  unfold recoveryAnswer
  repeat' first
    | (with_reducible first
        | assumption | intro _ | apply K.setq | apply K.wr | apply romSend_keeps K)
    | exact off_sub rfl hb | exact off_bit rfl hb | dsimp only | split

theorem recoveryImageStart_keeps (K : Keeps nb P) (s : State) (hb : Off
    0x20004C24050040F000000000000000000000000000000000048002800000000000000000000000000000000000000000000000000000000000000000000000000000000000000000000000000000000000001000880040000010400000000000000000000000000000000000000000000000000000000000000000000000000000000000000000000000000000000000000000000000000000000000000
    nb) (h : P s) : P (recoveryImageStart s) := by
  unfold recoveryImageStart
  repeat' first
    | (with_reducible first
        | assumption | intro _ | apply keeps_each | apply keeps_when | apply keeps_ite | apply K.wr | apply down_keeps K
        | apply up_keeps K | apply bootTask_keeps K)
    | exact off_sub rfl hb | exact off_bit rfl hb | dsimp only | split

theorem recoveryImage_keeps (K : Keeps nb P) (s : State) (img : List Byte) (hb : Off
    0x100000000000000000001028400000000000000000000000000000000000020004C24050040F00000000000000000000000000000000006C002800000000000000000000000000000000000000000000000000000000000000000000000000000009000000000000000000000000000001000880040000010400000000000000000000000000000000000000000000000000000000000000000000000000000000000000000000000000000000000000000003000000000000000000
    nb) (h : P s) : P (recoveryImage s img) := by
  unfold recoveryImage
  repeat' first
    | (with_reducible first
        | assumption | intro _ | apply keeps_when | apply keeps_ite | apply healRange_keeps K | apply setBytes_keeps K
        | apply up_keeps K | apply recoveryAnswer_keeps K | apply recoveryImageStart_keeps K | apply signatureNoted_keeps K)
    | exact off_sub rfl hb | exact off_bit rfl hb | dsimp only | split

theorem recoveryReceive_keeps (K : Keeps nb P) (s : State) (usb : Bool) (l : List Byte) (hb : Off
    0x100000000000000000001028400000000000000000000000000000000000020004C24050040F00000000000000000000000000000000006C002800000000000000000000000000000000000000000000000000000000000000000000000000000009000000000000000000000000000001000880040000010400000000000000000000000000000000000000000000000000000000000000000000000000000000000000000000000000000000000000000003000000000000000000
    nb) (h : P s) : P (recoveryReceive s usb l) := by
  unfold recoveryReceive
  repeat' first
    | (with_reducible first
        | assumption | intro _ | apply keeps_ite | apply K.setq | apply K.wr | apply recoveryAnswer_keeps K
        | apply recoveryImage_keeps K)
    | exact off_sub rfl hb | exact off_bit rfl hb | dsimp only | split

theorem recoveryTimeout_keeps (K : Keeps nb P) (s : State) (hb : Off
    0x200000000000000000000000000000000000000000000000000000000000000000000000000000000000000004000000000000000000000000000000000000000000000000000000000000000000000000000000000000000000000000000000000000000000000000000000000000000000000000000000000000000000000000000000000000000000000000000000000000000000000000000000000000000000000000000000000000000000000000
    nb) (h : P s) : P (recoveryTimeout s) := by
  unfold recoveryTimeout
  repeat' first
    | (with_reducible first
        | assumption | intro _ | apply keeps_ite | apply K.setq | apply K.wr)
    | exact off_sub rfl hb | exact off_bit rfl hb | dsimp only | split

theorem tombstoneBreak_keeps (K : Keeps nb P) (s : State) (hb : Off
    0x200000000000000000000000000000000000000000000000000000000000000000000000000000000000000084000000000000000000000000000000000000000000000000000000000000000000000000000000000000000000000000000000000000000000000000000000000000000000000000000000000000000000000000000000000000000000000000000000000000000000000000000000000000000000000000000000000000000000000000
    nb) (h : P s) : P (tombstoneBreak s) := by
  unfold tombstoneBreak
  repeat' first
    | (with_reducible first
        | assumption | intro _ | apply keeps_ite | apply K.setq | apply K.wr | apply up_keeps K)
    | exact off_sub rfl hb | exact off_bit rfl hb | dsimp only | split

theorem tombstoneStart_keeps (K : Keeps nb P) (s : State) (hb : Off
    0x20000000000000000000000000000000000000000000000000000000000000000000000000000000000000080000000000000000000000000000000000000000000000000000000000000000000000000000000000000000000000000000000000000000000000000000000000000000000000000000000000000000000000000000000000000000000000000000000000000000000000000000000000000000000001000000000000000000000000000
    nb) (h : P s) : P (tombstoneStart s) := by
  unfold tombstoneStart
  repeat' first
    | (with_reducible first
        | assumption | intro _ | apply keeps_ite | apply K.setq | apply down_keeps K | apply up_keeps K)
    | exact off_sub rfl hb | exact off_bit rfl hb | dsimp only | split

theorem tombstoneSent_keeps (K : Keeps nb P) (s : State) (hb : Off
    0x20000000000000000000000000000000000000000000000000000000000000000000000000000000000000000000000000000000000000000000000000000000000000000000000000000000000000000000000000000000000000000000000000000000000000000000000000000000000000000000000000000000000000000000000000000000000000000000000000000000000000000000000000000000000003000000000000000000000000000
    nb) (h : P s) : P (tombstoneSent s) := by
  unfold tombstoneSent
  repeat' first
    | (with_reducible first
        | assumption | intro _ | apply keeps_ite | apply K.setq | apply bump_keeps K | apply down_keeps K)
    | exact off_sub rfl hb | exact off_bit rfl hb | dsimp only | split

theorem configCheck_keeps (K : Keeps nb P) (s : State) (ok : Bool) (hb : Off
    0x300000000000000000000000010000000000001C20000000000000000000000000000000000000001A000066E000000001000000010000000020000004080100000000000000000000000000000100000000000000000000000000000000000000000000000000000000000000000000000000000000000000000000000000000000143C0000000000000000000000280000200400000000000000000000000000000000000000000003C60000000000000820000200000200000080
    nb) (h : P s) : P (configCheck s ok) := by
  unfold configCheck
  repeat' first
    | (with_reducible first
        | assumption | intro _ | apply keeps_ite | apply K.wr | apply sysReset_keeps K)
    | exact off_sub rfl hb | exact off_bit rfl hb | dsimp only | split

theorem engineReload_keeps (K : Keeps nb P) (s : State) (hb : Off fpAll nb) (h : P s) : P (engineReload s) := by
  unfold engineReload
  repeat' first
    | (with_reducible first
        | assumption | intro _ | apply keeps_each | apply keeps_ite | apply K.wr | apply down_keeps K
        | apply loadSection_keeps K)
    | exact off_sub rfl hb | exact off_bit rfl hb | exact off_any (off_sub rfl hb) | dsimp only | split

theorem wakeBack_keeps (K : Keeps nb P) (s : State) (hb : Off fpAll nb) (h : P s) : P (wakeBack s) := by
  unfold wakeBack
  repeat' first
    | (with_reducible first
        | assumption | intro _ | apply keeps_ite | apply post_keeps K | apply bootTask_keeps K | apply engineReload_keeps K
        | apply outcome_keeps K | apply romDone_keeps K | apply wakeResume_keeps K)
    | exact off_sub rfl hb | exact off_bit rfl hb | dsimp only | split

theorem execResetNLow_keeps (K : Keeps nb P) (ns : BitVec 32) (s : State) (hb : Off
    0x300000000000000000000000010000000000001C20000000000000000000000000000000000000001A000066E000000001000000010000000000000004080100000000000000000000000000000100000000000000000000000000000000000000000000000000000000000000000000000000000000000000000000000000000000143C0000000000000000000000280000200400000000000000000000000000000000000000000003C60000000000000808000200000200000080
    nb) (h : P s) : OutKeeps P (execResetNLow ns s) := by
  unfold execResetNLow
  repeat' first
    | (with_reducible first
        | assumption | intro _ | apply outKeeps_next | apply pinReset_keeps K)
    | exact off_sub rfl hb | exact off_bit rfl hb | dsimp only | split

theorem execTrstNLow_keeps (K : Keeps nb P) (s : State) (hb : Off
    0x110000000000000000000000000000000000000000000000000000000000000000000000000000000000000000000000000000000000000000000000000000000000000000000000000000000000000000000000000000000000000000000000000000000000000000000000000000000000000000000000000000000000000000000000000000000000000000000000000000000000000000000000000000000000000000000000
    nb) (h : P s) : OutKeeps P (execTrstNLow s) := by
  unfold execTrstNLow
  repeat' first
    | (with_reducible first
        | assumption | intro _ | apply outKeeps_next | apply tapReset_keeps K)
    | exact off_sub rfl hb | exact off_bit rfl hb | dsimp only | split

theorem execUpperDieRelease_keeps (K : Keeps nb P) (die : Upper) (boot : Fin 4) (s : State) (hb : Off fpAll nb) (h : P s) :
    OutKeeps P (execUpperDieRelease die boot s) := by
  unfold execUpperDieRelease
  repeat' first
    | (with_reducible first
        | assumption | intro _ | apply outKeeps_next | apply upperRelease_keeps K)
    | exact off_sub rfl hb | exact off_bit rfl hb | dsimp only | split

theorem execMDieReturn_keeps (K : Keeps nb P) (s : State) (hb : Off fpAll nb) (h : P s) : OutKeeps P (execMDieReturn s) :=
    by
  unfold execMDieReturn
  repeat' first
    | (with_reducible first
        | assumption | intro _ | apply outKeeps_next | apply mReturn_keeps K)
    | exact off_sub rfl hb | exact off_bit rfl hb | dsimp only | split

theorem execRomSelfCheck_keeps (K : Keeps nb P) (romOk bankOk : Bool) (s : State) (hb : Off
    0x300000000000000000000140010000000000001C20000000000000000000000000000002400000005A000066E000000001C3DF800100014801A0000004580000000000000000000000000000000100000000000000000000000000003F01000070000000000000000000000000000000000000000000000000000000000000100000143C0020000000000000000000280000200400000000800000000000000000000000000000180003C6060F000002060200038200000200042180
    nb) (h : P s) : OutKeeps P (execRomSelfCheck romOk bankOk s) := by
  unfold execRomSelfCheck
  repeat' first
    | (with_reducible first
        | assumption | intro _ | apply outKeeps_next | apply selfCheck_keeps K)
    | exact off_sub rfl hb | exact off_bit rfl hb | dsimp only | split

theorem execRomImageCheck_keeps (K : Keeps nb P) (s : State) (hb : Off
    0x8010000000000000000000000000000000000000000000000000000001A000066E0000000004000000100004807A000000400000000000000000000000000000000000000000C000000000000000000003F01000070090000000000000000000000000000000000000000000000000000000000000000143C0000000000000000000000280000200400000000000000000000000000000000000000080000000000000000000000F30200000000000080
    nb) (h : P s) : OutKeeps P (execRomImageCheck s) := by
  unfold execRomImageCheck
  repeat' first
    | (with_reducible first
        | assumption | intro _ | apply outKeeps_next | apply imageCheck_keeps K)
    | exact off_sub rfl hb | exact off_bit rfl hb | dsimp only | split

theorem execCastOn_keeps (K : Keeps nb P) (fail : Option (Fin 136)) (s : State) (hb : Off fpAll nb) (h : P s) : OutKeeps P
    (execCastOn fail s) := by
  unfold execCastOn
  repeat' first
    | (with_reducible first
        | assumption | intro _ | apply outKeeps_next | apply castOn_keeps K)
    | exact off_sub rfl hb | exact off_bit rfl hb | dsimp only | split

theorem execFirmwareEntry_keeps (K : Keeps nb P) (s : State) (hb : Off
    0x100000000000000000000000000000000000000000000000000000000000020004C24050040F000000000000000000000000000000000000002800000000000000000000000000000000000000000000000000000000000000000000000000000000000000000000000000000000000001000880000000000400000000000000000000000000000000000000000000000000000000000000000000000000000000000000000000000000000000000000000000031200000000000080
    nb) (h : P s) : OutKeeps P (execFirmwareEntry s) := by
  unfold execFirmwareEntry
  repeat' first
    | (with_reducible first
        | assumption | intro _ | apply outKeeps_next | apply firmwareEntry_keeps K)
    | exact off_sub rfl hb | exact off_bit rfl hb | dsimp only | split

theorem execProgressWatchdogExpire_keeps (K : Keeps nb P) (s : State) (hb : Off
    0x300000000000000000000140010000000000001C20000000000000000000000000000000000000005A000066E000000001C3DF80010001020000000004580000000000000000000000000000000100000000000000000000000000000000000000000000000000000000000000000000000000000000000000000000000000100000143C0020000000000000000000280000200400000000800000000000000000000000000000100003C6060F000002060300000200000200042180
    nb) (h : P s) : OutKeeps P (execProgressWatchdogExpire s) := by
  unfold execProgressWatchdogExpire
  repeat' first
    | (with_reducible first
        | assumption | intro _ | apply outKeeps_next | apply pwdExpire_keeps K)
    | exact off_sub rfl hb | exact off_bit rfl hb | dsimp only | split

theorem execRecoveryPrompt_keeps (K : Keeps nb P) (s : State) (hb : Off
    0x100040000000000000000000000000000000000000000000000000000000000000000000000000400000000000100000000000000000000000000000000000000000000000000000000000000000000000003F0100007000000000000000000000000000000000000000000000000000000000000000000000000000000000000000000000000000000000000000000000000000000000000000000000080000000000000000000000000000000000000000
    nb) (h : P s) : OutKeeps P (execRecoveryPrompt s) := by
  unfold execRecoveryPrompt
  repeat' first
    | (with_reducible first
        | assumption | intro _ | apply outKeeps_next | apply recoveryPrompt_keeps K)
    | exact off_sub rfl hb | exact off_bit rfl hb | dsimp only | split

theorem execRecoveryImageReceive_keeps (K : Keeps nb P) (usb : Bool) (data : List (BitVec 8)) (s : State) (hb : Off
    0x100000000000000000001028400000000000000000000000000000000000020004C24050040F00000000000000000000000000000000006C002800000000000000000000000000000000000000000000000000000000000000000000000000000009000000000000000000000000000001000880040000010400000000000000000000000000000000000000000000000000000000000000000000000000000000000000000000000000000000000000000003000000000000000000
    nb) (h : P s) : OutKeeps P (execRecoveryImageReceive usb data s) := by
  unfold execRecoveryImageReceive
  repeat' first
    | (with_reducible first
        | assumption | intro _ | apply outKeeps_next | apply recoveryReceive_keeps K)
    | exact off_sub rfl hb | exact off_bit rfl hb | dsimp only | split

theorem execRecoveryTransferTimeout_keeps (K : Keeps nb P) (s : State) (hb : Off
    0x200000000000000000000000000000000000000000000000000000000000000000000000000000000000000004000000000000000000000000000000000000000000000000000000000000000000000000000000000000000000000000000000000000000000000000000000000000000000000000000000000000000000000000000000000000000000000000000000000000000000000000000000000000000000000000000000000000000000000000
    nb) (h : P s) : OutKeeps P (execRecoveryTransferTimeout s) := by
  unfold execRecoveryTransferTimeout
  repeat' first
    | (with_reducible first
        | assumption | intro _ | apply outKeeps_next | apply recoveryTimeout_keeps K)
    | exact off_sub rfl hb | exact off_bit rfl hb | dsimp only | split

theorem execTombstoneBreak_keeps (K : Keeps nb P) (s : State) (hb : Off
    0x200000000000000000000000000000000000000000000000000000000000000000000000000000000000000084000000000000000000000000000000000000000000000000000000000000000000000000000000000000000000000000000000000000000000000000000000000000000000000000000000000000000000000000000000000000000000000000000000000000000000000000000000000000000000000000000000000000000000000000
    nb) (h : P s) : OutKeeps P (execTombstoneBreak s) := by
  unfold execTombstoneBreak
  repeat' first
    | (with_reducible first
        | assumption | intro _ | apply outKeeps_next | apply tombstoneBreak_keeps K)
    | exact off_sub rfl hb | exact off_bit rfl hb | dsimp only | split

theorem execTombstoneSendStart_keeps (K : Keeps nb P) (s : State) (hb : Off
    0x20000000000000000000000000000000000000000000000000000000000000000000000000000000000000080000000000000000000000000000000000000000000000000000000000000000000000000000000000000000000000000000000000000000000000000000000000000000000000000000000000000000000000000000000000000000000000000000000000000000000000000000000000000000000001000000000000000000000000000
    nb) (h : P s) : OutKeeps P (execTombstoneSendStart s) := by
  unfold execTombstoneSendStart
  repeat' first
    | (with_reducible first
        | assumption | intro _ | apply outKeeps_next | apply tombstoneStart_keeps K)
    | exact off_sub rfl hb | exact off_bit rfl hb | dsimp only | split

theorem execTombstoneSent_keeps (K : Keeps nb P) (s : State) (hb : Off
    0x20000000000000000000000000000000000000000000000000000000000000000000000000000000000000000000000000000000000000000000000000000000000000000000000000000000000000000000000000000000000000000000000000000000000000000000000000000000000000000000000000000000000000000000000000000000000000000000000000000000000000000000000000000000000003000000000000000000000000000
    nb) (h : P s) : OutKeeps P (execTombstoneSent s) := by
  unfold execTombstoneSent
  repeat' first
    | (with_reducible first
        | assumption | intro _ | apply outKeeps_next | apply tombstoneSent_keeps K)
    | exact off_sub rfl hb | exact off_bit rfl hb | dsimp only | split

theorem execLedgerRecordWrite_keeps (K : Keeps nb P) (s : State) (hb : Off
    0x80000000000000000000000000000000000000000000000000000000000000000000000000000000000000100000000000000000000000000000000000000000000000000000000000000000000000000000000000000000000000000000000000000000000000000000000000000000000000000000000000000000000000000000000000000000000000000000000000000000000000000000000000000000000000000000000000000000000000000
    nb) (h : P s) : OutKeeps P (execLedgerRecordWrite s) := by
  unfold execLedgerRecordWrite
  repeat' first
    | (with_reducible first
        | assumption | intro _ | apply outKeeps_next | apply ledgerRecord_keeps K)
    | exact off_sub rfl hb | exact off_bit rfl hb | dsimp only | split

theorem execHibernateConfigCheck_keeps (K : Keeps nb P) (ok : Bool) (s : State) (hb : Off
    0x300000000000000000000000010000000000001C20000000000000000000000000000000000000001A000066E000000001000000010000000020000004080100000000000000000000000000000100000000000000000000000000000000000000000000000000000000000000000000000000000000000000000000000000000000143C0000000000000000000000280000200400000000000000000000000000000000000000000003C60000000000000820000200000200000080
    nb) (h : P s) : OutKeeps P (execHibernateConfigCheck ok s) := by
  unfold execHibernateConfigCheck
  repeat' first
    | (with_reducible first
        | assumption | intro _ | apply outKeeps_next | apply configCheck_keeps K)
    | exact off_sub rfl hb | exact off_bit rfl hb | dsimp only | split

theorem execWakeResume_keeps (K : Keeps nb P) (s : State) (hb : Off fpAll nb) (h : P s) : OutKeeps P (execWakeResume s) :=
    by
  unfold execWakeResume
  repeat' first
    | (with_reducible first
        | assumption | intro _ | apply outKeeps_next | apply wakeBack_keeps K)
    | exact off_sub rfl hb | exact off_bit rfl hb | dsimp only | split

end
end Sys2Proof.Machine
end

