-- ==== Sys2Proof/Laws/KeepsPortRows.lean ====
section
/-!
SUPPORT. What each operation of Sys2Proof/Machine/PortRows.lean can change: its footprint (Sys2Proof/Laws/Keeps.lean).
-/
namespace Sys2Proof.Machine
set_option linter.all false
section
variable {P : State → Prop} {nb : Nat}

theorem recoveryTakes_keeps (K : Keeps nb P) (s : State) (hb : Off
    0x100000000000000000001028400000000000000000000000000000000000020004C24050040F00000000000000000000000000000000006C002800000000000000000000000000000000000000000000000000000000000000000000000000000009000000000000000000000000000001000880040000010400000000000000000000000000000000000000000000000000000000000000000000000000000000000000000000000000000000000000000003000000000000000000
    nb) (h : P s) : P (recoveryTakes s) := by
  unfold recoveryTakes
  repeat' first
    | (with_reducible first
        | assumption | intro _ | apply keeps_foldl | apply keeps_fold1 | apply keeps_fold2 | apply keeps_ite | apply K.setq
        | apply recoveryReceive_keeps K)
    | exact off_sub rfl hb | exact off_bit rfl hb | dsimp only | split

theorem execUsbOutToken_keeps (K : Keeps nb P) (addr : BitVec 7) (ep : Fin 8) (ping toggle : Bool) (data : List (BitVec 8))
    (s : State) (hb : Off
    0x10000000000000000000102841000000000000000000000000B000000000020004C24050040F00000000000000000000000000000000006C002800000400000000000000000000000000000000000000000000000000000000000043000000000009000000000000000000000000000001000880040000010400000000000000000000000000000000000000000000000000000000000000000000000000000000000000000000000000000000000000000003000000000000000000
    nb) (h : P s) : OutKeeps P (execUsbOutToken addr ep ping toggle data s) := by
  unfold execUsbOutToken
  repeat' first
    | (with_reducible first
        | assumption | intro _ | apply outKeeps_next | apply recoveryTakes_keeps K | apply usbOut_keeps K)
    | exact off_sub rfl hb | exact off_bit rfl hb | dsimp only | split

theorem execUsbInToken_keeps (K : Keeps nb P) (addr : BitVec 7) (ep : Fin 8) (acked : Bool) (s : State) (hb : Off fpAll nb)
    (h : P s) : OutKeeps P (execUsbInToken addr ep acked s) := by
  unfold execUsbInToken
  repeat' first
    | (with_reducible first
        | assumption | intro _ | apply outKeeps_next | apply releaseHeld_keeps K | apply usbIn_keeps K)
    | exact off_sub rfl hb | exact off_bit rfl hb | dsimp only | split

theorem execUsbSetup_keeps (K : Keeps nb P) (addr : BitVec 7) (data : BitVec 64) (s : State) (hb : Off
    0x4100000000000000000000380098000000000000000000000000000000000000000000000000000000000000000000000400000000000000000000000000000000000000000000000000000000000001008000000000000000000000000000000000000000000000000000000000000000000000000000000000000000000000000000000000000000000000000000000000000000000000000000000000000000000000000000000000000000000000
    nb) (h : P s) : OutKeeps P (execUsbSetup addr data s) := by
  unfold execUsbSetup
  repeat' first
    | (with_reducible first
        | assumption | intro _ | apply outKeeps_next | apply usbSetup_keeps K)
    | exact off_sub rfl hb | exact off_bit rfl hb | dsimp only | split

theorem execUsbVbusRise_keeps (K : Keeps nb P) (s : State) (hb : Off
    0x400000000000000000000000000000000000000000000000000000000000000000000000000000000000003F0900007000000000000000000000000000000000000000000000000000000000000000000000000000000000000000000000000000000000000000000000000000000000000000000000080000000000000000000000000000000000000000
    nb) (h : P s) : OutKeeps P (execUsbVbusRise s) := by
  unfold execUsbVbusRise
  repeat' first
    | (with_reducible first
        | assumption | intro _ | apply outKeeps_next | apply usbVbusRise_keeps K)
    | exact off_sub rfl hb | exact off_bit rfl hb | dsimp only | split

theorem execUsbVbusFall_keeps (K : Keeps nb P) (s : State) (hb : Off fpAll nb) (h : P s) : OutKeeps P (execUsbVbusFall s)
    := by
  unfold execUsbVbusFall
  repeat' first
    | (with_reducible first
        | assumption | intro _ | apply outKeeps_next | apply releaseHeld_keeps K | apply usbVbusFall_keeps K)
    | exact off_sub rfl hb | exact off_bit rfl hb | dsimp only | split

theorem execUsbBusReset_keeps (K : Keeps nb P) (hs : Bool) (s : State) (hb : Off
    0x1000000000000000000002000380000000000000000000000000000000000000000000000000000000000000000000004000000000000000000000000000000000000000000000000000000000000013FF000000000000000000000000000000000000000000000000000000000000000000000000000000000000000000000000000000000000000000000000000000000000000000000000000000000000000000000000000000000000000000000
    nb) (h : P s) : OutKeeps P (execUsbBusReset hs s) := by
  unfold execUsbBusReset
  repeat' first
    | (with_reducible first
        | assumption | intro _ | apply outKeeps_next | apply usbBusReset_keeps K)
    | exact off_sub rfl hb | exact off_bit rfl hb | dsimp only | split

theorem execUsbSuspend_keeps (K : Keeps nb P) (s : State) (hb : Off
    0x100000000000000000000000000000000000000000000000000000000000000000000000000000000000000000000000400000000000000000000000000000000000000000000000000000000000000002000000000000000000000000000000000000000000000000000000000000000000000000000000000000000000000000000000000000000000000000000000000000000000000000000000000000000000000000000000000000000000000
    nb) (h : P s) : OutKeeps P (execUsbSuspend s) := by
  unfold execUsbSuspend
  repeat' first
    | (with_reducible first
        | assumption | intro _ | apply outKeeps_next | apply usbSuspend_keeps K)
    | exact off_sub rfl hb | exact off_bit rfl hb | dsimp only | split

theorem execUsbResume_keeps (K : Keeps nb P) (s : State) (hb : Off
    0x2000000000000000000000000000000000000000000000000000000000000000000000000000000000000000000000000000000000000000000000000000000000000000000000000000000000000000000000000000000000000000000000
    nb) (h : P s) : OutKeeps P (execUsbResume s) := by
  unfold execUsbResume
  repeat' first
    | (with_reducible first
        | assumption | intro _ | apply outKeeps_next | apply usbResume_keeps K)
    | exact off_sub rfl hb | exact off_bit rfl hb | dsimp only | split

theorem execUsbRwakeEnd_keeps (K : Keeps nb P) (s : State) (hb : Off
    0x40000000000000000000000000000000000000000000000000000000000000000000000000000000000000000000000000000000000000000000000000000000000000000000000000000000000000000000000000000000000000000000000000000000000000000000000000000000000000000000000000000000000000000000000000000000000000000000000000000000000000000000000000000000000000
    nb) (h : P s) : OutKeeps P (execUsbRwakeEnd s) := by
  unfold execUsbRwakeEnd
  repeat' first
    | (with_reducible first
        | assumption | intro _ | apply outKeeps_next | apply down_keeps K)
    | exact off_sub rfl hb | exact off_bit rfl hb | dsimp only | split

theorem execEthFrameReceive_keeps (K : Keeps nb P) (frame : List (BitVec 8)) (s : State) (hb : Off
    0x11000000000000000000000000022000000000000000000000000000000000000000000000000000000000000000000004000000000000000000000000000000000000000000000000000008E0000000000000000000000000000000000000000000000000000000000000000000000000000000000000000000000000000000000000000000000000000000000000000000000000000000000000000000000000000000000000000000000000000000
    nb) (h : P s) : OutKeeps P (execEthFrameReceive frame s) := by
  unfold execEthFrameReceive
  repeat' first
    | (with_reducible first
        | assumption | intro _ | apply outKeeps_next | apply ethReceive_keeps K)
    | exact off_sub rfl hb | exact off_bit rfl hb | dsimp only | split

theorem execEthPauseRepeat_keeps (K : Keeps nb P) (s : State) (hb : Off
    0x2000000000000000000000000000000000000000000000000000000000000000000000000000000000000000000000000000000000000000000000000000080000000000000000000000000000000000000000000000000000000000000000000000000000000000000000000000000000000000000000000000000000000000000000000000000000000000000000000000000000000000000000000000000000000
    nb) (h : P s) : OutKeeps P (execEthPauseRepeat s) := by
  unfold execEthPauseRepeat
  repeat' first
    | (with_reducible first
        | assumption | intro _ | apply outKeeps_next | apply ethRepeat_keeps K)
    | exact off_sub rfl hb | exact off_bit rfl hb | dsimp only | split

theorem execEthPauseReceive_keeps (K : Keeps nb P) (quanta : BitVec 16) (s : State) (hb : Off
    0xC00000000000000000000000000000000000000000000000000000000000000000000000000000000000000000000000000000000000000000000000000100000000000000000000000000000000000000000000000000000000000000000000000000000000000000000000000000000000000000000000000000000000000000000000000000000000000000000000000000000000000000000000000000000000
    nb) (h : P s) : OutKeeps P (execEthPauseReceive quanta s) := by
  unfold execEthPauseReceive
  repeat' first
    | (with_reducible first
        | assumption | intro _ | apply outKeeps_next | apply ethPauseReceive_keeps K)
    | exact off_sub rfl hb | exact off_bit rfl hb | dsimp only | split

theorem execEthPauseExpire_keeps (K : Keeps nb P) (s : State) (hb : Off
    0xC00000000000000000000000000000000000000000000000000000000000000000000000000000000000000000000000000000000000000000000000000000000000000000000000000000000000000000000000000000000000000000000000000000000000000000000000000000000000000000000000000000000000000000000000000000000000000000000000000000000000000000000000000000000000
    nb) (h : P s) : OutKeeps P (execEthPauseExpire s) := by
  unfold execEthPauseExpire
  repeat' first
    | (with_reducible first
        | assumption | intro _ | apply outKeeps_next | apply ethPauseExpire_keeps K)
    | exact off_sub rfl hb | exact off_bit rfl hb | dsimp only | split

theorem execEthFrameTransmit_keeps (K : Keeps nb P) (s : State) (hb : Off fpAll nb) (h : P s) : OutKeeps P
    (execEthFrameTransmit s) := by
  unfold execEthFrameTransmit
  repeat' first
    | (with_reducible first
        | assumption | intro _ | apply outKeeps_next | apply ethTransmit_keeps K | apply releaseHeld_keeps K)
    | exact off_sub rfl hb | exact off_bit rfl hb | dsimp only | split

theorem execEthFrameSent_keeps (K : Keeps nb P) (collision : Bool) (s : State) (hb : Off fpAll nb) (h : P s) : OutKeeps P
    (execEthFrameSent collision s) := by
  unfold execEthFrameSent
  repeat' first
    | (with_reducible first
        | assumption | intro _ | apply outKeeps_next | apply ethSent_keeps K | apply releaseHeld_keeps K)
    | exact off_sub rfl hb | exact off_bit rfl hb | dsimp only | split

theorem execEthMdioDone_keeps (K : Keeps nb P) (data : BitVec 16) (s : State) (hb : Off fpAll nb) (h : P s) : OutKeeps P
    (execEthMdioDone data s) := by
  unfold execEthMdioDone
  repeat' first
    | (with_reducible first
        | assumption | intro _ | apply outKeeps_next | apply mdioDone_keeps K | apply releaseHeld_keeps K)
    | exact off_sub rfl hb | exact off_bit rfl hb | dsimp only | split

theorem execUartCharReceive_keeps (K : Keeps nb P) (u : Fin 2) (data : BitVec 8) (framing parity brk : Bool) (s : State)
    (hb : Off
    0x110000000000000000000000010000000000000000000000000000000000000000000000000000000000000000000000040000000000000000000000000000000000000000000000003D800000000000000080000000000000000000000000000000000000000000000000000000000000000000000000000000000000000000000000000000000000000000000000000000000000000000000000000000000000000000000000000000000000000000
    nb) (h : P s) : OutKeeps P (execUartCharReceive u data framing parity brk s) := by
  unfold execUartCharReceive
  repeat' first
    | (with_reducible first
        | assumption | intro _ | apply outKeeps_next | apply uartReceive_keeps K)
    | exact off_sub rfl hb | exact off_bit rfl hb | dsimp only | split

theorem execUartCharTransmit_keeps (K : Keeps nb P) (u : Fin 2) (cts : Bool) (s : State) (hb : Off fpAll nb) (h : P s) :
    OutKeeps P (execUartCharTransmit u cts s) := by
  unfold execUartCharTransmit
  repeat' first
    | (with_reducible first
        | assumption | intro _ | apply outKeeps_next | apply releaseHeld_keeps K | apply uartTransmit_keeps K)
    | exact off_sub rfl hb | exact off_bit rfl hb | dsimp only | split

theorem execUartCharSent_keeps (K : Keeps nb P) (u : Fin 2) (s : State) (hb : Off
    0x80000000000000000000000000000000000000000000000000000000000000000000000000000000000000000000000000000000000000000000000000000000000000000000000000000000000000000000000000000000000000000000000000000000000000000000000000000000000000000000000000000000000000000000000000000000000000000000000000000000000000000000000000000000000
    nb) (h : P s) : OutKeeps P (execUartCharSent u s) := by
  unfold execUartCharSent
  repeat' first
    | (with_reducible first
        | assumption | intro _ | apply outKeeps_next | apply uartSent_keeps K)
    | exact off_sub rfl hb | exact off_bit rfl hb | dsimp only | split

theorem execModTransactionStart_keeps (K : Keeps nb P) (s : State) (hb : Off fpAll nb) (h : P s) : OutKeeps P
    (execModTransactionStart s) := by
  unfold execModTransactionStart
  repeat' first
    | (with_reducible first
        | assumption | intro _ | apply outKeeps_next | apply modStart_keeps K | apply releaseHeld_keeps K)
    | exact off_sub rfl hb | exact off_bit rfl hb | dsimp only | split

theorem execModBlockStart_keeps (K : Keeps nb P) (s : State) (hb : Off
    0x3800000000000000000000000000000000000000000000000000000000000000000000000000000000000000000000000000000000000000000000000000000000000000000000000000000000000000000000000000000000000000000000000000000000000000000000000000000000000000000000000000000000000000000000000000000000000000000000000000000000000000000000000000000000000000
    nb) (h : P s) : OutKeeps P (execModBlockStart s) := by
  unfold execModBlockStart
  repeat' first
    | (with_reducible first
        | assumption | intro _ | apply outKeeps_next | apply modBlock_keeps K)
    | exact off_sub rfl hb | exact off_bit rfl hb | dsimp only | split

theorem execModTransactionDone_keeps (K : Keeps nb P) (rx : List (BitVec 8)) (s : State) (hb : Off
    0x1000000000000000000000801100000000000000000000802000000000000000000000000000000000000000000000000000000000000000000000000400000000000000000000000000000000000000000000004400000000000000000000000000000000000000000000000000000000000000000000000000000000000000000000000000000000000000000000000000000000000000000000000000000000000000000000000000000000000000000000000000000000000000
    nb) (h : P s) : OutKeeps P (execModTransactionDone rx s) := by
  unfold execModTransactionDone
  repeat' first
    | (with_reducible first
        | assumption | intro _ | apply outKeeps_next | apply modDone_keeps K)
    | exact off_sub rfl hb | exact off_bit rfl hb | dsimp only | split

theorem execModRdyTimeout_keeps (K : Keeps nb P) (rx : List (BitVec 8)) (s : State) (hb : Off
    0x801100000000000000000000802000000000000000000000000000000000000000000000000000000000000000000000000400000000000000000000000000000000000000000000002400000000000000000000000000000001000000000000000000000000000000000000000000000000000000000000000000000000000000000000000000000000000000000000000000000000000000000000000000000000000000000000000000000000000000
    nb) (h : P s) : OutKeeps P (execModRdyTimeout rx s) := by
  unfold execModRdyTimeout
  repeat' first
    | (with_reducible first
        | assumption | intro _ | apply outKeeps_next | apply modRdyTimeout_keeps K)
    | exact off_sub rfl hb | exact off_bit rfl hb | dsimp only | split

theorem execModIrqFall_keeps (K : Keeps nb P) (s : State) (hb : Off
    0x100000000000000000000000000000000000000000000000000000000000000000000000000000000000000000000000400000000000000000000000000000000000000000000000000000000000000000000000000000000000000000000000000000000000000000000000000000000000000000000000000000000000000000000000000000000000000000000000000000000000000000000000000000000000000000000000000000000000000
    nb) (h : P s) : OutKeeps P (execModIrqFall s) := by
  unfold execModIrqFall
  repeat' first
    | (with_reducible first
        | assumption | intro _ | apply outKeeps_next | apply modIrqFall_keeps K)
    | exact off_sub rfl hb | exact off_bit rfl hb | dsimp only | split

theorem execSlDataReceive_keeps (K : Keeps nb P) (frame : List (BitVec 8)) (s : State) (hb : Off
    0x80110000000000000000000101000000000000000000000000000000000000000000000000000000000000000000000000040000000000000000000000000000000000000000000BC60000000000000000000000000000000000000000000000000000000000000000000000000000000000000000000000000000000000000000000000000000000000000000000000000000000000000000000000000000000000000000000000000000000000000000
    nb) (h : P s) : OutKeeps P (execSlDataReceive frame s) := by
  unfold execSlDataReceive
  repeat' first
    | (with_reducible first
        | assumption | intro _ | apply outKeeps_next | apply slData_keeps K | apply slReceive_keeps K)
    | exact off_sub rfl hb | exact off_bit rfl hb | dsimp only | split

theorem execSlCreditReceive_keeps (K : Keeps nb P) (frame : List (BitVec 8)) (s : State) (hb : Off
    0x800100000000000000000001000000000000000000000000000000000000000000000000000000000000000000000000000400000000000000000000000000000000000000000008860000000000000000000000000000000000000000000000000000000000000000000000000000000000000000000000000000000000000000000000000000000000000000000000000000000000000000000000000000000000000000000000000000000000000000
    nb) (h : P s) : OutKeeps P (execSlCreditReceive frame s) := by
  unfold execSlCreditReceive
  repeat' first
    | (with_reducible first
        | assumption | intro _ | apply outKeeps_next | apply slCredit_keeps K | apply slReceive_keeps K)
    | exact off_sub rfl hb | exact off_bit rfl hb | dsimp only | split

theorem execSlHelloReceive_keeps (K : Keeps nb P) (frame : List (BitVec 8)) (s : State) (hb : Off
    0x800100000000000000000001008000000000000000000000000000000000000000000000000000000000000000000000000400000000000000000000000000000000000000000000EF0000000000000000000000000000000000000000000000000000000000000000000000000000000000000000000000000000000000000000000000000000000000000000000000000000000000000000000000000000000000000000000000000000000000000000
    nb) (h : P s) : OutKeeps P (execSlHelloReceive frame s) := by
  unfold execSlHelloReceive
  repeat' first
    | (with_reducible first
        | assumption | intro _ | apply outKeeps_next | apply slHello_keeps K | apply slReceive_keeps K)
    | exact off_sub rfl hb | exact off_bit rfl hb | dsimp only | split

theorem execSlDataSend_keeps (K : Keeps nb P) (s : State) (hb : Off fpAll nb) (h : P s) : OutKeeps P (execSlDataSend s) :=
    by
  unfold execSlDataSend
  repeat' first
    | (with_reducible first
        | assumption | intro _ | apply outKeeps_next | apply releaseHeld_keeps K | apply slDataSend_keeps K)
    | exact off_sub rfl hb | exact off_bit rfl hb | dsimp only | split

theorem execSlCreditTimeout_keeps (K : Keeps nb P) (s : State) (hb : Off
    0x800000000000000000000001060000180000000000000000000000000000000000000000000000000000000000000000000000000000000000000000000000000000000000000000040000000000000000000000000000000000000000000000000000000000000000000000000000000000000000000000000000000000000000000000000000000000000000000000000000000000000000000000000000000000000000000000000000000000000000
    nb) (h : P s) : OutKeeps P (execSlCreditTimeout s) := by
  unfold execSlCreditTimeout
  repeat' first
    | (with_reducible first
        | assumption | intro _ | apply outKeeps_next | apply slCreditTimeout_keeps K)
    | exact off_sub rfl hb | exact off_bit rfl hb | dsimp only | split

theorem execSlHelloTimer_keeps (K : Keeps nb P) (s : State) (hb : Off
    0x800000000000000000000001064000180000000000000000000000000000000000000000000000000000000000000000000000000000000000000000000000000000000000000000050000000000000000000000000000000000000000000000000000000000000000000000000000000000000000000000000000000000000000000000000000000000000000000000000000000000000000000000000000000000000000000000000000000000000000
    nb) (h : P s) : OutKeeps P (execSlHelloTimer s) := by
  unfold execSlHelloTimer
  repeat' first
    | (with_reducible first
        | assumption | intro _ | apply outKeeps_next | apply slHelloTimer_keeps K)
    | exact off_sub rfl hb | exact off_bit rfl hb | dsimp only | split

theorem execSlLinkTimeout_keeps (K : Keeps nb P) (s : State) (hb : Off
    0x80010000000000000000000100C000000000000000000000000000000000000000000000000000000000000000000000000400000000000000000000000000000000000000000000010000000000000000000000000000000001000000000000000000000000000000000000000000000000000000000000000000000000000000000000000000000000000000000000000000000000000000000000000000000000000000000000000000000000000000
    nb) (h : P s) : OutKeeps P (execSlLinkTimeout s) := by
  unfold execSlLinkTimeout
  repeat' first
    | (with_reducible first
        | assumption | intro _ | apply outKeeps_next | apply slLinkTimeout_keeps K)
    | exact off_sub rfl hb | exact off_bit rfl hb | dsimp only | split

theorem execSlHeaderError_keeps (K : Keeps nb P) (s : State) (hb : Off
    0x800100000000000000000001000000000000000000000000000000000000000000000000000000000000000000000000000400000000000000000000000000000000000000000004000000000000000000000000000000000001000000000000000000000000000000000000000000000000000000000000000000000000000000000000000000000000000000000000000000000000000000000000000000000000000000000000000000000000000000
    nb) (h : P s) : OutKeeps P (execSlHeaderError s) := by
  unfold execSlHeaderError
  repeat' first
    | (with_reducible first
        | assumption | intro _ | apply outKeeps_next | apply slHeaderError_keeps K)
    | exact off_sub rfl hb | exact off_bit rfl hb | dsimp only | split

end
end Sys2Proof.Machine
end

