-- ==== Sys2Proof/Laws/KeepsTaskRows.lean ====
section
/-!
SUPPORT. What each operation of Sys2Proof/Machine/TaskRows.lean can change: its footprint (Sys2Proof/Laws/Keeps.lean).
-/
namespace Sys2Proof.Machine
set_option linter.all false
section
variable {P : State → Prop} {nb : Nat}

theorem execEventPost_keeps (K : Keeps nb P) (ev : Fin 256) (s : State) (hb : Off
    0x10000000000000000000000809000000000000000000400000000000000000F8018000000000000000000000000000000000000000000100000000000400000000000000000000000000000000000000000C00000000000000000000000000000000000000000000000000000000007C000005800153EC8000000000000000000000000000000000000000000000000000000000000000000000000000000000000000000000000400C3C60000000002000000000000000200000000
    nb) (h : P s) : OutKeeps P (execEventPost ev s) := by
  unfold execEventPost
  repeat' first
    | (with_reducible first
        | assumption | intro _ | apply outKeeps_next | apply eventPost_keeps K)
    | exact off_sub rfl hb | exact off_bit rfl hb | dsimp only | split

theorem execContextSaveDone_keeps (K : Keeps nb P) (t : Fin 40) (s : State) (hb : Off
    0x10000000000000000000000809000000000000000000400000000000000003C005C240502DFF000000000000000000000000000000000100000000000400000000000000000000000000000000000000000C00000000000000000000000000000000000000000000000000000000007C00000F8001538C8004000040000000000000000000000000000000000000000000000000000000000000000000000000000000000000000400C3C60000000002000000000000000200000000
    nb) (h : P s) : OutKeeps P (execContextSaveDone t s) := by
  unfold execContextSaveDone
  repeat' first
    | (with_reducible first
        | assumption | intro _ | apply outKeeps_next | apply saveDone_keeps K)
    | exact off_sub rfl hb | exact off_bit rfl hb | dsimp only | split

theorem execTaskDispatch_keeps (K : Keeps nb P) (s : State) (hb : Off
    0x10000000000000000000000809000000000000000000400000000000000003C005C240502DFF000000000000000000000000000000000100000000000400000000000000000000000000000000000000000C00000000000000000000000000000000000000000000000000000000007C00000F8001538C0004000040000000000000000000000000000000000000000000000000000000000000000000000000000000000000000400C3C60000000002000000000000000200000000
    nb) (h : P s) : OutKeeps P (execTaskDispatch s) := by
  unfold execTaskDispatch
  repeat' first
    | (with_reducible first
        | assumption | intro _ | apply outKeeps_next | apply dispatch_keeps K)
    | exact off_sub rfl hb | exact off_bit rfl hb | dsimp only | split

theorem execLoadWindowEnd_keeps (K : Keeps nb P) (core : Fin 5) (s : State) (hb : Off
    0x3800000000000000000000000000000000000000000000000000000000000000000000000000000000000000000000000000000000000000000000000000000000000000000000000000000000000000000000000000003000000000000000000000000000000000000000000000000000000000000000000000000000000000000000000000000000000000000000000000000000000000000000000
    nb) (h : P s) : OutKeeps P (execLoadWindowEnd core s) := by
  unfold execLoadWindowEnd
  repeat' first
    | (with_reducible first
        | assumption | intro _ | apply outKeeps_next | apply loadWindowEnd_keeps K)
    | exact off_sub rfl hb | exact off_bit rfl hb | dsimp only | split

theorem execSenseLineChange_keeps (K : Keeps nb P) (line : Fin 16) (copy : Fin 2) (level : Bool) (s : State) (hb : Off
    0xC00000000000000000000000000000000000000000000000000000000000000000000000000000000000000000000000000000000000000000000000000000000000000000000000000000000000000000000000000000000000000000000000000000000000000000000000000000000000000000000000000000000000000000000000000000000000000000000000000000000000000000000000000
    nb) (h : P s) : OutKeeps P (execSenseLineChange line copy level s) := by
  unfold execSenseLineChange
  repeat' first
    | (with_reducible first
        | assumption | intro _ | apply outKeeps_next | apply senseChange_keeps K)
    | exact off_sub rfl hb | exact off_bit rfl hb | dsimp only | split

theorem execSpWindowClassify_keeps (K : Keeps nb P) (s : State) (hb : Off
    0x300000000000000000000140010000000000001C20000000000000000040F00000000000000000005A000066E000000001C3DF80010001000850000004F8000000000000000000000000000000010008000000000000000000000000000000000000000000000000000000BFC7400000000000000000000000000000000000100000143C0020000000000000000000280000200400000000800000000000000000000000000000100003C6060F0004022E06000802000002000C6380
    nb) (h : P s) : OutKeeps P (execSpWindowClassify s) := by
  unfold execSpWindowClassify
  repeat' first
    | (with_reducible first
        | assumption | intro _ | apply outKeeps_next | apply windowEnd_keeps K)
    | exact off_sub rfl hb | exact off_bit rfl hb | dsimp only | split

theorem execSpReseedDone_keeps (K : Keeps nb P) (s : State) (hb : Off fpRegs nb) (h : P s) : OutKeeps P (execSpReseedDone
    s) := by
  unfold execSpReseedDone
  repeat' first
    | (with_reducible first
        | assumption | intro _ | apply outKeeps_next | apply reseedDone_keeps K)
    | exact off_sub rfl hb | exact off_bit rfl hb | dsimp only | split

theorem execSpRateInterval_keeps (K : Keeps nb P) (s : State) (hb : Off
    0x800000000000000000000000000000000000000000000000000000000000000000000000000000000000000000000000000000000000000000000000000000000000000000000000000000000000800000000000000000000000000000000000000000000000000000000000000000000000000000000000000000000000000000000000000000000000000000000000000000000000000000000000000000
    nb) (h : P s) : OutKeeps P (execSpRateInterval s) := by
  unfold execSpRateInterval
  repeat' first
    | (with_reducible first
        | assumption | intro _ | apply outKeeps_next | apply rateInterval_keeps K)
    | exact off_sub rfl hb | exact off_bit rfl hb | dsimp only | split

theorem execSpSplitHinge_keeps (K : Keeps nb P) (s : State) (hb : Off fpAll nb) (h : P s) : OutKeeps P (execSpSplitHinge s)
    := by
  unfold execSpSplitHinge
  repeat' first
    | (with_reducible first
        | assumption | intro _ | apply outKeeps_next | apply splitHinge_keeps K)
    | exact off_sub rfl hb | exact off_bit rfl hb | dsimp only | split

theorem execSpRejoinHinge_keeps (K : Keeps nb P) (s : State) (hb : Off fpRegs nb) (h : P s) : OutKeeps P (execSpRejoinHinge
    s) := by
  unfold execSpRejoinHinge
  repeat' first
    | (with_reducible first
        | assumption | intro _ | apply outKeeps_next | apply rejoinHinge_keeps K)
    | exact off_sub rfl hb | exact off_bit rfl hb | dsimp only | split

theorem execSpReplayApply_keeps (K : Keeps nb P) (s : State) (hb : Off fpAll nb) (h : P s) : OutKeeps P (execSpReplayApply
    s) := by
  unfold execSpReplayApply
  repeat' first
    | (with_reducible first
        | assumption | intro _ | apply outKeeps_next | apply releaseHeld_keeps K | apply replayApply_keeps K)
    | exact off_sub rfl hb | exact off_bit rfl hb | dsimp only | split

end
end Sys2Proof.Machine
end

