-- ==== Sys2Proof/WellFormed.lean ====
section
/-!
DEFINITION. Which operands a command can have in the device. The operand types leave a few values that no command of the
device carries: write data wider than the access, a lane reported twice, a packet longer than any the protocol allows. The
meanings are total and answer a next state for those too.
-/
namespace Sys2Proof

/-- The data of a write fits its size (R155: an access of 1, 2, 4, 8, 16 or 32 bytes carries that many). -/
def dataFits (size : Fin 6) (data : BitVec 256) : Bool := decide (data.toNat < 2 ^ (8 * 2 ^ size.val))

/-- The checks of the operands of each command. -/
def Instr.wellFormed : Instr → Bool
  | .registerWrite _ _ size data => dataFits size data
  | .tallyWrite _ _ size data => dataFits size data
  | .memoryWrite _ _ size data => dataFits size data
  | .nvmWrite _ _ size data _ => dataFits size data
  | .cxFeedWrite _ _ _ size data => dataFits size data
  /- R155: a word of an atomic request has 4 or 8 bytes. -/
  | .atomicSwap _ _ wide data => wide || decide (data.toNat < 2 ^ 32)
  | .atomicAdd _ _ wide data => wide || decide (data.toNat < 2 ^ 32)
  /- R28: the training reports a lane once. -/
  | .linkTrainingDone bad => decide bad.Nodup
  /- R633: the longest packet of an endpoint is 1,024 bytes. -/
  | .usbOutToken _ _ _ _ data => decide (data.length ≤ 1024)
  | _ => true

end Sys2Proof
end

