-- ==== Sys2Proof/Tests/Slice0.lean ====
section
/-!
SUPPORT. The model's own tests. First, ill-formed commands are refused and words of the table decode; then, for each obligation with
hypotheses, one theorem that shows for each of its clauses a concrete state and operands that meet all the hypotheses of the clause
together. The states are the state after reset with the few fields named in `st` set over a device that is up (`st`).
-/
namespace Sys2Proof.Tests

open Sys2Proof Sys2Proof.Machine

set_option Elab.async false

/-- Both dies reached, every supply good, the PLL locked. -/
def dieFields : List (Fld × Nat × Nat × Nat) :=
  [(F.STK_DIESTATE_C_STATE, 0, 0, 3), (F.STK_DIESTATE_M_STATE, 0, 0, 3), (F.STK_DIESTATE_TIER, 0, 0, 2), (F.PTM_SUPPLY_GOOD, 0, 0, 63),
   (F.FUSE_VALID, 0, 0, 1), (F.PTM_CLKSTAT_REF, 0, 0, 1), (F.HSXO_ON, 0, 0, 1), (F.PLL_LOCKED, 0, 0, 1), (F.PTM_CLKSTAT_PLL, 0, 0, 1), (F.PTM_CLKSTAT_GRANT, 0, 0, 15)]

/-- The state after reset with the fields of `l`, those of `dieFields` and the domains `ds` on. -/
def few (ds : List Nat) (l : List (Fld × Nat × Nat × Nat)) : State :=
  { State.reset with regs := (l ++ dieFields ++ (ds.map fun d => (F.DOM_STATE, d, 0, 2))).map fun (e : Fld × Nat × Nat × Nat) => (⟨e.1.id, e.2.1, e.2.2.1⟩, e.2.2.2) }

/-- A device that is up, every domain on, with the fields of `l` set. -/
def st (l : List (Fld × Nat × Nat × Nat)) : State := few (List.range 136) l

/-- Copy `u` stands at the first byte of SRAM with the word `w` in its fetch buffer, and its thread has a task. -/
def rdy (u w : Nat) (l : List (Fld × Nat × Nat × Nat)) : State :=
  st (l ++ [(F.PC, u, 0, 0x20000000), (F.FB_LINE, u, 0, 0x20000000 / 32 + 1), (F.FB_DATA, u, 0, w), (F.HASTASK, globOf u, 0, 1)])

/-- `Ready` as a Boolean. -/
def readyB (s : State) (u w : Nat) : Bool := canIssue s u w && !storeWaits s u w && decide (mpuCheck s u .fetch (s.rd F.PC u) = none)

theorem ready_of {s : State} {u w : Nat} (h : readyB s u w = true) : Ready s u w := by
  simp [readyB] at h
  exact ⟨h.1.1, h.1.2, h.2⟩

/-- `SetsOut` as a Boolean. -/
def setsOutB (s : State) (r : Held) : Bool := masterLive s r.who && !mustWait s r && !linkHolds s r && dieAnswers s r.who r.addr

theorem setsOut_of {s : State} {r : Held} (h : setsOutB s r = true) : SetsOut s r := by
  simp only [setsOutB, Bool.and_eq_true, Bool.not_eq_true'] at h
  exact ⟨h.1.1.1, h.1.1.2, h.1.2, h.2⟩

/-- `Lands` as a Boolean. -/
def landsB (s : State) (src : Source) (op : Nat) (b : Blk) (i off v : Nat) : Bool :=
  masterLive s src.who && !mustWait s (regRequest src op b i off v) && match gate s (regRequest src op b i off v) with
    | .reg l row _ => decide (l = ⟨b, i, off⟩) && (op != 1 || !isDuplicate s (regRequest src op b i off v) ⟨b, i, off⟩ row)
    | _ => false

theorem lands_of {s : State} {src : Source} {op : Nat} {b : Blk} {i off v : Nat} (h : landsB s src op b i off v = true) :
    Lands s src op b i off v := by
  unfold landsB at h
  simp only [Bool.and_eq_true, Bool.not_eq_true'] at h
  refine ⟨h.1.1, h.1.2, ?_⟩
  have h2 := h.2
  split at h2
  · rename_i l row k hg
    rw [Bool.and_eq_true, decide_eq_true_eq] at h2
    obtain ⟨rfl, h3⟩ := h2
    refine ⟨row, k, hg, fun ho => ?_⟩
    subst ho
    simpa using h3
  · cases h2

/-- `Meets` as a Boolean. -/
def meetsB (s : State) (src : Source) (op : Nat) (b : Blk) (i off v : Nat) : Bool :=
  setsOutB s (regRequest src op b i off v) && decide (fwRefuses s src.who op (regAddr b i off) = none) &&
    decide (locate src.who (regAddr b i off) = some ⟨b, i, off⟩)

theorem meets_of {s : State} {src : Source} {op : Nat} {b : Blk} {i off v : Nat} (h : meetsB s src op b i off v = true) :
    Meets s src op b i off v := by
  simp only [meetsB, Bool.and_eq_true, decide_eq_true_eq] at h
  exact ⟨setsOut_of h.1.1, h.1.2, h.2⟩

/-- `MeetsContext` as a Boolean. -/
def meetsContextB (s : State) (src : Source) (x off v : Nat) : Bool :=
  meetsB s src 1 .cx 0 off v && !s.on F.EXP_LOCK (lockNum ⟨.cx, 0, off⟩) && decide (s.rd F.DOM_STATE (locDomain ⟨.cx, 0, off⟩) = 2) &&
    decide (s.rd F.PAT_LIVE_STAT_STATE ≠ 2) && decide (cxWaiting s x = [])

theorem meetsContext_of {s : State} {src : Source} {x off v : Nat} (h : meetsContextB s src x off v = true) : MeetsContext s src x off v := by
  simp only [meetsContextB, Bool.and_eq_true, Bool.not_eq_true', decide_eq_true_eq] at h
  exact ⟨meets_of h.1.1.1.1, h.1.1.1.2, h.1.1.2, h.1.2, h.2⟩

/-- `AsksSram` as a Boolean. -/
def asksB (s : State) (u op n : Nat) : Bool :=
  s.on F.LD_PEND u && !isChecker s u && masterLive s (threadMaster u) && decide (s.rd F.LD_OP u = op) &&
    decide (2 ^ s.rd F.LD_SIZE u = n) && decide (s.rd F.LD_ADDR u % n = 0) && !loadWaits s u && !mustWait s (loadRequest s u) &&
    (!leadsPair s u || !s.on F.LDX_OK u) && cUp s &&
    (match targetOf (s.rd F.LD_ADDR u) with | .sram k => decide (s.rd F.DOM_STATE (44 + k) = 2) | _ => false) &&
    decide (fwRefuses s (threadMaster u) (if op = 0 then 0 else op + 2) (s.rd F.LD_ADDR u) = none) && decide (s.bad = [])

theorem asks_of {s : State} {u op n : Nat} (h : asksB s u op n = true) : AsksSram s u op n := by
  simp only [asksB, Bool.and_eq_true, decide_eq_true_eq, Bool.not_eq_true', Bool.or_eq_true] at h
  obtain ⟨⟨⟨⟨⟨⟨⟨⟨⟨⟨⟨⟨h1, h2⟩, h3⟩, h4⟩, h5⟩, h6⟩, h7⟩, hw⟩, h8⟩, h9⟩, h10⟩, h11⟩, h12⟩ := h
  refine ⟨h1, ⟨h2, h3⟩, h4, h5, h6, h7, hw, fun hl => ?_, h9, ?_, h11, h12⟩
  · cases h8 with
    | inl h => rw [hl] at h; cases h
    | inr h => exact h
  · split at h10
    · exact ⟨_, by assumption, of_decide_eq_true h10⟩
    · cases h10

/-- `CanSave` as a Boolean. -/
def canSaveB (s : State) (a : Nat) : Bool :=
  dieAnswers s (.unit 41) a && decide (fwRefuses s (.unit 41) 1 a = none) && (match targetOf a with | .sram _ => true | _ => false) &&
    decide (memWriteFault s (targetOf a) a 32 = none)

theorem canSave_of {s : State} {a : Nat} (h : canSaveB s a = true) : CanSave s a := by
  simp only [canSaveB, Bool.and_eq_true, decide_eq_true_eq] at h
  refine ⟨h.1.1.1, h.1.1.2, ?_, h.2⟩
  have h2 := h.1.2
  split at h2
  · exact ⟨_, by assumption⟩
  · cases h2

/-- The register that an address names, for a witness. -/
def rowAt (l : Loc) : RegRow := match regAt l with | some x => x.1 | none => ⟨0, 0, 1, 4, []⟩
/-- Its place in its array. -/
def placeAt (l : Loc) : Nat := match regAt l with | some x => x.2 | none => 0


/-! Ill-formed commands are refused by `Instr.wellFormed`; a neighbour that is well formed is not. -/

/-- A source for the tests: the debug unit. -/
def tester : Source := ⟨.unit 47, true⟩

theorem test_wellFormed_write : (Instr.registerWrite tester 0x50004100 2 (2 ^ 32)).wellFormed = false ∧
    (Instr.registerWrite tester 0x50004100 2 (2 ^ 32 - 1)).wellFormed = true := by decide +kernel
theorem test_wellFormed_tally : (Instr.tallyWrite tester 0x50004100 0 256).wellFormed = false ∧
    (Instr.tallyWrite tester 0x50004100 0 255).wellFormed = true := by decide +kernel
theorem test_wellFormed_memory : (Instr.memoryWrite tester 0x20000000 3 (2 ^ 64)).wellFormed = false ∧
    (Instr.memoryWrite tester 0x20000000 5 (2 ^ 256 - 1)).wellFormed = true := by decide +kernel
theorem test_wellFormed_nvm : (Instr.nvmWrite tester 0 3 (2 ^ 64) none).wellFormed = false ∧
    (Instr.nvmWrite tester 0 3 (2 ^ 64 - 1) none).wellFormed = true := by decide +kernel
theorem test_wellFormed_feed : (Instr.cxFeedWrite tester 0 0 1 (2 ^ 16)).wellFormed = false ∧
    (Instr.cxFeedWrite tester 0 0 1 (2 ^ 16 - 1)).wellFormed = true := by decide +kernel
theorem test_wellFormed_swap : (Instr.atomicSwap tester 0x20000000 false (2 ^ 32)).wellFormed = false ∧
    (Instr.atomicSwap tester 0x20000000 true (2 ^ 32)).wellFormed = true := by decide +kernel
theorem test_wellFormed_add : (Instr.atomicAdd tester 0x20000000 false (2 ^ 32)).wellFormed = false ∧
    (Instr.atomicAdd tester 0x20000000 true (2 ^ 32)).wellFormed = true := by decide +kernel
theorem test_wellFormed_training : (Instr.linkTrainingDone [(0, 1), (0, 1)]).wellFormed = false ∧
    (Instr.linkTrainingDone [(0, 1), (1, 1)]).wellFormed = true := by decide +kernel
theorem test_wellFormed_packet : (Instr.usbOutToken 0 1 false false (List.replicate 1025 0)).wellFormed = false ∧
    (Instr.usbOutToken 0 1 false false (List.replicate 1024 0)).wellFormed = true := by decide +kernel

/-! Single steps, with results worked out from the rules by hand. -/

/-- One field of the state a step answers. -/
def after (o : Host.Outcome State Fault Refusal) (f : State → Nat) : Option Nat := match o with | .next t => some (f t) | _ => none

/-- No word of the table spells a command, so the queue stays. -/
theorem test_no_word : (State.reset.withFetchWord 32 0).pending = [] := by decide +kernel
/-- R18, the published check value of CRC-16/IBM-3740 over the characters 1 to 9. -/
theorem test_crc16 : crc16 (byteList [49, 50, 51, 52, 53, 54, 55, 56, 57]) = 0x29B1 := by decide +kernel
/-- The published check value of CRC-32C. -/
theorem test_crc32c : crc32c (byteList [49, 50, 51, 52, 53, 54, 55, 56, 57]) = 0xE3069283 := by decide +kernel
/-- The published SHA-256 value of the empty text (FIPS 180). -/
theorem test_sha256 : sha256 [] = 0xE3B0C44298FC1C149AFBF4C8996FB92427AE41E4649B934CA495991B7852B855 := by decide +kernel
/-- R466: ADD wraps modulo 2^32, also where a source is the destination. -/
theorem test_add_wraps : after (exec (.add 0 1 1 2) (rdy 0 (encA 1 1 1 2 0 0) [(F.GPR, 0, 1, 0xFFFFFFFF), (F.GPR, 0, 2, 2)]))
    (fun t => t.rd F.GPR 0 1) = some 1 := by decide +kernel
/-- R466: shifts use rb[4:0], so a shift by 33 is one by 1. -/
theorem test_shl_masks : after (exec (.shl 0 1 2 3) (rdy 0 (encA 1 1 2 3 0 6) [(F.GPR, 0, 2, 5), (F.GPR, 0, 3, 33)]))
    (fun t => t.rd F.GPR 0 1) = some 10 := by decide +kernel
/-- R468: ADDS holds the sum at the largest positive value. -/
theorem test_adds_saturates : after (exec (.adds 0 1 2 3) (rdy 0 (encA 3 1 2 3 0 0) [(F.GPR, 0, 2, 0x7FFFFFFF), (F.GPR, 0, 3, 1)]))
    (fun t => t.rd F.GPR 0 1) = some 0x7FFFFFFF := by decide +kernel
/-- R155: a write of SRAM puts the lowest byte of the data at the lowest address. -/
theorem test_memory_write : after (exec (.memoryWrite tester 0x20000010 2 0x11223344) (st [])) (fun t => (t.byte 0x20000010).toNat) =
    some 0x44 := by decide +kernel
/-- R158: ADD wraps within its word and answers the old value. -/
theorem test_atomic_add : after (exec (.atomicAdd tester 0x20000000 false 2) { st [] with mem := [(0x20000000, 0xFF), (0x20000001, 0xFF),
    (0x20000002, 0xFF), (0x20000003, 0xFF)] }) (fun t => t.mget 0x20000000 4) = some 1 := by decide +kernel
/-- R166: a header that waits in the link buffer is the request it was. -/
theorem test_header_word : headerOf (headerWord ⟨.dma 3, true, 1, 0x12345678, 8, 0x99⟩) = ⟨.dma 3, true, 1, 0x12345678, 8, 0x99⟩ := by
  decide +kernel
/-- R249: with VREF at 2.5 V half of it is code 2048, and a level above it the largest code. -/
theorem test_adc_codes : adCode (vref / 2) = 2048 ∧ adCode (vref + 1) = 4095 ∧ adCode (-1) = 0 := by decide +kernel
/-- A command waits behind the one in front: the step takes the front alone. -/
theorem test_first_in_first_out : after (step { st [] with pending := [.memoryWrite tester 0x20000000 0 7, .memoryWrite tester 0x20000000 0 9] })
    (fun t => 10 * (t.byte 0x20000000).toNat + t.pending.length) = some 71 := by decide +kernel
/-- The word of an ADD, written from the field table of format A (op 0x01 in [31:26], rd 1, ra 2, rb 3): R456, R466. -/
theorem test_word_add : encA 1 1 2 3 0 0 = 0b00000100010010001100000000000000 ∧ legalWord 0b00000100010010001100000000000000 = true := by
  decide +kernel

/-! What some witnesses need. -/

/-- A state whose lists are empty is in canonical form. -/
theorem canon_empty : Canon { State.reset with regs := [], pending := [.pllLock] } where
  regs := .nil
  queues := .nil
  queuesFull := fun _ h => nomatch h
  mem := by decide
  bad := .nil

theorem lookupD_const {K V : Type} [DecidableEq K] (m : List (K × V)) (k : K) (d v : V) (hm : ∃ e ∈ m, e.1 = k)
    (hv : ∀ e ∈ m, e.1 = k → e.2 = v) : lookupD m k d = v := by
  induction m with
  | nil => obtain ⟨e, h, _⟩ := hm; cases h
  | cons e r ih =>
    simp only [lookupD]
    split
    · exact hv e List.mem_cons_self ‹_›
    · refine ih ?_ fun x hx => hv x (List.mem_cons_of_mem _ hx)
      obtain ⟨x, hx, hk⟩ := hm
      cases hx with
      | head => exact absurd hk ‹_›
      | tail _ hx => exact ⟨x, hx, hk⟩

/-- A device in which every one of the 4,096 tags is taken. -/
def allTagsBusy : State :=
  { st [] with regs := (st []).regs ++ (List.range 4096).map fun t => (⟨F.TAG_BUSY.id, t, 0⟩, 1) }

theorem tag_busy (t : Nat) (h : t < 4096) : allTagsBusy.on F.TAG_BUSY t = true := by
  have e : lookupD allTagsBusy.regs ⟨F.TAG_BUSY.id, t, 0⟩ F.TAG_BUSY.rst = 1 := by
    refine lookupD_const _ _ _ _ ⟨(⟨F.TAG_BUSY.id, t, 0⟩, 1), ?_, rfl⟩ ?_
    · exact List.mem_append_right _ (List.mem_map.mpr ⟨t, List.mem_range.mpr h, rfl⟩)
    · intro x hx hk
      rcases List.mem_append.mp hx with hx | hx
      · exact absurd (congrArg Key.f hk) ((by decide +kernel : ∀ x ∈ (st []).regs, x.1.f ≠ F.TAG_BUSY.id) x hx)
      · obtain ⟨_, _, rfl⟩ := List.mem_map.mp hx
        rfl
  simp only [State.on, State.rd, e]
  decide

theorem no_tag_free : freeTagOf allTagsBusy = none := by
  refine List.find?_eq_none.mpr fun t h => ?_
  have : t < 4096 := by have := List.mem_range.mp h; omega
  simp [tag_busy t this]

theorem lookupD_absent {K V : Type} [DecidableEq K] (m : List (K × V)) (k : K) (d : V) (h : ∀ e ∈ m, e.1 ≠ k) : lookupD m k d = d := by
  induction m with
  | nil => rfl
  | cons e r ih =>
    simp only [lookupD]
    rw [if_neg (h e List.mem_cons_self)]
    exact ih fun x hx => h x (List.mem_cons_of_mem _ hx)

theorem no_own_tag : masterTags allTagsBusy (.unit 40) = [] := by
  refine List.filter_eq_nil_iff.mpr fun t _ => ?_
  have e : lookupD allTagsBusy.regs ⟨F.TAG_MID.id, t, 0⟩ F.TAG_MID.rst = F.TAG_MID.rst := by
    refine lookupD_absent _ _ _ fun x hx hk => ?_
    rcases List.mem_append.mp hx with hx | hx
    · exact absurd (congrArg Key.f hk) ((by decide +kernel : ∀ x ∈ (st []).regs, x.1.f ≠ F.TAG_MID.id) x hx)
    · obtain ⟨_, _, rfl⟩ := List.mem_map.mp hx
      exact absurd (congrArg Key.f hk) (by decide : F.TAG_BUSY.id ≠ F.TAG_MID.id)
  simp only [State.rd, e]
  decide

theorem room_on_links (r : Held) (near : Bool) : linkRoom allTagsBusy r near = true := by
  have h (e n : Nat) (hn : n ≤ 64) : flitRoom allTagsBusy e n = true := by
    simpa [flitRoom, show allTagsBusy.q Q.retry e = [] from rfl] using hn
  simp only [linkRoom, List.all_eq_true, Bool.or_eq_true, Bool.and_eq_true]
  exact .inr ⟨fun e _ => h e _ (by split <;> omega), fun e _ => h e _ (by split <;> omega)⟩

theorem not_at_interface {r : Held} (h : r.who = .unit 40) : atInterface allTagsBusy r = false := by
  have e : (decide (2 ≤ allTagsBusy.rd F.PTM_STATE_CUR) && !isBMaster (.unit 40)) = false := by decide +kernel
  have m : masterLimit (.unit 40) = 32 := rfl
  simp only [atInterface, openRequests, linkHolds, placedOld, room_on_links, h, no_own_tag, e, m, show allTagsBusy.held = [] from rfl]
  simp

/-- The cryptographic unit hashes two bytes that lie in two lines of SRAM. -/
def twoLines : State := st [(F.CR_USER, 0, 0, 1), (F.CR_OP, 0, 0, 1), (F.CR_SRC_SRC, 0, 0, 0x2000001F), (F.CR_LEN_LEN, 0, 0, 2)]

theorem twoLines_read : ∀ l, twoLines.rd F.CR_SRC_SRC / 32 ≤ l → l < (twoLines.rd F.CR_SRC_SRC + twoLines.rd F.CR_LEN_LEN + 31) / 32 →
    (∃ k, targetOf (32 * l) = .sram k ∧ twoLines.rd F.DOM_STATE (44 + k) = 2) ∧ fwRefuses twoLines (.unit 46) 0 (32 * l) = none := by
  have e1 : twoLines.rd F.CR_SRC_SRC = 0x2000001F := by decide +kernel
  have e2 : twoLines.rd F.CR_LEN_LEN = 2 := by decide +kernel
  intro l h1 h2
  rw [e1] at h1 h2
  rw [e2] at h2
  have : l = 0x1000000 ∨ l = 0x1000001 := by omega
  rcases this with rfl | rfl
  · exact ⟨⟨0, by decide +kernel, by decide +kernel⟩, by decide +kernel⟩
  · exact ⟨⟨0, by decide +kernel, by decide +kernel⟩, by decide +kernel⟩

/-- The words of the groups whose statements share one form: `Computes`, `Maps`, `MapsImm`, `Divides`, `Loads`, `Stores`, `Atomics`.
The destination is g15, the operands g2 and g3. -/
def groupWords : List Nat :=
  ((List.range 16).map fun f => encA 1 15 2 3 0 f) ++ ([0, 1, 2, 3, 4, 8, 9, 10, 11].map fun f => encA 2 15 2 3 0 f) ++
  ([0, 1, 2, 3, 8].map fun f => encA 3 15 2 3 0 f) ++ ([4, 5].map fun f => encA 3 15 2 0 0 f) ++
  ([3, 4, 5].map fun f => encA 4 15 2 0 0 f) ++ ((List.range 4).map fun f => encA 5 14 2 4 0 f) ++
  ((List.range 6).map fun o => encI (8 + o) 15 2 0x20000) ++ ((List.range 6).map fun o => encI (0x18 + o) 14 2 0) ++
  ((List.range 4).map fun o => encI (0x20 + o) 14 2 0)

/-- Copy 0 before the word `w`, with an SRAM address in g2, and its own local memory, an address of no size but a byte and one nobody may
use in g3, g4 and g5; g15 may not go below the top of memory. -/
def beforeWord (w : Nat) : State :=
  rdy 0 w [(F.GPR, 0, 2, 0x20000000), (F.GPR, 0, 3, 0xE0000000), (F.GPR, 0, 4, 0x20000001), (F.GPR, 0, 5, 0x70000000),
    (F.STK_LIM_LIMIT, 0, 0, 2 ^ 29 - 1)]

/-- Each of these words can issue, at a copy that is in no handler; a result is refused in g15 and taken in another register (Results),
a divisor may be zero or not (Divides). -/
theorem test_witness_groups_issue : ∀ w ∈ groupWords, Ready (beforeWord w) (0 : Fin 48) w ∧ exl (beforeWord w) 0 = false ∧
    stackRefused (beforeWord w) 0 15 0 = true ∧ stackRefused (beforeWord w) 0 14 0 = false ∧ greg (beforeWord w) 0 6 = 0 ∧
    greg (beforeWord w) 0 3 ≠ 0 := by
  have h : ∀ w ∈ groupWords, readyB (beforeWord w) (0 : Fin 48) w = true ∧ exl (beforeWord w) 0 = false ∧
      stackRefused (beforeWord w) 0 15 0 = true ∧ stackRefused (beforeWord w) 0 14 0 = false ∧ greg (beforeWord w) 0 6 = 0 ∧
      greg (beforeWord w) 0 3 ≠ 0 := by decide +kernel
  exact fun w hw => ⟨ready_of (h w hw).1, (h w hw).2⟩

/-- The addresses that Loads, Stores and Atomics tell apart: one that is aligned and allowed, the core's own local memory, one that is
not aligned for two bytes or more, and one that the MPU denies. -/
theorem test_witness_group_addresses : let s := beforeWord (encI 0x22 14 2 0)
    mpuCheck s 0 .load 0x20000000 = none ∧ mpuCheck s 0 .store 0x20000000 = none ∧ mpuCheck s 0 .atomic 0x20000000 = none ∧
    ownLocal 0 0x20000000 = false ∧ isChecker s 0 = false ∧ ownLocal 0 0xE0000000 = true ∧ mpuCheck s 0 .store 0xE0000000 = none ∧
    memWriteFault s (.localMem (coreOf 0)) (localAlias 0 0xE0000000) 8 = none ∧
    (∀ n ∈ [2, 4, 8], (greg s 0 2).toNat % n = 0 ∧ (greg s 0 4).toNat % n ≠ 0) ∧
    mpuCheck s 0 .load 0x70000000 = some 0xFF ∧ mpuCheck s 0 .store 0x70000000 = some 0xFF ∧ mpuCheck s 0 .atomic 0x70000000 = some 0xFF := by
  decide +kernel


/-- A signed full image lies in slot 0 and is to be cast on. -/
def castState : State :=
  { (few [] [(F.FUSE_ROOT_HASH, 0, 0, 69427296770622603093289797288821763773216262944154026740789998747890451280546),
    (F.ROM_STAGE, 0, 0, 3), (F.PAT_ACTIVE_VALID, 0, 0, 0), (F.SU_TIER_RECOVER, 0, 0, 0)]) with mem := [(268435456, 80),
    (268435457, 78), (268435458, 80), (268435459, 84), (268435460, 1), (268435463, 1), (268435464, 188), (268435496, 5),
    (268435516, 116), (268435517, 38), (268435518, 50), (268435519, 108), (268435520, 1), (268435522, 1), (268435524, 144),
    (268435528, 8), (268435532, 1), (268435536, 2), (268435538, 1), (268435540, 152), (268435544, 8), (268435548, 1),
    (268435552, 3), (268435554, 1), (268435556, 160), (268435560, 8), (268435564, 1), (268435568, 8), (268435570, 1),
    (268435572, 168), (268435576, 8), (268435580, 1), (268435584, 12), (268435586, 1), (268435588, 176), (268435592, 8),
    (268435596, 1), (268435601, 8), (268435602, 1), (268435609, 12), (268435610, 1), (268435612, 20), (268435613, 40),
    (268435614, 60), (268435617, 4), (268435618, 1), (268435625, 12), (268435626, 1), (268435633, 8), (268435634, 1),
    (268435640, 16), (268435641, 147), (268435642, 197), (268435643, 3), (268435644, 107), (268435645, 23), (268435646, 209),
    (268435647, 242), (268435648, 225), (268435649, 44), (268435650, 66), (268435651, 71), (268435652, 248), (268435653, 188),
    (268435654, 230), (268435655, 229), (268435656, 99), (268435657, 164), (268435658, 64), (268435659, 242), (268435660, 119),
    (268435661, 3), (268435662, 125), (268435663, 129), (268435664, 45), (268435665, 235), (268435666, 51), (268435667, 160),
    (268435668, 244), (268435669, 161), (268435670, 57), (268435671, 69), (268435672, 216), (268435673, 152), (268435674, 194),
    (268435675, 150), (268435707, 1)] }

/-- A signed delta of one frame lies at the first bytes of SRAM and is to be verified. -/
def deltaState : State :=
  { (few [44, 120] [(F.LIVE_DELTA, 0, 0, 0x20000000), (F.LIVE_SECT, 4, 0, 1), (F.FUSE_ROOT_HASH, 0, 0,
    91639438687188605362837092053043049540633941237254081339626619881684224804807), (F.CR_USER, 0, 0, 3),
    (F.PAT_LIVE_STAT_STATE, 0, 0, 1)]) with mem := [(536870912, 80), (536870913, 78), (536870914, 80), (536870915, 84),
    (536870916, 1), (536870918, 1), (536870919, 1), (536870920, 92), (536870952, 1), (536870972, 39), (536870973, 71),
    (536870974, 80), (536870975, 239), (536870976, 4), (536870977, 1), (536870978, 1), (536870980, 80), (536870984, 8),
    (536870988, 1), (536870993, 4), (536870994, 1), (536871000, 222), (536871001, 126), (536871002, 100), (536871003, 89),
    (536871004, 107), (536871005, 23), (536871006, 209), (536871007, 242), (536871008, 225), (536871009, 44), (536871010, 66),
    (536871011, 71), (536871012, 248), (536871013, 188), (536871014, 230), (536871015, 229), (536871016, 99), (536871017, 164),
    (536871018, 64), (536871019, 242), (536871020, 119), (536871021, 3), (536871022, 125), (536871023, 129), (536871024, 45),
    (536871025, 235), (536871026, 51), (536871027, 160), (536871028, 244), (536871029, 161), (536871030, 57), (536871031, 69),
    (536871032, 216), (536871033, 152), (536871034, 194), (536871035, 150), (536871067, 1)] }

/-- Witnesses for StepRunsTheFrontCommand, one for each clause. -/
theorem test_witness_StepRunsTheFrontCommand :
    (∃ (c : Instr) (rest : List Instr) (s : State), s.pending = c :: rest) :=
  ⟨(.nop 0 : Instr), ([] : List Instr), { (st []) with pending := (.nop 0 : Instr) :: ([] : List Instr) }, by decide +kernel⟩

/-- Witnesses for AnIdleStepLetsTimePass, one for each clause. -/
theorem test_witness_AnIdleStepLetsTimePass :
    (∃ (s : State), s.pending = []) :=
  ⟨{ (st []) with pending := [] }, by decide +kernel⟩

/-- Witnesses for EveryStepKeepsTheCanonicalForm, one for each clause. -/
theorem test_witness_EveryStepKeepsTheCanonicalForm :
    (∃ (s : State) (t : State), Canon s ∧ step s = .next t) :=
  ⟨{ State.reset with regs := [], pending := [.pllLock] }, _, canon_empty, rfl⟩

/-- Witnesses for RegisterAndTallyWritesActFieldByField, one for each clause. -/
theorem test_witness_RegisterAndTallyWritesActFieldByField :
    (∃ (s : State) (src : Source) (a : BitVec 32) (n : Fin 6) (v : BitVec 256) (i : Instr) (l : Loc) (row : RegRow) (k : Nat) (g
      : FieldRow), i ∈ [.registerWrite src a n v, .tallyWrite src a n v] ∧ masterLive s src.who = true ∧ mustWait s ⟨src.who,
      src.priv, 1, a.toNat, 2 ^ n.val, v.toNat % 2 ^ (8 * 2 ^ n.val)⟩ = false ∧ gate s ⟨src.who, src.priv, 1, a.toNat, 2 ^
      n.val, v.toNat % 2 ^ (8 * 2 ^ n.val)⟩ = .reg l row k ∧ l.b ∈ [Blk.aon, .xr, .fab, .stump, .fw, .st, .cp, .qd, .sramc,
      .log, .rt, .phy] ∧ ticketed row = false ∧ ((fieldsOf row).map fun r => r.f.id).Nodup ∧ g ∈ fieldsOf row) ∧
    (∃ (s : State) (src : Source) (a : BitVec 32) (n : Fin 6) (v : BitVec 256) (i : Instr), i ∈ [.registerWrite src a n v,
      .tallyWrite src a n v] ∧ masterLive s src.who = true ∧ mustWait s (⟨src.who, src.priv, 1, a.toNat, 2 ^ n.val, v.toNat % 2
      ^ (8 * 2 ^ n.val)⟩ : Held) = false ∧ linkHolds s (⟨src.who, src.priv, 1, a.toNat, 2 ^ n.val, v.toNat % 2 ^ (8 * 2 ^
      n.val)⟩ : Held) = false) :=
  ⟨⟨(st []), (⟨.unit 40, true⟩ : Source), (0x50004100 : BitVec 32), (2 : Fin 6), (0 : BitVec 256), (.registerWrite (⟨.unit 40,
     true⟩ : Source) (0x50004100 : BitVec 32) (2 : Fin 6) (0 : BitVec 256) : Instr), (⟨.xr, 0, 0x100⟩ : Loc), (rowAt (⟨.xr, 0,
     0x100⟩ : Loc) : RegRow), (placeAt (⟨.xr, 0, 0x100⟩ : Loc) : Nat), ((fieldsOf (rowAt (⟨.xr, 0, 0x100⟩ : Loc) :
     RegRow)).headD ⟨0, F.PC, .rw⟩ : FieldRow), by decide +kernel⟩,
   ⟨(st []), (⟨.unit 40, true⟩ : Source), (0x50004100 : BitVec 32), (2 : Fin 6), (0 : BitVec 256), (.registerWrite (⟨.unit 40,
     true⟩ : Source) (0x50004100 : BitVec 32) (2 : Fin 6) (0 : BitVec 256) : Instr), by decide +kernel⟩⟩

/-- Witnesses for RailsOscillatorsAndClocksAreRecorded, one for each clause. -/
theorem test_witness_RailsOscillatorsAndClocksAreRecorded :
    (∃ (s : State) (r : Rail), railGood s r = true) ∧
    (∃ (s : State), railGood s .vusb33 = true) ∧
    (∃ (s : State), railGood s .vdda = true ∧ s.on F.BINDOFF = false) ∧
    (∃ (s : State), railGood s .vddioA = true) ∧
    (∃ (s : State), s.on F.PTM_SUPPLY_DROP_WARN = false) ∧
    (∃ (s : State), bUp s = true) ∧
    (∃ (s : State), bUp s = true ∧ s.on F.HSXO_ON = false) ∧
    (∃ (s : State), s.on F.PTM_CLKSTAT_REF = true) ∧
    (∃ (s : State), bUp s = true) ∧
    (∃ (s : State), s.on F.HSXO_SELECT 0 0 = true) ∧
    (∃ (s : State), s.on F.PLL_LOCKED = true ∧ s.on F.BINDOFF = false) ∧
    (∃ (s : State), s.on F.LSXO_FIT = true) ∧
    (∃ (s : State), s.on F.PTM_STATE_ONFRC = true ∧ s.on F.PLL_LOCKED = true) ∧
    (∃ (s : State), s.on F.PTM_STATE_ONFRC = true ∧ s.on F.PLL_LOCKED = true ∧ s.rd F.ROW_HELD = 0) ∧
    (∃ (s : State) (c : Fin 4), clockHeld s c.val = true ∧ clockReady s c.val = true) :=
  ⟨⟨(st []), (.vdd33 : Rail), by decide +kernel⟩,
   ⟨(st []), by decide +kernel⟩,
   ⟨(st [(F.BINDOFF, 0, 0, 0)]), by decide +kernel⟩,
   ⟨(st []), by decide +kernel⟩,
   ⟨(st [(F.PTM_SUPPLY_DROP_WARN, 0, 0, 0)]), by decide +kernel⟩,
   ⟨(st []), by decide +kernel⟩,
   ⟨(st [(F.HSXO_ON, 0, 0, 0)]), by decide +kernel⟩,
   ⟨(st [(F.PTM_CLKSTAT_REF, 0, 0, 1)]), by decide +kernel⟩,
   ⟨(st []), by decide +kernel⟩,
   ⟨(st [(F.HSXO_SELECT, 0, 0, 1)]), by decide +kernel⟩,
   ⟨(st [(F.PLL_LOCKED, 0, 0, 1), (F.BINDOFF, 0, 0, 0)]), by decide +kernel⟩,
   ⟨(st [(F.LSXO_FIT, 0, 0, 1)]), by decide +kernel⟩,
   ⟨(st [(F.PTM_STATE_ONFRC, 0, 0, 1), (F.PLL_LOCKED, 0, 0, 1)]), by decide +kernel⟩,
   ⟨(st [(F.PTM_STATE_ONFRC, 0, 0, 1), (F.PLL_LOCKED, 0, 0, 1), (F.ROW_HELD, 0, 0, 0)]), by decide +kernel⟩,
   ⟨(st [(F.CLK_HOLD, (0 : Fin 4).val, 0, 1), (F.HSXO_ON, 0, 0, 1), (F.USB_EN, 0, 0, 1)]), (0 : Fin 4), by decide +kernel⟩⟩

/-- Witnesses for PowerStatesFollowRequestsAndWakes, one for each clause. -/
theorem test_witness_PowerStatesFollowRequestsAndWakes :
    (∃ (s : State), s.on F.ENTRY_REQ = true ∧ anyTask s = true) ∧
    (∃ (s : State), s.rd F.PTM_STATE_REQ_REQ = 1 ∧ s.rd F.PTM_STATE_CUR = 0 ∧ anyTask s = false ∧ anyReady s = false) ∧
    (∃ (s : State) (b : Fin 12), (s.rd F.PTM_WAKE_EN_EN).testBit b.val = true ∧ s.on F.ENTRY_REQ = false ∧ s.rd F.PTM_STATE_CUR
      = 1) ∧
    (∃ (s : State) (b : Fin 12), (s.rd F.PTM_WAKE_EN_EN).testBit b.val = true ∧ entryLate s = true) ∧
    (∃ (s : State) (b : Fin 12), (s.rd F.PTM_WAKE_EN_EN).testBit b.val = true ∧ s.on F.ENTRY_REQ = true ∧ entryLate s = false ∧
      wakeAllowed s (s.rd F.ENTRY_REQ) b.val = true) ∧
    (∃ (s : State), s.on F.ENTRY_REQ = true ∧ anyTask s = false ∧ s.rd F.KEY_STAT_STATE ≠ 3 ∧ entryLate s = false) ∧
    (∃ (s : State), s.on F.PTM_SUPPLY_DROP_WARN = true ∧ dropCmp s = false ∧ s.rd F.KEY_STAT_STATE ≠ 1) ∧
    (∃ (s : State), s.on F.PLL_LOCKED = true) ∧
    (∃ (s : State), s.rd F.PTM_STATE_CUR ≤ 2 ∧ bUp s = true) ∧
    (∃ (s : State), s.rd F.PTM_TEMP_TS_B ≠ 0x80 ∧ 115 < signedOf 8 (s.rd F.PTM_TEMP_TS_B)) :=
  ⟨⟨(st [(F.ENTRY_REQ, 0, 0, 1), (F.HASTASK, 0, 0, 1)]), by decide +kernel⟩,
   ⟨(st [(F.PTM_STATE_REQ_REQ, 0, 0, 1), (F.PTM_STATE_CUR, 0, 0, 0)]), by decide +kernel⟩,
   ⟨(st [(F.PTM_WAKE_EN_EN, 0, 0, 2 ^ ((0 : Fin 12).val)), (F.ENTRY_REQ, 0, 0, 0), (F.PTM_STATE_CUR, 0, 0, 1)]), (0 : Fin 12),
     by decide +kernel⟩,
   ⟨(st [(F.PTM_WAKE_EN_EN, 0, 0, 2 ^ ((0 : Fin 12).val)), (F.ENTRY_REQ, 0, 0, 2), (F.LG_STAT_STATE, 0, 0, 2)]), (0 : Fin 12),
     by decide +kernel⟩,
   ⟨(st [(F.PTM_WAKE_EN_EN, 0, 0, 2 ^ ((0 : Fin 12).val)), (F.ENTRY_REQ, 0, 0, 1)]), (0 : Fin 12), by decide +kernel⟩,
   ⟨(st [(F.ENTRY_REQ, 0, 0, 1), (F.KEY_STAT_STATE, 0, 0, (3) + 1)]), by decide +kernel⟩,
   ⟨(st [(F.PTM_SUPPLY_DROP_WARN, 0, 0, 1), (F.KEY_STAT_STATE, 0, 0, (1) + 1)]), by decide +kernel⟩,
   ⟨(st [(F.PLL_LOCKED, 0, 0, 1)]), by decide +kernel⟩,
   ⟨(st []), by decide +kernel⟩,
   ⟨(st [(F.PTM_TEMP_TS_B, 0, 0, 120), (F.PTM_TEMP_TS_B, 0, 0, (0x80) + 1)]), by decide +kernel⟩⟩

/-- Witnesses for DomainsDrainSwitchAndAnswerHeldRequests, one for each clause. -/
theorem test_witness_DomainsDrainSwitchAndAnswerHeldRequests :
    (∃ (s : State) (d : Fin 136), drainDue s d.val = true ∧ (domCtrl s d.val = true → entryLate s = false)) ∧
    (∃ (s : State) (d : Fin 136), s.rd F.DOM_STATE d.val = 3) ∧
    (∃ (s : State) (d : Fin 136), s.rd F.DOM_STATE d.val = 3 ∧ domCtrl s d.val = false ∧ s.rd F.KEY_STAT_STATE ≠ 3 ∧ s.held = []
      ∧ loadsOf s d.val = []) ∧
    (∃ (s : State) (d : Fin 136), s.rd F.DOM_STATE d.val = 3 ∧ domCtrl s d.val = false ∧ s.rd F.KEY_STAT_STATE ≠ 3 ∧ s.held = []
      ∧ domainBusy s d.val = false) ∧
    (∃ (s : State) (d : Fin 136), s.rd F.DOM_STATE d.val = 3 ∧ domCtrl s d.val = true ∧ domRailsGood s d.val = true ∧ s.on
      F.ENTRY_REQ = false ∧ s.rd F.PTM_STATE_CUR ≤ 1 ∧ s.rd F.KEY_STAT_STATE ≠ 3 ∧ s.held = [] ∧ loadsOf s d.val = []) ∧
    (∃ (s : State) (d : Fin 136), s.rd F.DOM_STATE d.val = 1 ∧ domRailsGood s d.val = true ∧ (∀ e ∈ domDeps d.val, domOn s e =
      true) ∧ s.held = []) ∧
    (∃ (s : State) (d : Fin 136), s.rd F.DOM_STATE d.val = 1 ∧ s.on F.WAKING = false ∧ s.held = []) ∧
    (∃ (s : State) (m : Fin 64) (r : Held), s.held = [r] ∧ r.who = .unit m ∧ gate s r = .hold .power ∧ masterLive s (.unit m) =
      true) ∧
    (∃ (s : State) (m : Fin 64) (r : Held), s.held = [r] ∧ r.who = .unit m ∧ gate s r = .hold .live ∧ masterLive s (.unit m) =
      true) ∧
    (∃ (s : State) (m : Fin 64) (r : Held) (l : Loc), s.held = [r] ∧ r.who = .unit m ∧ gate s r = .hold .room ∧ locate r.who
      r.addr = some l ∧ masterLive s (.unit m) = true) :=
  ⟨⟨(st [(F.PTM_DOM_CTRL_CTRL, 0, 0, 0)]), (0 : Fin 136), by decide +kernel⟩,
   ⟨(st [(F.DOM_STATE, (0 : Fin 136).val, 0, 3)]), (0 : Fin 136), by decide +kernel⟩,
   ⟨{ (st [(F.DOM_STATE, (0 : Fin 136).val, 0, 3), (F.PTM_DOM_CTRL_CTRL, (0 : Fin 136).val / 32, 0, 0), (F.KEY_STAT_STATE, 0, 0,
     (3) + 1)]) with held := [] }, (0 : Fin 136), by decide +kernel⟩,
   ⟨{ (st [(F.DOM_STATE, (0 : Fin 136).val, 0, 3), (F.PTM_DOM_CTRL_CTRL, (0 : Fin 136).val / 32, 0, 0), (F.KEY_STAT_STATE, 0, 0,
     (3) + 1)]) with held := [] }, (0 : Fin 136), by decide +kernel⟩,
   ⟨{ (st [(F.DOM_STATE, (0 : Fin 136).val, 0, 3), (F.ENTRY_REQ, 0, 0, 0), (F.KEY_STAT_STATE, 0, 0, (3) + 1)]) with held := []
     }, (0 : Fin 136), by decide +kernel⟩,
   ⟨{ (st [(F.DOM_STATE, (0 : Fin 136).val, 0, 1)]) with held := [] }, (0 : Fin 136), by decide +kernel⟩,
   ⟨{ (st [(F.DOM_STATE, (0 : Fin 136).val, 0, 1), (F.WAKING, 0, 0, 0)]) with held := [] }, (0 : Fin 136), by decide +kernel⟩,
   ⟨{ (st [(F.DOM_STATE, 44, 0, 1)]) with held := [(⟨.unit 40, true, 0, 0x20000000, 4, 0⟩ : Held)] }, (40 : Fin 64), (⟨.unit 40,
     true, 0, 0x20000000, 4, 0⟩ : Held), by decide +kernel⟩,
   ⟨{ { (st [(F.PAT_LIVE_STAT_STATE, 0, 0, 2)]) with queues := [(⟨Q.delta, 0, 0⟩, frameNums ⟨7, 1, 0, [0], 0⟩)] } with held :=
     [(⟨.unit 40, true, 0, regAddr .le 0 0x100, 4, 0⟩ : Held)] }, (40 : Fin 64), (⟨.unit 40, true, 0, regAddr .le 0 0x100, 4, 0⟩
     : Held), by decide +kernel⟩,
   ⟨{ { (st [(F.PT_CTRL_EN, 0, 0, 1)]) with queues := [(⟨Q.usb, 8, 1⟩, [5])] } with held := [(⟨.unit 40, true, 1, regAddr .usb 0
     0x110, 8, 3 * 2 ^ 32 + 8 * 2 ^ 35⟩ : Held)] }, (40 : Fin 64), (⟨.unit 40, true, 1, regAddr .usb 0 0x110, 8, 3 * 2 ^ 32 + 8
     * 2 ^ 35⟩ : Held), (⟨.usb, 0, 0x110⟩ : Loc), by decide +kernel⟩⟩

/-- Witnesses for FusesAndTrainingDecideWhichDiesTakePart, one for each clause. -/
theorem test_witness_FusesAndTrainingDecideWhichDiesTakePart :
    (∃ (s : State), bUp s = true ∧ s.on F.BINDOFF = false) ∧
    (∃ (s : State), s.on F.FUSE_VALID = true ∧ bUp s = true ∧ s.on F.TIER0_ONLY = false) ∧
    (∃ (s : State), s.on F.PLL_LOCKED = true ∧ s.on F.FUSE_VALID = true ∧ s.on F.TIER0_ONLY = false ∧ s.on F.BINDOFF = false ∧
      s.rd F.STK_DIESTATE_C_STATE = 1 ∧ s.rd F.STK_DIESTATE_M_STATE = 1) :=
  ⟨⟨(st [(F.BINDOFF, 0, 0, 0)]), by decide +kernel⟩,
   ⟨(st [(F.FUSE_VALID, 0, 0, 1), (F.TIER0_ONLY, 0, 0, 0)]), by decide +kernel⟩,
   ⟨(st [(F.PLL_LOCKED, 0, 0, 1), (F.FUSE_VALID, 0, 0, 1), (F.TIER0_ONLY, 0, 0, 0), (F.BINDOFF, 0, 0, 0),
     (F.STK_DIESTATE_C_STATE, 0, 0, 1), (F.STK_DIESTATE_M_STATE, 0, 0, 1)]), by decide +kernel⟩⟩

/-- Witnesses for LinkEndsAcceptInSequenceAndAcknowledge, one for each clause. -/
theorem test_witness_LinkEndsAcceptInSequenceAndAcknowledge :
    (∃ (s : State) (e : Fin 64) (f : BitVec 256), 2 ≤ s.rd F.BUNDLE_STATE (e.val / 2) ∧ farUp s (e.val / 2) = true ∧ lcrc
      f.toNat = bits f.toNat 255 240 ∧ flitKind f.toNat ≤ 8 ∧ sequenced (flitKind f.toNat) = true ∧ flitKind f.toNat ≠ 6 ∧
      flitKind f.toNat ≠ 7 ∧ f.toNat % 256 = s.rd F.LK_EXPECT e.val ∧ s.held = []) ∧
    (∃ (s : State) (e : Fin 64) (f : BitVec 256), 2 ≤ s.rd F.BUNDLE_STATE (e.val / 2) ∧ farUp s (e.val / 2) = true ∧ lcrc
      f.toNat ≠ bits f.toNat 255 240 ∧ s.held = []) ∧
    (∃ (s : State) (e : Fin 64) (q : BitVec 8) (old : List Nat) (rest : List Nat) (f : Nat), s.q Q.retry e.val = old ++ f ::
      rest ∧ f % 256 = q.toNat ∧ (∀ g ∈ old, g % 256 ≠ q.toNat) ∧ old.length < 64 ∧ farUp s (e.val / 2) = true ∧ s.held = []) ∧
    (∃ (s : State) (e : Fin 64), farUp s (e.val / 2) = true) ∧
    (∃ (s : State) (e : Fin 64), s.on F.LK_UNACKED e.val = true) ∧
    (∃ (s : State), cUp s = true ∧ s.on F.HB_SUSPENDED = false) :=
  ⟨⟨{ (st [(F.BUNDLE_STATE, ((0 : Fin 64).val / 2), 0, 2)]) with held := [] }, (0 : Fin 64),
     (0xdaa3000000000000000000000000000000000000000000000000000000000100 : BitVec 256), by decide +kernel⟩,
   ⟨{ (st [(F.BUNDLE_STATE, ((0 : Fin 64).val / 2), 0, 2)]) with held := [] }, (0 : Fin 64), (0 : BitVec 256),
     by decide +kernel⟩,
   ⟨{ { (st []) with queues := [(⟨Q.retry, (0 : Fin 64).val, 0⟩, ([] : List Nat) ++ (0 : Nat) :: ([] : List Nat))] } with held
     := [] }, (0 : Fin 64), (0 : BitVec 8), ([] : List Nat), ([] : List Nat), (0 : Nat), by decide +kernel⟩,
   ⟨(st []), (0 : Fin 64), by decide +kernel⟩,
   ⟨(st [(F.LK_UNACKED, (0 : Fin 64).val, 0, 1)]), (0 : Fin 64), by decide +kernel⟩,
   ⟨(st [(F.HB_SUSPENDED, 0, 0, 0)]), by decide +kernel⟩⟩

/-- Witnesses for LossesAndLaneTestsAreDeclared, one for each clause. -/
theorem test_witness_LossesAndLaneTestsAreDeclared :
    (∃ (s : State), cUp s = true ∧ s.on F.HB_SUSPENDED = false ∧ s.on F.HB_SEEN = false) ∧
    (∃ (s : State), cUp s = true ∧ s.on F.HB_SUSPENDED = false ∧ s.on F.HB_SEEN = false) ∧
    (∃ (s : State), mUp s = true ∧ s.on F.HB_SUSPENDED 1 = false) ∧
    (∃ (s : State) (k : Fin 16), s.rd F.LG_STAT_STATE k.val = 3 ∧ s.on F.ORPHAN_RUN k.val = true) ∧
    (∃ (s : State) (l : Fin 2) (k : Nat), s.on F.LBIST_CFG_EN = true ∧ s.on F.LT_ACTIVE l.val = false ∧ trigBundle s l.val =
      none ∧ flitRoom s (2 * (nextLane s l.val).1) 1 = true ∧ s.rd F.BUNDLE_STATE (nextLane s l.val).1 = 2 ∧ laneInUse s
      (nextLane s l.val).1 (nextLane s l.val).2 = true ∧ freeSpare s (nextLane s l.val).1 = some k ∧ retrying s (nextLane s
      l.val).1 = false) ∧
    (∃ (s : State) (l : Fin 2), s.on F.LT_ACTIVE l.val = true) ∧
    (∃ (s : State) (l : Fin 2), s.on F.LT_ACTIVE l.val = true) ∧
    (∃ (s : State), mUp s = true ∧ s.on F.HB_SUSPENDED 1 = false ∧ (∀ n, n < 8 → s.on F.CTR_RAISING n = false) ∧ (∀ k ∈ busyTags
      s, tagWrites s k = false) ∧ s.rd F.KEY_STAT_STATE ≠ 3) ∧
    (∃ (s : State), mUp s = true ∧ s.on F.HB_SUSPENDED 1 = false ∧ (∀ n, n < 8 → s.on F.CTR_RAISING n = false) ∧ (∀ k ∈ busyTags
      s, tagWrites s k = false) ∧ s.rd F.KEY_STAT_STATE = 3 ∧ (s.q Q.keyRec).length = 9) ∧
    (∃ (s : State) (n : Nat), mUp s = true ∧ s.on F.HB_SUSPENDED 1 = false ∧ n < 8 ∧ s.on F.CTR_RAISING n = true ∧ (∀ k ∈
      busyTags s, tagWrites s k = false) ∧ s.rd F.KEY_STAT_STATE ≠ 3 ∧ (∀ k, k < 8 → k ≠ n → s.on F.CTR_RAISING k = false)) :=
  ⟨⟨(st [(F.HB_SUSPENDED, 0, 0, 0), (F.HB_SEEN, 0, 0, 0)]), by decide +kernel⟩,
   ⟨(st [(F.HB_SUSPENDED, 0, 0, 0), (F.HB_SEEN, 0, 0, 0)]), by decide +kernel⟩,
   ⟨(st [(F.HB_SUSPENDED, 1, 0, 0)]), by decide +kernel⟩,
   ⟨(st [(F.LG_STAT_STATE, (0 : Fin 16).val, 0, 3), (F.ORPHAN_RUN, (0 : Fin 16).val, 0, 1)]), (0 : Fin 16), by decide +kernel⟩,
   ⟨(st [(F.BUNDLE_STATE, 0, 0, 2), (F.LBIST_CFG_EN, 0, 0, 1), (F.LT_ACTIVE, (0 : Fin 2).val, 0, 0)]), (0 : Fin 2), (0 : Nat),
     by decide +kernel⟩,
   ⟨(st [(F.LT_ACTIVE, (0 : Fin 2).val, 0, 1)]), (0 : Fin 2), by decide +kernel⟩,
   ⟨(st [(F.LT_ACTIVE, (0 : Fin 2).val, 0, 1)]), (0 : Fin 2), by decide +kernel⟩,
   ⟨(st [(F.HB_SUSPENDED, 1, 0, 0), (F.KEY_STAT_STATE, 0, 0, (3) + 1)]), by decide +kernel⟩,
   ⟨{ (st [(F.HB_SUSPENDED, 1, 0, 0), (F.KEY_STAT_STATE, 0, 0, 3)]) with queues := [(⟨Q.keyRec, 0, 0⟩, [1, 2, 3, 4, 5, 6, 7, 8,
     9])] }, by decide +kernel⟩,
   ⟨(st [(F.HB_SUSPENDED, 1, 0, 0), (F.CTR_RAISING, (0 : Nat), 0, 1), (F.KEY_STAT_STATE, 0, 0, (3) + 1)]), (0 : Nat),
     by decide +kernel⟩⟩

/-- Witnesses for TagsAreTakenTimedAndFreed, one for each clause. -/
theorem test_witness_TagsAreTakenTimedAndFreed :
    (∃ (s : State) (src : Source) (op : BitVec 4) (a : BitVec 32) (n : Fin 6) (v : BitVec 256) (k : Nat), masterLive s src.who =
      true ∧ crosses src.who a.toNat = true ∧ op ≠ 2 ∧ atInterface s (reqOf src op.toNat a.toNat (2 ^ n.val) v.toNat) = false ∧
      dieAnswers s src.who a.toNat = true ∧ fwRefuses s src.who op.toNat a.toNat = none ∧ freeTagOf s = some k) ∧
    (∃ (s : State) (src : Source) (op : BitVec 4) (a : BitVec 32) (n : Fin 6) (v : BitVec 256), masterLive s src.who = true ∧
      crosses src.who a.toNat = true ∧ op ≠ 2 ∧ atInterface s (reqOf src op.toNat a.toNat (2 ^ n.val) v.toNat) = false ∧
      dieAnswers s src.who a.toNat = true ∧ fwRefuses s src.who op.toNat a.toNat = none ∧ freeTagOf s = none) ∧
    (∃ (s : State) (h : Nat) (k : Nat) (rest : List Nat), s.q Q.headers = h :: rest ∧ freeTagOf s = some k ∧ dieAnswers s
      (headerOf h).who (headerOf h).addr = true) ∧
    (∃ (s : State) (h : Nat) (k : Nat) (rest : List Nat), s.q Q.headers = h :: rest ∧ freeTagOf s = some k ∧ h % 256 ≠ lostCode
      ∧ dieAnswers s (headerOf h).who (headerOf h).addr = false ∧ masterThere s (headerOf h).who = true) ∧
    (∃ (s : State) (k : BitVec 12), s.on F.TAG_BUSY k.toNat = true ∧ s.rd F.TAG_MID k.toNat ≠ lostCode ∧ s.rd F.TAG_SINCE
      k.toNat + 2000 * s.rd F.TAG_TMO k.toNat ≤ s.time ∧ s.held = []) ∧
    (∃ (s : State) (k : BitVec 12), s.on F.TAG_BUSY k.toNat = true ∧ s.time < s.rd F.TAG_SINCE k.toNat + 2000 * s.rd F.TAG_TMO
      k.toNat ∧ s.rd F.TAG_OP k.toNat ≤ 4 ∧ masterThere s (masterAt (s.rd F.TAG_MID k.toNat)) = true ∧ s.rd F.TAG_MID k.toNat ≠
      lostCode ∧ cDomainLive s (s.rd F.TAG_DOM k.toNat) = true ∧ s.held = []) ∧
    (∃ (s : State) (k : BitVec 12), s.on F.TAG_BUSY k.toNat = false ∧ s.held = []) ∧
    (∃ (s : State) (sh : Shadow) (rest : List Shadow) (n : Nat) (j : Nat), s.shadows = sh :: rest ∧ shadowDue s = true ∧
      sliceShadowAt sh.addr = some (n, j) ∧ j < 4 ∧ domOn s (15 + n / 2) = true) ∧
    (∃ (s : State) (sh : Shadow) (rest : List Shadow), s.shadows = sh :: rest ∧ shadowDue s = true ∧ sliceShadowAt sh.addr =
      none ∧ strobeWidthAt sh.addr = none) :=
  ⟨⟨(st []), (⟨.unit 40, true⟩ : Source), (0 : BitVec 4), (0x10000000 : BitVec 32), (0 : Fin 6), (0 : BitVec 256), (0 : Nat),
     by decide +kernel⟩,
   ⟨allTagsBusy, (⟨.unit 40, true⟩ : Source), (0 : BitVec 4), (0x10000000 : BitVec 32), (0 : Fin 6), (0 : BitVec 256),
     by decide +kernel, by decide +kernel, by decide +kernel, not_at_interface rfl, by decide +kernel, by decide +kernel,
     no_tag_free⟩,
   ⟨{ (st []) with queues := [(⟨Q.headers, 0, 0⟩, (0 : Nat) :: ([] : List Nat))] }, (0 : Nat), (0 : Nat), ([] : List Nat),
     by decide +kernel⟩,
   ⟨{ (st [(F.STK_DIESTATE_M_STATE, 0, 0, 0), (F.PTM_STATE_CUR, 0, 0, 0)]) with queues := [(⟨Q.headers, 0, 0⟩, (46 + 0x10000000
     * 2 ^ 16 : Nat) :: ([] : List Nat))] }, (46 + 0x10000000 * 2 ^ 16 : Nat), (0 : Nat), ([] : List Nat), by decide +kernel⟩,
   ⟨{ (st [(F.TAG_BUSY, (0 : BitVec 12).toNat, 0, 1), (F.TAG_MID, (0 : BitVec 12).toNat, 0, (lostCode) + 1)]) with held := [] },
     (0 : BitVec 12), by decide +kernel⟩,
   ⟨{ (st [(F.TAG_TMO, 0, 0, 20), (F.TAG_MID, 0, 0, 40), (F.TAG_BUSY, (0 : BitVec 12).toNat, 0, 1)]) with held := [] }, (0 :
     BitVec 12), by decide +kernel⟩,
   ⟨{ (st [(F.TAG_BUSY, (0 : BitVec 12).toNat, 0, 0)]) with held := [] }, (0 : BitVec 12), by decide +kernel⟩,
   ⟨{ (st []) with shadows := (⟨0x50010120, 5⟩ : Shadow) :: ([] : List Shadow) }, (⟨0x50010120, 5⟩ : Shadow), ([] : List
     Shadow), (0 : Nat), (0 : Nat), by decide +kernel⟩,
   ⟨{ (st []) with shadows := (⟨0x50010100, 5⟩ : Shadow) :: ([] : List Shadow) }, (⟨0x50010100, 5⟩ : Shadow), ([] : List
     Shadow), by decide +kernel⟩⟩

/-- Witnesses for MemoryRequestsReadWriteAndUpdateSram, one for each clause. -/
theorem test_witness_MemoryRequestsReadWriteAndUpdateSram :
    (∃ (s : State) (src : Source) (a : BitVec 32) (n : Fin 6) (k : Nat), SetsOut s (reqOf src 0 a.toNat (2 ^ n.val) 0) ∧
      targetOf a.toNat = .sram k ∧ s.rd F.DOM_STATE (44 + k) = 2 ∧ fwRefuses s src.who 0 a.toNat = none ∧ alignedReq a.toNat (2
      ^ n.val) = true ∧ s.bad = []) ∧
    (∃ (s : State) (src : Source) (a : BitVec 32) (n : Fin 6) (v : BitVec 256) (k : Nat), SetsOut s (reqOf src 1 a.toNat (2 ^
      n.val) v.toNat) ∧ targetOf a.toNat = .sram k ∧ s.rd F.DOM_STATE (44 + k) = 2 ∧ fwRefuses s src.who 1 a.toNat = none ∧
      alignedReq a.toNat (2 ^ n.val) = true ∧ s.bad = []) ∧
    (∃ (s : State) (src : Source) (a : BitVec 32) (wide : Bool) (v : BitVec 64) (k : Nat), SetsOut s (reqOf src 3 a.toNat (if
      wide then 8 else 4) v.toNat) ∧ targetOf a.toNat = .sram k ∧ s.rd F.DOM_STATE (44 + k) = 2 ∧ fwRefuses s src.who 3 a.toNat
      = none ∧ alignedReq a.toNat (if wide then 8 else 4) = true ∧ s.bad = []) ∧
    (∃ (s : State) (src : Source) (a : BitVec 32) (wide : Bool) (v : BitVec 64) (k : Nat), SetsOut s (reqOf src 4 a.toNat (if
      wide then 8 else 4) v.toNat) ∧ targetOf a.toNat = .sram k ∧ s.rd F.DOM_STATE (44 + k) = 2 ∧ fwRefuses s src.who 4 a.toNat
      = none ∧ alignedReq a.toNat (if wide then 8 else 4) = true ∧ s.bad = []) ∧
    (∃ (s : State) (src : Source) (a : BitVec 32) (n : Fin 6) (v : BitVec 256), masterLive s src.who = true ∧ mustWait s (reqOf
      src 1 a.toNat (2 ^ n.val) v.toNat) = false ∧ linkHolds s (reqOf src 1 a.toNat (2 ^ n.val) v.toNat) = false ∧ dieAnswers s
      src.who a.toNat = false) ∧
    (∃ (s : State) (src : Source) (a : BitVec 32) (n : Fin 6) (v : BitVec 256) (f : Nat), SetsOut s (reqOf src 1 a.toNat (2 ^
      n.val) v.toNat) ∧ fwRefuses s src.who 1 a.toNat = some f ∧ s.on F.FW_STAT_NEW f = false) :=
  ⟨⟨(st [(F.DOM_STATE, (44 + (0 : Nat)), 0, 2)]), (⟨.unit 40, true⟩ : Source), (0x20000000 : BitVec 32), (0 : Fin 6), (0 : Nat),
     setsOut_of (by decide +kernel), by decide +kernel, by decide +kernel, by decide +kernel, by decide +kernel,
     by decide +kernel⟩,
   ⟨(st [(F.DOM_STATE, (44 + (0 : Nat)), 0, 2)]), (⟨.unit 40, true⟩ : Source), (0x20000000 : BitVec 32), (0 : Fin 6), (0 :
     BitVec 256), (0 : Nat), setsOut_of (by decide +kernel), by decide +kernel, by decide +kernel, by decide +kernel,
     by decide +kernel, by decide +kernel⟩,
   ⟨(st [(F.DOM_STATE, (44 + (0 : Nat)), 0, 2)]), (⟨.unit 40, true⟩ : Source), (0x20000000 : BitVec 32), (true : Bool), (0 :
     BitVec 64), (0 : Nat), setsOut_of (by decide +kernel), by decide +kernel, by decide +kernel, by decide +kernel,
     by decide +kernel, by decide +kernel⟩,
   ⟨(st [(F.DOM_STATE, (44 + (0 : Nat)), 0, 2)]), (⟨.unit 40, true⟩ : Source), (0x20000000 : BitVec 32), (true : Bool), (0 :
     BitVec 64), (0 : Nat), setsOut_of (by decide +kernel), by decide +kernel, by decide +kernel, by decide +kernel,
     by decide +kernel, by decide +kernel⟩,
   ⟨(st [(F.STK_DIESTATE_C_STATE, 0, 0, 0)]), (⟨.unit 47, true⟩ : Source), (0x20000000 : BitVec 32), (0 : Fin 6), (0 : BitVec
     256), by decide +kernel⟩,
   ⟨(st [(F.FW_C_LIVE, 0, 0, 1), (F.FW_VALID_VALID, 0, 0, 1), (F.FW_BASE_BASE, 0, 0, 0x20000000 / 32), (F.FW_LAST_LAST, 0, 0,
     0x2000001F), (F.FW_STAT_NEW, (0 : Nat), 0, 0)]), (⟨.unit 40, true⟩ : Source), (0x20000000 : BitVec 32), (0 : Fin 6), (0 :
     BitVec 256), (0 : Nat), setsOut_of (by decide +kernel), by decide +kernel, by decide +kernel⟩⟩

/-- Witnesses for ResetsAndStartUpClimbTheTiers, one for each clause. -/
theorem test_witness_ResetsAndStartUpClimbTheTiers :
    (∃ (s : State) (ns : BitVec 32), railGood s .vdd33 = true ∧ 1000 ≤ ns.toNat) ∧
    (∃ (ns : BitVec 32), ns.toNat < 250) ∧
    (∃ (s : State), cUp s = true ∧ s.on F.PWD_RUN = true ∧ s.on F.PWD_LEFT = false ∧ s.rd F.PTM_STATE_CUR ≤ 1) ∧
    (∃ (s : State), mayRelease s = true ∧ s.rd F.STK_DIESTATE_C_STATE = 2 ∧ s.on F.TIER0_ONLY = false ∧ s.on F.SU_TIER_GIVE_UP =
      false ∧ railGood s .vcore = true) ∧
    (∃ (s : State), mayRelease s = true ∧ s.rd F.STK_DIESTATE_M_STATE = 2 ∧ s.on F.M_RETURN = false) ∧
    (∃ (s : State), mayRelease s = true ∧ s.rd F.STK_DIESTATE_M_STATE = 2 ∧ s.on F.M_RETURN = true ∧ cUp s = true) ∧
    (∃ (s : State), romRuns s 1 = true ∧ warmPath s = false) ∧
    (∃ (s : State), romRuns s 1 = true ∧ warmPath s = false ∧ s.on F.M_ABSENT = false ∧ s.rd F.SU_TIER_BOOT_STRAP = 0) ∧
    (∃ (s : State) (i : Nat), romRuns s 2 = true ∧ warmPath s = false ∧ s.on F.ROM_MLOST = false ∧ s.on F.M_ABSENT = false ∧ mUp
      s = true ∧ nextSlot s = some i) ∧
    (∃ (s : State), romRuns s 3 = true ∧ s.on F.PAT_ACTIVE_VALID = false ∧ s.on F.SU_TIER_RECOVER = false ∧ (castFull (s.down
      F.CAST_FAILED) (slotAddr (s.rd F.CHOSEN_PAT)) (s.rd F.CHOSEN_PAT) none).on F.CAST_FAILED = false) ∧
    (∃ (s : State), romRuns s 4 = true) :=
  ⟨⟨(st []), (1000 : BitVec 32), by decide +kernel⟩,
   ⟨(0 : BitVec 32), by decide +kernel⟩,
   ⟨(st [(F.PWD_RUN, 0, 0, 1), (F.PWD_LEFT, 0, 0, 0)]), by decide +kernel⟩,
   ⟨(st [(F.STK_DIESTATE_C_STATE, 0, 0, 2), (F.TIER0_ONLY, 0, 0, 0), (F.SU_TIER_GIVE_UP, 0, 0, 0)]), by decide +kernel⟩,
   ⟨(st [(F.STK_DIESTATE_M_STATE, 0, 0, 2), (F.M_RETURN, 0, 0, 0)]), by decide +kernel⟩,
   ⟨(st [(F.STK_DIESTATE_M_STATE, 0, 0, 2), (F.M_RETURN, 0, 0, 1)]), by decide +kernel⟩,
   ⟨(st [(F.ROM_STAGE, 0, 0, 1)]), by decide +kernel⟩,
   ⟨(st [(F.ROM_STAGE, 0, 0, 1), (F.M_ABSENT, 0, 0, 0), (F.SU_TIER_BOOT_STRAP, 0, 0, 0)]), by decide +kernel⟩,
   ⟨(st [(F.ROM_STAGE, 0, 0, 2), (F.ROM_MLOST, 0, 0, 0), (F.M_ABSENT, 0, 0, 0)]), (0 : Nat), by decide +kernel⟩,
   ⟨castState, by decide +kernel⟩,
   ⟨(st [(F.ROM_STAGE, 0, 0, 4)]), by decide +kernel⟩⟩

/-- Witnesses for RecoveryTombstoneAndWakeFollowTheirRules, one for each clause. -/
theorem test_witness_RecoveryTombstoneAndWakeFollowTheirRules :
    (∃ (s : State), recoveryOffers s false = true ∧ s.rd F.REC_PORT = 0 ∧ s.on F.TS_STAT_BUSY = false ∧ s.on F.TS_REQ = false) ∧
    (∃ (s : State) (l : List (BitVec 8)), recoveryOffers s false = true ∧ s.rd F.REC_PORT = 0 ∧ s.q Q.recovery 1 = [] ∧ l.length
      < 4) ∧
    (∃ (s : State) (l : List (BitVec 8)), recoveryOffers s false = true ∧ s.rd F.REC_PORT = 0 ∧ s.q Q.recovery 1 = [] ∧ 4 ≤
      l.length ∧ 57344 < ofBytes (l.take 4)) ∧
    (∃ (s : State), s.on F.REC_MODE = true) ∧
    (∃ (s : State), s.on F.TS_STAT_BUSY = false ∧ s.rd F.PTM_STATE_CUR ≠ 4 ∧ s.rd F.STK_DIESTATE_TIER ≠ 2) ∧
    (∃ (s : State), s.on F.TS_REQ = true ∧ s.on F.TS_STAT_BUSY = false) ∧
    (∃ (s : State), s.on F.TS_STAT_BUSY = true) ∧
    (∃ (s : State), s.on F.LEDGER_PENDING = true ∧ mUp s = true ∧ s.on F.PTM_SUPPLY_DROP_WARN = false) ∧
    (∃ (s : State), warmPath s = true ∧ romRuns s 1 = true) ∧
    (∃ (s : State), warmPath s = true ∧ romRuns s 1 = true) ∧
    (∃ (s : State), s.on F.WAKING = true ∧ s.rd F.PTM_STATE_CUR = 2) :=
  ⟨⟨(st [(F.REC_MODE, 0, 0, 1), (F.REC_PORT, 0, 0, 0), (F.TS_STAT_BUSY, 0, 0, 0), (F.TS_REQ, 0, 0, 0)]), by decide +kernel⟩,
   ⟨{ (st [(F.REC_MODE, 0, 0, 1), (F.REC_PORT, 0, 0, 0)]) with queues := [(⟨Q.recovery, 1, 0⟩, [])] }, ([] : List (BitVec 8)),
     by decide +kernel⟩,
   ⟨{ (st [(F.REC_MODE, 0, 0, 1), (F.REC_PORT, 0, 0, 0)]) with queues := [(⟨Q.recovery, 1, 0⟩, [])] }, ([0, 0, 1, 0] : List
     (BitVec 8)), by decide +kernel⟩,
   ⟨(st [(F.REC_MODE, 0, 0, 1)]), by decide +kernel⟩,
   ⟨(st [(F.TS_STAT_BUSY, 0, 0, 0), (F.PTM_STATE_CUR, 0, 0, (4) + 1), (F.STK_DIESTATE_TIER, 0, 0, (2) + 1)]), by decide +kernel⟩,
   ⟨(st [(F.TS_REQ, 0, 0, 1), (F.TS_STAT_BUSY, 0, 0, 0)]), by decide +kernel⟩,
   ⟨(st [(F.TS_STAT_BUSY, 0, 0, 1)]), by decide +kernel⟩,
   ⟨(st [(F.LEDGER_PENDING, 0, 0, 1), (F.PTM_SUPPLY_DROP_WARN, 0, 0, 0)]), by decide +kernel⟩,
   ⟨(st [(F.WAKING, 0, 0, 1), (F.PTM_STATE_CUR, 0, 0, 3), (F.ROM_STAGE, 0, 0, 1)]), by decide +kernel⟩,
   ⟨(st [(F.WAKING, 0, 0, 1), (F.PTM_STATE_CUR, 0, 0, 3), (F.ROM_STAGE, 0, 0, 1)]), by decide +kernel⟩,
   ⟨(st [(F.WAKING, 0, 0, 1), (F.PTM_STATE_CUR, 0, 0, 2)]), by decide +kernel⟩⟩

/-- Witnesses for ConversionsStartAndDeliverResults, one for each clause. -/
theorem test_witness_ConversionsStartAndDeliverResults :
    (∃ (s : State) (n : Fin 4), edgeAt s (2 * n.val + 1) true = true ∧ clkTRuns s n.val = true ∧ adLive s n.val = true ∧ s.on
      F.AD_SEQ_B_TRIG_EN n.val = true ∧ s.on F.AD_SEQ n.val 1 = false ∧ s.on F.AD_SEQ n.val 0 = false) ∧
    (∃ (s : State) (n : Fin 4), edgeAt s (2 * n.val + 1) true = true ∧ clkTRuns s n.val = true ∧ adLive s n.val = true ∧ s.on
      F.AD_SEQ_B_TRIG_EN n.val = true ∧ s.on F.AD_SEQ n.val 1 = true) ∧
    (∃ (s : State) (n : Fin 4) (j : Fin 2), domOn s n.val = true ∧ s.rd F.AD_SEQ n.val j.val = 1 ∧ (j = 1 → s.rd F.AD_SEQ n.val
      0 ≠ 1) ∧ bits (s.rd F.AD_STEPF n.val (s.rd F.AD_STEP_NOW n.val j.val)) 8 6 = 0 ∧ s.rd F.AD_OVS_N n.val j.val = 0 ∧ s.rd
      F.AD_ACC n.val j.val = 0) ∧
    (∃ (s : State) (a : Fin 8), s.on F.CA_CFG_EN a.val = true ∧ domOn s (5 + a.val / 2) = true) :=
  ⟨⟨(st [(F.RT_EN, (2 * (0 : Fin 4).val + 1), 0, 1), (F.RT_EDGE, (2 * (0 : Fin 4).val + 1), 0, 3), (F.AD_CFG_EN, (0 : Fin
     4).val, 0, 1), (F.AD_SEQ_B_TRIG_EN, (0 : Fin 4).val, 0, 1), (F.AD_SEQ, (0 : Fin 4).val, 1, 0), (F.AD_SEQ, (0 : Fin 4).val,
     0, 0)]), (0 : Fin 4), by decide +kernel⟩,
   ⟨(st [(F.RT_EN, (2 * (0 : Fin 4).val + 1), 0, 1), (F.RT_EDGE, (2 * (0 : Fin 4).val + 1), 0, 3), (F.AD_CFG_EN, (0 : Fin
     4).val, 0, 1), (F.AD_SEQ_B_TRIG_EN, (0 : Fin 4).val, 0, 1), (F.AD_SEQ, (0 : Fin 4).val, 1, 1)]), (0 : Fin 4),
     by decide +kernel⟩,
   ⟨(st [(F.AD_SEQ, (0 : Fin 4).val, (0 : Fin 2).val, 1), (F.AD_OVS_N, (0 : Fin 4).val, (0 : Fin 2).val, 0), (F.AD_ACC, (0 : Fin
     4).val, (0 : Fin 2).val, 0)]), (0 : Fin 4), (0 : Fin 2), by decide +kernel⟩,
   ⟨(st [(F.CA_CFG_EN, (0 : Fin 8).val, 0, 1)]), (0 : Fin 8), by decide +kernel⟩⟩

/-- Witnesses for ComparatorsFilterAndSwatchTestsEnd, one for each clause. -/
theorem test_witness_ComparatorsFilterAndSwatchTestsEnd :
    (∃ (s : State) (c : Fin 24), s.on F.CM_CFG_POL c.val = false) ∧
    (∃ (s : State) (c : Fin 24), cmLive s c.val = true ∧ cmFrozen s c.val = false) ∧
    (∃ (s : State) (c : Fin 24), cmLive s c.val = true ∧ cmFrozen s c.val = true) ∧
    (∃ (s : State) (c : Fin 24), domOn s (cmDomain c.val) = true ∧ (s.rd F.PTM_SUPPLY_GOOD).testBit 3 = true ∧ cmFrozen s c.val
      = false ∧ (c.val < 22 → clkTRuns s (cmDomain c.val) = true)) ∧
    (∃ (s : State), s.on F.SW_STAT_BUSY = true ∧ s.rd F.SW_TEST = 2) ∧
    (∃ (s : State), s.on F.SW_STAT_BUSY = true ∧ s.rd F.SW_TEST = 4 ∧ ad3Idle s = false) :=
  ⟨⟨(st [(F.CM_CFG_POL, (0 : Fin 24).val, 0, 0)]), (0 : Fin 24), by decide +kernel⟩,
   ⟨(st [(F.CM_CFG_EN, (0 : Fin 24).val, 0, 1)]), (0 : Fin 24), by decide +kernel⟩,
   ⟨(st [(F.CM_CFG_EN, (0 : Fin 24).val, 0, 1), (F.SW_FROZEN, 0, 0, 1), (F.SW_CMP, 0, 0, (0 : Fin 24).val)]), (0 : Fin 24),
     by decide +kernel⟩,
   ⟨(st [(F.PTM_SUPPLY_GOOD, 0, 0, 2 ^ (3))]), (0 : Fin 24), by decide +kernel⟩,
   ⟨(st [(F.SW_STAT_BUSY, 0, 0, 1), (F.SW_TEST, 0, 0, 2)]), by decide +kernel⟩,
   ⟨(st [(F.AD_SEQ, 3, 0, 1), (F.SW_STAT_BUSY, 0, 0, 1), (F.SW_TEST, 0, 0, 4)]), by decide +kernel⟩⟩

/-- Witnesses for LinesFirePlaneByPlane, one for each clause. -/
theorem test_witness_LinesFirePlaneByPlane :
    (∃ (s : State) (p : Nat) (ps : List Nat), edgeAt s 80 true = true ∧ clkTRuns s 34 = true ∧ s.on F.HDS_CTRL_EN = true ∧ domOn
      s 34 = true ∧ s.on F.HDS_SLOT_BUSY = false ∧ (s.rd F.HDS_SLOT_FULL).testBit (s.rd F.HDS_SLOT_NEXT) = true ∧ onesOf (s.rd
      F.HDS_PLANES_PEN) 4 = p :: ps) ∧
    (∃ (s : State), edgeAt s 80 true = true ∧ clkTRuns s 34 = true ∧ s.on F.HDS_CTRL_EN = true ∧ domOn s 34 = true ∧ s.on
      F.HDS_SLOT_BUSY = true) ∧
    (∃ (s : State), edgeAt s 80 true = true ∧ clkTRuns s 34 = true ∧ s.on F.HDS_CTRL_EN = true ∧ domOn s 34 = true ∧ s.on
      F.HDS_SLOT_BUSY = false ∧ (s.rd F.HDS_SLOT_FULL).testBit (s.rd F.HDS_SLOT_NEXT) = false) ∧
    (∃ (s : State), s.rd F.HDS_PHASE = 1 ∧ s.rd F.HDS_G_DOTS ≤ 1024) ∧
    (∃ (s : State), s.rd F.HDS_PHASE = 2 ∧ s.on F.HDS_BURSTING = false) ∧
    (∃ (s : State) (n : Fin 8), s.rd F.HDS_PHASE = 3 ∧ domOn s 33 = true ∧ (s.rd F.ST_CTRL_EN).testBit n.val = true ∧ (s.rd
      F.ST_STAT_ACTIVE).testBit n.val = false) ∧
    (∃ (s : State) (d : Fin 2), (s.rd F.DK_STAT_ACTIVE).testBit d.val = true) :=
  ⟨⟨(st [(F.HDS_PLANES_PEN, 0, 0, 2), (F.RT_EN, 80, 0, 1), (F.RT_EDGE, 80, 0, 3), (F.HDS_CTRL_EN, 0, 0, 1), (F.HDS_SLOT_BUSY, 0,
     0, 0), (F.HDS_SLOT_FULL, 0, 0, 2 ^ (0))]), (1 : Nat), ([] : List Nat), by decide +kernel⟩,
   ⟨(st [(F.RT_EN, 80, 0, 1), (F.RT_EDGE, 80, 0, 3), (F.HDS_CTRL_EN, 0, 0, 1), (F.HDS_SLOT_BUSY, 0, 0, 1)]), by decide +kernel⟩,
   ⟨(st [(F.RT_EN, 80, 0, 1), (F.RT_EDGE, 80, 0, 3), (F.HDS_CTRL_EN, 0, 0, 1), (F.HDS_SLOT_BUSY, 0, 0, 0)]), by decide +kernel⟩,
   ⟨(st [(F.HDS_PHASE, 0, 0, 1)]), by decide +kernel⟩,
   ⟨(st [(F.HDS_PHASE, 0, 0, 2), (F.HDS_BURSTING, 0, 0, 0)]), by decide +kernel⟩,
   ⟨(st [(F.HDS_PHASE, 0, 0, 3), (F.ST_CTRL_EN, 0, 0, 2 ^ ((0 : Fin 8).val))]), (0 : Fin 8), by decide +kernel⟩,
   ⟨(st [(F.DK_STAT_ACTIVE, 0, 0, 2 ^ ((0 : Fin 2).val))]), (0 : Fin 2), by decide +kernel⟩⟩

/-- Witnesses for SlicesCountAndCapturesQueue, one for each clause. -/
theorem test_witness_SlicesCountAndCapturesQueue :
    (∃ (s : State) (n : Fin 16), ctUpper s n.val = false ∧ ctLive s n.val = true ∧ s.on F.CT_CTRL_RUN n.val = true ∧ s.on
      F.CT_SYNC n.val = false ∧ ctPaired s n.val = false) ∧
    (∃ (s : State) (n : Fin 16), edgeAt s (32 + n.val) true = true ∧ s.on F.CT_CTRL_START_EN n.val = true ∧ ctLive s n.val =
      true ∧ ctUpper s n.val = false) ∧
    (∃ (s : State) (n : Fin 16), edgeAt s (16 + n.val) true = true ∧ s.on F.CT_CTRL_SYNC_EN n.val = true ∧ ctLive s n.val = true
      ∧ ctUpper s n.val = false) ∧
    (∃ (s : State) (n : Fin 16) (r : Bool), captureEdgeWanted s n.val (pinSees s (32 + n.val) r) = true ∧ domOn s (23 + n.val /
      4) = true ∧ clkTRuns s (23 + n.val / 4) = true ∧ s.on F.CP_CFG_SRC n.val = false ∧ (s.q Q.capture n.val).length < 4) ∧
    (∃ (s : State) (n : Fin 16) (r : Bool), captureEdgeWanted s n.val r = true ∧ domOn s (23 + n.val / 4) = true ∧ clkTRuns s
      (23 + n.val / 4) = true ∧ s.on F.CP_CFG_SRC n.val = true ∧ edgeAt s (48 + n.val) r = true ∧ (s.q Q.capture n.val).length <
      4) ∧
    (∃ (s : State) (n : Fin 16) (r : Bool), captureEdgeWanted s n.val (pinSees s (32 + n.val) r) = true ∧ domOn s (23 + n.val /
      4) = true ∧ clkTRuns s (23 + n.val / 4) = true ∧ s.on F.CP_CFG_SRC n.val = false ∧ 4 ≤ (s.q Q.capture n.val).length) ∧
    (∃ (s : State) (q : Fin 2) (a : Bool) (b : Bool), domOn s 27 = true ∧ clkTRuns s 27 = true ∧ s.on F.QD_CFG_EN q.val = true ∧
      s.rd F.QD_AB q.val ≠ (bnat (pinSees s (32 + 2 * q.val) a) + 2 * bnat (pinSees s (33 + 2 * q.val) b)) ∧ s.rd F.QD_AB q.val
      + (bnat (pinSees s (32 + 2 * q.val) a) + 2 * bnat (pinSees s (33 + 2 * q.val) b)) ≠ 3) ∧
    (∃ (s : State) (q : Fin 2) (l : Bool), domOn s 27 = true ∧ clkTRuns s 27 = true ∧ s.on F.QD_CFG_EN q.val = true ∧ s.rd
      F.PIN_CFG_FUNC (16 + q.val) = 5 ∧ pinSees s (16 + q.val) l = true ∧ s.on F.QD_CFG_IDX_EN q.val = true ∧ s.on
      F.QD_CFG_IDX_RST q.val = true) :=
  ⟨⟨(st [(F.CT_CTRL_RUN, (0 : Fin 16).val, 0, 1), (F.CT_SYNC, (0 : Fin 16).val, 0, 0)]), (0 : Fin 16), by decide +kernel⟩,
   ⟨(st [(F.RT_EN, (32 + (0 : Fin 16).val), 0, 1), (F.RT_EDGE, (32 + (0 : Fin 16).val), 0, 3), (F.CT_CTRL_START_EN, (0 : Fin
     16).val, 0, 1)]), (0 : Fin 16), by decide +kernel⟩,
   ⟨(st [(F.RT_EN, (16 + (0 : Fin 16).val), 0, 1), (F.RT_EDGE, (16 + (0 : Fin 16).val), 0, 3), (F.CT_CTRL_SYNC_EN, (0 : Fin
     16).val, 0, 1)]), (0 : Fin 16), by decide +kernel⟩,
   ⟨(st [(F.CP_CFG_EN, (0 : Fin 16).val, 0, 1), (F.CP_CFG_EDGE, (0 : Fin 16).val, 0, 3), (F.CP_CFG_SRC, (0 : Fin 16).val, 0,
     0)]), (0 : Fin 16), (true : Bool), by decide +kernel⟩,
   ⟨(st [(F.CP_CFG_EN, (0 : Fin 16).val, 0, 1), (F.CP_CFG_EDGE, (0 : Fin 16).val, 0, 3), (F.CP_CFG_SRC, (0 : Fin 16).val, 0, 1),
     (F.RT_EN, (48 + (0 : Fin 16).val), 0, 1), (F.RT_EDGE, (48 + (0 : Fin 16).val), 0, 3)]), (0 : Fin 16), (true : Bool),
     by decide +kernel⟩,
   ⟨{ (st [(F.CP_CFG_EN, (0 : Fin 16).val, 0, 1), (F.CP_CFG_EDGE, (0 : Fin 16).val, 0, 3), (F.CP_CFG_SRC, (0 : Fin 16).val, 0,
     0)]) with queues := [(⟨Q.capture, (0 : Fin 16).val, 0⟩, [1, 2, 3, 4])] }, (0 : Fin 16), (true : Bool), by decide +kernel⟩,
   ⟨(st [(F.QD_AB, (0 : Fin 2).val, 0, 0), (F.QD_CFG_EN, (0 : Fin 2).val, 0, 1)]), (0 : Fin 2), (true : Bool), (false : Bool),
     by decide +kernel⟩,
   ⟨(st [(F.QD_CFG_EN, (0 : Fin 2).val, 0, 1), (F.PIN_CFG_FUNC, (16 + (0 : Fin 2).val), 0, 5), (F.QD_CFG_IDX_EN, (0 : Fin
     2).val, 0, 1), (F.QD_CFG_IDX_RST, (0 : Fin 2).val, 0, 1)]), (0 : Fin 2), (true : Bool), by decide +kernel⟩⟩

/-- Witnesses for LegsTripAndStrobesFire, one for each clause. -/
theorem test_witness_LegsTripAndStrobesFire :
    (∃ (s : State) (k : Fin 16), domOn s (28 + k.val / 4) = true) ∧
    (∃ (s : State) (k : Fin 16), domOn s (28 + k.val / 4) = true ∧ 2 ≤ s.rd F.LG_STAT_STATE k.val ∧ (legWant s k.val).1 = false) ∧
    (∃ (s : State) (k : Fin 16) (j : Fin 2), s.on F.LG_DTRUN k.val j.val = true) ∧
    (∃ (s : State) (k : Fin 16), s.on F.LG_BLANKING k.val = true ∧ rawOf s (s.rd F.LG_TRIPCFG_OC_CMP k.val) = true) ∧
    (∃ (s : State) (k : Fin 16), s.on F.LG_BLANKING k.val = true ∧ rawOf s (s.rd F.LG_TRIPCFG_OC_CMP k.val) = false ∧ s.on
      F.LG_OCREC k.val = true) ∧
    (∃ (s : State) (k : Fin 16), edgeAt s (64 + k.val) true = true ∧ s.on F.LG_CFG_EXT_EN k.val = true ∧ domOn s (28 + k.val /
      4) = true) ∧
    (∃ (s : State) (n : Fin 8), edgeAt s 81 true = true ∧ clkTRuns s 33 = true ∧ s.on F.ST_CTRL_ROUTE_EN = true ∧ domOn s 33 =
      true ∧ (s.rd F.ST_CTRL_EN).testBit n.val = true ∧ (s.rd F.ST_STAT_ACTIVE).testBit n.val = false) ∧
    (∃ (s : State) (n : Fin 8), s.on F.ST_DELAYED n.val = true ∧ strobesInhibited s = false) ∧
    (∃ (s : State) (n : Fin 8), s.on F.ST_DELAYED n.val = true ∧ strobesInhibited s = true) ∧
    (∃ (s : State) (n : Fin 8), (s.rd F.ST_STAT_ACTIVE).testBit n.val = true) :=
  ⟨⟨(st []), (0 : Fin 16), by decide +kernel⟩,
   ⟨(st [(F.LG_STAT_STATE, (0 : Fin 16).val, 0, 2)]), (0 : Fin 16), by decide +kernel⟩,
   ⟨(st [(F.LG_DTRUN, (0 : Fin 16).val, (0 : Fin 2).val, 1)]), (0 : Fin 16), (0 : Fin 2), by decide +kernel⟩,
   ⟨(st [(F.LG_TRIPCFG_OC_CMP, (0 : Fin 16).val, 0, 2), (F.CM_RAW_RAW, 0, 0, 4), (F.LG_BLANKING, (0 : Fin 16).val, 0, 1)]), (0 :
     Fin 16), by decide +kernel⟩,
   ⟨(st [(F.LG_BLANKING, (0 : Fin 16).val, 0, 1), (F.LG_OCREC, (0 : Fin 16).val, 0, 1)]), (0 : Fin 16), by decide +kernel⟩,
   ⟨(st [(F.RT_EN, (64 + (0 : Fin 16).val), 0, 1), (F.RT_EDGE, (64 + (0 : Fin 16).val), 0, 3), (F.LG_CFG_EXT_EN, (0 : Fin
     16).val, 0, 1)]), (0 : Fin 16), by decide +kernel⟩,
   ⟨(st [(F.RT_EN, 81, 0, 1), (F.RT_EDGE, 81, 0, 3), (F.ST_CTRL_ROUTE_EN, 0, 0, 1), (F.ST_CTRL_EN, 0, 0, 2 ^ ((0 : Fin
     8).val))]), (0 : Fin 8), by decide +kernel⟩,
   ⟨(st [(F.ST_DELAYED, (0 : Fin 8).val, 0, 1)]), (0 : Fin 8), by decide +kernel⟩,
   ⟨(st [(F.ST_DELAYED, (0 : Fin 8).val, 0, 1), (F.BINDOFF, 0, 0, 1)]), (0 : Fin 8), by decide +kernel⟩,
   ⟨(st [(F.ST_STAT_ACTIVE, 0, 0, 2 ^ ((0 : Fin 8).val))]), (0 : Fin 8), by decide +kernel⟩⟩

/-- Witnesses for LoopEngineStitchesItsSlots, one for each clause. -/
theorem test_witness_LoopEngineStitchesItsSlots :
    (∃ (s : State) (r : Fin 16), rowMay s r.val = true ∧ cUp s = true ∧ (s.rd F.LE_ROWEN_EN).testBit r.val = true ∧ domOn s 35 =
      true ∧ s.on F.PTM_STATE_ONFRC = false ∧ leLive s = true ∧ rowN s r.val ≠ 0 ∧ (s.rd F.LE_ROWSTAT_PENDING).testBit r.val =
      false ∧ s.on F.LE_ROWSTAT_ACTIVE = false) ∧
    (∃ (s : State) (r : Fin 16), rowMay s r.val = true ∧ cUp s = true ∧ (s.rd F.LE_ROWEN_EN).testBit r.val = true ∧ domOn s 35 =
      true ∧ s.on F.PTM_STATE_ONFRC = false ∧ leLive s = true ∧ (s.rd F.LE_ROWSTAT_PENDING).testBit r.val = true) ∧
    (∃ (s : State) (r : Fin 16), rowMay s r.val = true ∧ cUp s = true ∧ (s.rd F.LE_ROWEN_EN).testBit r.val = true ∧ domOn s 35 =
      true ∧ s.on F.PTM_STATE_ONFRC = true ∧ s.on F.PTM_CLKSTAT_PLL = false) ∧
    (∃ (s : State) (n : Nat), leLive s = true ∧ readyExpress s = some n ∧ s.bad = [] ∧ s.rd F.LE_SLOT_CFG_LAW n = 1 ∧ s.on
      F.LE_SLOT_STAT_ECC_OFF n = false ∧ s.on F.LE_SLOT_CFG_FMT n = false ∧ s.rd F.LE_SLOT_CFG1_MEAS n = 0xFF ∧ leP s n 1 = 0xFF
      ∧ (s.rd F.LE_CLR0_CLR).testBit n = false ∧ (s.rd F.LE_CLR1_CLR).testBit (n - 32) = false ∧ -(2 ^ 63) ≤ lePI s n 16 * lePI
      s n 0 + sw s n 0 * 2 ^ 16 + lePI s n 17 * lePI s n 0 ∧ lePI s n 16 * lePI s n 0 + sw s n 0 * 2 ^ 16 + lePI s n 17 * lePI s
      n 0 < 2 ^ 63) ∧
    (∃ (s : State), leLive s = true ∧ readyExpress s = none ∧ s.on F.LE_ROWSTAT_ACTIVE = true ∧ rowSlot s (s.rd
      F.LE_ROWSTAT_ROW) (s.rd F.LE_POS) < 48 ∧ s.rd F.LE_SLOT_CFG_LAW (rowSlot s (s.rd F.LE_ROWSTAT_ROW) (s.rd F.LE_POS)) = 0 ∧
      s.rd F.LE_CLR0_CLR = 0 ∧ s.rd F.LE_CLR1_CLR = 0 ∧ s.rd F.PAT_LIVE_STAT_STATE ≠ 3) ∧
    (∃ (s : State) (r : Result) (rest : List Result) (n : Nat), s.results = r :: rest ∧ r.slot = some n ∧ n < 48 ∧ domOn s 114 =
      true ∧ resultDue s = true) ∧
    (∃ (s : State) (k : Fin 4), s.on F.LE_COPY k.val = true ∧ s.on F.LE_TBUSY_SNAP k.val = false ∧ s.on F.LE_TBUSY_PRE k.val =
      true ∧ s.rd F.LE_LT_CTL_LEN k.val ≤ 1024) :=
  ⟨⟨{ (st [(F.ROW_DUE, (0 : Fin 16).val, 0, 1), (F.LE_ROWEN_EN, 0, 0, 2 ^ ((0 : Fin 16).val)), (F.PTM_STATE_ONFRC, 0, 0, 0),
     (F.LE_CTRL_EN, 0, 0, 1), (F.LE_ROWSTAT_ACTIVE, 0, 0, 0)]) with mem := [(rowAddr 0 + 2, 1)] }, (0 : Fin 16),
     by decide +kernel⟩,
   ⟨(st [(F.ROW_DUE, (0 : Fin 16).val, 0, 1), (F.LE_ROWEN_EN, 0, 0, 2 ^ ((0 : Fin 16).val)), (F.PTM_STATE_ONFRC, 0, 0, 0),
     (F.LE_CTRL_EN, 0, 0, 1), (F.LE_ROWSTAT_PENDING, 0, 0, 2 ^ ((0 : Fin 16).val))]), (0 : Fin 16), by decide +kernel⟩,
   ⟨(st [(F.ROW_DUE, (0 : Fin 16).val, 0, 1), (F.LE_ROWEN_EN, 0, 0, 2 ^ ((0 : Fin 16).val)), (F.PTM_STATE_ONFRC, 0, 0, 1),
     (F.PTM_CLKSTAT_PLL, 0, 0, 0)]), (0 : Fin 16), by decide +kernel⟩,
   ⟨{ (st [(F.LE_READY, 3, 0, 1), (F.LE_CTRL_EN, 0, 0, 1), (F.LE_SLOT_CFG_LAW, (3 : Nat), 0, 1), (F.LE_SLOT_STAT_ECC_OFF, (3 :
     Nat), 0, 0), (F.LE_SLOT_CFG_FMT, (3 : Nat), 0, 0), (F.LE_SLOT_CFG1_MEAS, (3 : Nat), 0, 0xFF)]) with mem := [(paramAddr 3 0
     1, 0xFF)] }, (3 : Nat), by decide +kernel⟩,
   ⟨(st [(F.LE_ROWSTAT_ACTIVE, 0, 0, 1), (F.LE_CTRL_EN, 0, 0, 1), (F.LE_ROWSTAT_ACTIVE, 0, 0, 1), (F.LE_CLR0_CLR, 0, 0, 0),
     (F.LE_CLR1_CLR, 0, 0, 0), (F.PAT_LIVE_STAT_STATE, 0, 0, (3) + 1)]), by decide +kernel⟩,
   ⟨{ (st []) with results := (⟨0, 0, 5, 0, some 3⟩ : Result) :: ([] : List Result) }, (⟨0, 0, 5, 0, some 3⟩ : Result), ([] :
     List Result), (3 : Nat), by decide +kernel⟩,
   ⟨(st [(F.LE_COPY, (0 : Fin 4).val, 0, 1), (F.LE_TBUSY_SNAP, (0 : Fin 4).val, 0, 0), (F.LE_TBUSY_PRE, (0 : Fin 4).val, 0,
     1)]), (0 : Fin 4), by decide +kernel⟩⟩

/-- Witnesses for HalfToneUnitTakesAndCommitsLines, one for each clause. -/
theorem test_witness_HalfToneUnitTakesAndCommitsLines :
    (∃ (s : State), hcuLive s = true ∧ s.on F.HCU_HELD = false ∧ s.rd F.HCU_IN_RD_RD ≠ s.rd F.HCU_IN_WR_WR ∧ linesWait s 44
      (hcuLineAddr s) (hcuWords s) = false ∧ engineWaits s 44 0 hdsSlotAddr 4 0 = false ∧ (engineLines (s.up F.HCU_STAT_BUSY) 44
      (hcuLineAddr s) (hcuWords s)).2.2 = none) ∧
    (∃ (s : State) (c : Code), hcuLive s = true ∧ s.on F.HCU_HELD = false ∧ s.rd F.HCU_IN_RD_RD ≠ s.rd F.HCU_IN_WR_WR ∧
      linesWait s 44 (hcuLineAddr s) (hcuWords s) = false ∧ engineWaits s 44 0 hdsSlotAddr 4 0 = false ∧ (engineLines (s.up
      F.HCU_STAT_BUSY) 44 (hcuLineAddr s) (hcuWords s)).2.2 = some c) ∧
    (∃ (s : State), hcuLive s = true ∧ s.rd F.HCU_HELD = 1 ∧ engineWaits s 44 0 hdsSlotAddr 4 0 = false ∧ okay (agentAccess s 44
      0 hdsSlotAddr 4 0) = true ∧ (agentAccess s 44 0 hdsSlotAddr 4 0).resp.data.testBit (s.rd F.HCU_SLOT) = true) ∧
    (∃ (s : State), hcuLive s = true ∧ s.rd F.HCU_HELD = 2 ∧ engineWaits s 44 1 hdsCommitAddr 4 (2 ^ s.rd F.HCU_SLOT) = false ∧
      okay (agentAccess s 44 1 hdsCommitAddr 4 (2 ^ s.rd F.HCU_SLOT)) = true) ∧
    (∃ (s : State), hcuLive s = true ∧ s.rd F.HCU_HELD = 2 ∧ engineWaits s 44 1 hdsCommitAddr 4 (2 ^ s.rd F.HCU_SLOT) = false ∧
      okay (agentAccess s 44 1 hdsCommitAddr 4 (2 ^ s.rd F.HCU_SLOT)) = false) :=
  ⟨⟨(st [(F.HCU_CTRL_EN, 0, 0, 1), (F.HCU_HELD, 0, 0, 0), (F.HCU_IN_RD_RD, 0, 0, 0 + 1)]), by decide +kernel⟩,
   ⟨(st [(F.HCU_IN_BASE_BASE, 0, 0, 0x40000000 / 32), (F.HCU_CTRL_EN, 0, 0, 1), (F.HCU_HELD, 0, 0, 0), (F.HCU_IN_RD_RD, 0, 0, 0
     + 1)]), (.decode : Code), by decide +kernel⟩,
   ⟨(st [(F.HDS_SLOT_FULL, 0, 0, 1), (F.HCU_CTRL_EN, 0, 0, 1), (F.HCU_HELD, 0, 0, 1)]), by decide +kernel⟩,
   ⟨(st [(F.HCU_CTRL_EN, 0, 0, 1), (F.HCU_HELD, 0, 0, 2)]), by decide +kernel⟩,
   ⟨(st [(F.DOM_STATE, 34, 0, 0), (F.HCU_CTRL_EN, 0, 0, 1), (F.HCU_HELD, 0, 0, 2)]), by decide +kernel⟩⟩

/-- Witnesses for CheckContextsFollowFramesAndPasses, one for each clause. -/
theorem test_witness_CheckContextsFollowFramesAndPasses :
    (∃ (s : State) (x : Nat), cxOn s 3 = some x ∧ s.rd F.SL_STAGE 0 = 1) ∧
    (∃ (s : State) (x : Nat), cxOn s 3 = some x ∧ s.rd F.SL_STAGE 0 = 2) ∧
    (∃ (s : State) (x : Nat) (l : List (BitVec 8)), cxOn s 4 = some x ∧ s.rd F.SL_STAGE 1 = 2 ∧ l.length < cxBytes s x) ∧
    (∃ (s : State) (x : Nat) (l : List (BitVec 8)), cxOn s 4 = some x ∧ s.rd F.SL_STAGE 1 = 2 ∧ cxBytes s x ≤ l.length ∧ s.on
      F.CX_CFG_ORDER x = false ∧ ofBytes (l.drop (l.length - cxBytes s x)) = cxResult (cxFold s x (l.take (l.length - cxBytes s
      x))) x) ∧
    (∃ (s : State) (x : Fin 16), masterLive s (.unit 45) = true ∧ cxMode s x.val = 3 ∧ s.on F.CX_SCRUB_PERIOD_MS x.val = true ∧
      s.on F.CX_PASS x.val = false) ∧
    (∃ (s : State) (x : Fin 16), masterLive s (.unit 45) = true ∧ cxMode s x.val = 3 ∧ s.on F.CX_SCRUB_PERIOD_MS x.val = true ∧
      s.on F.CX_PASS x.val = true) ∧
    (∃ (s : State) (x : Fin 16), masterLive s (.unit 45) = true ∧ s.on F.CX_PASS x.val = true ∧ s.rd F.CX_SCRUB_LEN_LEN x.val =
      0) ∧
    (∃ (s : State), cxPortReady s ((s.rd F.CX_NEXT + 1) % 16) = true ∧ s.held = []) ∧
    (∃ (s : State) (x : Fin 16), (∀ y : Fin 16, y ≠ x → cxPortReady s y.val = false) ∧ cxPortReady s x.val = true ∧ s.held = []) ∧
    (∃ (s : State) (x : Fin 16), s.held = [] ∧ (∀ y : Fin 16, cxPortReady s y.val = false ∧ (y ≠ x → s.on F.CX_PASS y.val =
      false)) ∧ s.on F.CX_PASS x.val = true) ∧
    (∃ (s : State) (x : Fin 16) (r : Held), (∀ y : Fin 16, cxPortReady s y.val = false) ∧ s.held = [r] ∧ feedOf r = some x.val ∧
      r.size ≤ 32 ∧ masterThere s r.who = true) :=
  ⟨⟨(st [(F.CX_CFG_WIDTH, 0, 0, 7), (F.CX_CFG_MODE, 0, 0, 2), (F.CX_CFG_PORT, 0, 0, 3), (F.SL_STAGE, 0, 0, 1)]), (0 : Nat),
     by decide +kernel⟩,
   ⟨(st [(F.CX_CFG_WIDTH, 0, 0, 7), (F.CX_CFG_MODE, 0, 0, 2), (F.CX_CFG_PORT, 0, 0, 3), (F.SL_STAGE, 0, 0, 2)]), (0 : Nat),
     by decide +kernel⟩,
   ⟨(st [(F.CX_CFG_WIDTH, 0, 0, 7), (F.CX_CFG_MODE, 0, 0, 2), (F.CX_CFG_PORT, 0, 0, 4), (F.SL_STAGE, 1, 0, 2)]), (0 : Nat), ([]
     : List (BitVec 8)), by decide +kernel⟩,
   ⟨(st [(F.CX_CFG_WIDTH, 0, 0, 7), (F.CX_CFG_MODE, 0, 0, 2), (F.CX_CFG_PORT, 0, 0, 4), (F.SL_STAGE, 1, 0, 2), (F.CX_CFG_ORDER,
     (0 : Nat), 0, 0)]), (0 : Nat), ([5, 205] : List (BitVec 8)), by decide +kernel⟩,
   ⟨(st [(F.CX_CFG_MODE, (0 : Fin 16).val, 0, 3), (F.CX_SCRUB_PERIOD_MS, (0 : Fin 16).val, 0, 1), (F.CX_PASS, (0 : Fin 16).val,
     0, 0)]), (0 : Fin 16), by decide +kernel⟩,
   ⟨(st [(F.CX_CFG_MODE, (0 : Fin 16).val, 0, 3), (F.CX_SCRUB_PERIOD_MS, (0 : Fin 16).val, 0, 1), (F.CX_PASS, (0 : Fin 16).val,
     0, 1)]), (0 : Fin 16), by decide +kernel⟩,
   ⟨(st [(F.CX_PASS, (0 : Fin 16).val, 0, 1), (F.CX_SCRUB_LEN_LEN, (0 : Fin 16).val, 0, 0)]), (0 : Fin 16), by decide +kernel⟩,
   ⟨{ (st [(F.CX_CFG_MODE, 1, 0, 2), (F.CX_CFG_PORT, 1, 0, 3), (F.CX_STAT_FRAME, 1, 0, 1), (F.CX_RDY, 1, 0, 1), (F.CX_CFG_MODE,
     (0 % 16), 0, 2), (F.CX_CFG_PORT, (0 % 16), 0, 3), (F.CX_STAT_FRAME, (0 % 16), 0, 1), (F.CX_RDY, (0 % 16), 0, 1),
     (F.PT_CTRL_EN, 5, 0, 1)]) with held := [] }, by decide +kernel⟩,
   ⟨{ (st [(F.CX_CFG_MODE, 1, 0, 2), (F.CX_CFG_PORT, 1, 0, 3), (F.CX_STAT_FRAME, 1, 0, 1), (F.CX_CFG_MODE, (0 : Fin 16).val, 0,
     2), (F.CX_CFG_PORT, (0 : Fin 16).val, 0, 3), (F.CX_STAT_FRAME, (0 : Fin 16).val, 0, 1), (F.CX_RDY, (0 : Fin 16).val, 0, 1),
     (F.PT_CTRL_EN, 5, 0, 1)]) with held := [] }, (0 : Fin 16), by decide +kernel⟩,
   ⟨{ (st [(F.CX_PASS, 5, 0, 1), (F.CX_PASS, (5 : Fin 16).val, 0, 1)]) with held := [] }, (5 : Fin 16), by decide +kernel⟩,
   ⟨{ (st []) with held := [(⟨.unit 40, true, 1, 0x40040600, 4, 5⟩ : Held)] }, (0 : Fin 16), (⟨.unit 40, true, 1, 0x40040600, 4,
     5⟩ : Held), by decide +kernel⟩⟩

/-- Witnesses for TasksArePostedDispatchedAndSaved, one for each clause. -/
theorem test_witness_TasksArePostedDispatchedAndSaved :
    (∃ (s : State) (e : Fin 256), eventDue s e.val = true ∧ cUp s = true ∧ domOn s 116 = true ∧ s.on F.BIND_EN e.val = true) ∧
    (∃ (s : State) (k : Nat) (t0 : Nat), cUp s = true ∧ domOn s 116 = true ∧ s.on F.DSP_CTRL_EN = true ∧ romHolds s = false ∧
      nextTask s = some k ∧ ((List.range 40).find? fun t => threadFree s t && mayRun s k t) = some t0 ∧ s.on F.DSP_TSTAT_SAVED k
      = false) ∧
    (∃ (s : State) (u : Fin 40), s.on F.SAVE_FOR u.val = true ∧ (∀ v ∈ copiesOf s u.val, s.on F.LD_PEND v = false) ∧ (∀ v ∈
      copiesOf s u.val, s.on F.DIV_PEND v = false) ∧ saveHeld s = false ∧ s.on F.DSP_TSTAT_SAVED (s.rd F.SAVE_FOR u.val - 1) =
      false ∧ runningTask s u.val ≠ s.rd F.SAVE_FOR u.val - 1) ∧
    (∃ (s : State) (c : Fin 5), 2 ^ loadN s ≤ s.rd F.WIN_CYC c.val) :=
  ⟨⟨{ (st [(F.BIND_EN, (0 : Fin 256).val, 0, 1)]) with events := [0] }, (0 : Fin 256), by decide +kernel⟩,
   ⟨{ (st [(F.TASK_W0_AFF, 7, 0, 2), (F.DSP_CTRL_EN, 0, 0, 1), (F.DSP_TSTAT_SAVED, (7 : Nat), 0, 0)]) with queues := [(⟨Q.ready,
     1, 0⟩, [7])] }, (7 : Nat), (8 : Nat), by decide +kernel⟩,
   ⟨(st [(F.TID_TASK, 0, 0, 9), (F.SAVE_FOR, (0 : Fin 40).val, 0, 1), (F.DSP_TSTAT_SAVED, 0, 0, 0)]), (0 : Fin 40),
     by decide +kernel⟩,
   ⟨(st [(F.WIN_CYC, (0 : Fin 5).val, 0, 2 ^ 20)]), (0 : Fin 5), by decide +kernel⟩⟩

/-- Witnesses for SupervisorPairComparesAndHinges, one for each clause. -/
theorem test_witness_SupervisorPairComparesAndHinges :
    (∃ (s : State), cUp s = true) ∧
    (∃ (s : State), s.rd F.SP_STAT_MODE = 0 ∧ s.on F.SP_STAT_RESEEDING = false ∧ cUp s = true ∧ domOn s 112 = true ∧ s.rd
      F.SP_CFG_WINDOW ≤ s.rd F.SP_WCYC) ∧
    (∃ (s : State), s.on F.SP_STAT_RESEEDING = true ∧ loadsOpen s mainCopies = false ∧ s.rd F.HINGE_HELD = 0) ∧
    (∃ (s : State), s.rd F.SP_STAT_MODE = 3 ∧ s.rd F.HINGE_KIND = 1 ∧ s.on F.SP_STAT_RESEEDING = false ∧ loadsOpen s (mainCopies
      ++ mainCopies.map (· + 8)) = false ∧ s.on F.HINGE_SEEN = false ∧ windowClass s = 0) ∧
    (∃ (s : State), s.rd F.SP_STAT_MODE = 3 ∧ s.rd F.HINGE_KIND = 2 ∧ loadsOpen s [32, 33, 34, 35, 44, 45, 46, 47] = false ∧
      s.stores = []) ∧
    (∃ (s : State) (e : Nat) (r : List Nat), s.q Q.replay = e :: r ∧ s.held = [] ∧ e / 2 ^ 8 % 2 ^ 24 < 16) :=
  ⟨⟨(st []), by decide +kernel⟩,
   ⟨(st [(F.SP_WCYC, 0, 0, 65536), (F.SP_STAT_MODE, 0, 0, 0), (F.SP_STAT_RESEEDING, 0, 0, 0)]), by decide +kernel⟩,
   ⟨(st [(F.SP_STAT_RESEEDING, 0, 0, 1), (F.HINGE_HELD, 0, 0, 0)]), by decide +kernel⟩,
   ⟨(st [(F.SP_STAT_MODE, 0, 0, 3), (F.HINGE_KIND, 0, 0, 1), (F.SP_STAT_RESEEDING, 0, 0, 0), (F.HINGE_SEEN, 0, 0, 0)]),
     by decide +kernel⟩,
   ⟨{ (st [(F.SP_STAT_MODE, 0, 0, 3), (F.HINGE_KIND, 0, 0, 2)]) with stores := [] }, by decide +kernel⟩,
   ⟨{ { (st []) with queues := [(⟨Q.replay, 0, 0⟩, (0 : Nat) :: ([] : List Nat))] } with held := [] }, (0 : Nat), ([] : List
     Nat), by decide +kernel⟩⟩

/-- Witnesses for ChannelsFetchMoveAndComplete, one for each clause. -/
theorem test_witness_ChannelsFetchMoveAndComplete :
    (∃ (s : State) (n : Fin 32), dcState s n.val = 1 ∧ dcWaits s n.val (dcFetchRequest s n.val) = false ∧ targetOf (32 * s.rd
      F.DC_NEXT_NEXT n.val) = .sram ((32 * s.rd F.DC_NEXT_NEXT n.val - 0x20000000) / 0x10000) ∧ okay (dcServe s n.val
      (dcFetchRequest s n.val)) = true ∧ ((dcServe s n.val (dcFetchRequest s n.val)).resp.data).testBit 96 = true) ∧
    (∃ (s : State) (n : Fin 32), dcState s n.val = 1 ∧ dcWaits s n.val (dcFetchRequest s n.val) = false ∧ okay (dcServe s n.val
      (dcFetchRequest s n.val)) = false) ∧
    (∃ (s : State) (n : Fin 32) (a : Nat) (z : Nat) (k : Nat), dcState s n.val = 2 ∧ dcRuns s n.val = true ∧ dcCtl s n.val 12 =
      false ∧ dcNextRead s n.val = some (a, z) ∧ dcWaits s n.val (dcRequest n.val 0 a z 0) = false ∧ targetOf a = .sram k ∧ okay
      (dcServe s n.val (dcRequest n.val 0 a z 0)) = true) ∧
    (∃ (s : State) (n : Fin 32) (a : Nat) (z : Nat) (k : Nat) (now : List Nat) (later : List Nat), dcState s n.val = 2 ∧ dcRuns
      s n.val = true ∧ dcNextWrite s n.val = some (a, z) ∧ s.q Q.dmaBuf n.val = now ++ later ∧ now.length = z ∧ (∀ b ∈ now, b <
      256) ∧ targetOf a = .sram k ∧ dcWaits s n.val (dcRequest n.val 1 a z (ofBytes (now.map (BitVec.ofNat 8)))) = false ∧ okay
      (dcServe s n.val (dcRequest n.val 1 a z (ofBytes (now.map (BitVec.ofNat 8))))) = true) ∧
    (∃ (s : State) (n : Fin 32) (k : Nat), dcState s n.val = 3 ∧ dcCtl s n.val 9 = false ∧ dcCtl s n.val 11 = false ∧ s.rd
      F.DC_STAT_STATUS n.val = 1 ∧ dcWaits s n.val (dcRequest n.val 1 (dcCurAddr s n.val + 0xC) 4 0) = false ∧ targetOf
      (dcCurAddr s n.val) = .sram k ∧ (dcPut s n.val (dcCurAddr s n.val + 0x14) 4 (dcStatusWord s n.val)).2 = true ∧ (dcPut
      (dcPut s n.val (dcCurAddr s n.val + 0x14) 4 (dcStatusWord s n.val)).1 n.val (dcCurAddr s n.val + 0xC) 4 (dcCtrlWord s
      n.val)).2 = true) ∧
    (∃ (s : State) (k : Fin 8), edgeAt s (440 + k.val) true = true ∧ cUp s = true) ∧
    (∃ (s : State) (n : Fin 32), s.on F.DC_STOPREQ n.val = true) :=
  ⟨⟨{ (st [(F.DC_STAT_STATE, (1 : Fin 32).val, 0, 1), (F.DC_CFG_EN, (1 : Fin 32).val, 0, 1), (F.DC_NEXT_NEXT, (1 : Fin 32).val,
     0, 0x20000000 / 32)]) with mem := [(0x20000000, 0), (0x2000000C, 1)] }, (1 : Fin 32), by decide +kernel⟩,
   ⟨{ (st [(F.DC_STAT_STATE, (1 : Fin 32).val, 0, 1), (F.DC_CFG_EN, (1 : Fin 32).val, 0, 1), (F.DC_NEXT_NEXT, (1 : Fin 32).val,
     0, 0x20000000 / 32)]) with bad := [0x20000000] }, (1 : Fin 32), by decide +kernel⟩,
   ⟨(st [(F.DC_SRC, 1, 0, 0x20000000), (F.DC_LEN, 1, 0, 4), (F.DC_DCTRL, 1, 0, 0x90), (F.DC_STAT_STATE, (1 : Fin 32).val, 0, 2),
     (F.DC_CFG_EN, (1 : Fin 32).val, 0, 1), (F.DC_NEXT_NEXT, (1 : Fin 32).val, 0, 0x20000000 / 32)]), (1 : Fin 32), (0x20000000
     : Nat), (4 : Nat), (0 : Nat), by decide +kernel⟩,
   ⟨{ (st [(F.DC_DST, 1, 0, 0x20000000), (F.DC_LEN, 1, 0, 4), (F.DC_DCTRL, 1, 0, 0x90), (F.DC_RDONE, 1, 0, 4), (F.DC_STAT_STATE,
     (1 : Fin 32).val, 0, 2), (F.DC_CFG_EN, (1 : Fin 32).val, 0, 1), (F.DC_NEXT_NEXT, (1 : Fin 32).val, 0, 0x20000000 / 32)])
     with queues := [(⟨Q.dmaBuf, 1, 0⟩, [1, 2, 3, 4]), (⟨Q.dmaBuf, (1 : Fin 32).val, 0⟩, ([1, 2, 3, 4] : List Nat) ++ ([] : List
     Nat))] }, (1 : Fin 32), (0x20000000 : Nat), (4 : Nat), (0 : Nat), ([1, 2, 3, 4] : List Nat), ([] : List Nat),
     by decide +kernel⟩,
   ⟨(st [(F.DC_CUR_CUR, 1, 0, 0x20000000 / 32), (F.DC_STAT_STATE, (1 : Fin 32).val, 0, 3), (F.DC_CFG_EN, (1 : Fin 32).val, 0,
     1), (F.DC_NEXT_NEXT, (1 : Fin 32).val, 0, 0x20000000 / 32), (F.DC_STAT_STATUS, (1 : Fin 32).val, 0, 1)]), (1 : Fin 32), (0
     : Nat), by decide +kernel⟩,
   ⟨(st [(F.RT_EN, (440 + (0 : Fin 8).val), 0, 1), (F.RT_EDGE, (440 + (0 : Fin 8).val), 0, 3)]), (0 : Fin 8), by decide +kernel⟩,
   ⟨(st [(F.DC_STOPREQ, (0 : Fin 32).val, 0, 1)]), (0 : Fin 32), by decide +kernel⟩⟩

/-- Witnesses for LivePatternsVerifyLoadAndTimeOut, one for each clause. -/
theorem test_witness_LivePatternsVerifyLoadAndTimeOut :
    (∃ (s : State) (c : Code), crAlive s = true ∧ crServing s 3 = true ∧ s.rd F.PAT_LIVE_STAT_STATE = 1 ∧ crWaits s (s.rd
      F.LIVE_DELTA) (crImageSpan s .delta (s.rd F.LIVE_DELTA)) = false ∧ (crRead (crLeave s) (s.rd F.LIVE_DELTA) (crImageSpan s
      .delta (s.rd F.LIVE_DELTA))).2 = some c) ∧
    (∃ (s : State) (u : State), crAlive s = true ∧ crServing s 3 = true ∧ s.rd F.PAT_LIVE_STAT_STATE = 1 ∧ crWaits s (s.rd
      F.LIVE_DELTA) (crImageSpan s .delta (s.rd F.LIVE_DELTA)) = false ∧ crRead (crLeave s) (s.rd F.LIVE_DELTA) (crImageSpan s
      .delta (s.rd F.LIVE_DELTA)) = (u, none) ∧ (imgCheck u .delta (s.rd F.LIVE_DELTA) 0x40000 false).code ≠ 1) ∧
    (∃ (s : State) (u : State) (fs : List Frame) (m : Nat), crAlive s = true ∧ crServing s 3 = true ∧ s.rd F.PAT_LIVE_STAT_STATE
      = 1 ∧ crWaits s (s.rd F.LIVE_DELTA) (crImageSpan s .delta (s.rd F.LIVE_DELTA)) = false ∧ crRead (crLeave s) (s.rd
      F.LIVE_DELTA) (crImageSpan s .delta (s.rd F.LIVE_DELTA)) = (u, none) ∧ (imgCheck u .delta (s.rd F.LIVE_DELTA) 0x40000
      false).code = 1 ∧ deltaRefusal (signatureNoted u (imgCheck u .delta (s.rd F.LIVE_DELTA) 0x40000 false)) (s.rd
      F.LIVE_DELTA) = 0 ∧ checkPass (signatureNoted u (imgCheck u .delta (s.rd F.LIVE_DELTA) 0x40000 false)) (s.rd F.LIVE_DELTA)
      true = .ok fs m) ∧
    (∃ (s : State), s.rd F.PAT_LIVE_STAT_STATE = 2 ∧ s.held = []) ∧
    (∃ (s : State), s.rd F.PAT_LIVE_STAT_STATE = 3) :=
  ⟨⟨{ (st [(F.LIVE_DELTA, 0, 0, 0x20000000), (F.CR_USER, 0, 0, 3), (F.PAT_LIVE_STAT_STATE, 0, 0, 1)]) with bad := [0x20000000]
     }, (.ecc : Code), by decide +kernel⟩,
   ⟨(st [(F.LIVE_DELTA, 0, 0, 0x20000000), (F.CR_USER, 0, 0, 3), (F.PAT_LIVE_STAT_STATE, 0, 0, 1)]), ((crRead (crLeave (st
     [(F.LIVE_DELTA, 0, 0, 0x20000000), (F.CR_USER, 0, 0, 3), (F.PAT_LIVE_STAT_STATE, 0, 0, 1)])) ((st [(F.LIVE_DELTA, 0, 0,
     0x20000000), (F.CR_USER, 0, 0, 3), (F.PAT_LIVE_STAT_STATE, 0, 0, 1)]).rd F.LIVE_DELTA) (crImageSpan (st [(F.LIVE_DELTA, 0,
     0, 0x20000000), (F.CR_USER, 0, 0, 3), (F.PAT_LIVE_STAT_STATE, 0, 0, 1)]) .delta ((st [(F.LIVE_DELTA, 0, 0, 0x20000000),
     (F.CR_USER, 0, 0, 3), (F.PAT_LIVE_STAT_STATE, 0, 0, 1)]).rd F.LIVE_DELTA))).1), by decide +kernel⟩,
   ⟨deltaState, ((crRead (crLeave deltaState) (deltaState.rd F.LIVE_DELTA) (crImageSpan deltaState .delta (deltaState.rd
     F.LIVE_DELTA))).1), ([⟨4, 1, 0, [0], 80⟩] : List Frame), (16 : Nat), by decide +kernel⟩,
   ⟨{ (st [(F.PAT_LIVE_STAT_STATE, 0, 0, 2)]) with held := [] }, by decide +kernel⟩,
   ⟨(st [(F.PAT_LIVE_STAT_STATE, 0, 0, 3)]), by decide +kernel⟩⟩

/-- Witnesses for MultiplyAndDivideGroupFollowsItsTable, one for each clause. -/
theorem test_witness_MultiplyAndDivideGroupFollowsItsTable :
    (∃ (s : State) (u : Fin 48), s.on F.DIV_PEND u = true) :=
  ⟨(st [(F.DIV_PEND, (0 : Fin 48), 0, 1)]), (0 : Fin 48), by decide +kernel⟩

/-- Witnesses for SaturatingAndBitFieldGroupsComputeTheirTables, one for each clause. -/
theorem test_witness_SaturatingAndBitFieldGroupsComputeTheirTables :
    (∃ (s : State) (u : Fin 48) (rd : Fin 16) (ra : Fin 16) (n : Fin 32), Ready s u (encA 3 rd ra 0 n 6)) ∧
    (∃ (s : State) (u : Fin 48) (rd : Fin 16) (ra : Fin 16) (n : Fin 32), Ready s u (encA 3 rd ra 0 n 7)) ∧
    (∃ (w : Nat), opOf w = 3 ∧ (9 ≤ fnOf w ∨ (fnOf w ≠ 6 ∧ fnOf w ≠ 7 ∧ auxOf w ≠ 0))) ∧
    (∃ (s : State) (u : Fin 48) (rd : Fin 16) (ra : Fin 16) (p : Fin 32) (w : Fin 32), p.val + w.val < 32 ∧ Ready s u (encA 4 rd
      ra 0 (p.val * 32 + w.val) 0)) ∧
    (∃ (s : State) (u : Fin 48) (rd : Fin 16) (ra : Fin 16) (p : Fin 32) (w : Fin 32), p.val + w.val < 32 ∧ Ready s u (encA 4 rd
      ra 0 (p.val * 32 + w.val) 1)) ∧
    (∃ (s : State) (u : Fin 48) (rd : Fin 16) (ra : Fin 16) (p : Fin 32) (w : Fin 32) (v : BitVec 32), p.val + w.val < 32 ∧
      Ready s u (encA 4 rd ra 0 (p.val * 32 + w.val) 2) ∧ (∀ j, j < 32 → v.getLsbD j = if p.val ≤ j ∧ j ≤ p.val + w.val then
      (greg s u ra).getLsbD (j - p.val) else (greg s u rd).getLsbD j)) ∧
    (∃ (w : Nat), opOf w = 4 ∧ (6 ≤ fnOf w ∨ (fnOf w < 3 ∧ 32 < bits w 13 9 + bits w 8 4 + 1) ∨ (3 ≤ fnOf w ∧ auxOf w ≠ 0))) :=
  ⟨⟨(rdy (0 : Fin 48) (encA 3 (0 : Fin 16) (0 : Fin 16) 0 (0 : Fin 32) 6) []), (0 : Fin 48), (0 : Fin 16), (0 : Fin 16), (0 :
     Fin 32), ready_of (by decide +kernel)⟩,
   ⟨(rdy (0 : Fin 48) (encA 3 (0 : Fin 16) (0 : Fin 16) 0 (0 : Fin 32) 7) []), (0 : Fin 48), (0 : Fin 16), (0 : Fin 16), (0 :
     Fin 32), ready_of (by decide +kernel)⟩,
   ⟨(3 * 2 ^ 26 + 9 : Nat), by decide +kernel⟩,
   ⟨(rdy (0 : Fin 48) (encA 4 (0 : Fin 16) (0 : Fin 16) 0 ((0 : Fin 32).val * 32 + (0 : Fin 32).val) 0) []), (0 : Fin 48), (0 :
     Fin 16), (0 : Fin 16), (0 : Fin 32), (0 : Fin 32), by decide +kernel, ready_of (by decide +kernel)⟩,
   ⟨(rdy (0 : Fin 48) (encA 4 (0 : Fin 16) (0 : Fin 16) 0 ((0 : Fin 32).val * 32 + (0 : Fin 32).val) 1) []), (0 : Fin 48), (0 :
     Fin 16), (0 : Fin 16), (0 : Fin 32), (0 : Fin 32), by decide +kernel, ready_of (by decide +kernel)⟩,
   ⟨(rdy (0 : Fin 48) (encA 4 (1 : Fin 16) (2 : Fin 16) 0 (28 * 32 + 3) 2) [(F.GPR, 0, 1, 0xAAAAAAAA), (F.GPR, 0, 2, 5)]), (0 :
     Fin 48), (1 : Fin 16), (2 : Fin 16), (28 : Fin 32), (3 : Fin 32), (0x5AAAAAAA : BitVec 32), by decide +kernel, ready_of
     (by decide +kernel), by decide +kernel⟩,
   ⟨(4 * 2 ^ 26 + 6 : Nat), by decide +kernel⟩⟩

/-- Witnesses for ImmediatesComputeAsStated, one for each clause. -/
theorem test_witness_ImmediatesComputeAsStated :
    (∃ (s : State) (u : Fin 48) (rd : Fin 16) (ra : Fin 16) (k : Fin 4) (n : Fin 32), Ready s u (encI 0x0E rd ra (k.val * 32 +
      n.val))) ∧
    (∃ (s : State) (u : Fin 48) (rd : Fin 16) (n : BitVec 22), Ready s u (encL 0x10 rd n.toNat)) ∧
    (∃ (s : State) (u : Fin 48) (rd : Fin 16) (n : BitVec 22), Ready s u (encL 0x13 rd n.toNat)) ∧
    (∃ (w : Nat), opOf w = 0x0E ∧ 128 ≤ imm18Of w) :=
  ⟨⟨(rdy (0 : Fin 48) (encI 0x0E (0 : Fin 16) (0 : Fin 16) ((0 : Fin 4).val * 32 + (0 : Fin 32).val)) []), (0 : Fin 48), (0 :
     Fin 16), (0 : Fin 16), (0 : Fin 4), (0 : Fin 32), ready_of (by decide +kernel)⟩,
   ⟨(rdy (0 : Fin 48) (encL 0x10 (0 : Fin 16) (0 : BitVec 22).toNat) []), (0 : Fin 48), (0 : Fin 16), (0 : BitVec 22), ready_of
     (by decide +kernel)⟩,
   ⟨(rdy (0 : Fin 48) (encL 0x13 (0 : Fin 16) (0 : BitVec 22).toNat) []), (0 : Fin 48), (0 : Fin 16), (0 : BitVec 22), ready_of
     (by decide +kernel)⟩,
   ⟨(0x0E * 2 ^ 26 + 128 : Nat), by decide +kernel⟩⟩

/-- Witnesses for TransfersOfControlReachTheirTargets, one for each clause. -/
theorem test_witness_TransfersOfControlReachTheirTargets :
    (∃ (s : State) (u : Fin 48) (c : Fin 8) (ra : Fin 16) (rb : Fin 16) (d : BitVec 14), Ready s u (encB 0x14 c ra rb d.toNat) ∧
      takenIf c (greg s u ra) (greg s u rb) = true) ∧
    (∃ (s : State) (u : Fin 48) (c : Fin 8) (ra : Fin 16) (rb : Fin 16) (d : BitVec 14), Ready s u (encB 0x14 c ra rb d.toNat) ∧
      takenIf c (greg s u ra) (greg s u rb) = false) ∧
    (∃ (s : State) (u : Fin 48) (c : Fin 8) (ra : Fin 16) (d : BitVec 14), Ready s u (encB 0x15 c ra 0 d.toNat) ∧ takenIf c
      (greg s u ra) 0 = true) ∧
    (∃ (s : State) (u : Fin 48) (c : Fin 8) (ra : Fin 16) (d : BitVec 14), Ready s u (encB 0x15 c ra 0 d.toNat) ∧ takenIf c
      (greg s u ra) 0 = false) ∧
    (∃ (s : State) (u : Fin 48) (rd : Fin 16) (n : BitVec 22), Ready s u (encL 0x11 rd n.toNat)) ∧
    (∃ (s : State) (u : Fin 48) (rd : Fin 16) (ra : Fin 16) (n : BitVec 18), Ready s u (encI 0x12 rd ra n.toNat)) :=
  ⟨⟨(rdy (0 : Fin 48) (encB 0x14 (0 : Fin 8) (0 : Fin 16) (0 : Fin 16) (0 : BitVec 14).toNat) []), (0 : Fin 48), (0 : Fin 8), (0
     : Fin 16), (0 : Fin 16), (0 : BitVec 14), ready_of (by decide +kernel), by decide +kernel⟩,
   ⟨(rdy (0 : Fin 48) (encB 0x14 (1 : Fin 8) (0 : Fin 16) (0 : Fin 16) (0 : BitVec 14).toNat) []), (0 : Fin 48), (1 : Fin 8), (0
     : Fin 16), (0 : Fin 16), (0 : BitVec 14), ready_of (by decide +kernel), by decide +kernel⟩,
   ⟨(rdy (0 : Fin 48) (encB 0x15 (0 : Fin 8) (0 : Fin 16) 0 (0 : BitVec 14).toNat) []), (0 : Fin 48), (0 : Fin 8), (0 : Fin 16),
     (0 : BitVec 14), ready_of (by decide +kernel), by decide +kernel⟩,
   ⟨(rdy (0 : Fin 48) (encB 0x15 (1 : Fin 8) (0 : Fin 16) 0 (0 : BitVec 14).toNat) []), (0 : Fin 48), (1 : Fin 8), (0 : Fin 16),
     (0 : BitVec 14), ready_of (by decide +kernel), by decide +kernel⟩,
   ⟨(rdy (0 : Fin 48) (encL 0x11 (0 : Fin 16) (0 : BitVec 22).toNat) []), (0 : Fin 48), (0 : Fin 16), (0 : BitVec 22), ready_of
     (by decide +kernel)⟩,
   ⟨(rdy (0 : Fin 48) (encI 0x12 (0 : Fin 16) (0 : Fin 16) (0 : BitVec 18).toNat) []), (0 : Fin 48), (0 : Fin 16), (0 : Fin 16),
     (0 : BitVec 18), ready_of (by decide +kernel)⟩⟩

/-- Witnesses for ExceptionsEnterTheHandler, one for each clause. -/
theorem test_witness_ExceptionsEnterTheHandler :
    (∃ (s : State) (u : Fin 48) (w : BitVec 32), Ready s u w.toNat ∧ legalWord w.toNat = false ∧ exl s u = false) ∧
    (∃ (s : State) (u : Fin 48) (n : BitVec 10), Ready s u (encS 2 n.toNat 0 0) ∧ exl s u = false) ∧
    (∃ (s : State) (u : Fin 48) (n : BitVec 10), Ready s u (encS 7 n.toNat 0 0) ∧ exl s u = false ∧ (s.on F.DBG_CTRL_BRK_HALT =
      false ∨ isOpen s = false)) ∧
    (∃ (s : State) (u : Fin 48) (n : BitVec 10), Ready s u (encS 7 n.toNat 0 0) ∧ isChecker s u = false ∧ s.on
      F.DBG_CTRL_BRK_HALT = true ∧ isOpen s = true) ∧
    (∃ (s : State) (u : Fin 48) (rd : Fin 16) (ra : Fin 16) (rb : Fin 16) (r : Nat), canIssue s u (encA 1 rd ra rb 0 0) = true ∧
      exl s u = false ∧ mpuCheck s u .fetch (s.rd F.PC u) = some r) :=
  ⟨⟨(rdy (0 : Fin 48) ((0 : BitVec 32).toNat) []), (0 : Fin 48), (0 : BitVec 32), ready_of (by decide +kernel),
     by decide +kernel, by decide +kernel⟩,
   ⟨(rdy (0 : Fin 48) (encS 2 (0 : BitVec 10).toNat 0 0) []), (0 : Fin 48), (0 : BitVec 10), ready_of (by decide +kernel),
     by decide +kernel⟩,
   ⟨(rdy (0 : Fin 48) (encS 7 (0 : BitVec 10).toNat 0 0) [(F.DBG_CTRL_BRK_HALT, 0, 0, 0)]), (0 : Fin 48), (0 : BitVec 10),
     ready_of (by decide +kernel), by decide +kernel, by decide +kernel⟩,
   ⟨(rdy (0 : Fin 48) (encS 7 (0 : BitVec 10).toNat 0 0) [(F.DBG_CTRL_BRK_HALT, 0, 0, 1)]), (0 : Fin 48), (0 : BitVec 10),
     ready_of (by decide +kernel), by decide +kernel, by decide +kernel, by decide +kernel⟩,
   ⟨(st [(F.MPU_CTRL_DEF_EN, 0, 0, 0), (F.PC, 0, 0, 0x20000000), (F.FB_LINE, 0, 0, 0x20000000 / 32 + 1), (F.FB_DATA, 0, 0, encA
     1 0 0 0 0 0), (F.HASTASK, 0, 0, 1)]), (0 : Fin 48), (0 : Fin 16), (0 : Fin 16), (0 : Fin 16), (0xFF : Nat),
     by decide +kernel⟩⟩

/-- Witnesses for AsynchronousCausesAndDoubleFaults, one for each clause. -/
theorem test_witness_AsynchronousCausesAndDoubleFaults :
    (∃ (s : State) (u : Fin 48), canAdvance s u = true ∧ isChecker s u = false ∧ exl s u = false ∧ s.on F.WDX_PEND u = true) ∧
    (∃ (s : State) (u : Fin 48), canAdvance s u = true ∧ isChecker s u = false ∧ exl s u = false ∧ s.on F.WDX_PEND u = false ∧
      s.on F.NT_PEND u = true) ∧
    (∃ (s : State) (u : Fin 48), canAdvance s u = true ∧ isChecker s u = false ∧ exl s u = false ∧ s.on F.WDX_PEND u = false ∧
      s.on F.NT_PEND u = false ∧ s.on F.SG_PEND u = true) ∧
    (∃ (s : State) (u : Fin 48), exl s u = true ∧ s.on F.WDX_PEND u = false) ∧
    (∃ (s : State) (u : Fin 48), canAdvance s u = true ∧ isChecker s u = false ∧ exl s u = true ∧ s.on F.WDX_PEND u = true) ∧
    (∃ (s : State) (u : Fin 48) (w : BitVec 32), Ready s u w.toNat ∧ legalWord w.toNat = false ∧ isChecker s u = false ∧ exl s u
      = true) :=
  ⟨⟨(st [(F.HASTASK, globOf (0 : Fin 48), 0, 1), (F.PC, (0 : Fin 48), 0, 0x20000000), (F.WDX_PEND, (0 : Fin 48), 0, 1)]), (0 :
     Fin 48), by decide +kernel⟩,
   ⟨(st [(F.HASTASK, globOf (0 : Fin 48), 0, 1), (F.PC, (0 : Fin 48), 0, 0x20000000), (F.WDX_PEND, (0 : Fin 48), 0, 0),
     (F.NT_PEND, (0 : Fin 48), 0, 1)]), (0 : Fin 48), by decide +kernel⟩,
   ⟨(st [(F.HASTASK, globOf (0 : Fin 48), 0, 1), (F.PC, (0 : Fin 48), 0, 0x20000000), (F.WDX_PEND, (0 : Fin 48), 0, 0),
     (F.NT_PEND, (0 : Fin 48), 0, 0), (F.SG_PEND, (0 : Fin 48), 0, 1)]), (0 : Fin 48), by decide +kernel⟩,
   ⟨(st [(F.TSR, (0 : Fin 48), 0, 2), (F.WDX_PEND, (0 : Fin 48), 0, 0)]), (0 : Fin 48), by decide +kernel⟩,
   ⟨(st [(F.HASTASK, globOf (0 : Fin 48), 0, 1), (F.PC, (0 : Fin 48), 0, 0x20000000), (F.TSR, (0 : Fin 48), 0, 2), (F.WDX_PEND,
     (0 : Fin 48), 0, 1)]), (0 : Fin 48), by decide +kernel⟩,
   ⟨(rdy (0 : Fin 48) ((0 : BitVec 32).toNat) [(F.TSR, (0 : Fin 48), 0, 2)]), (0 : Fin 48), (0 : BitVec 32), ready_of
     (by decide +kernel), by decide +kernel, by decide +kernel, by decide +kernel⟩⟩

/-- Witnesses for SystemRegistersAreReadAndWritten, one for each clause. -/
theorem test_witness_SystemRegistersAreReadAndWritten :
    (∃ (s : State) (u : Fin 48) (rd : Fin 16), Ready s u (encS 0 (0, F.TSR).1 0 rd) ∧ userLevel s u = false) ∧
    (∃ (s : State) (u : Fin 48) (rd : Fin 16), Ready s u (encS 0 6 0 rd) ∧ userLevel s u = false) ∧
    (∃ (s : State) (u : Fin 48) (rd : Fin 16) (k : Fin 4), Ready s u (encS 0 (0x10 + k.val) 0 rd) ∧ userLevel s u = false) ∧
    (∃ (s : State) (u : Fin 48) (rd : Fin 16), Ready s u (encS 0 7 0 rd)) ∧
    (∃ (s : State) (u : Fin 48) (rd : Fin 16), Ready s u (encS 0 9 0 rd)) ∧
    (∃ (s : State) (u : Fin 48) (rd : Fin 16) (n : BitVec 10), Ready s u (encS 0 n.toNat 0 rd) ∧ sysReg n.toNat = true ∧ n ≠ 7 ∧
      n ≠ 9 ∧ userLevel s u = true ∧ exl s u = false) ∧
    (∃ (s : State) (u : Fin 48) (ra : Fin 16), Ready s u (encS 1 (0, F.TSR).1 ra 0) ∧ userLevel s u = false) ∧
    (∃ (s : State) (u : Fin 48) (ra : Fin 16), Ready s u (encS 1 2 ra 0) ∧ userLevel s u = false) ∧
    (∃ (s : State) (u : Fin 48) (ra : Fin 16), Ready s u (encS 1 6 ra 0) ∧ userLevel s u = false) ∧
    (∃ (s : State) (u : Fin 48) (ra : Fin 16), Ready s u (encS 1 8 ra 0) ∧ userLevel s u = false ∧ s.on F.MPU_LOCK_POL = false) ∧
    (∃ (s : State) (u : Fin 48) (ra : Fin 16), Ready s u (encS 1 9 ra 0) ∧ userLevel s u = false) ∧
    (∃ (s : State) (u : Fin 48) (ra : Fin 16) (k : Fin 4), Ready s u (encS 1 (0x10 + k.val) ra 0) ∧ userLevel s u = false) ∧
    (∃ (s : State) (u : Fin 48) (ra : Fin 16) (n : BitVec 10), Ready s u (encS 1 n.toNat ra 0) ∧ sysReg n.toNat = true ∧
      (userLevel s u = true ∨ n = 7 ∨ n = 8 ∧ s.on F.MPU_LOCK_POL = true) ∧ exl s u = false) :=
  ⟨⟨(rdy (0 : Fin 48) (encS 0 (0, F.TSR).1 0 (0 : Fin 16)) []), (0 : Fin 48), (0 : Fin 16), ready_of (by decide +kernel),
     by decide +kernel⟩,
   ⟨(rdy (0 : Fin 48) (encS 0 6 0 (0 : Fin 16)) []), (0 : Fin 48), (0 : Fin 16), ready_of (by decide +kernel),
     by decide +kernel⟩,
   ⟨(rdy (0 : Fin 48) (encS 0 (0x10 + (0 : Fin 4).val) 0 (0 : Fin 16)) []), (0 : Fin 48), (0 : Fin 16), (0 : Fin 4), ready_of
     (by decide +kernel), by decide +kernel⟩,
   ⟨(rdy (0 : Fin 48) (encS 0 7 0 (0 : Fin 16)) []), (0 : Fin 48), (0 : Fin 16), ready_of (by decide +kernel)⟩,
   ⟨(rdy (0 : Fin 48) (encS 0 9 0 (0 : Fin 16)) []), (0 : Fin 48), (0 : Fin 16), ready_of (by decide +kernel)⟩,
   ⟨(rdy (0 : Fin 48) (encS 0 (0 : BitVec 10).toNat 0 (0 : Fin 16)) [(F.MPU_START_START, 0, 3, 0x20000000 / 32), (F.MPU_END_END,
     0, 3, 0x200FFFE0 / 32), (F.MPU_ATTR_EN, 0, 3, 1), (F.MPU_ATTR_RIGHTS, 0, 3, 0x3F), (F.TRMASK, 0, 0, 8), (F.TSR, (0 : Fin
     48), 0, 1)]), (0 : Fin 48), (0 : Fin 16), (0 : BitVec 10), ready_of (by decide +kernel), by decide +kernel,
     by decide +kernel, by decide +kernel, by decide +kernel, by decide +kernel⟩,
   ⟨(rdy (0 : Fin 48) (encS 1 (0, F.TSR).1 (0 : Fin 16) 0) []), (0 : Fin 48), (0 : Fin 16), ready_of (by decide +kernel),
     by decide +kernel⟩,
   ⟨(rdy (0 : Fin 48) (encS 1 2 (0 : Fin 16) 0) []), (0 : Fin 48), (0 : Fin 16), ready_of (by decide +kernel),
     by decide +kernel⟩,
   ⟨(rdy (0 : Fin 48) (encS 1 6 (0 : Fin 16) 0) []), (0 : Fin 48), (0 : Fin 16), ready_of (by decide +kernel),
     by decide +kernel⟩,
   ⟨(rdy (0 : Fin 48) (encS 1 8 (0 : Fin 16) 0) [(F.MPU_LOCK_POL, 0, 0, 0)]), (0 : Fin 48), (0 : Fin 16), ready_of
     (by decide +kernel), by decide +kernel, by decide +kernel⟩,
   ⟨(rdy (0 : Fin 48) (encS 1 9 (0 : Fin 16) 0) []), (0 : Fin 48), (0 : Fin 16), ready_of (by decide +kernel),
     by decide +kernel⟩,
   ⟨(rdy (0 : Fin 48) (encS 1 (0x10 + (0 : Fin 4).val) (0 : Fin 16) 0) []), (0 : Fin 48), (0 : Fin 16), (0 : Fin 4), ready_of
     (by decide +kernel), by decide +kernel⟩,
   ⟨(rdy (0 : Fin 48) (encS 1 (1 : BitVec 10).toNat (0 : Fin 16) 0) [(F.MPU_START_START, 0, 3, 0x20000000 / 32), (F.MPU_END_END,
     0, 3, 0x200FFFE0 / 32), (F.MPU_ATTR_EN, 0, 3, 1), (F.MPU_ATTR_RIGHTS, 0, 3, 0x3F), (F.TRMASK, 0, 0, 8), (F.TSR, (0 : Fin
     48), 0, 1)]), (0 : Fin 48), (0 : Fin 16), (1 : BitVec 10), ready_of (by decide +kernel), by decide +kernel,
     by decide +kernel, by decide +kernel⟩⟩

/-- Witnesses for SystemGroupActsAsItsTableSays, one for each clause. -/
theorem test_witness_SystemGroupActsAsItsTableSays :
    (∃ (s : State) (u : Fin 48), Ready s u (encS 3 0 0 0) ∧ userLevel s u = false) ∧
    (∃ (s : State) (u : Fin 48), Ready s u (encS 3 0 0 0) ∧ userLevel s u = true ∧ exl s u = false) ∧
    (∃ (s : State) (u : Fin 48), Ready s u (encS 9 0 0 0)) ∧
    (∃ (s : State) (u : Fin 48), Ready s u (encS 8 0 0 0)) ∧
    (∃ (s : State) (u : Fin 48), Ready s u (encS 4 0 0 0) ∧ isChecker s u = false) ∧
    (∃ (s : State) (u : Fin 48), Ready s u (encS 5 0 0 0) ∧ isChecker s u = false ∧ s.on F.DSP_TSTAT_PENDING (s.rd F.TID_TASK u)
      = false) ∧
    (∃ (s : State) (u : Fin 48), Ready s u (encS 5 0 0 0) ∧ isChecker s u = false ∧ s.on F.DSP_TSTAT_PENDING (s.rd F.TID_TASK u)
      = true) ∧
    (∃ (s : State) (u : Fin 48), Ready s u (encS 6 0 0 0) ∧ isChecker s u = false ∧ exl s u = false ∧ (∀ n, n < 4 → CanSave s
      (saveAddr (s.rd F.TID_TASK u) + 32 * n))) :=
  ⟨⟨(rdy (0 : Fin 48) (encS 3 0 0 0) []), (0 : Fin 48), ready_of (by decide +kernel), by decide +kernel⟩,
   ⟨(rdy (0 : Fin 48) (encS 3 0 0 0) [(F.MPU_START_START, 0, 3, 0x20000000 / 32), (F.MPU_END_END, 0, 3, 0x200FFFE0 / 32),
     (F.MPU_ATTR_EN, 0, 3, 1), (F.MPU_ATTR_RIGHTS, 0, 3, 0x3F), (F.TRMASK, 0, 0, 8), (F.TSR, (0 : Fin 48), 0, 1)]), (0 : Fin
     48), ready_of (by decide +kernel), by decide +kernel, by decide +kernel⟩,
   ⟨(rdy (0 : Fin 48) (encS 9 0 0 0) []), (0 : Fin 48), ready_of (by decide +kernel)⟩,
   ⟨(rdy (0 : Fin 48) (encS 8 0 0 0) []), (0 : Fin 48), ready_of (by decide +kernel)⟩,
   ⟨(rdy (0 : Fin 48) (encS 4 0 0 0) []), (0 : Fin 48), ready_of (by decide +kernel), by decide +kernel⟩,
   ⟨(rdy (0 : Fin 48) (encS 5 0 0 0) [(F.DSP_TSTAT_PENDING, 0, 0, 0)]), (0 : Fin 48), ready_of (by decide +kernel),
     by decide +kernel, by decide +kernel⟩,
   ⟨(rdy (0 : Fin 48) (encS 5 0 0 0) [(F.DSP_TSTAT_PENDING, 0, 0, 1)]), (0 : Fin 48), ready_of (by decide +kernel),
     by decide +kernel, by decide +kernel⟩,
   ⟨(rdy (0 : Fin 48) (encS 6 0 0 0) []), (0 : Fin 48), ready_of (by decide +kernel), by decide +kernel, by decide +kernel, fun
     n h => canSave_of ((by decide +kernel : ∀ n : Fin 4, canSaveB (rdy (0 : Fin 48) (encS 6 0 0 0) []) (saveAddr ((rdy (0 : Fin
     48) (encS 6 0 0 0) []).rd F.TID_TASK (0 : Fin 48)) + 32 * n.val) = true) ⟨n, h⟩)⟩⟩

/-- Witnesses for LoadsAndAtomicsAskForTheirBytes, one for each clause. -/
theorem test_witness_LoadsAndAtomicsAskForTheirBytes :
    (∃ (s : State) (u : Fin 48) (rd : Fin 16) (ra : Fin 16) (imm : BitVec 18), Ready s u (encI 0x1C rd ra imm.toNat) ∧ 32 ≤
      u.val ∧ greg s u ra + imm.signExtend 32 = BitVec.ofNat 32 spSenseAddr ∧ mpuCheck s u .load spSenseAddr = none ∧
      stackRefused s u rd (BitVec.ofNat 32 (s.rd (if u.val < 40 then F.SENSE_M else F.SENSE_C))).toNat = false) :=
  ⟨(rdy (32 : Fin 48) (encI 0x1C (0 : Fin 16) (1 : Fin 16) (0 : BitVec 18).toNat) [(F.GPR, (32 : Fin 48), 1, spSenseAddr),
     (F.SP_STAT_MODE, 0, 0, 0)]), (32 : Fin 48), (0 : Fin 16), (1 : Fin 16), (0 : BitVec 18), ready_of (by decide +kernel),
     by decide +kernel, by decide +kernel, by decide +kernel, by decide +kernel⟩

/-- Witnesses for AnswersCompleteLoadsAndAtomics, one for each clause. -/
theorem test_witness_AnswersCompleteLoadsAndAtomics :
    (∃ (s : State) (u : Fin 48) (n : Nat), n ≤ 4 ∧ AsksSram s u 0 n ∧ stackRefused s u (s.rd F.LD_RD u) (loadVal n (s.on
      F.LD_SIGN u) (s.mget (s.rd F.LD_ADDR u) n)).toNat = false) ∧
    (∃ (s : State) (u : Fin 48), AsksSram s u 0 8 ∧ stackRefused s u (s.rd F.LD_RD u + 1) ((s.mget (s.rd F.LD_ADDR u) 8) / 2 ^
      32) = false) ∧
    (∃ (s : State) (u : Fin 48) (n : Nat), n ≤ 4 ∧ AsksSram s u 0 n ∧ stackRefused s u (s.rd F.LD_RD u) (loadVal n (s.on
      F.LD_SIGN u) (s.mget (s.rd F.LD_ADDR u) n)).toNat = true ∧ exl s u = false) ∧
    (∃ (s : State) (u : Fin 48), s.on F.LD_PEND u = true ∧ isChecker s u = false ∧ leadsPair s u = false ∧ loadWaits s u = false
      ∧ masterLive s (threadMaster u) = true ∧ mustWait s (loadRequest s u) = false ∧ linkHolds s (loadRequest s u) = false ∧
      dieAnswers s (threadMaster u) (s.rd F.LD_ADDR u) = false ∧ inNvm (s.rd F.LD_ADDR u) = false ∧ ownLocal u (s.rd F.LD_ADDR
      u) = false ∧ exl s u = false) ∧
    (∃ (s : State) (u : Fin 48) (op : Nat) (n : Nat), (op = 1 ∨ op = 2) ∧ (n = 4 ∨ n = 8) ∧ AsksSram s u op n ∧ (n = 4 →
      stackRefused s u (s.rd F.LD_RD u) (s.mget (s.rd F.LD_ADDR u) n) = false) ∧ (n = 8 → stackRefused s u (s.rd F.LD_RD u + 1)
      ((s.mget (s.rd F.LD_ADDR u) n) / 2 ^ 32) = false)) :=
  ⟨⟨(st [(F.LD_PEND, 0, 0, 1), (F.LD_OP, 0, 0, 0), (F.LD_SIZE, 0, 0, 2), (F.LD_ADDR, 0, 0, 0x20000000), (F.LD_RD, 0, 0, 5)]), (0
     : Fin 48), (4 : Nat), by decide +kernel, asks_of (by decide +kernel), by decide +kernel⟩,
   ⟨(st [(F.LD_PEND, 0, 0, 1), (F.LD_OP, 0, 0, 0), (F.LD_SIZE, 0, 0, 3), (F.LD_ADDR, 0, 0, 0x20000000), (F.LD_RD, 0, 0, 5)]), (0
     : Fin 48), asks_of (by decide +kernel), by decide +kernel⟩,
   ⟨(st [(F.LD_RD, 0, 0, 15), (F.STK_LIM_LIMIT, 0, 0, 1), (F.LD_PEND, 0, 0, 1), (F.LD_OP, 0, 0, 0), (F.LD_SIZE, 0, 0, 2),
     (F.LD_ADDR, 0, 0, 0x20000000), (F.LD_RD, 0, 0, 5)]), (0 : Fin 48), (4 : Nat), by decide +kernel, asks_of
     (by decide +kernel), by decide +kernel, by decide +kernel⟩,
   ⟨(st [(F.STK_DIESTATE_M_STATE, 0, 0, 0), (F.LD_PEND, 0, 0, 1), (F.LD_OP, 0, 0, 0), (F.LD_SIZE, 0, 0, 2), (F.LD_ADDR, 0, 0,
     0x60000000), (F.LD_RD, 0, 0, 5), (F.LD_PEND, (0 : Fin 48), 0, 1)]), (0 : Fin 48), by decide +kernel⟩,
   ⟨(st [(F.LD_PEND, 0, 0, 1), (F.LD_OP, 0, 0, 1), (F.LD_SIZE, 0, 0, 2), (F.LD_ADDR, 0, 0, 0x20000000), (F.LD_RD, 0, 0, 5)]), (0
     : Fin 48), (1 : Nat), (4 : Nat), by decide +kernel, by decide +kernel, asks_of (by decide +kernel), by decide +kernel,
     by decide +kernel⟩⟩

/-- Witnesses for StoresPassThroughTheStoreBuffer, one for each clause. -/
theorem test_witness_StoresPassThroughTheStoreBuffer :
    (∃ (s : State) (u : Fin 48) (e : StoreEntry) (k : Nat), oldestStore s u = some e ∧ e.thread = u ∧ atLimit s u = false ∧
      mustWait s (storeRequest e) = false ∧ masterLive s (threadMaster u) = true ∧ cUp s = true ∧ targetOf e.addr = .sram k ∧
      s.rd F.DOM_STATE (44 + k) = 2 ∧ fwRefuses s (threadMaster u) 1 e.addr = none ∧ alignedReq e.addr e.size = true ∧ s.bad =
      []) ∧
    (∃ (s : State) (u : Fin 48) (e : StoreEntry) (r : Resp), (s.stores.find? fun x => x.thread == u.val) = some e ∧ e.issued =
      true ∧ e.answer = some r) :=
  ⟨⟨{ (st [(F.DOM_STATE, (44 + (0 : Nat)), 0, 2)]) with stores := [(⟨0, 0, 0x20000000, 4, 7, false, false, none⟩ : StoreEntry)]
     }, (0 : Fin 48), (⟨0, 0, 0x20000000, 4, 7, false, false, none⟩ : StoreEntry), (0 : Nat), by decide +kernel⟩,
   ⟨{ (st []) with stores := [(⟨0, 0, 0x20000000, 4, 7, false, true, some ⟨.ok, false, 0⟩⟩ : StoreEntry)] }, (0 : Fin 48), (⟨0,
     0, 0x20000000, 4, 7, false, true, some ⟨.ok, false, 0⟩⟩ : StoreEntry), (⟨.ok, false, 0⟩ : Resp), by decide +kernel⟩⟩

/-- Witnesses for FetchesWatchdogsAndInvalidationsEnd, one for each clause. -/
theorem test_witness_FetchesWatchdogsAndInvalidationsEnd :
    (∃ (s : State) (u : Fin 48) (k : Nat), canAdvance s u = true ∧ asyncDue s u = 0 ∧ isChecker s u = false ∧ s.rd F.FB_LINE u ≠
      s.rd F.PC u / 32 + 1 ∧ mpuCheck s u .fetch (s.rd F.PC u) = none ∧ targetOf (s.rd F.PC u) = .sram k ∧ targetOf (s.rd F.PC u
      / 32 * 32) = .sram k ∧ s.rd F.DOM_STATE (44 + k) = 2 ∧ lineWaits s u (s.rd F.PC u) = false ∧ masterLive s (threadMaster u)
      = true ∧ fwRefuses s (threadMaster u) 0 (s.rd F.PC u / 32 * 32) = none ∧ s.bad = []) ∧
    (∃ (s : State) (u : Fin 48) (v : Nat), canAdvance s u = true ∧ asyncDue s u = 0 ∧ isChecker s u = false ∧ s.rd F.FB_LINE u ≠
      s.rd F.PC u / 32 + 1 ∧ mpuCheck s u .fetch (s.rd F.PC u) = none ∧ inNvm (s.rd F.PC u) = true ∧ cacheBusy s u = false ∧
      s.on F.IC_CTRL_EN (coreOf u) = true ∧ lineFind (s.q Q.icache (cacheOf u) (s.rd F.PC u / 32 % 256)) (s.rd F.PC u) = some v) ∧
    (∃ (s : State) (u : Fin 48) (r : Nat), canAdvance s u = true ∧ asyncDue s u = 0 ∧ exl s u = false ∧ s.rd F.FB_LINE u ≠ s.rd
      F.PC u / 32 + 1 ∧ mpuCheck s u .fetch (s.rd F.PC u) = some r) ∧
    (∃ (s : State) (u : Fin 48), canAdvance s u = true ∧ asyncDue s u = 0 ∧ exl s u = false ∧ s.rd F.FB_LINE u ≠ s.rd F.PC u /
      32 + 1 ∧ mpuCheck s u .fetch (s.rd F.PC u) = none ∧ fetchable u (s.rd F.PC u) = false) ∧
    (∃ (s : State) (k : Fin 40), s.rd F.WD_PERIOD_PERIOD (k.val / 8) (k.val % 8) ≠ 0 ∧ s.rd F.WD_COUNT_COUNT (k.val / 8) (k.val
      % 8) = 0 ∧ s.on F.HASTASK k = true ∧ s.on F.HALTED k = false ∧ s.rd F.PTM_STATE_CUR ≤ 1 ∧ domOn s (threadDomain k) = true) ∧
    (∃ (s : State) (c : Fin 6), s.on F.INV_KIND c = true) :=
  ⟨⟨(st [(F.HASTASK, globOf (0 : Fin 48), 0, 1), (F.PC, (0 : Fin 48), 0, 0x20000000), (F.FB_LINE, (0 : Fin 48), 0, 0 + 1),
     (F.DOM_STATE, (44 + (0 : Nat)), 0, 2)]), (0 : Fin 48), (0 : Nat), by decide +kernel⟩,
   ⟨{ (st [(F.PC, 0, 0, 0x10000000), (F.FB_LINE, 0, 0, 0), (F.HASTASK, 0, 0, 1), (F.HASTASK, globOf (0 : Fin 48), 0, 1), (F.PC,
     (0 : Fin 48), 0, 0x20000000), (F.FB_LINE, (0 : Fin 48), 0, 0 + 1), (F.IC_CTRL_EN, (coreOf (0 : Fin 48)), 0, 1)]) with
     queues := [(⟨Q.icache, 0, 0⟩, [7 * 2 ^ 27 + 0x10000000 / 32])] }, (0 : Fin 48), (7 : Nat), by decide +kernel⟩,
   ⟨(st [(F.MPU_CTRL_DEF_EN, 0, 0, 0), (F.HASTASK, globOf (0 : Fin 48), 0, 1), (F.PC, (0 : Fin 48), 0, 0x20000000), (F.FB_LINE,
     (0 : Fin 48), 0, 0 + 1)]), (0 : Fin 48), (0xFF : Nat), by decide +kernel⟩,
   ⟨(st [(F.PC, 0, 0, 0x30000000), (F.MPU_START_START, 0, 3, 0), (F.MPU_END_END, 0, 3, 0xFFFFFFFF / 32), (F.MPU_ATTR_EN, 0, 3,
     1), (F.MPU_ATTR_RIGHTS, 0, 3, 0x3F), (F.TRMASK, 0, 0, 8), (F.HASTASK, globOf (0 : Fin 48), 0, 1), (F.PC, (0 : Fin 48), 0,
     0x20000000), (F.FB_LINE, (0 : Fin 48), 0, 0 + 1)]), (0 : Fin 48), by decide +kernel⟩,
   ⟨(st [(F.WD_PERIOD_PERIOD, ((0 : Fin 40).val / 8), ((0 : Fin 40).val % 8), (0) + 1), (F.WD_COUNT_COUNT, ((0 : Fin 40).val /
     8), ((0 : Fin 40).val % 8), 0), (F.HASTASK, (0 : Fin 40), 0, 1), (F.HALTED, (0 : Fin 40), 0, 0)]), (0 : Fin 40),
     by decide +kernel⟩,
   ⟨(st [(F.INV_KIND, (0 : Fin 6), 0, 1)]), (0 : Fin 6), by decide +kernel⟩⟩

/-- Witnesses for StartUpRegistersActOnTheirWrites, one for each clause. -/
theorem test_witness_StartUpRegistersActOnTheirWrites :
    (∃ (s : State) (src : Source) (k : BitVec 16), Lands s src 1 .stk 0 0x128 (1 + tk k) ∧ cUp s = true) ∧
    (∃ (s : State) (src : Source) (k : BitVec 16), Lands s src 1 .stk 0 0x128 (2 + tk k) ∧ mUp s = true) ∧
    (∃ (s : State) (src : Source) (k : BitVec 16), Lands s src 1 .su 0 0x110 (1 + tk k)) ∧
    (∃ (s : State) (src : Source) (k : BitVec 16) (b : Bool), Lands s src 1 .su 0 (if b then 0x8 else 0x120) (1 + tk k)) ∧
    (∃ (s : State) (src : Source), Lands s src 1 .su 0 0x100 (2 ^ 16) ∧ cUp s = true) ∧
    (∃ (s : State) (src : Source), Meets s src 1 .su 0 0x100 (2 ^ 16) ∧ s.on F.SU_TIER_ROM_PHASE = false) ∧
    (∃ (s : State) (src : Source), Lands s src 1 .su 0 0x100 (2 ^ 19) ∧ s.on F.SU_TIER_ROM_PHASE = true) ∧
    (∃ (s : State) (src : Source), Lands s src 1 .su 0 0x100 (2 ^ 17)) ∧
    (∃ (s : State) (src : Source) (m : BitVec 8) (k : BitVec 16), Lands s src 1 .su 0 0x138 (m.toNat + tk k)) ∧
    (∃ (s : State) (src : Source) (m : BitVec 8) (k : BitVec 16), Meets s src 1 .su 0 0x138 (m.toNat + tk k) ∧ s.rd
      F.TST_LOCK_STATE ≠ 0) :=
  ⟨⟨(st []), (⟨.unit 40, true⟩ : Source), (0 : BitVec 16), lands_of (by decide +kernel), by decide +kernel⟩,
   ⟨(st []), (⟨.unit 40, true⟩ : Source), (0 : BitVec 16), lands_of (by decide +kernel), by decide +kernel⟩,
   ⟨(st []), (⟨.unit 40, true⟩ : Source), (0 : BitVec 16), lands_of (by decide +kernel)⟩,
   ⟨(st []), (⟨.unit 40, true⟩ : Source), (0 : BitVec 16), (true : Bool), lands_of (by decide +kernel)⟩,
   ⟨(st [(F.SU_TIER_ROM_PHASE, 0, 0, 1)]), (⟨.unit 40, true⟩ : Source), lands_of (by decide +kernel), by decide +kernel⟩,
   ⟨(st [(F.SU_TIER_ROM_PHASE, 0, 0, 0)]), (⟨.unit 40, true⟩ : Source), meets_of (by decide +kernel), by decide +kernel⟩,
   ⟨(st [(F.SU_TIER_ROM_PHASE, 0, 0, 1)]), (⟨.unit 40, true⟩ : Source), lands_of (by decide +kernel), by decide +kernel⟩,
   ⟨(st []), (⟨.unit 40, true⟩ : Source), lands_of (by decide +kernel)⟩,
   ⟨(st []), (⟨.unit 40, true⟩ : Source), (0 : BitVec 8), (0 : BitVec 16), lands_of (by decide +kernel)⟩,
   ⟨(st [(F.TST_LOCK_STATE, 0, 0, (0) + 1)]), (⟨.unit 40, true⟩ : Source), (0 : BitVec 8), (0 : BitVec 16), meets_of
     (by decide +kernel), by decide +kernel⟩⟩

/-- Witnesses for PatternAndPowerRequestsAreTakenOrRefused, one for each clause. -/
theorem test_witness_PatternAndPowerRequestsAreTakenOrRefused :
    (∃ (s : State) (src : Source) (k : BitVec 16), Lands s src 1 .pat 0 0x158 (1 + tk k) ∧ livePending s = false ∧ s.on
      F.LIVE_EN = true ∧ (s.mget (liveAddr s + 6) 2).testBit 0 = true) ∧
    (∃ (s : State) (src : Source) (k : BitVec 16), Lands s src 1 .pat 0 0x158 (1 + tk k) ∧ livePending s = true) ∧
    (∃ (s : State) (src : Source) (k : BitVec 16), Lands s src 1 .pat 0 0x158 (2 + tk k) ∧ livePending s = true ∧ (s.rd
      F.PAT_LIVE_STAT_STATE = 2 → s.held = [])) ∧
    (∃ (s : State) (src : Source) (b : Bool), Lands s src 1 .ptm 0 0x104 (1 + 256 * bnat b) ∧ s.on F.PTM_SUPPLY_DROP_WARN =
      false) ∧
    (∃ (s : State) (src : Source) (b : Bool) (n : Nat) (c : Instr), (n, c) ∈ [(2, .stateReqNap src b), (3, .stateReqHibernate
      src b), (4, .stateReqShutdown src b)] ∧ Lands s src 1 .ptm 0 0x104 (n + 256 * bnat b) ∧ s.rd F.PTM_STATE_CUR = 0) ∧
    (∃ (s : State) (src : Source) (d : Fin 136), Lands s src 1 .ptm 0 (0x200 + 4 * (d.val / 32)) (domWord s d true) ∧ domCtrl s
      d = false ∧ domRefusal s d true = 0 ∧ s.rd F.DOM_STATE d = 0 ∧ domRailsGood s d = true) ∧
    (∃ (s : State) (src : Source) (d : Fin 136), Lands s src 1 .ptm 0 (0x200 + 4 * (d.val / 32)) (domWord s d false) ∧ domCtrl s
      d = true ∧ domRefusal s d false = 0) ∧
    (∃ (s : State) (src : Source) (d : Fin 136), Lands s src 1 .ptm 0 (0x200 + 4 * (d.val / 32)) (domWord s d true) ∧ domCtrl s
      d = false ∧ domRefusal s d true ≠ 0) :=
  ⟨⟨{ (st [(F.PAT_LIVE_ADDR_ADDR, 0, 0, 0x20000000 / 8), (F.LIVE_EN, 0, 0, 1)]) with mem := [(0x20000006, 1)] }, (⟨.unit 40,
     true⟩ : Source), (0 : BitVec 16), lands_of (by decide +kernel), by decide +kernel, by decide +kernel, by decide +kernel⟩,
   ⟨(st [(F.PAT_LIVE_STAT_STATE, 0, 0, 1)]), (⟨.unit 40, true⟩ : Source), (0 : BitVec 16), lands_of (by decide +kernel),
     by decide +kernel⟩,
   ⟨(st [(F.PAT_LIVE_STAT_STATE, 0, 0, 1)]), (⟨.unit 40, true⟩ : Source), (0 : BitVec 16), lands_of (by decide +kernel),
     by decide +kernel, by decide +kernel⟩,
   ⟨(st [(F.PTM_SUPPLY_DROP_WARN, 0, 0, 0)]), (⟨.unit 40, true⟩ : Source), (true : Bool), lands_of (by decide +kernel),
     by decide +kernel⟩,
   ⟨(st [(F.PTM_STATE_CUR, 0, 0, 0)]), (⟨.unit 40, true⟩ : Source), (true : Bool), (2 : Nat), (.stateReqNap (⟨.unit 40, true⟩ :
     Source) (true : Bool) : Instr), by decide +kernel, lands_of (by decide +kernel), by decide +kernel⟩,
   ⟨(st [(F.PTM_DOM_CTRL_CTRL, (0 : Fin 136) / 32, 0, 0), (F.DOM_STATE, (0 : Fin 136), 0, 0)]), (⟨.unit 40, true⟩ : Source), (0
     : Fin 136), lands_of (by decide +kernel), by decide +kernel, by decide +kernel, by decide +kernel, by decide +kernel⟩,
   ⟨(st []), (⟨.unit 40, true⟩ : Source), (0 : Fin 136), lands_of (by decide +kernel), by decide +kernel, by decide +kernel⟩,
   ⟨(st [(F.PTM_DOM_CTRL_CTRL, (36 : Fin 136) / 32, 0, 0)]), (⟨.unit 40, true⟩ : Source), (36 : Fin 136), lands_of
     (by decide +kernel), by decide +kernel, by decide +kernel⟩⟩

/-- Witnesses for AnalogAndTimingRegistersAct, one for each clause. -/
theorem test_witness_AnalogAndTimingRegistersAct :
    (∃ (s : State) (src : Source) (n : Fin 4), Lands s src 1 .ad n 0x10C 1 ∧ adSecond s n = false ∧ adLive s n = true ∧ s.on
      F.AD_CFG_PAIR n = false ∧ s.on F.AD_SEQ n 0 = false) ∧
    (∃ (s : State) (src : Source) (n : Fin 4), Lands s src 1 .ad n 0x10C 1 ∧ adSecond s n = false ∧ adLive s n = true ∧ s.on
      F.AD_CFG_PAIR n = false ∧ s.on F.AD_SEQ n 0 = true) ∧
    (∃ (s : State) (src : Source) (n : Fin 4), Lands s src 1 .ad n 0x10C 2 ∧ adLive s n = true ∧ s.on F.AD_SEQ n 1 = false) ∧
    (∃ (s : State) (src : Source) (c : Fin 24) (v : BitVec 32), Lands s src 1 .cm 0 (0x100 + 4 * c.val) v.toNat ∧ (cmLegUse s c
      && cmArmed s c) = false) ∧
    (∃ (s : State) (src : Source) (c : Fin 24) (v : BitVec 32), Lands s src 1 .cm 0 (0x100 + 4 * c.val) v.toNat ∧ (cmLegUse s c
      && cmArmed s c) = true) ∧
    (∃ (s : State) (src : Source) (c : Fin 24) (v : BitVec 32), Lands s src 1 .cm 0 (0x200 + 4 * c.val) v.toNat ∧ cmLegUse s c =
      false) ∧
    (∃ (s : State) (src : Source) (c : Fin 24) (v : BitVec 32), Lands s src 1 .cm 0 (0x200 + 4 * c.val) v.toNat ∧ cmLegUse s c =
      true) ∧
    (∃ (s : State) (src : Source), Lands s src 1 .sw 0 0x114 1 ∧ s.rd F.SW_CFG_CMP < 24 ∧ s.rd F.SW_CFG_TEST < 5) ∧
    (∃ (s : State) (src : Source) (m : BitVec 16), Lands s src 1 .ct 0 0x180 m.toNat) ∧
    (∃ (s : State) (src : Source) (n : Fin 16) (h : Bool), Lands s src 1 .ct n 0x118 (2 + bnat h) ∧ ctPaired s n = false) ∧
    (∃ (s : State) (src : Source) (n : Fin 16) (j : Fin 4) (v : BitVec 32), Lands s src 1 .ct n (0x120 + 4 * j.val) v.toNat ∧
      s.rd F.CT_SHADOW_TICK n j ≠ s.tick + 1) ∧
    (∃ (s : State) (src : Source) (n : Fin 16) (v : BitVec 32), Lands s src 1 .ct n 0x10C v.toNat ∧ s.rd F.CT_SHADOW_TICK n 4 ≠
      s.tick + 1) ∧
    (∃ (s : State) (src : Source) (n : Fin 16) (v : Nat) (rest : List Nat), Lands s src 0 .cp 0 (0x140 + 4 * n.val) 0 ∧ s.q
      Q.capture n = v :: rest ∧ v < 2 ^ 25) ∧
    (∃ (s : State) (src : Source) (n : Fin 16), Lands s src 0 .cp 0 (0x140 + 4 * n.val) 0 ∧ s.q Q.capture n = []) :=
  ⟨⟨(st [(F.AD_CFG_EN, (0 : Fin 4), 0, 1), (F.AD_CFG_PAIR, (0 : Fin 4), 0, 0), (F.AD_SEQ, (0 : Fin 4), 0, 0)]), (⟨.unit 40,
     true⟩ : Source), (0 : Fin 4), lands_of (by decide +kernel), by decide +kernel, by decide +kernel, by decide +kernel,
     by decide +kernel⟩,
   ⟨(st [(F.AD_CFG_EN, (0 : Fin 4), 0, 1), (F.AD_CFG_PAIR, (0 : Fin 4), 0, 0), (F.AD_SEQ, (0 : Fin 4), 0, 1)]), (⟨.unit 40,
     true⟩ : Source), (0 : Fin 4), lands_of (by decide +kernel), by decide +kernel, by decide +kernel, by decide +kernel,
     by decide +kernel⟩,
   ⟨(st [(F.AD_CFG_EN, (0 : Fin 4), 0, 1), (F.AD_SEQ, (0 : Fin 4), 1, 0)]), (⟨.unit 40, true⟩ : Source), (0 : Fin 4), lands_of
     (by decide +kernel), by decide +kernel, by decide +kernel⟩,
   ⟨(st []), (⟨.unit 40, true⟩ : Source), (0 : Fin 24), (0 : BitVec 32), lands_of (by decide +kernel), by decide +kernel⟩,
   ⟨(st [(F.CM_LEGUSE_USE, 0, 0, 1), (F.LG_STAT_STATE, 0, 0, 2), (F.LG_TRIPCFG_OC_CMP, 0, 0, 0)]), (⟨.unit 40, true⟩ : Source),
     (0 : Fin 24), (0 : BitVec 32), lands_of (by decide +kernel), by decide +kernel⟩,
   ⟨(st []), (⟨.unit 40, true⟩ : Source), (0 : Fin 24), (0 : BitVec 32), lands_of (by decide +kernel), by decide +kernel⟩,
   ⟨(st [(F.CM_LEGUSE_USE, 0, 0, 1)]), (⟨.unit 40, true⟩ : Source), (0 : Fin 24), (0 : BitVec 32), lands_of (by decide +kernel),
     by decide +kernel⟩,
   ⟨(st []), (⟨.unit 40, true⟩ : Source), lands_of (by decide +kernel), by decide +kernel, by decide +kernel⟩,
   ⟨(st []), (⟨.unit 40, true⟩ : Source), (0 : BitVec 16), lands_of (by decide +kernel)⟩,
   ⟨(st []), (⟨.unit 40, true⟩ : Source), (0 : Fin 16), (true : Bool), lands_of (by decide +kernel), by decide +kernel⟩,
   ⟨(st [(F.CT_SHADOW_TICK, 0, 0, 0)]), (⟨.unit 40, true⟩ : Source), (0 : Fin 16), (0 : Fin 4), (0 : BitVec 32), lands_of
     (by decide +kernel), by decide +kernel⟩,
   ⟨(st [(F.CT_SHADOW_TICK, 0, 4, 0)]), (⟨.unit 40, true⟩ : Source), (0 : Fin 16), (0 : BitVec 32), lands_of
     (by decide +kernel), by decide +kernel⟩,
   ⟨{ (st []) with queues := [(⟨Q.capture, (0 : Fin 16), 0⟩, (0 : Nat) :: ([] : List Nat))] }, (⟨.unit 40, true⟩ : Source), (0 :
     Fin 16), (0 : Nat), ([] : List Nat), lands_of (by decide +kernel), by decide +kernel, by decide +kernel⟩,
   ⟨{ (st []) with queues := [(⟨Q.capture, (0 : Fin 16), 0⟩, [])] }, (⟨.unit 40, true⟩ : Source), (0 : Fin 16), lands_of
     (by decide +kernel), by decide +kernel⟩⟩

/-- Witnesses for LegsArmDisarmAndRefuse, one for each clause. -/
theorem test_witness_LegsArmDisarmAndRefuse :
    (∃ (s : State) (src : Source) (k : Fin 16), Lands s src 1 .lg k 0x110 1 ∧ s.rd F.STK_DIESTATE_TIER = 2 ∧ legGrouped s k =
      false ∧ armBlock s k = 0 ∧ s.rd F.LG_STAT_STATE k = 0) ∧
    (∃ (s : State) (src : Source) (k : Fin 16) (now : Bool), Lands s src 1 .lg k 0x110 (if now then 5 else 1) ∧ s.rd
      F.STK_DIESTATE_TIER = 2 ∧ (legTripped s k = true ∨ armBlock s k = 2 ∨ armBlock s k = 0 ∧ legGrouped s k = true)) ∧
    (∃ (s : State) (src : Source) (k : Fin 16), Lands s src 1 .lg k 0x110 5 ∧ s.rd F.STK_DIESTATE_TIER = 2 ∧ legGrouped s k =
      false ∧ armBlock s k = 0) ∧
    (∃ (s : State) (src : Source) (k : Fin 16), Lands s src 1 .lg k 0x110 2) ∧
    (∃ (s : State) (src : Source) (k : Fin 16), Lands s src 1 .lg k 0x110 8) ∧
    (∃ (s : State) (src : Source) (m : BitVec 6), Lands s src 1 .trip 0 0x140 m.toNat ∧ s.rd F.STK_DIESTATE_TIER = 2) ∧
    (∃ (s : State) (src : Source) (k : Fin 16) (v : BitVec 32), Lands s src 1 .lg k 0x100 v.toNat ∧ s.rd F.LG_STAT_STATE k = 0) ∧
    (∃ (s : State) (src : Source) (k : Fin 16) (v : BitVec 32), Lands s src 1 .lg k 0x104 v.toNat ∧ s.rd F.LG_STAT_STATE k = 0) ∧
    (∃ (s : State) (src : Source) (k : Fin 16) (dt : Bool) (v : BitVec 32), Lands s src 1 .lg k (if dt then 0x104 else 0x100)
      v.toNat ∧ s.rd F.LG_STAT_STATE k ≠ 0) :=
  ⟨⟨(st [(F.STK_DIESTATE_TIER, 0, 0, 2), (F.LG_STAT_STATE, (0 : Fin 16), 0, 0)]), (⟨.unit 40, true⟩ : Source), (0 : Fin 16),
     lands_of (by decide +kernel), by decide +kernel, by decide +kernel, by decide +kernel, by decide +kernel⟩,
   ⟨(st [(F.LG_STAT_OC, (0 : Fin 16).val, 0, 1), (F.STK_DIESTATE_TIER, 0, 0, 2)]), (⟨.unit 40, true⟩ : Source), (0 : Fin 16),
     (true : Bool), lands_of (by decide +kernel), by decide +kernel, by decide +kernel⟩,
   ⟨(st [(F.STK_DIESTATE_TIER, 0, 0, 2)]), (⟨.unit 40, true⟩ : Source), (0 : Fin 16), lands_of (by decide +kernel),
     by decide +kernel, by decide +kernel, by decide +kernel⟩,
   ⟨(st []), (⟨.unit 40, true⟩ : Source), (0 : Fin 16), lands_of (by decide +kernel)⟩,
   ⟨(st []), (⟨.unit 40, true⟩ : Source), (0 : Fin 16), lands_of (by decide +kernel)⟩,
   ⟨(st [(F.STK_DIESTATE_TIER, 0, 0, 2)]), (⟨.unit 40, true⟩ : Source), (0 : BitVec 6), lands_of (by decide +kernel),
     by decide +kernel⟩,
   ⟨(st [(F.LG_STAT_STATE, (0 : Fin 16), 0, 0)]), (⟨.unit 40, true⟩ : Source), (0 : Fin 16), (0 : BitVec 32), lands_of
     (by decide +kernel), by decide +kernel⟩,
   ⟨(st [(F.LG_STAT_STATE, (0 : Fin 16), 0, 0)]), (⟨.unit 40, true⟩ : Source), (0 : Fin 16), (0 : BitVec 32), lands_of
     (by decide +kernel), by decide +kernel⟩,
   ⟨(st [(F.LG_STAT_STATE, (0 : Fin 16), 0, (0) + 1)]), (⟨.unit 40, true⟩ : Source), (0 : Fin 16), (true : Bool), (0 : BitVec
     32), lands_of (by decide +kernel), by decide +kernel⟩⟩

/-- Witnesses for PrintAndLoopRegistersAct, one for each clause. -/
theorem test_witness_PrintAndLoopRegistersAct :
    (∃ (s : State) (src : Source), Lands s src 1 .hds 0 0x14C 1) ∧
    (∃ (s : State) (src : Source) (h : Bool) (v : BitVec 32), Lands s src 1 .le 0 (if h then 0x11C else 0x118) v.toNat ∧
      rowsIdle s = false) ∧
    (∃ (s : State) (src : Source) (v : BitVec 32) (n : Fin 32), Lands s src 1 .le 0 0x118 v.toNat ∧ rowsIdle s = true ∧
      v.toNat.testBit n = true ∧ s.on F.LE_MID n = false) ∧
    (∃ (s : State) (src : Source) (h : Bool) (v : BitVec 32), Lands s src 1 .le 0 (if h then 0x124 else 0x120) v.toNat) ∧
    (∃ (s : State) (src : Source) (k : Fin 4) (f : Bool), Lands s src 1 .le 0 (0x140 + 4 * k.val) (2 + bnat f)) ∧
    (∃ (s : State) (src : Source) (k : Fin 4) (f : Bool), Lands s src 1 .le 0 (0x140 + 4 * k.val) (4 + bnat f)) ∧
    (∃ (s : State) (src : Source) (m : BitVec 2), Lands s src 1 .hds 0 0x124 m.toNat) ∧
    (∃ (s : State) (src : Source) (v : BitVec 32), Lands s src 1 .hds 0 0x100 v.toNat) ∧
    (∃ (s : State) (src : Source) (p : Nat) (ps : List Nat), Lands s src 1 .hds 0 0x128 1 ∧ s.on F.HDS_CTRL_EN = true ∧ s.on
      F.HDS_SLOT_BUSY = false ∧ (s.rd F.HDS_SLOT_FULL).testBit (s.rd F.HDS_SLOT_NEXT) = true ∧ onesOf (s.rd F.HDS_PLANES_PEN) 4
      = p :: ps) ∧
    (∃ (s : State) (src : Source), Lands s src 1 .hds 0 0x128 1 ∧ s.on F.HDS_CTRL_EN = true ∧ s.on F.HDS_SLOT_BUSY = true) ∧
    (∃ (s : State) (src : Source) (v : BitVec 32), Lands s src 1 .hcu 0 0x10C v.toNat) ∧
    (∃ (s : State) (src : Source), Lands s src 1 .hcu 0 0x114 2) ∧
    (∃ (s : State) (src : Source) (v : BitVec 32), Lands s src 1 .hcu 0 0x100 (putBit v.toNat 2 true)) ∧
    (∃ (s : State) (src : Source) (d : Fin 2), Lands s src 1 .hds 0 (0x184 + 8 * d.val) 1) :=
  ⟨⟨(st []), (⟨.unit 40, true⟩ : Source), lands_of (by decide +kernel)⟩,
   ⟨(st [(F.LE_ROWSTAT_ACTIVE, 0, 0, 1)]), (⟨.unit 40, true⟩ : Source), (true : Bool), (0 : BitVec 32), lands_of
     (by decide +kernel), by decide +kernel⟩,
   ⟨(st [(F.LE_MID, (0 : Fin 32), 0, 0)]), (⟨.unit 40, true⟩ : Source), (1 : BitVec 32), (0 : Fin 32), lands_of
     (by decide +kernel), by decide +kernel, by decide +kernel, by decide +kernel⟩,
   ⟨(st []), (⟨.unit 40, true⟩ : Source), (true : Bool), (0 : BitVec 32), lands_of (by decide +kernel)⟩,
   ⟨(st []), (⟨.unit 40, true⟩ : Source), (0 : Fin 4), (true : Bool), lands_of (by decide +kernel)⟩,
   ⟨(st []), (⟨.unit 40, true⟩ : Source), (0 : Fin 4), (true : Bool), lands_of (by decide +kernel)⟩,
   ⟨(st []), (⟨.unit 40, true⟩ : Source), (0 : BitVec 2), lands_of (by decide +kernel)⟩,
   ⟨(st []), (⟨.unit 40, true⟩ : Source), (0 : BitVec 32), lands_of (by decide +kernel)⟩,
   ⟨(st [(F.HDS_PLANES_PEN, 0, 0, 2), (F.HDS_CTRL_EN, 0, 0, 1), (F.HDS_SLOT_BUSY, 0, 0, 0), (F.HDS_SLOT_FULL, 0, 0, 2 ^ (0))]),
     (⟨.unit 40, true⟩ : Source), (1 : Nat), ([] : List Nat), lands_of (by decide +kernel), by decide +kernel,
     by decide +kernel, by decide +kernel, by decide +kernel⟩,
   ⟨(st [(F.HDS_CTRL_EN, 0, 0, 1), (F.HDS_SLOT_BUSY, 0, 0, 1)]), (⟨.unit 40, true⟩ : Source), lands_of (by decide +kernel),
     by decide +kernel, by decide +kernel⟩,
   ⟨(st []), (⟨.unit 40, true⟩ : Source), (0 : BitVec 32), lands_of (by decide +kernel)⟩,
   ⟨(st []), (⟨.unit 40, true⟩ : Source), lands_of (by decide +kernel)⟩,
   ⟨(st []), (⟨.unit 40, true⟩ : Source), (0 : BitVec 32), lands_of (by decide +kernel)⟩,
   ⟨(st []), (⟨.unit 40, true⟩ : Source), (0 : Fin 2), lands_of (by decide +kernel)⟩⟩

/-- Witnesses for CoreAndDispatcherRegistersAct, one for each clause. -/
theorem test_witness_CoreAndDispatcherRegistersAct :
    (∃ (s : State) (src : Source) (c : Fin 5) (b : Bool) (m : BitVec 8), Lands s src 1 .wd c (if b then 0 else 0x120) m.toNat) ∧
    (∃ (s : State) (src : Source) (c : Fin 5) (m : BitVec 8), Lands s src 1 .tc c 0x104 m.toNat) ∧
    (∃ (s : State) (src : Source) (c : Fin 5) (n : Nat) (i : Instr), (n, i) ∈ [(1, .ccInvIcAll src), (2, .ccInvRcAll src), (4,
      .ccInvIcRange src), (8, .ccInvRcRange src)] ∧ Lands s src 1 .cc c 0x108 n) ∧
    (∃ (s : State) (src : Source) (b : Bool) (k : BitVec 8) (tk' : BitVec 16), Lands s src 1 .dsp 0 (if b then 0x8 else 0x108)
      (k.toNat + tk tk')) ∧
    (∃ (s : State) (src : Source) (k : BitVec 8), Lands s src 1 .dsp 0 0x1B0 k.toNat) ∧
    (∃ (s : State) (src : Source) (b : Bool), Lands s src 1 .dsp 0 0x100 (bnat b)) ∧
    (∃ (s : State) (src : Source) (c : Fin 5) (b : Bool), Lands s src 1 .mpu c 0x100 (2 + bnat b)) ∧
    (∃ (s : State) (src : Source) (c : Fin 5) (b : Bool), Meets s src 1 .mpu c 0x100 (2 + bnat b) ∧ s.on F.MPU_CTRL_LOCK c =
      true) :=
  ⟨⟨(st []), (⟨.thread 0, true⟩ : Source), (0 : Fin 5), (true : Bool), (0 : BitVec 8), lands_of (by decide +kernel)⟩,
   ⟨(st []), (⟨.unit 40, true⟩ : Source), (0 : Fin 5), (0 : BitVec 8), lands_of (by decide +kernel)⟩,
   ⟨(st []), (⟨.thread 0, true⟩ : Source), (0 : Fin 5), (1 : Nat), (.ccInvIcAll (⟨.thread 0, true⟩ : Source) : Instr),
     by decide +kernel, lands_of (by decide +kernel)⟩,
   ⟨(st []), (⟨.unit 40, true⟩ : Source), (true : Bool), (0 : BitVec 8), (0 : BitVec 16), lands_of (by decide +kernel)⟩,
   ⟨(st []), (⟨.unit 40, true⟩ : Source), (0 : BitVec 8), lands_of (by decide +kernel)⟩,
   ⟨(st []), (⟨.unit 40, true⟩ : Source), (true : Bool), lands_of (by decide +kernel)⟩,
   ⟨(st []), (⟨.thread 0, true⟩ : Source), (0 : Fin 5), (true : Bool), lands_of (by decide +kernel)⟩,
   ⟨(st [(F.MPU_CTRL_LOCK, (0 : Fin 5), 0, 1)]), (⟨.thread 0, true⟩ : Source), (0 : Fin 5), (true : Bool), meets_of
     (by decide +kernel), by decide +kernel⟩⟩

/-- Witnesses for SupervisorAndDebugRegistersAct, one for each clause. -/
theorem test_witness_SupervisorAndDebugRegistersAct :
    (∃ (s : State) (src : Source) (r : Bool) (i : Instr), i = (if r then .spRejoin src else .spSplit src) ∧ Lands s src 1 .sp 0
      0x20C (if r then 2 else 1) ∧ s.on F.SP_STAT_RESEEDING = false) ∧
    (∃ (s : State) (src : Source), Lands s src 1 .sp 0 0x208 1) ∧
    (∃ (s : State) (src : Source), Lands s src 1 .sp 0 0x208 2) ∧
    (∃ (s : State) (src : Source), Lands s src 1 .sp 0 0x208 4) ∧
    (∃ (s : State), s.rd F.TST_LOCK_STATE ≠ 0) ∧
    (∃ (s : State) (src : Source) (h : Bool) (m : BitVec 32) (k : Nat), k < (if h then 8 else 32) ∧ m.toNat.testBit k = true ∧
      Lands s src 1 .dbg 0 (if h then 0x104 else 0x100) m.toNat ∧ s.on F.HALTED (bnat h * 32 + k) = false) ∧
    (∃ (s : State) (src : Source) (h : Bool) (m : BitVec 32) (k : Nat), k < (if h then 8 else 32) ∧ m.toNat.testBit k = true ∧
      Lands s src 1 .dbg 0 (if h then 0x10c else 0x108) m.toNat) ∧
    (∃ (s : State) (src : Source) (h : Bool) (m : BitVec 32) (k : Nat), k < (if h then 8 else 32) ∧ m.toNat.testBit k = true ∧
      Lands s src 1 .dbg 0 (if h then 0x114 else 0x110) m.toNat ∧ s.on F.HALTED (bnat h * 32 + k) = true) ∧
    (∃ (s : State) (src : Source) (r : Fin 16) (v : BitVec 32), Lands s src 1 .dbg 0 (0x140 + 4 * r.val) v.toNat) ∧
    (∃ (s : State) (src : Source) (v : BitVec 32), Lands s src 1 .dbg 0 0x128 v.toNat) ∧
    (∃ (s : State) (src : Source) (r : Fin 16), Lands s src 0 .dbg 0 (0x140 + 4 * r.val) 0) ∧
    (∃ (s : State) (src : Source) (r : Fin 16) (v : BitVec 32), Meets s src 1 .dbg 0 (0x140 + 4 * r.val) v.toNat ∧ (40 ≤ dbgSel
      s ∨ s.on F.HALTED (dbgSel s) = false)) ∧
    (∃ (s : State) (src : Source), Lands s src 1 .tst 0 0x100 (2 ^ 8)) ∧
    (∃ (s : State) (src : Source) (f : BitVec 2), Lands s src 1 .tst 0 0x108 f.toNat) :=
  ⟨⟨(st [(F.SP_STAT_RESEEDING, 0, 0, 0)]), (⟨.unit 40, true⟩ : Source), (true : Bool), (.spRejoin (⟨.unit 40, true⟩ : Source) :
     Instr), by decide +kernel, lands_of (by decide +kernel), by decide +kernel⟩,
   ⟨(st []), (⟨.unit 40, true⟩ : Source), lands_of (by decide +kernel)⟩,
   ⟨(st []), (⟨.unit 40, true⟩ : Source), lands_of (by decide +kernel)⟩,
   ⟨(st []), (⟨.unit 40, true⟩ : Source), lands_of (by decide +kernel)⟩,
   ⟨(st [(F.TST_LOCK_STATE, 0, 0, (0) + 1)]), by decide +kernel⟩,
   ⟨(st [(F.HALTED, (bnat (false : Bool) * 32 + (0 : Nat)), 0, 0)]), (⟨.unit 47, true⟩ : Source), (false : Bool), (1 : BitVec
     32), (0 : Nat), by decide +kernel, by decide +kernel, lands_of (by decide +kernel), by decide +kernel⟩,
   ⟨(st []), (⟨.unit 47, true⟩ : Source), (false : Bool), (1 : BitVec 32), (0 : Nat), by decide +kernel, by decide +kernel,
     lands_of (by decide +kernel)⟩,
   ⟨(st [(F.HALTED, (bnat (false : Bool) * 32 + (0 : Nat)), 0, 1)]), (⟨.unit 47, true⟩ : Source), (false : Bool), (1 : BitVec
     32), (0 : Nat), by decide +kernel, by decide +kernel, lands_of (by decide +kernel), by decide +kernel⟩,
   ⟨(st [(F.HALTED, 0, 0, 1)]), (⟨.unit 47, true⟩ : Source), (0 : Fin 16), (0 : BitVec 32), lands_of (by decide +kernel)⟩,
   ⟨(st [(F.HALTED, 0, 0, 1)]), (⟨.unit 47, true⟩ : Source), (0 : BitVec 32), lands_of (by decide +kernel)⟩,
   ⟨(st [(F.HALTED, 0, 0, 1)]), (⟨.unit 47, true⟩ : Source), (0 : Fin 16), lands_of (by decide +kernel)⟩,
   ⟨(st [(F.HALTED, 0, 0, 0)]), (⟨.unit 47, true⟩ : Source), (0 : Fin 16), (0 : BitVec 32), meets_of (by decide +kernel),
     by decide +kernel⟩,
   ⟨(st []), (⟨.unit 40, true⟩ : Source), lands_of (by decide +kernel)⟩,
   ⟨(st []), (⟨.unit 40, true⟩ : Source), (0 : BitVec 2), lands_of (by decide +kernel)⟩⟩

/-- Witnesses for DmaRegistersAct, one for each clause. -/
theorem test_witness_DmaRegistersAct :
    (∃ (s : State) (src : Source) (n : Fin 32) (k : BitVec 16), Lands s src 1 .dmg (n.val / 8) (0x100 * (n.val % 8) + 0x108) (1
      + tk k)) ∧
    (∃ (s : State) (src : Source) (n : Fin 32) (k : BitVec 16) (row : RegRow) (j : Nat), masterLive s src.who = true ∧ mustWait
      s (regRequest src 1 .dmg (n.val / 8) (0x100 * (n.val % 8) + 0x108) (1 + tk k)) = false ∧ gate s (regRequest src 1 .dmg
      (n.val / 8) (0x100 * (n.val % 8) + 0x108) (1 + tk k)) = .reg ⟨.dmg, n.val / 8, 0x100 * (n.val % 8) + 0x108⟩ row j ∧
      isDuplicate s (regRequest src 1 .dmg (n.val / 8) (0x100 * (n.val % 8) + 0x108) (1 + tk k)) ⟨.dmg, n.val / 8, 0x100 *
      (n.val % 8) + 0x108⟩ row = true) ∧
    (∃ (s : State) (src : Source) (n : Fin 32), Lands s src 1 .dmg (n.val / 8) (0x100 * (n.val % 8) + 0x110) 1) ∧
    (∃ (s : State) (src : Source) (n : Fin 32), Lands s src 1 .dmg (n.val / 8) (0x100 * (n.val % 8) + 0x110) 2) ∧
    (∃ (s : State) (src : Source) (n : Fin 32) (v : BitVec 32), Lands s src 1 .dmg (n.val / 8) (0x100 * (n.val % 8) + 0x100)
      v.toNat) ∧
    (∃ (s : State) (src : Source) (n : Fin 32) (v : BitVec 32), Lands s src 1 .dmg (n.val / 8) (0x100 * (n.val % 8) + 0x104)
      v.toNat) ∧
    (∃ (s : State) (src : Source) (n : Fin 32) (v : BitVec 32), Meets s src 1 .dmg (n.val / 8) (0x100 * (n.val % 8) + 0x104)
      v.toNat ∧ dcActive s n = true) ∧
    (∃ (s : State) (src : Source) (n : Fin 32) (v : BitVec 32), Lands s src 1 .dmg (n.val / 8) (0x100 * (n.val % 8) + 0x134)
      v.toNat) ∧
    (∃ (s : State) (src : Source) (n : Fin 32) (m : BitVec 6), Lands s src 1 .dma 0 (0x100 + 4 * n.val) m.toNat) ∧
    (∃ (s : State) (src : Source) (n : Fin 32) (m : BitVec 6), Meets s src 1 .dma 0 (0x100 + 4 * n.val) m.toNat ∧ (s.on
      F.DMA_CTRL_MID_LOCK = true ∨ dcActive s n = true)) ∧
    (∃ (s : State) (src : Source), Lands s src 1 .dma 0 0x180 1) :=
  ⟨⟨(st []), (⟨.unit 40, true⟩ : Source), (0 : Fin 32), (0 : BitVec 16), lands_of (by decide +kernel)⟩,
   ⟨{ (st []) with queues := [(⟨Q.tickets, locNum ⟨.dmg, 0, 0x108⟩, 40⟩, [5])] }, (⟨.unit 40, true⟩ : Source), (0 : Fin 32), (5
     : BitVec 16), (rowAt ⟨.dmg, 0, 0x108⟩ : RegRow), (0 : Nat), by decide +kernel⟩,
   ⟨(st []), (⟨.unit 40, true⟩ : Source), (0 : Fin 32), lands_of (by decide +kernel)⟩,
   ⟨(st []), (⟨.unit 40, true⟩ : Source), (0 : Fin 32), lands_of (by decide +kernel)⟩,
   ⟨(st []), (⟨.unit 40, true⟩ : Source), (0 : Fin 32), (0 : BitVec 32), lands_of (by decide +kernel)⟩,
   ⟨(st []), (⟨.unit 40, true⟩ : Source), (0 : Fin 32), (0 : BitVec 32), lands_of (by decide +kernel)⟩,
   ⟨(st [(F.DC_STAT_STATE, (0 : Fin 32), 0, 2)]), (⟨.unit 40, true⟩ : Source), (0 : Fin 32), (0 : BitVec 32), meets_of
     (by decide +kernel), by decide +kernel⟩,
   ⟨(st []), (⟨.unit 40, true⟩ : Source), (0 : Fin 32), (0 : BitVec 32), lands_of (by decide +kernel)⟩,
   ⟨(st []), (⟨.unit 40, true⟩ : Source), (0 : Fin 32), (0 : BitVec 6), lands_of (by decide +kernel)⟩,
   ⟨(st [(F.DMA_CTRL_MID_LOCK, 0, 0, 1)]), (⟨.unit 40, true⟩ : Source), (0 : Fin 32), (0 : BitVec 6), meets_of
     (by decide +kernel), by decide +kernel⟩,
   ⟨(st []), (⟨.unit 40, true⟩ : Source), lands_of (by decide +kernel)⟩⟩

/-- Witnesses for CheckValueRegistersAct, one for each clause. -/
theorem test_witness_CheckValueRegistersAct :
    (∃ (s : State) (src : Source) (x : Fin 16), Lands s src 1 .cx 0 (0x108 + 64 * x.val) 1) ∧
    (∃ (s : State) (src : Source) (x : Fin 16), Lands s src 1 .cx 0 (0x108 + 64 * x.val) 2) ∧
    (∃ (s : State) (src : Source) (x : Fin 16) (c : BitVec 3) (w : Nat) (p : Nat) (i : Nat) (o : Nat) (r : Bool), Lands s src 1
      .cx 0 (0x10C + 64 * x.val) c.toNat ∧ cxPresets c.toNat = some (w, p, i, r, o)) ∧
    (∃ (s : State) (src : Source) (x : Fin 16) (v : BitVec 64), Lands s src 1 .cx 0 (0x100 + 64 * x.val + 0) v.toNat) ∧
    (∃ (s : State) (src : Source) (x : Fin 16) (v : BitVec 64), Lands s src 1 .cx 0 (0x110 + 64 * x.val) v.toNat) ∧
    (∃ (s : State) (src : Source) (x : Fin 16) (v : BitVec 64), Lands s src 1 .cx 0 (0x118 + 64 * x.val) v.toNat) ∧
    (∃ (s : State) (src : Source) (x : Fin 16) (v : BitVec 64), Lands s src 1 .cx 0 (0x120 + 64 * x.val) v.toNat) ∧
    (∃ (s : State) (src : Source) (x : Fin 16) (v : BitVec 64), Lands s src 1 .cx 0 (0x128 + 64 * x.val) v.toNat) ∧
    (∃ (s : State) (src : Source) (x : Fin 16) (v : BitVec 64), Meets s src 1 .cx 0 (0x110 + 64 * x.val) v.toNat ∧ (s.on
      F.CX_STAT_BUSY x = true ∨ s.on F.CX_STAT_FRAME x = true)) ∧
    (∃ (s : State) (src : Source) (x : Fin 16) (p : Fin 32) (n : Fin 6) (v : BitVec 256), masterLive s src.who = true ∧ mustWait
      s ⟨src.who, src.priv, 1, 0x40040600 + 32 * x.val + p.val, 2 ^ n.val, v.toNat⟩ = false ∧ gate s ⟨src.who, src.priv, 1,
      0x40040600 + 32 * x.val + p.val, 2 ^ n.val, v.toNat⟩ = .feed x) ∧
    (∃ (s : State) (src : Source) (x : Fin 16) (p : Fin 32) (n : Fin 6) (v : BitVec 256), SetsOut s ⟨src.who, src.priv, 1,
      0x40040600 + 32 * x.val + p.val, 2 ^ n.val, v.toNat⟩ ∧ fwRefuses s src.who 1 (0x40040600 + 32 * x.val + p.val) = none ∧
      locate src.who (0x40040600 + 32 * x.val + p.val) = some ⟨.cx, 0, 0x600 + 32 * x.val + p.val⟩ ∧ 2 ≤ cxMode s x) :=
  ⟨⟨(st []), (⟨.unit 40, true⟩ : Source), (0 : Fin 16), lands_of (by decide +kernel)⟩,
   ⟨(st []), (⟨.unit 40, true⟩ : Source), (0 : Fin 16), lands_of (by decide +kernel)⟩,
   ⟨(st []), (⟨.unit 40, true⟩ : Source), (0 : Fin 16), (3 : BitVec 3), (16 : Nat), (0x1021 : Nat), (0xFFFF : Nat), (0 : Nat),
     (false : Bool), lands_of (by decide +kernel), by decide +kernel⟩,
   ⟨(st []), (⟨.unit 40, true⟩ : Source), (0 : Fin 16), (0 : BitVec 64), lands_of (by decide +kernel)⟩,
   ⟨(st []), (⟨.unit 40, true⟩ : Source), (0 : Fin 16), (0 : BitVec 64), lands_of (by decide +kernel)⟩,
   ⟨(st []), (⟨.unit 40, true⟩ : Source), (0 : Fin 16), (0 : BitVec 64), lands_of (by decide +kernel)⟩,
   ⟨(st []), (⟨.unit 40, true⟩ : Source), (0 : Fin 16), (0 : BitVec 64), lands_of (by decide +kernel)⟩,
   ⟨(st []), (⟨.unit 40, true⟩ : Source), (0 : Fin 16), (0 : BitVec 64), lands_of (by decide +kernel)⟩,
   ⟨(st [(F.CX_STAT_BUSY, (0 : Fin 16), 0, 1)]), (⟨.unit 40, true⟩ : Source), (0 : Fin 16), (0 : BitVec 64), meets_of
     (by decide +kernel), by decide +kernel⟩,
   ⟨(st []), (⟨.unit 40, true⟩ : Source), (0 : Fin 16), (0 : Fin 32), (0 : Fin 6), (0 : BitVec 256), by decide +kernel⟩,
   ⟨(st [(F.CX_CFG_MODE, (0 : Fin 16), 0, 2)]), (⟨.unit 40, true⟩ : Source), (0 : Fin 16), (0 : Fin 32), (0 : Fin 6), (0 :
     BitVec 256), setsOut_of (by decide +kernel), by decide +kernel, by decide +kernel, by decide +kernel⟩⟩

/-- Witnesses for CheckValueCommandsComplete, one for each clause. -/
theorem test_witness_CheckValueCommandsComplete :
    (∃ (s : State) (src : Source) (x : Fin 16), MeetsContext s src x (0x108 + 64 * x.val) 1 ∧ cxMode s x ≠ 3) ∧
    (∃ (s : State) (src : Source) (x : Fin 16), MeetsContext s src x (0x108 + 64 * x.val) 1 ∧ cxMode s x = 3) ∧
    (∃ (s : State) (src : Source) (x : Fin 16), MeetsContext s src x (0x108 + 64 * x.val) 2) ∧
    (∃ (s : State) (src : Source) (x : Fin 16) (c : BitVec 3), MeetsContext s src x (0x10C + 64 * x.val) c.toNat ∧ cxFixed s x =
      false) ∧
    (∃ (s : State) (src : Source) (x : Fin 16) (k : Fin 5) (v : BitVec 64), MeetsContext s src x (0x100 + 64 * x.val + (if k.val
      = 0 then 0 else 8 + 8 * k.val)) v.toNat ∧ cxFixed s x = false ∧ (k.val = 0 → cxBindTaken s x v.toNat = false)) ∧
    (∃ (s : State) (src : Source) (x : Fin 16) (p : Fin 32) (n : Fin 6) (v : BitVec 256), 2 ^ n.val ∣ p.val ∧ SetsOut s
      (⟨src.who, src.priv, 1, 0x40040600 + 32 * x.val + p.val, 2 ^ n.val, v.toNat⟩ : Held) ∧ fwRefuses s src.who 1 (⟨src.who,
      src.priv, 1, 0x40040600 + 32 * x.val + p.val, 2 ^ n.val, v.toNat⟩ : Held).addr = none ∧ s.on F.EXP_LOCK (lockNum ⟨.cx, 0,
      0x600⟩) = false ∧ s.rd F.DOM_STATE (locDomain ⟨.cx, 0, 0x600⟩) = 2 ∧ cxMode s x ≤ 1 ∧ cxFeedWaits s x = false) :=
  ⟨⟨(st []), (⟨.unit 40, true⟩ : Source), (0 : Fin 16), meetsContext_of (by decide +kernel), by decide +kernel⟩,
   ⟨(st [(F.CX_CFG_MODE, (0 : Fin 16), 0, 3)]), (⟨.unit 40, true⟩ : Source), (0 : Fin 16), meetsContext_of (by decide +kernel),
     by decide +kernel⟩,
   ⟨(st []), (⟨.unit 40, true⟩ : Source), (0 : Fin 16), meetsContext_of (by decide +kernel)⟩,
   ⟨(st []), (⟨.unit 40, true⟩ : Source), (0 : Fin 16), (0 : BitVec 3), meetsContext_of (by decide +kernel), by decide +kernel⟩,
   ⟨(st []), (⟨.unit 40, true⟩ : Source), (0 : Fin 16), (0 : Fin 5), (0 : BitVec 64), meetsContext_of (by decide +kernel),
     by decide +kernel, by decide +kernel⟩,
   ⟨(st [(F.EXP_LOCK, (lockNum ⟨.cx, 0, 0x600⟩), 0, 0), (F.DOM_STATE, (locDomain ⟨.cx, 0, 0x600⟩), 0, 2)]), (⟨.unit 40, true⟩ :
     Source), (0 : Fin 16), (0 : Fin 32), (0 : Fin 6), (0 : BitVec 256), by decide +kernel, setsOut_of (by decide +kernel),
     by decide +kernel, by decide +kernel, by decide +kernel, by decide +kernel, by decide +kernel⟩⟩

/-- Witnesses for PortRegistersAct, one for each clause. -/
theorem test_witness_PortRegistersAct :
    (∃ (s : State) (src : Source) (p : Fin 6) (v : BitVec 32) (n : Fin 4) (e : Fin 8) (k : BitVec 16), Lands s src 1 (portBlk p)
      (portInst p) 0x110 (v.toNat + n.val * 2 ^ 32 + e.val * 2 ^ 35 + tk k)) ∧
    (∃ (s : State) (src : Source) (p : Fin 6) (v : BitVec 32), p.val ≠ 0 ∧ Lands s src 1 (portBlk p) (portInst p) 0x118 v.toNat) ∧
    (∃ (s : State) (src : Source) (e : Fin 8) (v : BitVec 32), Lands s src 1 .usb 0 (0x1C0 + 4 * e.val) v.toNat ∧ s.rd
      F.USB_LEFT (usbInOf e) = 0 ∧ v.toNat % 2 ^ 16 ≠ 0) ∧
    (∃ (s : State) (src : Source) (p : Fin 6) (w : Nat) (rest : List Nat), p.val ≠ 0 ∧ Lands s src 0 (portBlk p) (portInst p)
      0x11C 0 ∧ s.q Q.rx p = w :: rest) ∧
    (∃ (s : State) (src : Source) (p : Fin 6), p.val ≠ 0 ∧ Lands s src 0 (portBlk p) (portInst p) 0x11C 0 ∧ s.q Q.rx p = []) ∧
    (∃ (s : State) (src : Source) (e : Fin 8) (k : Nat) (rest : List Nat), Lands s src 0 .usb 0 (0x1E0 + 4 * e.val) 0 ∧ s.q
      Q.usb e 1 = k :: rest) ∧
    (∃ (s : State) (src : Source) (c : Bool) (h : Bool), Lands s src 1 .usb 0 0x140 (4 + 2 * bnat h + bnat c)) ∧
    (∃ (s : State) (src : Source) (e : Fin 7) (v : BitVec 32), Lands s src 1 .usb 0 (0x154 + 4 * e.val) v.toNat) ∧
    (∃ (s : State) (src : Source) (e : Fin 7) (v : BitVec 32), Meets s src 1 .usb 0 (0x154 + 4 * e.val) v.toNat ∧ s.on
      F.USB_EPCFG_EN 0 e = true ∧ v.toNat.testBit 0 = true) ∧
    (∃ (s : State) (src : Source) (v : BitVec 32), Lands s src 1 .eth 0 0x160 v.toNat) :=
  ⟨⟨(st []), (⟨.unit 40, true⟩ : Source), (2 : Fin 6), (0 : BitVec 32), (0 : Fin 4), (0 : Fin 8), (0 : BitVec 16), lands_of
     (by decide +kernel)⟩,
   ⟨(st []), (⟨.unit 40, true⟩ : Source), (2 : Fin 6), (0 : BitVec 32), by decide +kernel, lands_of (by decide +kernel)⟩,
   ⟨(st [(F.USB_LEFT, (usbInOf (0 : Fin 8)), 0, 0)]), (⟨.unit 40, true⟩ : Source), (0 : Fin 8), (64 : BitVec 32), lands_of
     (by decide +kernel), by decide +kernel, by decide +kernel⟩,
   ⟨{ (st []) with queues := [(⟨Q.rx, (2 : Fin 6), 0⟩, (0 : Nat) :: ([] : List Nat))] }, (⟨.unit 40, true⟩ : Source), (2 : Fin
     6), (0 : Nat), ([] : List Nat), by decide +kernel, lands_of (by decide +kernel), by decide +kernel⟩,
   ⟨{ (st []) with queues := [(⟨Q.rx, (1 : Fin 6), 0⟩, [])] }, (⟨.unit 40, true⟩ : Source), (1 : Fin 6), by decide +kernel,
     lands_of (by decide +kernel), by decide +kernel⟩,
   ⟨{ (st []) with queues := [(⟨Q.usb, (0 : Fin 8), 1⟩, (0 : Nat) :: ([] : List Nat))] }, (⟨.unit 40, true⟩ : Source), (0 : Fin
     8), (0 : Nat), ([] : List Nat), lands_of (by decide +kernel), by decide +kernel⟩,
   ⟨(st []), (⟨.unit 40, true⟩ : Source), (true : Bool), (true : Bool), lands_of (by decide +kernel)⟩,
   ⟨(st []), (⟨.unit 40, true⟩ : Source), (0 : Fin 7), (0 : BitVec 32), lands_of (by decide +kernel)⟩,
   ⟨(st [(F.USB_EPCFG_EN, 0, (0 : Fin 7), 1)]), (⟨.unit 40, true⟩ : Source), (0 : Fin 7), (1 : BitVec 32), meets_of
     (by decide +kernel), by decide +kernel, by decide +kernel⟩,
   ⟨(st []), (⟨.unit 40, true⟩ : Source), (0 : BitVec 32), lands_of (by decide +kernel)⟩⟩

/-- Witnesses for NvmKeyAndCryptoRegistersStartTheirWork, one for each clause. -/
theorem test_witness_NvmKeyAndCryptoRegistersStartTheirWork :
    (∃ (s : State) (src : Source), Lands s src 1 .nvm 0 0x128 1) ∧
    (∃ (s : State) (src : Source) (k : Fin 4) (t' : BitVec 16), Lands s src 1 .key 0 0x190 (k.val + tk t')) ∧
    (∃ (s : State) (src : Source) (n : Fin 8) (v : BitVec 32), Lands s src 1 .key 0 (0x1E0 + 4 * n.val) v.toNat) ∧
    (∃ (s : State) (src : Source) (op : Nat) (i : Instr), (op, i) ∈ [(1, .crHash src), (2, .crVerify src), (4, .crRevoke src)] ∧
      Lands s src 1 .cr 0 0x100 op) ∧
    (∃ (s : State) (src : Source) (kind : BitVec 3), Lands s src 1 .cr 0 0x100 (3 + 16 * kind.toNat)) :=
  ⟨⟨(st []), (⟨.unit 40, true⟩ : Source), lands_of (by decide +kernel)⟩,
   ⟨(st []), (⟨.unit 40, true⟩ : Source), (0 : Fin 4), (0 : BitVec 16), lands_of (by decide +kernel)⟩,
   ⟨(st []), (⟨.unit 40, true⟩ : Source), (0 : Fin 8), (0 : BitVec 32), lands_of (by decide +kernel)⟩,
   ⟨(st []), (⟨.unit 40, true⟩ : Source), (1 : Nat), (.crHash (⟨.unit 40, true⟩ : Source) : Instr), by decide +kernel, lands_of
     (by decide +kernel)⟩,
   ⟨(st []), (⟨.unit 40, true⟩ : Source), (0 : BitVec 3), lands_of (by decide +kernel)⟩⟩

/-- Witnesses for NonvolatileMemoryReadsProgramsAndCounts, one for each clause. -/
theorem test_witness_NonvolatileMemoryReadsProgramsAndCounts :
    (∃ (s : State) (src : Source) (o : BitVec 25) (n : Fin 6) (w : Fin 4), SetsOut s ⟨src.who, src.priv, 0, 0x10000000 +
      o.toNat, 2 ^ n.val, 0⟩ ∧ s.rd F.DOM_STATE (128 + o.toNat / 0x400000) = 2 ∧ fwRefuses s src.who 0 (0x10000000 + o.toNat) =
      none ∧ o.toNat % 2 ^ n.val = 0 ∧ 8 * w.val < 2 ^ n.val ∧ s.bad = []) ∧
    (∃ (s : State) (src : Source) (o : BitVec 25) (n : Fin 6) (v : BitVec 256), SetsOut s ⟨src.who, src.priv, 1, 0x10000000 +
      o.toNat, 2 ^ n.val, v.toNat % 2 ^ (8 * 2 ^ n.val)⟩ ∧ s.rd F.DOM_STATE (128 + o.toNat / 0x400000) = 2 ∧ fwRefuses s src.who
      1 (0x10000000 + o.toNat) = none ∧ o.toNat % 2 ^ n.val = 0 ∧ o.toNat < 0x1FC0000 ∧ s.bad = []) ∧
    (∃ (s : State) (src : Source) (o : BitVec 25) (n : Fin 6) (v : BitVec 256), SetsOut s ⟨src.who, src.priv, 1, 0x10000000 +
      o.toNat, 2 ^ n.val, v.toNat % 2 ^ (8 * 2 ^ n.val)⟩ ∧ fwRefuses s src.who 1 (0x10000000 + o.toNat) = none ∧ 0x1FC0000 ≤
      o.toNat) ∧
    (∃ (s : State) (c : Nat), s.on F.NVM_STAT_TALLY_SAVING = true ∧ c = (if latestTally s = some 0 then 1 else 0) ∧ ((tallied
      s).map Prod.fst).Nodup ∧ (∀ e ∈ tallied s, e.1 < 8192)) :=
  ⟨⟨(st [(F.DOM_STATE, (128 + (0 : BitVec 25).toNat / 0x400000), 0, 2)]), (⟨.unit 40, true⟩ : Source), (0 : BitVec 25), (0 : Fin
     6), (0 : Fin 4), setsOut_of (by decide +kernel), by decide +kernel, by decide +kernel, by decide +kernel,
     by decide +kernel, by decide +kernel⟩,
   ⟨(st [(F.DOM_STATE, (128 + (0 : BitVec 25).toNat / 0x400000), 0, 2)]), (⟨.unit 40, true⟩ : Source), (0 : BitVec 25), (0 : Fin
     6), (0 : BitVec 256), setsOut_of (by decide +kernel), by decide +kernel, by decide +kernel, by decide +kernel,
     by decide +kernel, by decide +kernel⟩,
   ⟨(st []), (⟨.unit 40, true⟩ : Source), (0x1FC0000 : BitVec 25), (0 : Fin 6), (0 : BitVec 256), setsOut_of
     (by decide +kernel), by decide +kernel, by decide +kernel⟩,
   ⟨(st [(F.NVM_STAT_TALLY_SAVING, 0, 0, 1)]), (0 : Nat), by decide +kernel⟩⟩

/-- Witnesses for CommitsRaisesLogEntriesAndCryptoCommandsEnd, one for each clause. -/
theorem test_witness_CommitsRaisesLogEntriesAndCryptoCommandsEnd :
    (∃ (s : State), s.rd F.KEY_STAT_STATE = 2 ∧ s.on F.KC_VERIFY = true ∧ crAlive s = true ∧ crServing s 2 = true) ∧
    (∃ (s : State) (c : Nat), s.rd F.KEY_STAT_STATE = 3 ∧ (s.q Q.keyRec).length = 9 ∧ c = (if keyWinner s (s.rd F.KC_SLOT) =
      some 0 then 1 else 0)) ∧
    (∃ (s : State) (n : Fin 8), s.on F.CTR_RAISING n.val = true ∧ mUp s = true) ∧
    (∃ (s : State) (e : Nat) (rest : List Nat), mUp s = true ∧ s.on F.LOG_FOUND = true ∧ logHeld s = false ∧ s.q Q.log = e ::
      rest) ∧
    (∃ (s : State), mUp s = true ∧ s.on F.LOG_FOUND = false) ∧
    (∃ (s : State), logHeld s = true) ∧
    (∃ (s : State), crAlive s = true ∧ crServing s 1 = true ∧ s.rd F.CR_OP = 1 ∧ masterLive s (.unit 46) = true ∧ s.bad = [] ∧
      crWaits s (s.rd F.CR_SRC_SRC) (s.rd F.CR_LEN_LEN) = false ∧ (∀ l, s.rd F.CR_SRC_SRC / 32 ≤ l → l < (s.rd F.CR_SRC_SRC +
      s.rd F.CR_LEN_LEN + 31) / 32 → (∃ k, targetOf (32 * l) = .sram k ∧ s.rd F.DOM_STATE (44 + k) = 2) ∧ fwRefuses s (.unit 46)
      0 (32 * l) = none)) ∧
    (∃ (s : State), crAlive s = true ∧ crServing s 1 = true ∧ s.rd F.CR_OP = 2) ∧
    (∃ (s : State), crAlive s = true ∧ crServing s 1 = true ∧ s.rd F.CR_OP = 4) :=
  ⟨⟨(st [(F.KEY_STAT_STATE, 0, 0, 2), (F.KC_VERIFY, 0, 0, 1), (F.CR_USER, 0, 0, 2)]), by decide +kernel⟩,
   ⟨{ (st [(F.KEY_STAT_STATE, 0, 0, 3)]) with queues := [(⟨Q.keyRec, 0, 0⟩, [1, 2, 3, 4, 5, 6, 7, 8, 9])] }, (0 : Nat),
     by decide +kernel⟩,
   ⟨(st [(F.CTR_RAISING, (0 : Fin 8).val, 0, 1)]), (0 : Fin 8), by decide +kernel⟩,
   ⟨{ (st [(F.LOG_FOUND, 0, 0, 1)]) with queues := [(⟨Q.log, 0, 0⟩, (0 : Nat) :: ([] : List Nat))] }, (0 : Nat), ([] : List
     Nat), by decide +kernel⟩,
   ⟨(st [(F.LOG_FOUND, 0, 0, 0)]), by decide +kernel⟩,
   ⟨{ (st [(F.PTM_SUPPLY_DROP_WARN, 0, 0, 1)]) with queues := [(⟨Q.log, 0, 0⟩, [1])] }, by decide +kernel⟩,
   ⟨twoLines, by decide +kernel, by decide +kernel, by decide +kernel, by decide +kernel, by decide +kernel, by decide +kernel,
     twoLines_read⟩,
   ⟨(st [(F.CR_USER, 0, 0, 1), (F.CR_OP, 0, 0, 2)]), by decide +kernel⟩,
   ⟨(st [(F.CR_USER, 0, 0, 1), (F.CR_OP, 0, 0, 4)]), by decide +kernel⟩⟩

/-- Witnesses for UsbTokensAndBusConditionsAct, one for each clause. -/
theorem test_witness_UsbTokensAndBusConditionsAct :
    (∃ (s : State) (a : BitVec 7) (e : Fin 8), usbHears s a.toNat = true ∧ usbOpen s e.val false = true ∧ recoveryOffers s true
      = false) ∧
    (∃ (s : State), recoveryOffers s true = true) ∧
    (∃ (s : State) (a : BitVec 7) (e : Fin 8), usbHears s a.toNat = true ∧ usbOpen s (usbInOf e.val) true = true ∧ s.on
      F.USB_EPSTAT_STALL 0 e.val = false ∧ s.held = []) ∧
    (∃ (s : State) (a : BitVec 7), usbHears s a.toNat = true) ∧
    (∃ (s : State), phyUp s 0 = true ∧ cUp s = true ∧ domOn s 121 = true) ∧
    (∃ (s : State), s.on F.USB_STAT_VBUS = true ∧ s.held = []) ∧
    (∃ (s : State), usbPullup s = true) ∧
    (∃ (s : State), usbPullup s = true ∧ s.on F.USB_STAT_SUSPENDED = false) ∧
    (∃ (s : State), usbPullup s = true) :=
  ⟨⟨(st [(F.PT_CTRL_EN, 0, 0, 1), (F.USB_STAT_VBUS, 0, 0, 1), (F.USB_CTRL_CONNECT, 0, 0, 1)]), (0 : BitVec 7), (0 : Fin 8),
     by decide +kernel⟩,
   ⟨(st [(F.REC_MODE, 0, 0, 1), (F.USB_STAT_VBUS, 0, 0, 1), (F.USB_EN, 0, 0, 1)]), by decide +kernel⟩,
   ⟨{ (st [(F.PT_CTRL_EN, 0, 0, 1), (F.USB_STAT_VBUS, 0, 0, 1), (F.USB_CTRL_CONNECT, 0, 0, 1), (F.USB_EPSTAT_STALL, 0, (0 : Fin
     8).val, 0)]) with held := [] }, (0 : BitVec 7), (0 : Fin 8), by decide +kernel⟩,
   ⟨(st [(F.PT_CTRL_EN, 0, 0, 1), (F.USB_STAT_VBUS, 0, 0, 1), (F.USB_CTRL_CONNECT, 0, 0, 1)]), (0 : BitVec 7),
     by decide +kernel⟩,
   ⟨(st []), by decide +kernel⟩,
   ⟨{ (st [(F.USB_STAT_VBUS, 0, 0, 1)]) with held := [] }, by decide +kernel⟩,
   ⟨(st [(F.PT_CTRL_EN, 0, 0, 1), (F.USB_STAT_VBUS, 0, 0, 1), (F.USB_CTRL_CONNECT, 0, 0, 1)]), by decide +kernel⟩,
   ⟨(st [(F.PT_CTRL_EN, 0, 0, 1), (F.USB_STAT_VBUS, 0, 0, 1), (F.USB_CTRL_CONNECT, 0, 0, 1), (F.USB_STAT_SUSPENDED, 0, 0, 0)]),
     by decide +kernel⟩,
   ⟨(st [(F.PT_CTRL_EN, 0, 0, 1), (F.USB_STAT_VBUS, 0, 0, 1), (F.USB_CTRL_CONNECT, 0, 0, 1)]), by decide +kernel⟩⟩

/-- Witnesses for EthernetFramesPausesAndManagementAct, one for each clause. -/
theorem test_witness_EthernetFramesPausesAndManagementAct :
    (∃ (s : State) (f : List (BitVec 8)), portRx s 1 = true ∧ ethAccepts s (f.take 6) = true ∧ (ethIsPause f && s.on
      F.ETH_CTRL_PAUSE_RX_EN) = false) ∧
    (∃ (s : State) (f : List (BitVec 8)), portRx s 1 = true ∧ ethAccepts s (f.take 6) = false) ∧
    (∃ (s : State), ethPauses s = true ∧ s.on F.ETH_XOFF = true ∧ s.rd F.ETH_FLOW_XOFF_LEVEL ≤ rxLevel s 1) ∧
    (∃ (s : State), portRx s 1 = true ∧ s.on F.ETH_CTRL_FULL_DUPLEX = true ∧ s.on F.ETH_CTRL_PAUSE_RX_EN = true) ∧
    (∃ (s : State) (l : List Byte) (r : List Nat), portTx s 1 = true ∧ s.on F.TX_ACTIVE 1 = false ∧ s.on F.ETH_PAUSED = false ∧
      headFrame (s.q Q.tx 1) = some (l, r) ∧ s.held = []) ∧
    (∃ (s : State) (l : List Byte) (r : List Nat), s.on F.TX_ACTIVE 1 = true ∧ headFrame (s.q Q.tx 1) = some (l, r) ∧ s.held =
      []) ∧
    (∃ (s : State), s.on F.ETH_MDIO_DATA_BUSY = true ∧ s.held = []) :=
  ⟨⟨(st [(F.PT_CTRL_EN, 1, 0, 1), (F.PT_CTRL_RX_EN, 1, 0, 1), (F.ETH_CTRL_PROMISC, 0, 0, 1)]), ([] : List (BitVec 8)),
     by decide +kernel⟩,
   ⟨(st [(F.PT_CTRL_EN, 1, 0, 1), (F.PT_CTRL_RX_EN, 1, 0, 1)]), ([] : List (BitVec 8)), by decide +kernel⟩,
   ⟨(st [(F.ETH_FLOW_XOFF_LEVEL, 0, 0, 0), (F.PT_CTRL_EN, 1, 0, 1), (F.PT_CTRL_TX_EN, 1, 0, 1), (F.ETH_CTRL_FULL_DUPLEX, 0, 0,
     1), (F.ETH_CTRL_PAUSE_TX_EN, 0, 0, 1), (F.ETH_XOFF, 0, 0, 1)]), by decide +kernel⟩,
   ⟨(st [(F.PT_CTRL_EN, 1, 0, 1), (F.PT_CTRL_RX_EN, 1, 0, 1), (F.ETH_CTRL_FULL_DUPLEX, 0, 0, 1), (F.ETH_CTRL_PAUSE_RX_EN, 0, 0,
     1)]), by decide +kernel⟩,
   ⟨{ { (st [(F.PT_CTRL_EN, 1, 0, 1), (F.PT_CTRL_TX_EN, 1, 0, 1), (F.TX_ACTIVE, 1, 0, 0), (F.ETH_PAUSED, 0, 0, 0)]) with queues
     := [(⟨Q.tx, 1, 0⟩, [0x80000001, 9])] } with held := [] }, ([9] : List Byte), ([] : List Nat), by decide +kernel⟩,
   ⟨{ { (st [(F.TX_ACTIVE, 1, 0, 1)]) with queues := [(⟨Q.tx, 1, 0⟩, [0x80000001, 9])] } with held := [] }, ([9] : List Byte),
     ([] : List Nat), by decide +kernel⟩,
   ⟨{ (st [(F.ETH_MDIO_DATA_BUSY, 0, 0, 1)]) with held := [] }, by decide +kernel⟩⟩

/-- Witnesses for UartCharactersAndModuleTransactionsAct, one for each clause. -/
theorem test_witness_UartCharactersAndModuleTransactionsAct :
    (∃ (s : State) (u : Fin 2) (d : BitVec 8) (fr : Bool) (pa : Bool) (br : Bool), portRx s (u.val + 2) = true ∧ (s.on
      F.UART_FC_SWFC_TX u.val = false ∨ fr = true ∨ (pa = true ∧ s.on F.UART_FMT_PARITY u.val = true) ∨ br = true ∨ (d ≠ 0x11 ∧
      d ≠ 0x13 ∧ d ≠ 0x91 ∧ d ≠ 0x93))) ∧
    (∃ (s : State) (u : Fin 2) (d : BitVec 8), portRx s (u.val + 2) = true ∧ s.on F.UART_FC_SWFC_TX u.val = true ∧ (d = 0x11 ∨ d
      = 0x13)) ∧
    (∃ (s : State) (u : Fin 2), portTx s (u.val + 2) = true ∧ s.on F.TX_ACTIVE (u.val + 2) = false ∧ s.held = []) ∧
    (∃ (s : State) (n : Nat), n = ofBytes ((byteList (s.q Q.tx 4)).take 2) ∧ portTx s 4 = true ∧ s.on F.MOD_STAT_BUSY = false ∧
      1 ≤ n ∧ n ≤ 508 ∧ 4 + n ≤ (byteList (s.q Q.tx 4)).length ∧ n + pathBytes s 1 + 4 ≤ rxFree s 4 ∧ s.held = []) ∧
    (∃ (s : State), s.on F.MOD_STAT_BUSY = true ∧ s.rd F.MOD_PHASE = 1 ∧ portTx s 4 = true) ∧
    (∃ (s : State), s.on F.MOD_STAT_BUSY = true ∧ s.rd F.MOD_PHASE = 2 ∧ s.rd F.MOD_STAGE 0 = 0 ∧ s.rd F.MOD_STAGE 1 = 0) ∧
    (∃ (s : State) (x : Nat), s.on F.MOD_STAT_BUSY = true ∧ s.rd F.MOD_PHASE = 2 ∧ s.rd F.MOD_STAGE 0 = 3 ∧ s.rd F.MOD_STAGE 1 =
      3 ∧ cxOn s 2 = some x) ∧
    (∃ (s : State) (l : List (BitVec 8)), s.on F.MOD_STAT_BUSY = true ∧ s.rd F.MOD_PHASE = 1 ∧ s.rd F.MOD_RDY_TMO_US ≠ 0 ∧
      l.length = s.rd F.MOD_SENT) ∧
    (∃ (s : State), portLive s 4 = true ∧ phyUp s 4 = true) :=
  ⟨⟨(st [(F.PT_CTRL_EN, ((0 : Fin 2).val + 2), 0, 1), (F.PT_CTRL_RX_EN, ((0 : Fin 2).val + 2), 0, 1), (F.UART_FC_SWFC_TX, (0 :
     Fin 2).val, 0, 0)]), (0 : Fin 2), (0 : BitVec 8), (true : Bool), (true : Bool), (true : Bool), by decide +kernel⟩,
   ⟨(st [(F.PT_CTRL_EN, ((0 : Fin 2).val + 2), 0, 1), (F.PT_CTRL_RX_EN, ((0 : Fin 2).val + 2), 0, 1), (F.UART_FC_SWFC_TX, (0 :
     Fin 2).val, 0, 1)]), (0 : Fin 2), (0x13 : BitVec 8), by decide +kernel⟩,
   ⟨{ (st [(F.PT_CTRL_EN, ((0 : Fin 2).val + 2), 0, 1), (F.PT_CTRL_TX_EN, ((0 : Fin 2).val + 2), 0, 1), (F.TX_ACTIVE, ((0 : Fin
     2).val + 2), 0, 0)]) with held := [] }, (0 : Fin 2), by decide +kernel⟩,
   ⟨{ { (st [(F.PT_CTRL_EN, 4, 0, 1), (F.PT_CTRL_TX_EN, 4, 0, 1), (F.MOD_STAT_BUSY, 0, 0, 0)]) with queues := [(⟨Q.tx, 4, 0⟩,
     [1, 0, 0, 128, 7])] } with held := [] }, (1 : Nat), by decide +kernel⟩,
   ⟨(st [(F.MOD_STAT_BUSY, 0, 0, 1), (F.MOD_PHASE, 0, 0, 1), (F.PT_CTRL_EN, 4, 0, 1), (F.PT_CTRL_TX_EN, 4, 0, 1)]),
     by decide +kernel⟩,
   ⟨(st [(F.MOD_STAT_BUSY, 0, 0, 1), (F.MOD_PHASE, 0, 0, 2), (F.MOD_STAGE, 0, 0, 0), (F.MOD_STAGE, 1, 0, 0)]),
     by decide +kernel⟩,
   ⟨(st [(F.MOD_STAT_BUSY, 0, 0, 1), (F.MOD_PHASE, 0, 0, 2), (F.MOD_STAGE, 0, 0, 3), (F.MOD_STAGE, 1, 0, 3), (F.CX_CFG_MODE, 0,
     0, 2), (F.CX_CFG_PORT, 0, 0, 2)]), (0 : Nat), by decide +kernel⟩,
   ⟨(st [(F.MOD_STAT_BUSY, 0, 0, 1), (F.MOD_PHASE, 0, 0, 1), (F.MOD_RDY_TMO_US, 0, 0, (0) + 1)]), ([] : List (BitVec 8)),
     by decide +kernel⟩,
   ⟨(st [(F.PT_CTRL_EN, 4, 0, 1)]), by decide +kernel⟩⟩

/-- Witnesses for StationLinkFramesAndCreditsAct, one for each clause. -/
theorem test_witness_StationLinkFramesAndCreditsAct :
    (∃ (s : State) (x : Nat), portRx s 5 = true ∧ s.rd F.SL_STAT_STATE ≠ 0 ∧ cxOn s 4 = some x ∧ s.rd F.SL_STAGE 1 = 3 ∧ (slHead
      (byteList (s.q Q.frames 5 1))).1 = 1 ∧ slHeadOk (byteList (s.q Q.frames 5 1)) = true) ∧
    (∃ (s : State) (x : Nat), portRx s 5 = true ∧ s.rd F.SL_STAT_STATE ≠ 0 ∧ cxOn s 4 = some x ∧ s.rd F.SL_STAGE 1 = 3 ∧ s.on
      F.CX_SRES x = false ∧ slHeadOk (byteList (s.q Q.frames 5 1)) = true) ∧
    (∃ (s : State) (l : List Byte) (r : List Nat), slCanSend s = true ∧ s.on F.PT_CTRL_TX_EN 5 = true ∧ s.rd F.SL_STAT_STATE = 2
      ∧ headFrame (s.q Q.tx 5) = some (l, r) ∧ 1 ≤ l.length ∧ l.length ≤ 128 ∧ s.held = []) ∧
    (∃ (s : State), slCanSend s = true ∧ s.on F.SL_STAT_CRET_PEND = true ∧ s.rd F.SL_STAT_STATE = 2) ∧
    (∃ (s : State), slCanSend s = true ∧ s.rd F.SL_STAT_STATE = 1) ∧
    (∃ (s : State), portLive s 5 = true ∧ s.rd F.SL_STAT_STATE = 2) ∧
    (∃ (s : State), portRx s 5 = true ∧ s.rd F.SL_STAT_STATE ≠ 0) :=
  ⟨⟨{ (st [(F.PT_CTRL_EN, 5, 0, 1), (F.PT_CTRL_RX_EN, 5, 0, 1), (F.SL_STAT_STATE, 0, 0, (0) + 1), (F.CX_CFG_MODE, 0, 0, 2),
     (F.CX_CFG_PORT, 0, 0, 4), (F.SL_STAGE, 1, 0, 3)]) with queues := [(⟨Q.frames, 5, 1⟩, [0x11, 0, 1, 0, 9])] }, (0 : Nat),
     by decide +kernel⟩,
   ⟨{ (st [(F.PT_CTRL_EN, 5, 0, 1), (F.PT_CTRL_RX_EN, 5, 0, 1), (F.SL_STAT_STATE, 0, 0, (0) + 1), (F.CX_CFG_MODE, 0, 0, 2),
     (F.CX_CFG_PORT, 0, 0, 4), (F.SL_STAGE, 1, 0, 3), (F.CX_SRES, (0 : Nat), 0, 0)]) with queues := [(⟨Q.frames, 5, 1⟩, [0x11,
     0, 1, 0, 9])] }, (0 : Nat), by decide +kernel⟩,
   ⟨{ { (st [(F.PT_CTRL_EN, 5, 0, 1), (F.CX_CFG_MODE, 0, 0, 2), (F.CX_CFG_PORT, 0, 0, 3), (F.PT_CTRL_TX_EN, 5, 0, 1),
     (F.SL_STAT_STATE, 0, 0, 2)]) with queues := [(⟨Q.tx, 5, 0⟩, [0x80000001, 9])] } with held := [] }, ([9] : List Byte), ([] :
     List Nat), by decide +kernel⟩,
   ⟨(st [(F.PT_CTRL_EN, 5, 0, 1), (F.CX_CFG_MODE, 0, 0, 2), (F.CX_CFG_PORT, 0, 0, 3), (F.SL_STAT_CRET_PEND, 0, 0, 1),
     (F.SL_STAT_STATE, 0, 0, 2)]), by decide +kernel⟩,
   ⟨(st [(F.PT_CTRL_EN, 5, 0, 1), (F.CX_CFG_MODE, 0, 0, 2), (F.CX_CFG_PORT, 0, 0, 3), (F.SL_STAT_STATE, 0, 0, 1)]),
     by decide +kernel⟩,
   ⟨(st [(F.PT_CTRL_EN, 5, 0, 1), (F.SL_STAT_STATE, 0, 0, 2)]), by decide +kernel⟩,
   ⟨(st [(F.PT_CTRL_EN, 5, 0, 1), (F.PT_CTRL_RX_EN, 5, 0, 1), (F.SL_STAT_STATE, 0, 0, (0) + 1)]), by decide +kernel⟩⟩

/-- Witnesses for TapAuthenticationAndDebugAccessAct, one for each clause. -/
theorem test_witness_TapAuthenticationAndDebugAccessAct :
    (∃ (s : State), (isOpen s = true ∨ s.on F.TST_STAT_TESTMODE = true)) ∧
    (∃ (s : State) (c : BitVec 311) (i : Instr), isOpen s = false ∧ s.on F.TST_STAT_TESTMODE = false ∧ i ∈ [.tapExtest c,
      .tapClamp, .tapHighz]) ∧
    (∃ (s : State), isOpen s = true) ∧
    (∃ (s : State), isOpen s = false) ∧
    (∃ (s : State), s.rd F.TAP_IR = 9 ∧ s.rd F.TST_LOCK_STATE = 1 ∧ s.on F.AUTH_READY = true) ∧
    (∃ (s : State), s.rd F.AUTH_STATUS = 1) ∧
    (∃ (s : State), s.rd F.AUTH_STATUS = 4) ∧
    (∃ (s : State) (d : BitVec 99), s.rd F.TAP_IR = 8 ∧ isOpen s = true ∧ s.on F.TST_STAT_TESTMODE = false ∧ d.toNat.testBit 98
      = true) ∧
    (∃ (s : State), s.on F.ACC_BUSY = true ∧ holds s (accRequest s) = false) ∧
    (∃ (s : State) (k : Nat), s.on F.ACC_BUSY = true ∧ s.on F.ACC_WRITE = false ∧ SetsOut s (accRequest s) ∧ targetOf (s.rd
      F.ACC_ADDR) = .sram k ∧ s.rd F.DOM_STATE (44 + k) = 2 ∧ fwRefuses s (.unit 47) 0 (s.rd F.ACC_ADDR) = none ∧ s.rd
      F.ACC_ADDR % (if s.on F.ACC_WIDE then 8 else 4) = 0 ∧ s.bad = []) ∧
    (∃ (s : State) (k : Fin 40), s.on F.HALT_REQ k.val = true ∧ s.on F.SAVE_FOR k.val = false ∧ (∀ u ∈ copiesOf s k.val, s.on
      F.LD_PEND u = false ∧ s.on F.DIV_PEND u = false ∧ s.on F.SYNCING u = false) ∧ (k.val < 32 ∨ s.rd F.SP_STAT_MODE ≠ 3 ∧
      (pairMode s ≠ 0 ∨ s.rd F.PC (k.val + 8) = s.rd F.PC k.val))) :=
  ⟨⟨(st []), by decide +kernel⟩,
   ⟨(st [(F.TST_LOCK_STATE, 0, 0, 1), (F.TST_STAT_TESTMODE, 0, 0, 0)]), (0 : BitVec 311), (.tapClamp : Instr),
     by decide +kernel⟩,
   ⟨(st []), by decide +kernel⟩,
   ⟨(st [(F.TST_LOCK_STATE, 0, 0, 1)]), by decide +kernel⟩,
   ⟨(st [(F.TAP_IR, 0, 0, 9), (F.TST_LOCK_STATE, 0, 0, 1), (F.AUTH_READY, 0, 0, 1)]), by decide +kernel⟩,
   ⟨(st [(F.AUTH_STATUS, 0, 0, 1)]), by decide +kernel⟩,
   ⟨(st [(F.AUTH_STATUS, 0, 0, 4)]), by decide +kernel⟩,
   ⟨(st [(F.TAP_IR, 0, 0, 8), (F.TST_STAT_TESTMODE, 0, 0, 0)]), (0x4000000000000000000000000 : BitVec 99), by decide +kernel⟩,
   ⟨(st [(F.ACC_BUSY, 0, 0, 1)]), by decide +kernel⟩,
   ⟨(st [(F.ACC_ADDR, 0, 0, 0x20000000), (F.ACC_BUSY, 0, 0, 1), (F.ACC_WRITE, 0, 0, 0), (F.DOM_STATE, (44 + (0 : Nat)), 0, 2)]),
     (0 : Nat), by decide +kernel, by decide +kernel, setsOut_of (by decide +kernel), by decide +kernel, by decide +kernel,
     by decide +kernel, by decide +kernel, by decide +kernel⟩,
   ⟨(st [(F.PC, 8, 0, 0), (F.PC, 0, 0, 0), (F.HALT_REQ, (0 : Fin 40).val, 0, 1), (F.SAVE_FOR, (0 : Fin 40).val, 0, 0)]), (0 :
     Fin 40), by decide +kernel⟩⟩

end Sys2Proof.Tests
end

section
/-!
SUPPORT. What the operand functions of the thread cores (R466 to R470, R480) compute on the numbers of 32-bit values, said in
operations of `BitVec`.
-/
namespace Sys2Proof.Machine

/-! Signed readings and patterns. -/

theorem signedOf_toNat {w : Nat} (hw : 0 < w) (x : BitVec w) : signedOf w x.toNat = x.toInt := by
  have hp : 2 ^ w = 2 * 2 ^ (w - 1) := by rw [← Nat.pow_succ']; congr; omega
  have hx := x.isLt
  unfold signedOf
  rw [BitVec.toInt_eq_toNat_cond, Nat.mod_eq_of_lt hx]
  simp only [Int.ofNat_eq_natCast]
  split <;> split <;> omega

@[simp] theorem s32_toNat (a : BitVec 32) : s32 a.toNat = a.toInt := signedOf_toNat (by decide) a

theorem w32_eq (x : Int) : w32 x = (BitVec.ofInt 32 x).toNat := (BitVec.toNat_ofInt x).symm

@[simp] theorem w32_toInt (a : BitVec 32) : w32 a.toInt = a.toNat := by rw [w32_eq, BitVec.ofInt_toInt]

theorem sextTo_toNat {w : Nat} (hw : 0 < w) (x : BitVec w) : sextTo w x.toNat = (x.signExtend 32).toNat := by
  rw [sextTo, signedOf_toNat hw, w32_eq]; rfl

/-- The order in which `clampInt` looks at its bounds does not matter where they are in order. -/
theorem clampInt_eq {lo hi : Int} (h : lo ≤ hi) (x : Int) : clampInt lo hi x = max lo (min hi x) := by
  unfold clampInt; split
  · omega
  · split <;> omega

theorem satWord_eq (x : Int) : satWord x = (satW x).toNat := by
  rw [satWord, w32_eq, clampInt_eq (by decide)]; rfl

theorem bnat_toNat (b : Bool) : bnat b = (if b then 1 else 0 : BitVec 32).toNat := by cases b <;> rfl

/-! Bits taken out of a value. -/

/-- Clearing the bits of `b` in `a` borrows nowhere. -/
theorem clearBits_toNat {w : Nat} (a b : BitVec w) : clearBits a.toNat b.toNat = (a &&& ~~~b).toNat := by
  have hz : (a &&& b) &&& (a &&& ~~~b) = 0#w := by
    ext i hi
    simp only [BitVec.getElem_and, BitVec.getElem_not, BitVec.getElem_zero]
    cases b[i] <;> simp
  have ho : (a &&& b) ||| (a &&& ~~~b) = a := by
    ext i hi
    simp only [BitVec.getElem_and, BitVec.getElem_or, BitVec.getElem_not]
    cases b[i] <;> simp
  have hs : (a &&& b) + (a &&& ~~~b) = a := (BitVec.add_eq_or_of_and_eq_zero _ _ hz).trans ho
  have hd : a &&& ~~~b = a - (a &&& b) := by rw [BitVec.eq_sub_iff_add_eq, BitVec.add_comm, hs]
  have hle : a &&& b ≤ a := BitVec.le_def.mpr (BitVec.toNat_and a b ▸ Nat.and_le_left)
  rw [hd, BitVec.toNat_sub_of_le hle, BitVec.toNat_and, clearBits]

/-! Shifts and rotations (R466). -/

theorem shl32_toNat (a : BitVec 32) (n : Nat) : shl32 a.toNat n = (a <<< n).toNat := by
  rw [BitVec.toNat_shiftLeft, Nat.shiftLeft_eq]; rfl

theorem shr32_toNat (a : BitVec 32) (n : Nat) : shr32 a.toNat n = (a >>> n).toNat := by
  rw [BitVec.toNat_ushiftRight, Nat.shiftRight_eq_div_pow, shr32, Nat.mod_eq_of_lt a.isLt]

theorem sar32_toNat (a : BitVec 32) (n : Nat) : sar32 a.toNat n = (a.sshiftRight n).toNat := by
  rw [sar32, s32_toNat, ← w32_toInt (a.sshiftRight n), BitVec.toInt_sshiftRight, Int.shiftRight_eq_div_pow]; rfl

/-- The part that a rotation by `n` brings round ends where the rest begins, so the two add without a carry. -/
theorem ror32_toNat (a : BitVec 32) {n : Nat} (hn : n < 32) : ror32 a.toNat n = (a.rotateRight n).toNat := by
  by_cases h0 : n = 0
  · subst h0
    rw [BitVec.rotateRight_def, ror32, if_pos rfl, Nat.mod_eq_of_lt a.isLt]
    simp
  · have hlow : (a >>> n).toNat < 2 ^ (32 - n) := by
      rw [BitVec.toNat_ushiftRight, Nat.shiftRight_eq_div_pow]
      refine Nat.div_lt_of_lt_mul ?_
      rw [← Nat.pow_add, show n + (32 - n) = 32 by omega]; exact a.isLt
    have hhigh : a.toNat <<< (32 - n) % 2 ^ 32 = (a.toNat % 2 ^ n) <<< (32 - n) := by
      rw [Nat.shiftLeft_eq, Nat.shiftLeft_eq, show 2 ^ 32 = 2 ^ n * 2 ^ (32 - n) by
        rw [← Nat.pow_add, show n + (32 - n) = 32 by omega], Nat.mul_mod_mul_right]
    rw [ror32, if_neg h0, shr32_toNat, shl32_toNat, BitVec.toNat_rotateRight, Nat.mod_eq_of_lt hn,
      BitVec.toNat_shiftLeft, hhigh, ← BitVec.toNat_ushiftRight, Nat.or_comm, Nat.add_comm,
      Nat.shiftLeft_add_eq_or_of_lt hlow]

theorem shift32_toNat (k : Fin 4) (a : BitVec 32) (n : Fin 32) : shift32 k.val a.toNat n.val =
    (if k = 0 then a <<< n.val else if k = 1 then a >>> n.val else if k = 2 then a.sshiftRight n.val
      else a.rotateRight n.val).toNat := by
  match k with
  | 0 => exact shl32_toNat a n
  | 1 => exact shr32_toNat a n
  | 2 => exact sar32_toNat a n
  | 3 => exact ror32_toNat a n.isLt

/-! The integer group. -/

theorem intResult_add (a b : BitVec 32) : intResult 0 a.toNat b.toNat = (a + b).toNat := (BitVec.toNat_add a b).symm

/-- SUB's row of the table, got with the modulus opaque: the kernel would compute with `2 ^ 32` otherwise. -/
theorem intResult_sub_eq (x y : Nat) : intResult 1 x y = (x + 2 ^ 32 - y % 2 ^ 32) % 2 ^ 32 := by
  obtain ⟨m, hm⟩ : ∃ m : Nat, m = 2 ^ 32 := ⟨_, rfl⟩
  unfold intResult
  rw [← hm]
  rfl

theorem intResult_sub (a b : BitVec 32) : intResult 1 a.toNat b.toNat = (a - b).toNat := by
  have hb := b.isLt
  rw [BitVec.toNat_sub, intResult_sub_eq]
  omega

theorem intResult_slt (a b : BitVec 32) :
    intResult 10 a.toNat b.toNat = (if a.slt b then 1 else 0 : BitVec 32).toNat := by
  rw [← bnat_toNat, BitVec.slt_eq_decide, ← s32_toNat, ← s32_toNat]; rfl

theorem intResult_sltu (a b : BitVec 32) :
    intResult 11 a.toNat b.toNat = (if a.ult b then 1 else 0 : BitVec 32).toNat := bnat_toNat _

theorem intResult_min (a b : BitVec 32) : intResult 12 a.toNat b.toNat = (if b.slt a then b else a).toNat := by
  change (if s32 a.toNat ≤ s32 b.toNat then a.toNat else b.toNat) = _
  simp only [s32_toNat, BitVec.slt_iff_toInt_lt, ← Int.not_le, ite_not]
  exact (apply_ite BitVec.toNat _ _ _).symm

theorem intResult_max (a b : BitVec 32) : intResult 13 a.toNat b.toNat = (if a.slt b then b else a).toNat := by
  change (if s32 a.toNat ≤ s32 b.toNat then b.toNat else a.toNat) = _
  simp only [s32_toNat, BitVec.slt_iff_toInt_lt]
  rcases Int.lt_trichotomy a.toInt b.toInt with h | h | h
  · rw [if_pos (Int.le_of_lt h), if_pos h]
  · rw [BitVec.eq_of_toInt_eq h]; simp
  · rw [if_neg (Int.not_le.mpr h), if_neg (Int.lt_asymm h)]

theorem intResult_minu (a b : BitVec 32) : intResult 14 a.toNat b.toNat = (if b.ult a then b else a).toNat := by
  change min a.toNat b.toNat = _
  simp only [BitVec.ult_iff_lt, BitVec.lt_def]
  split <;> omega

theorem intResult_maxu (a b : BitVec 32) : intResult 15 a.toNat b.toNat = (if a.ult b then b else a).toNat := by
  change max a.toNat b.toNat = _
  simp only [BitVec.ult_iff_lt, BitVec.lt_def]
  split <;> omega

/-! The saturating group. -/

theorem satResult_adds (a b : BitVec 32) : satResult 0 0 a.toNat b.toNat = (satW (a.toInt + b.toInt)).toNat := by
  rw [← satWord_eq, ← s32_toNat, ← s32_toNat]; rfl

theorem satResult_subs (a b : BitVec 32) : satResult 1 0 a.toNat b.toNat = (satW (a.toInt - b.toInt)).toNat := by
  rw [← satWord_eq, ← s32_toNat, ← s32_toNat]; rfl

theorem satResult_addus (a b : BitVec 32) :
    satResult 2 0 a.toNat b.toNat = (BitVec.ofNat 32 (min (a.toNat + b.toNat) (2 ^ 32 - 1))).toNat := by
  rw [BitVec.toNat_ofNat, Nat.mod_eq_of_lt (by omega)]; rfl

theorem satResult_subus (a b : BitVec 32) :
    satResult 3 0 a.toNat b.toNat = (BitVec.ofInt 32 (max ((a.toNat : Int) - b.toNat) 0)).toNat := by
  change a.toNat - b.toNat = _
  have ha := a.isLt
  rw [BitVec.toNat_ofInt]
  omega

theorem satResult_negs (a : BitVec 32) : satResult 4 0 a.toNat 0 = (satW (-a.toInt)).toNat := by
  rw [← satWord_eq, ← s32_toNat]; rfl

theorem satResult_abss (a : BitVec 32) : satResult 5 0 a.toNat 0 = (satW a.toInt.natAbs).toNat := by
  change satWord (if s32 a.toNat < 0 then -s32 a.toNat else s32 a.toNat) = _
  rw [s32_toNat, satWord_eq]
  congr 2
  omega

theorem satResult_shls (a b : BitVec 32) :
    satResult 8 0 a.toNat b.toNat = (satW (a.toInt * 2 ^ (b.toNat % 32))).toNat := by
  change satWord (s32 a.toNat * Int.ofNat (2 ^ (b.toNat % 32))) = _
  rw [s32_toNat, satWord_eq, Int.ofNat_eq_natCast, Int.natCast_pow]; rfl

theorem satResult_sats (a : BitVec 32) (n : Nat) : satResult 6 (n + 1) a.toNat 0 =
    (BitVec.ofInt 32 (max (-2 ^ n) (min (2 ^ n - 1) a.toInt))).toNat := by
  change w32 (clampInt (-(2 ^ n)) (2 ^ n - 1) (s32 a.toNat)) = _
  have hp : (0 : Int) < 2 ^ n := Int.pow_pos (by decide)
  rw [s32_toNat, clampInt_eq (by omega), w32_eq]

theorem satResult_satu (a : BitVec 32) (n : Nat) : satResult 7 (n + 1) a.toNat 0 =
    (BitVec.ofInt 32 (max 0 (min (2 ^ (n + 1) - 1) a.toInt))).toNat := by
  change w32 (clampInt 0 (2 ^ (n + 1) - 1) (s32 a.toNat)) = _
  have hp : (0 : Int) < 2 ^ (n + 1) := Int.pow_pos (by decide)
  rw [s32_toNat, clampInt_eq (by omega), w32_eq]

/-! The bit-field group. -/

theorem fieldResult_extu (p : Nat) {w : Nat} (hw : w ≤ 32) (a : BitVec 32) (d : Nat) :
    fieldResult 0 p w a.toNat d = ((a.extractLsb' p w).setWidth 32).toNat := by
  rw [BitVec.toNat_setWidth_of_le hw, BitVec.extractLsb'_toNat, Nat.shiftRight_eq_div_pow]; rfl

theorem fieldResult_exts (p : Nat) {w : Nat} (hw : 0 < w) (a : BitVec 32) (d : Nat) :
    fieldResult 1 p w a.toNat d = ((a.extractLsb' p w).signExtend 32).toNat := by
  rw [← sextTo_toNat hw, BitVec.extractLsb'_toNat, Nat.shiftRight_eq_div_pow]; rfl

/-- Bit `j` of a value whose field was replaced: inside the field that of the new contents, outside that of the old value. -/
theorem testBit_putField (v lo k x j : Nat) : (putField v (lo + k) lo x).testBit j =
    if lo ≤ j ∧ j ≤ lo + k then x.testBit (j - lo) else v.testBit j := by
  have hf : x % 2 ^ (k + 1) < 2 ^ (k + 1) := Nat.mod_lt _ (Nat.two_pow_pos _)
  have hl : v % 2 ^ lo < 2 ^ lo := Nat.mod_lt _ (Nat.two_pow_pos _)
  have e : putField v (lo + k) lo x =
      2 ^ lo * (2 ^ (k + 1) * (v / 2 ^ (lo + k + 1)) + x % 2 ^ (k + 1)) + v % 2 ^ lo := by
    rw [putField, show lo + k + 1 - lo = k + 1 by omega, show lo + k + 1 = lo + (k + 1) by omega, Nat.pow_add]
    ring
  rw [e, Nat.testBit_two_pow_mul_add _ hl, Nat.testBit_two_pow_mul_add _ hf, Nat.testBit_mod_two_pow,
    Nat.testBit_mod_two_pow, Nat.testBit_div_two_pow]
  by_cases h1 : j < lo
  · rw [if_pos h1, if_neg (by omega)]; simp [h1]
  · by_cases h2 : j - lo < k + 1
    · rw [if_neg h1, if_pos h2, if_pos (by omega)]; simp [h2]
    · rw [if_neg h1, if_neg h2, if_neg (by omega)]; congr 1; omega

theorem fieldResult_ins {p k : Nat} (hk : p + k < 32) (a d v : BitVec 32)
    (hv : ∀ j, j < 32 → v.getLsbD j = if p ≤ j ∧ j ≤ p + k then a.getLsbD (j - p) else d.getLsbD j) :
    fieldResult 2 p (k + 1) a.toNat d.toNat = v.toNat := by
  change putField d.toNat (p + k) p a.toNat = v.toNat
  refine Nat.eq_of_testBit_eq fun j => ?_
  rw [testBit_putField]
  by_cases hj : j < 32
  · exact (hv j hj).symm
  · rw [if_neg (by omega)]
    exact (BitVec.getLsbD_of_ge d j (by omega)).trans (BitVec.getLsbD_of_ge v j (by omega)).symm

/-- The length of the longest prefix of `0, 1, …` on which `p` holds. -/
theorem length_takeWhile_range {p : Nat → Bool} {c n : Nat} (hc : c ≤ n) (hp : ∀ k < c, p k = true)
    (hend : c < n → p c = false) : ((List.range n).takeWhile p).length = c := by
  obtain ⟨m, rfl⟩ := Nat.exists_eq_add_of_le hc
  rw [List.range_add, List.takeWhile_append_of_pos fun k hk => hp k (List.mem_range.mp hk)]
  cases m with
  | zero => simp
  | succ m => simp [List.range_succ_eq_map, hend (by omega)]

theorem fieldResult_clz (a : BitVec 32) : fieldResult 3 0 0 a.toNat 0 = a.clz.toNat := by
  refine length_takeWhile_range (BitVec.le_def.mp BitVec.clz_le) (fun k hk => ?_) fun hlt => ?_
  · rw [Nat.testBit_lt_two_pow (Nat.lt_of_lt_of_le BitVec.toNat_lt_two_pow_sub_clz
      (Nat.pow_le_pow_right (by decide) (by omega)))]; rfl
  · have ha : a ≠ 0#32 := BitVec.clz_lt_iff_ne_zero.mp (BitVec.lt_def.mpr hlt)
    have hone : a.toNat.testBit (31 - a.clz.toNat) = true := BitVec.getLsbD_true_clz_of_ne_zero (by decide) ha
    rw [hone]; rfl

theorem popCount_toNat {w : Nat} (a : BitVec w) (n : Nat) : popCount n a.toNat = a.cpopNatRec n 0 := by
  induction n with
  | zero => rfl
  | succ n ih =>
    rw [BitVec.cpopNatRec_succ, BitVec.cpopNatRec_eq, ← ih, popCount, popCount, onesOf, onesOf, List.range_succ,
      List.filter_append, List.length_append, Nat.zero_add, BitVec.getLsbD]
    cases h : a.toNat.testBit n <;> simp [h]

theorem fieldResult_popc (a : BitVec 32) : fieldResult 4 0 0 a.toNat 0 = a.cpop.toNat :=
  (popCount_toNat a 32).trans (BitVec.toNat_cpop a).symm

theorem toNat_append_eq_add {m n : Nat} (x : BitVec m) (y : BitVec n) : (x ++ y).toNat = x.toNat * 2 ^ n + y.toNat := by
  rw [BitVec.toNat_append, ← Nat.shiftLeft_add_eq_or_of_lt y.isLt, Nat.shiftLeft_eq]

theorem fieldResult_rev8 (a : BitVec 32) : fieldResult 5 0 0 a.toNat 0 =
    (a.extractLsb' 0 8 ++ a.extractLsb' 8 8 ++ a.extractLsb' 16 8 ++ a.extractLsb' 24 8).toNat := by
  change ofBytes (toBytes 4 a.toNat).reverse = _
  simp only [toBytes, List.range_succ, List.range_zero, List.nil_append, List.cons_append, List.map_cons, List.map_nil,
    List.reverse_cons, List.reverse_nil, ofBytes, toNat_append_eq_add, BitVec.extractLsb'_toNat, BitVec.toNat_ofNat,
    Nat.shiftRight_eq_div_pow, Nat.reduceMul]
  omega

/-! The conditions of BR and BRZ (R480), and addresses. -/

theorem condHolds_toNat {c : Nat} (hc : c < 8) (a b : BitVec 32) :
    condHolds c a.toNat b.toNat = takenIf c a b := by
  have he : (a.toNat == b.toNat) = (a == b) := by rw [Bool.eq_iff_iff]; simp [BitVec.toNat_inj]
  have hz : ((a.toNat &&& b.toNat) == 0) = (a &&& b == 0) := by
    rw [← BitVec.toNat_and, Bool.eq_iff_iff]; simp [← BitVec.toNat_inj]
  interval_cases c
  · exact he
  · exact congrArg (!·) he
  · change decide (s32 a.toNat < s32 b.toNat) = a.slt b
    rw [s32_toNat, s32_toNat, BitVec.slt_eq_decide]
  · change decide (s32 b.toNat ≤ s32 a.toNat) = !a.slt b
    rw [s32_toNat, s32_toNat, BitVec.slt_eq_decide, ← decide_not, decide_eq_decide, Int.not_lt]
  · exact BitVec.ult_eq_decide.symm
  · change decide (b.toNat ≤ a.toNat) = !a.ult b
    rw [BitVec.ult_eq_decide, ← decide_not, decide_eq_decide, Nat.not_lt]
  · exact congrArg (!·) hz
  · exact hz

/-- `pc` moved by a displacement in words. -/
theorem displaced_toNat {w : Nat} (hw : 0 < w) (pc : BitVec 32) (n : BitVec w) :
    (pc.toNat + w32 (signedOf w n.toNat * 4)) % 2 ^ 32 = (pc + n.signExtend 32 * 4).toNat := by
  rw [signedOf_toNat hw, w32_eq, BitVec.ofInt_mul, BitVec.toNat_add]; rfl

theorem addrOf_toNat (a : BitVec 32) (n : BitVec 18) : addrOf a.toNat n.toNat = (a + n.signExtend 32).toNat := by
  rw [addrOf, sextTo_toNat (by decide), BitVec.toNat_add]

/-- R462: a target with its bits [1:0] cleared. -/
theorem wordAligned_toNat (t : BitVec 32) : t.toNat / 4 * 4 % 2 ^ 32 = (t &&& ~~~3).toNat := by
  have ht := t.isLt
  have h3 : t.toNat &&& 3 = t.toNat % 4 := Nat.and_two_pow_sub_one_eq_mod t.toNat 2
  rw [← clearBits_toNat, clearBits, show (3 : BitVec 32).toNat = 3 from rfl, h3]
  omega

theorem lui_toNat (n : BitVec 22) : n.toNat * 2 ^ 10 = (n.setWidth 32 <<< 10).toNat := by
  have hn := n.isLt
  rw [BitVec.toNat_shiftLeft, BitVec.toNat_setWidth_of_le (by decide), Nat.shiftLeft_eq]
  omega

end Sys2Proof.Machine
end

section
/-!
SUPPORT. The fields of an encoded instruction word, and which words of the register instructions are legal (R463 to R470, R480,
R481).
-/
namespace Sys2Proof.Machine

/-! The fields of an encoded word. -/

section FormatA
variable {op rd ra rb x f : Nat} (hrd : rd < 16) (hra : ra < 16) (hrb : rb < 16) (hx : x < 1024) (hf : f < 16)

include hrd hra hrb hx hf in
theorem opOf_encA (hop : op < 64) : opOf (encA op rd ra rb x f) = op := by
  simp only [opOf, bits, encA]; omega

include hrb hx hf in
theorem rbOf_encA : rbOf (encA op rd ra rb x f) = rb := by
  simp only [rbOf, bits, encA]; omega

include hx hf in
theorem auxOf_encA : auxOf (encA op rd ra rb x f) = x := by
  simp only [auxOf, bits, encA]; omega

include hf in
theorem fnOf_encA : fnOf (encA op rd ra rb x f) = f := by
  simp only [fnOf, bits, encA]; omega

end FormatA

theorem opOf_encI {op rd ra imm : Nat} (hop : op < 64) (hrd : rd < 16) (hra : ra < 16) (hi : imm < 2 ^ 18) :
    opOf (encI op rd ra imm) = op := by
  simp only [opOf, bits, encI]; omega

theorem imm18Of_encI {op rd ra imm : Nat} (hi : imm < 2 ^ 18) : imm18Of (encI op rd ra imm) = imm := by
  simp only [imm18Of, bits, encI]; omega

theorem opOf_encL {op rd imm : Nat} (hop : op < 64) (hrd : rd < 16) (hi : imm < 2 ^ 22) : opOf (encL op rd imm) = op := by
  simp only [opOf, bits, encL]; omega

section FormatB
variable {op c ra rb d : Nat} (hc : c < 8) (hra : ra < 16) (hrb : rb < 16) (hd : d < 2 ^ 14)

include hc hra hrb hd in
theorem opOf_encB (hop : op < 64) : opOf (encB op c ra rb d) = op := by
  simp only [opOf, bits, encB]; omega

include hc hra hrb hd in
theorem rdOf_encB : rdOf (encB op c ra rb d) = c := by
  simp only [rdOf, bits, encB]; omega

include hrb hd in
theorem rbOf_encB : rbOf (encB op c ra rb d) = rb := by
  simp only [rbOf, bits, encB]; omega

end FormatB

/-! Which words are legal. -/

theorem legalWord_op1 {w : Nat} (ho : opOf w = 1) : legalWord w = (auxOf w == 0) := by
  simp [legalWord, legalA, ho]

theorem legalWord_op3 {w : Nat} (ho : opOf w = 3) : legalWord w =
    if fnOf w = 6 ∨ fnOf w = 7 then decide (auxOf w < 32) && rbOf w == 0
    else decide (fnOf w ≤ 8) && auxOf w == 0 && (rbOf w == 0 || !(fnOf w == 4 || fnOf w == 5)) := by
  simp [legalWord, legalA, ho]

theorem legalWord_op4 {w : Nat} (ho : opOf w = 4) : legalWord w =
    if fnOf w ≤ 2 then decide (auxOf w / 32 + auxOf w % 32 + 1 ≤ 32) && rbOf w == 0
    else decide (fnOf w ≤ 5) && auxOf w == 0 && rbOf w == 0 := by
  simp [legalWord, legalA, ho]

theorem legalWord_op14 {w : Nat} (ho : opOf w = 14) : legalWord w = decide (imm18Of w < 128) := by
  simp [legalWord, ho]

/-- The integer group has every function. -/
theorem legalWord_integer (rd ra rb : Fin 16) {f : Nat} (hf : f < 16) : legalWord (encA 1 rd ra rb 0 f) = true := by
  rw [legalWord_op1 (opOf_encA rd.isLt ra.isLt rb.isLt (by decide) hf (by decide)), auxOf_encA (by decide) hf]; rfl

/-- The saturating functions of two operands. -/
theorem legalWord_saturating (rd ra rb : Fin 16) {f : Nat} (hf : f < 4 ∨ f = 8) :
    legalWord (encA 3 rd ra rb 0 f) = true := by
  have hf' : f < 16 := by omega
  rw [legalWord_op3 (opOf_encA rd.isLt ra.isLt rb.isLt (by decide) hf' (by decide)), auxOf_encA (by decide) hf',
    fnOf_encA hf', if_neg (by omega)]
  simp [show f ≤ 8 by omega, show f ≠ 4 by omega, show f ≠ 5 by omega]

/-- The saturating functions of one operand. -/
theorem legalWord_negate (rd ra : Fin 16) {f : Nat} (hf : f = 4 ∨ f = 5) : legalWord (encA 3 rd ra 0 0 f) = true := by
  have hf' : f < 16 := by omega
  rw [legalWord_op3 (opOf_encA rd.isLt ra.isLt (by decide) (by decide) hf' (by decide)), auxOf_encA (by decide) hf',
    fnOf_encA hf', rbOf_encA (by decide) (by decide) hf', if_neg (by omega)]
  simp [show f ≤ 8 by omega]

/-- SATS and SATU: any width from 1 to 32. -/
theorem legalWord_clamp (rd ra : Fin 16) (n : Fin 32) {f : Nat} (hf : f = 6 ∨ f = 7) :
    legalWord (encA 3 rd ra 0 n f) = true := by
  have hf' : f < 16 := by omega
  have hn : n.val < 1024 := by omega
  rw [legalWord_op3 (opOf_encA rd.isLt ra.isLt (by decide) hn hf' (by decide)), auxOf_encA hn hf', fnOf_encA hf',
    rbOf_encA (by decide) hn hf', if_pos hf]
  simp

/-- The saturating group's reserved codes, and an auxiliary field where none belongs. -/
theorem legalWord_saturating_reserved {w : Nat} (ho : opOf w = 3)
    (h : 9 ≤ fnOf w ∨ (fnOf w ≠ 6 ∧ fnOf w ≠ 7 ∧ auxOf w ≠ 0)) : legalWord w = false := by
  rw [legalWord_op3 ho, if_neg (by omega)]
  rcases h with h | ⟨-, -, h⟩
  · simp [show ¬fnOf w ≤ 8 by omega]
  · simp [h]

/-- EXTU, EXTS and INS: the field lies in the word. -/
theorem legalWord_field (rd ra : Fin 16) {p w : Fin 32} (hpw : p.val + w.val < 32) {f : Nat} (hf : f < 3) :
    legalWord (encA 4 rd ra 0 (p.val * 32 + w.val) f) = true := by
  have hf' : f < 16 := by omega
  have hx : p.val * 32 + w.val < 1024 := by omega
  rw [legalWord_op4 (opOf_encA rd.isLt ra.isLt (by decide) hx hf' (by decide)), auxOf_encA hx hf', fnOf_encA hf',
    rbOf_encA (by decide) hx hf', if_pos (by omega), Bool.and_eq_true]
  exact ⟨decide_eq_true (by omega), rfl⟩

/-- CLZ, POPC and REV8. -/
theorem legalWord_count (rd ra : Fin 16) {f : Nat} (hf : 3 ≤ f ∧ f ≤ 5) : legalWord (encA 4 rd ra 0 0 f) = true := by
  have hf' : f < 16 := by omega
  rw [legalWord_op4 (opOf_encA rd.isLt ra.isLt (by decide) (by decide) hf' (by decide)), auxOf_encA (by decide) hf',
    fnOf_encA hf', rbOf_encA (by decide) (by decide) hf', if_neg (by omega)]
  simp [hf.2]

/-- The bit-field group's reserved codes, a field that leaves the word, and an auxiliary field where none belongs. -/
theorem legalWord_field_reserved {w : Nat} (ho : opOf w = 4)
    (h : 6 ≤ fnOf w ∨ (fnOf w < 3 ∧ 32 < bits w 13 9 + bits w 8 4 + 1) ∨ (3 ≤ fnOf w ∧ auxOf w ≠ 0)) :
    legalWord w = false := by
  have hp : auxOf w / 32 = bits w 13 9 := by simp only [auxOf, bits]; omega
  have hw : auxOf w % 32 = bits w 8 4 := by simp only [auxOf, bits]; omega
  rw [legalWord_op4 ho, hp, hw]
  rcases h with h | ⟨h, hbig⟩ | ⟨h, hx⟩
  · rw [if_neg (by omega)]; simp [show ¬fnOf w ≤ 5 by omega]
  · rw [if_pos (by omega)]; simp [Nat.not_le.mpr hbig]
  · rw [if_neg (by omega)]; simp [hx]

/-- The immediate instructions with an 18-bit immediate of their own, and JALR. -/
theorem legalWord_encI (rd ra : Fin 16) (n : BitVec 18) {op : Nat} (hop : (8 ≤ op ∧ op ≤ 13) ∨ op = 18) :
    legalWord (encI op rd ra n.toNat) = true := by
  have ho : opOf (encI op rd ra n.toNat) = op := opOf_encI (by omega) rd.isLt ra.isLt n.isLt
  simp only [legalWord, ho]
  rcases hop with hop | rfl
  · simp [show op ≠ 63 by omega, show ¬(1 ≤ op ∧ op ≤ 5) by omega, show op ≠ 14 by omega, show op ≠ 20 by omega,
      show op ≠ 21 by omega, show ¬(op = 29 ∨ op = 35) by omega, hop]
  · rfl

theorem legalWord_shi (rd ra : Fin 16) (k : Fin 4) (n : Fin 32) :
    legalWord (encI 0x0E rd ra (k.val * 32 + n.val)) = true := by
  have hi : k.val * 32 + n.val < 2 ^ 18 := by omega
  rw [legalWord_op14 (opOf_encI (by decide) rd.isLt ra.isLt hi), imm18Of_encI hi]
  exact decide_eq_true (by omega)

theorem legalWord_shi_reserved {w : Nat} (ho : opOf w = 0x0E) (h : 128 ≤ imm18Of w) : legalWord w = false := by
  rw [legalWord_op14 ho]
  exact decide_eq_false (Nat.not_lt.mpr h)

/-- LUI, JAL and LI. -/
theorem legalWord_encL (rd : Fin 16) (n : BitVec 22) {op : Nat} (hop : op = 16 ∨ op = 17 ∨ op = 19) :
    legalWord (encL op rd n.toNat) = true := by
  have ho : opOf (encL op rd n.toNat) = op := opOf_encL (by omega) rd.isLt n.isLt
  simp only [legalWord, ho]
  rcases hop with rfl | rfl | rfl <;> rfl

theorem legalWord_br (c : Fin 8) (ra rb : Fin 16) (d : BitVec 14) : legalWord (encB 0x14 c ra rb d.toNat) = true := by
  have ho : opOf (encB 0x14 c ra rb d.toNat) = 0x14 := opOf_encB c.isLt ra.isLt rb.isLt d.isLt (by decide)
  simp [legalWord, ho, rdOf_encB c.isLt ra.isLt rb.isLt d.isLt]

theorem legalWord_brz (c : Fin 8) (ra : Fin 16) (d : BitVec 14) : legalWord (encB 0x15 c ra 0 d.toNat) = true := by
  have h0 : (0 : Nat) < 16 := by decide
  have ho : opOf (encB 0x15 c ra 0 d.toNat) = 0x15 := opOf_encB c.isLt ra.isLt h0 d.isLt (by decide)
  simp [legalWord, ho, rdOf_encB c.isLt ra.isLt h0 d.isLt, rbOf_encB h0 d.isLt]

end Sys2Proof.Machine
end

section
/-!
SUPPORT. The issue of an instruction and the operations on a thread's registers: what each changes and what it leaves alone, and
from that what an instruction does that writes a result or transfers control.
-/
namespace Sys2Proof.Machine

/-! Frames. -/

theorem Quiet.refl (l : List Fld) (s : State) : Quiet l s s :=
  ⟨⟨⟨fun _ _ _ _ _ => rfl, fun _ _ _ _ _ => rfl⟩, fun _ => rfl⟩, rfl, rfl, rfl⟩

theorem Quiet.trans {l : List Fld} {s t r : State} (h : Quiet l s t) (h' : Quiet l t r) : Quiet l s r where
  only.regs.fields g hg hl i j := (h'.only.regs.fields g hg hl i j).trans (h.only.regs.fields g hg hl i j)
  only.regs.queues n hn hq i j := (h'.only.regs.queues n hn hq i j).trans (h.only.regs.queues n hn hq i j)
  only.memory a := (h'.only.memory a).trans (h.only.memory a)
  stores := h'.stores.trans h.stores
  held := h'.held.trans h.held
  resp := h'.resp.trans h.resp

theorem Quiet.mono {l l' : List Fld} {s t : State} (h : Quiet l s t) (hl : l ⊆ l') : Quiet l' s t where
  only.regs.fields g hg hn := h.only.regs.fields g hg fun f hf => hn f (hl hf)
  only.regs.queues := h.only.regs.queues
  only.memory := h.only.memory
  stores := h.stores
  held := h.held
  resp := h.resp

/-- A field that a quiet change does not list reads as before. -/
theorem Quiet.rd_eq {l : List Fld} {s t : State} (h : Quiet l s t) {g : Fld} (hg : g.id < 1399)
    (hl : ∀ f ∈ l, f.id ≠ g.id) (i j : Nat) : t.rd g i j = s.rd g i j := h.only.regs.fields g hg hl i j

theorem quiet_wr {l : List Fld} {f : Fld} (hf : f ∈ l) (s : State) (v i j : Nat) : Quiet l s (s.wr f v i j) where
  only.regs.fields _ _ hl i' j' := s.rd_wr_id v i j i' j' (hl f hf).symm
  only.regs.queues _ _ _ _ _ := rfl
  only.memory _ := rfl
  stores := rfl
  held := rfl
  resp := rfl

theorem quiet_ite {l : List Fld} {s t t' : State} {c : Prop} [Decidable c] (h : Quiet l s t) (h' : Quiet l s t') :
    Quiet l s (if c then t else t') := by split <;> assumption

/-- An event input whose pulse needs no flit: only the pulses under way change. -/
theorem quiet_postIf {l : List Fld} (s : State) (c : Bool) {ev : Nat} (hev : eventCrosses ev = false) :
    Quiet l s (s.postIf c ev) := by
  unfold State.postIf State.post
  rw [hev]
  exact quiet_ite ⟨⟨⟨fun _ _ _ _ _ => rfl, fun _ _ _ _ _ => rfl⟩, fun _ => rfl⟩, rfl, rfl, rfl⟩ (Quiet.refl l s)

/-! What an issue changes (R424, R460, R515, R516, R707). -/

theorem waitEnds_quiet (s : State) (task : Nat) : Quiet issueFields s (waitEnds s task) := by
  refine quiet_ite (Quiet.refl _ s) ?_
  refine .trans (.trans (.trans ?_ (quiet_wr (f := F.WAIT_LAST_WAIT) (by decide) _ _ _ _))
    (quiet_wr (f := F.WAIT_MAX_WAIT) (by decide) _ _ _ _)) (quiet_postIf _ _ (by decide))
  exact quiet_wr (by decide) _ _ _ _

theorem stepOver_quiet (s : State) (t : Nat) : Quiet issueFields s (stepOver s t) :=
  quiet_ite (.trans (.trans (quiet_wr (f := F.STEPPING) (by decide) _ _ _ _)
    (quiet_wr (f := F.HALT_REQ) (by decide) _ _ _ _)) (quiet_wr (f := F.HREASON) (by decide) _ _ _ _)) (Quiet.refl _ s)

theorem noteIssue_quiet (s : State) (u : Nat) : Quiet issueFields s (noteIssue s u) :=
  quiet_ite (Quiet.refl _ s) (.trans (.trans (.trans (quiet_wr (f := F.TC_ISSUED_COUNT) (by decide) _ _ _ _)
    (quiet_wr (f := F.ISSUED_NOW) (by decide) _ _ _ _)) (waitEnds_quiet _ _)) (stepOver_quiet _ _))

/-- The fields an instruction reads are not those an issue updates. -/
theorem rd_noteIssue {g : Fld} (hg : g.id < 1399) (hl : ∀ f ∈ issueFields, f.id ≠ g.id) (s : State) (u i j : Nat) :
    (noteIssue s u).rd g i j = s.rd g i j := (noteIssue_quiet s u).rd_eq hg hl i j

@[simp] theorem gpr_noteIssue (s : State) (u r : Nat) : gpr (noteIssue s u) u r = (greg s u r).toNat := by
  rw [gpr, rd_noteIssue (by decide) (by decide), greg, BitVec.toNat_ofNat]
  exact (Nat.mod_eq_of_lt (s.rd_lt F.GPR u r)).symm

@[simp] theorem pc_noteIssue (s : State) (u : Nat) : (noteIssue s u).rd F.PC u = (pcOf s u).toNat := by
  rw [rd_noteIssue (by decide) (by decide), pcOf, BitVec.toNat_ofNat]
  exact (Nat.mod_eq_of_lt (s.rd_lt F.PC u 0)).symm

@[simp] theorem nextPc_noteIssue (s : State) (u : Nat) : nextPc (noteIssue s u) u = (pcOf s u + 4).toNat := by
  rw [nextPc, pc_noteIssue, BitVec.toNat_add]; rfl

@[simp] theorem exl_noteIssue (s : State) (u : Nat) : exl (noteIssue s u) u = exl s u := by
  rw [exl, rd_noteIssue (by decide) (by decide)]; rfl

@[simp] theorem stackRefused_noteIssue (s : State) (u r v : Nat) :
    stackRefused (noteIssue s u) u r v = stackRefused s u r v := by
  rw [stackRefused, rd_noteIssue (by decide) (by decide)]; rfl

theorem regionHolds_noteIssue (s : State) (u c m r a : Nat) :
    regionHolds (noteIssue s u) c m r a = regionHolds s c m r a := by
  rw [regionHolds, State.on, rd_noteIssue (by decide) (by decide), rd_noteIssue (by decide) (by decide),
    rd_noteIssue (by decide) (by decide)]; rfl

@[simp] theorem mpuCheck_noteIssue (s : State) (u : Nat) (k : Access) (a : Nat) :
    mpuCheck (noteIssue s u) u k a = mpuCheck s u k a := by
  have hr (c m a : Nat) : regionOf (noteIssue s u) c m a = regionOf s c m a := by
    simp only [regionOf, regionHolds_noteIssue]
  simp only [mpuCheck, mpuDenies, userLevel, hr, State.on, rd_noteIssue (g := F.TRMASK) (by decide) (by decide),
    rd_noteIssue (g := F.TSR) (by decide) (by decide), rd_noteIssue (g := F.MPU_ATTR_RIGHTS) (by decide) (by decide),
    rd_noteIssue (g := F.MPU_CTRL_DEF_EN) (by decide) (by decide)] <;> rfl

/-- A legal word that the copy can issue now acts on the state with the issue noted. -/
theorem issue_of_ready {s : State} {u w : Nat} (hr : Ready s u w) (hl : legalWord w = true) (f : State → State) :
    issue s u w f = f (noteIssue s u) := by
  have hm : mpuCheck (noteIssue s u) u .fetch ((noteIssue s u).rd F.PC u) = none := by
    rw [mpuCheck_noteIssue, rd_noteIssue (by decide) (by decide), hr.allowed]
  simp only [issue, hr.issues, hr.room, hm, hl, Bool.not_true, Bool.false_eq_true, if_false, if_true]

/-! What an instruction's result changes (R447, R451, R556). -/

theorem foldCompute_quiet (s : State) (u item : Nat) : Quiet sigFields s (foldCompute s u item) :=
  quiet_ite (Quiet.refl _ s) (quiet_ite (quiet_wr (by decide) _ _ _ _)
    (.trans (quiet_wr (f := F.SIG_CC) (by decide) _ _ _ _) (quiet_wr (f := F.INJ_C) (by decide) _ _ _ _)))

/-- The signatures hold no register of a thread. -/
theorem rd_foldCompute {g : Fld} (hg : g.id < 1399) (hl : ∀ f ∈ sigFields, f.id ≠ g.id) (s : State) (u item i j : Nat) :
    (foldCompute s u item).rd g i j = s.rd g i j := (foldCompute_quiet s u item).rd_eq hg hl i j

theorem rd_setGpr {g : Fld} (hg : g.id < 1399) (hl : ∀ f ∈ F.GPR :: sigFields, f.id ≠ g.id) (s : State)
    (u r v i j : Nat) : (setGpr s u r v).rd g i j = s.rd g i j := by
  rw [setGpr, rd_foldCompute hg fun f hf => hl f (.tail _ hf), State.rd_wr_id _ _ _ _ _ _ (hl F.GPR (.head _)).symm]

/-- `v` to general register `r` of copy `u`, which goes on to `pc`. -/
def writeAndGo (s : State) (u r v pc : Nat) : State := (setGpr s u r v).wr F.PC pc u

theorem writeAndGo_writes (s : State) (u r : Nat) (v : BitVec 32) (pc : Nat) :
    Writes s (writeAndGo s u r v.toNat pc) u r v := by
  have e (x k : Nat) : (writeAndGo s u r v.toNat pc).rd F.GPR x k = (s.wr F.GPR v.toNat u r).rd F.GPR x k := by
    rw [writeAndGo, State.rd_wr_id _ _ _ _ _ _ (by decide), setGpr, rd_foldCompute (by decide) (by decide)]
  refine ⟨?_, fun x k h => ?_⟩
  · rw [e, State.rd_wr_self]; exact Nat.mod_eq_of_lt v.isLt
  · rw [e]
    rcases h with h | h
    · exact State.rd_wr_i _ _ _ _ _ _ h
    · exact State.rd_wr_j _ _ _ _ _ _ h

theorem wr_pc_goesTo (s : State) (u : Nat) (pc : BitVec 32) : GoesTo s (s.wr F.PC pc.toNat u) u pc :=
  ⟨(State.rd_wr_self ..).trans (Nat.mod_eq_of_lt pc.isLt), fun _ h => State.rd_wr_i _ _ _ _ _ _ h⟩

theorem writeAndGo_goesTo (s : State) (u r v : Nat) (pc : BitVec 32) :
    GoesTo s (writeAndGo s u r v pc.toNat) u pc := by
  obtain ⟨hu, ho⟩ := wr_pc_goesTo (setGpr s u r v) u pc
  exact ⟨hu, fun x h => (ho x h).trans (rd_setGpr (by decide) (by decide) ..)⟩

theorem writeAndGo_quiet (s : State) (u r v pc : Nat) :
    Quiet ([F.GPR, F.PC] ++ issueFields ++ sigFields) s (writeAndGo s u r v pc) :=
  .trans (.trans (quiet_wr (f := F.GPR) (by decide) _ _ _ _) ((foldCompute_quiet _ _ _).mono (by decide)))
    (quiet_wr (f := F.PC) (by decide) _ _ _ _)

theorem enterHandler_quiet (s : State) (u cause info addr xpc : Nat) :
    Quiet (excFields ++ sigFields) s (enterHandler s u cause info addr xpc) := by
  refine .trans ?_ ((foldCompute_quiet _ _ _).mono (by decide))
  refine .trans ?_ (quiet_wr (f := F.PC) (by decide) _ _ _ _)
  refine .trans ?_ (quiet_wr (f := F.XADDR) (by decide) _ _ _ _)
  refine .trans ?_ (quiet_wr (f := F.XINFO) (by decide) _ _ _ _)
  refine .trans ?_ (quiet_wr (f := F.XCAUSE) (by decide) _ _ _ _)
  refine .trans ?_ (quiet_wr (f := F.TSR) (by decide) _ _ _ _)
  refine .trans ?_ (quiet_wr (f := F.XSR) (by decide) _ _ _ _)
  exact quiet_wr (f := F.XPC) (by decide) _ _ _ _

theorem enterHandler_entered (s : State) (u : Nat) {cause info addr xpc : Nat} (hc : cause < 2 ^ 8) (hi : info < 2 ^ 32)
    (ha : addr < 2 ^ 32) (hx : xpc < 2 ^ 32) :
    Entered s (enterHandler s u cause info addr xpc) u cause info addr xpc := by
  have hsr : s.rd F.TSR u < 2 ^ 2 := s.rd_lt F.TSR u 0
  have hv : s.rd F.XVEC (cacheOf u) < 2 ^ 32 := s.rd_lt F.XVEC (cacheOf u) 0
  constructor
  case gprs => exact fun x k => (enterHandler_quiet s u cause info addr xpc).rd_eq (by decide) (by decide) x k
  case others =>
    intro x hxu g hg
    have hid : ∀ g ∈ excFields, g.id < 1399 ∧ ∀ f ∈ sigFields, f.id ≠ g.id := by decide
    obtain ⟨hlt, hsig⟩ := hid g hg
    rw [enterHandler, rd_foldCompute hlt hsig]
    simp only [State.rd_wr_i _ _ _ _ _ _ hxu]
  all_goals
    rw [enterHandler, rd_foldCompute (by decide) (by decide)]
    simp (disch := decide) only [State.rd_wr_id, State.rd_wr_self]
  · exact Nat.mod_eq_of_lt hx
  · exact Nat.mod_eq_of_lt hsr
  · rfl
  · exact Nat.mod_eq_of_lt hc
  · exact Nat.mod_eq_of_lt hi
  · exact Nat.mod_eq_of_lt ha
  · exact Nat.mod_eq_of_lt hv

/-- An entry to the handler is one from any state that differs in none of the registers it speaks of. -/
theorem entered_of_quiet {l : List Fld} {s s' t : State} {u cause info addr xpc : Nat} (hq : Quiet l s s')
    (hl : ∀ g ∈ F.GPR :: F.XVEC :: excFields, ∀ f ∈ l, f.id ≠ g.id) (h : Entered s' t u cause info addr xpc) :
    Entered s t u cause info addr xpc := by
  have hid : ∀ g ∈ F.GPR :: F.XVEC :: excFields, g.id < 1399 := by decide
  have hrd (g : Fld) (hg : g ∈ F.GPR :: F.XVEC :: excFields) (i j : Nat) : s'.rd g i j = s.rd g i j :=
    hq.rd_eq (hid g hg) (hl g hg) i j
  exact { xpc := h.xpc, tsr := h.tsr, cause := h.cause, info := h.info, addr := h.addr
          xsr := h.xsr.trans (hrd F.TSR (by decide) u 0)
          pc := h.pc.trans (hrd F.XVEC (by decide) (cacheOf u) 0)
          gprs := fun x k => (h.gprs x k).trans (hrd F.GPR (by decide) x k)
          others := fun x hx g hg => (h.others x hx g hg).trans (hrd g (.tail _ (.tail _ hg)) x 0) }

/-- The result `v` to `rd` and on to `pc`, or STACKLIM (R451): what the instructions that write a register share. -/
def resultAt (s : State) (u rd v pc : Nat) : State :=
  if stackRefused s u rd v then raise s u 0xF 0 v else writeAndGo s u rd v pc

theorem result_eq_resultAt (s : State) (u rd v : Nat) : result s u rd v = resultAt s u rd v (nextPc s u) := by
  rw [result, resultAt, writeAndGo, advance, nextPc, nextPc, rd_setGpr (by decide) (by decide)]

theorem linkTo_eq_resultAt (s : State) (u rd target : Nat) :
    linkTo s u rd target = resultAt s u rd (nextPc s u) (target / 4 * 4 % 2 ^ 32) := rfl

/-! The forms of the register instructions. -/

/-- An instruction that, once issued, has the result `v` and goes on to `pc`. -/
theorem results_of_issue {c : Instr} {s : State} {u rd w : Nat} {v pc : BitVec 32} {f : State → State}
    (hr : Ready s u w) (hl : legalWord w = true) (he : exec c s = .next (issue s u w f))
    (hf : f (noteIssue s u) = resultAt (noteIssue s u) u rd v.toNat pc.toNat) : Results c s u rd v pc := by
  have hq := noteIssue_quiet s u
  have hexec : exec c s = .next (resultAt (noteIssue s u) u rd v.toNat pc.toNat) := by
    rw [he, issue_of_ready hr hl, hf]
  rw [resultAt, stackRefused_noteIssue] at hexec
  refine ⟨fun hs => ?_, fun hs hx => ?_⟩
  · rw [hs] at hexec
    obtain ⟨hw, hk⟩ := writeAndGo_writes (noteIssue s u) u rd v pc.toNat
    obtain ⟨hpc, ho⟩ := writeAndGo_goesTo (noteIssue s u) u rd v.toNat pc
    refine ⟨_, hexec, ⟨hw, fun x k h => (hk x k h).trans ?_⟩, ⟨hpc, fun x h => (ho x h).trans ?_⟩,
      (hq.mono (by decide)).trans (writeAndGo_quiet ..)⟩
    · exact rd_noteIssue (by decide) (by decide) ..
    · exact rd_noteIssue (by decide) (by decide) ..
  · rw [hs, if_pos rfl, raise, raiseAt, exl_noteIssue, hx, rd_noteIssue (by decide) (by decide)] at hexec
    exact ⟨_, hexec, entered_of_quiet hq (by decide)
      (enterHandler_entered _ u (by decide) (by decide) v.isLt (s.rd_lt F.PC u 0)),
      (hq.mono (by decide)).trans ((enterHandler_quiet ..).mono (by decide))⟩

/-- An instruction that, once issued, does nothing but go on to `pc`. -/
theorem jumps_of_issue {c : Instr} {s : State} {u w : Nat} {pc : BitVec 32} {f : State → State} (hr : Ready s u w)
    (hl : legalWord w = true) (he : exec c s = .next (issue s u w f))
    (hf : f (noteIssue s u) = (noteIssue s u).wr F.PC pc.toNat u) : Jumps c s u pc := by
  obtain ⟨hpc, ho⟩ := wr_pc_goesTo (noteIssue s u) u pc
  refine ⟨_, he.trans (by rw [issue_of_ready hr hl, hf]), ⟨hpc, fun x h => (ho x h).trans ?_⟩,
    ((noteIssue_quiet s u).mono (by decide)).trans (quiet_wr (f := F.PC) (by decide) _ _ _ _)⟩
  exact rd_noteIssue (by decide) (by decide) ..

/-- An instruction that, once issued, has the result `v` and goes on to the next one. -/
theorem results_of_result {c : Instr} {s : State} {u rd w : Nat} {v : BitVec 32} {val : State → Nat} (hr : Ready s u w)
    (hl : legalWord w = true) (he : exec c s = .next (issue s u w fun s => result s u rd (val s)))
    (hv : val (noteIssue s u) = v.toNat) : Results c s u rd v (pcOf s u + 4) :=
  results_of_issue hr hl he (by rw [result_eq_resultAt, hv, nextPc_noteIssue])

/-- A format-A instruction whose result `val`, on numbers, is what `g` gives on 32-bit values. -/
theorem computes_of {op f : Nat} {mk : Fin 48 → Fin 16 → Fin 16 → Fin 16 → Instr} {val : Nat → Nat → Nat}
    {g : BitVec 32 → BitVec 32 → BitVec 32} (hl : ∀ rd ra rb : Fin 16, legalWord (encA op rd ra rb 0 f) = true)
    (hg : ∀ a b : BitVec 32, val a.toNat b.toNat = (g a b).toNat)
    (he : ∀ (u : Fin 48) (rd ra rb : Fin 16) (s : State), exec (mk u rd ra rb) s = .next
      (issue s u (encA op rd ra rb 0 f) fun s => result s u rd (val (gpr s u ra) (gpr s u rb)))) :
    Computes op f mk g :=
  fun s u rd ra rb hr => results_of_result hr (hl rd ra rb) (he u rd ra rb s) (by rw [gpr_noteIssue, gpr_noteIssue, hg])

theorem maps_of {op f : Nat} {mk : Fin 48 → Fin 16 → Fin 16 → Instr} {val : Nat → Nat} {g : BitVec 32 → BitVec 32}
    (hl : ∀ rd ra : Fin 16, legalWord (encA op rd ra 0 0 f) = true) (hg : ∀ a : BitVec 32, val a.toNat = (g a).toNat)
    (he : ∀ (u : Fin 48) (rd ra : Fin 16) (s : State), exec (mk u rd ra) s = .next
      (issue s u (encA op rd ra 0 0 f) fun s => result s u rd (val (gpr s u ra)))) : Maps op f mk g :=
  fun s u rd ra hr => results_of_result hr (hl rd ra) (he u rd ra s) (by rw [gpr_noteIssue, hg])

theorem mapsImm_of {op : Nat} (hop : 8 ≤ op ∧ op ≤ 13) {mk : Fin 48 → Fin 16 → Fin 16 → BitVec 18 → Instr}
    {val : Nat → BitVec 18 → Nat} {g : BitVec 32 → BitVec 18 → BitVec 32}
    (hg : ∀ (a : BitVec 32) (n : BitVec 18), val a.toNat n = (g a n).toNat)
    (he : ∀ (u : Fin 48) (rd ra : Fin 16) (n : BitVec 18) (s : State), exec (mk u rd ra n) s = .next
      (issue s u (encI op rd ra n.toNat) fun s => result s u rd (val (gpr s u ra) n))) : MapsImm op mk g :=
  fun s u rd ra n hr => results_of_result hr (legalWord_encI rd ra n (.inl hop)) (he u rd ra n s)
    (by rw [gpr_noteIssue, hg])

/-! Branches (R480). -/

/-- A branch that is taken. -/
theorem branch_taken {taken : Bool} (ht : taken = true) (s : State) (u : Nat) (d : BitVec 14) :
    branch (noteIssue s u) u taken d.toNat = (noteIssue s u).wr F.PC (pcOf s u + d.signExtend 32 * 4).toNat u := by
  rw [branch, if_pos ht, pc_noteIssue, displaced_toNat (by decide)]

/-- A branch that is not. -/
theorem branch_notTaken {taken : Bool} (ht : taken = false) (s : State) (u d : Nat) :
    branch (noteIssue s u) u taken d = (noteIssue s u).wr F.PC (pcOf s u + 4).toNat u := by
  rw [branch, if_neg (by rw [ht]; decide), advance, nextPc_noteIssue]

/-- The condition that an issued branch looks at. -/
theorem condHolds_noteIssue (s : State) (u : Nat) (c : Fin 8) (ra : Nat) (b : BitVec 32) :
    condHolds c (gpr (noteIssue s u) u ra) b.toNat = takenIf c (greg s u ra) b := by
  rw [gpr_noteIssue, condHolds_toNat c.isLt]

end Sys2Proof.Machine
end

section
/-!
The statements of 12_instruction_set.md: the integer, saturating and bit-field groups, the immediates and the transfers of control.
-/
namespace Sys2Proof.Machine

/-- Settles O29: each function of R466 is legal, and computes on numbers what its row says of 32-bit values. -/
theorem integerGroupComputesItsTable : Obligations.IntegerGroupComputesItsTable := by
  have legal (f : Fin 16) (rd ra rb : Fin 16) := legalWord_integer rd ra rb f.isLt
  refine ⟨?add, ?sub, ?and, ?or, ?xor, ?andn, ?shl, ?shr, ?sar, ?ror, ?slt, ?sltu, ?min, ?max, ?minu, ?maxu⟩
  case add => exact computes_of (legal 0) intResult_add fun _ _ _ _ _ => rfl
  case sub => exact computes_of (legal 1) intResult_sub fun _ _ _ _ _ => rfl
  case and => exact computes_of (val := intResult 2) (legal 2) (fun a b => (BitVec.toNat_and a b).symm) fun _ _ _ _ _ => rfl
  case or => exact computes_of (val := intResult 3) (legal 3) (fun a b => (BitVec.toNat_or a b).symm) fun _ _ _ _ _ => rfl
  case xor => exact computes_of (val := intResult 4) (legal 4) (fun a b => (BitVec.toNat_xor a b).symm) fun _ _ _ _ _ => rfl
  case andn => exact computes_of (val := intResult 5) (legal 5) clearBits_toNat fun _ _ _ _ _ => rfl
  case shl => exact computes_of (val := intResult 6) (legal 6) (fun a _ => shl32_toNat a _) fun _ _ _ _ _ => rfl
  case shr => exact computes_of (val := intResult 7) (legal 7) (fun a _ => shr32_toNat a _) fun _ _ _ _ _ => rfl
  case sar => exact computes_of (val := intResult 8) (legal 8) (fun a _ => sar32_toNat a _) fun _ _ _ _ _ => rfl
  case ror =>
    exact computes_of (val := intResult 9) (legal 9) (fun a _ => ror32_toNat a (Nat.mod_lt _ (by decide))) fun _ _ _ _ _ => rfl
  case slt => exact computes_of (legal 10) intResult_slt fun _ _ _ _ _ => rfl
  case sltu => exact computes_of (legal 11) intResult_sltu fun _ _ _ _ _ => rfl
  case min => exact computes_of (legal 12) intResult_min fun _ _ _ _ _ => rfl
  case max => exact computes_of (legal 13) intResult_max fun _ _ _ _ _ => rfl
  case minu => exact computes_of (legal 14) intResult_minu fun _ _ _ _ _ => rfl
  case maxu => exact computes_of (legal 15) intResult_maxu fun _ _ _ _ _ => rfl

/-- Settles O31: as for the integer group, with INS told apart bit by bit; a reserved code or field fails `legalWord`. -/
theorem saturatingAndBitFieldGroupsComputeTheirTables : Obligations.SaturatingAndBitFieldGroupsComputeTheirTables := by
  refine ⟨?adds, ?subs, ?addus, ?subus, ?negs, ?abss, ?shls, ?sats, ?satu, ?reserved, ?extu, ?exts, ?ins, ?clz, ?popc,
    ?rev8, ?fieldReserved⟩
  case adds => exact computes_of (legalWord_saturating · · · (by decide)) satResult_adds fun _ _ _ _ _ => rfl
  case subs => exact computes_of (legalWord_saturating · · · (by decide)) satResult_subs fun _ _ _ _ _ => rfl
  case addus => exact computes_of (legalWord_saturating · · · (by decide)) satResult_addus fun _ _ _ _ _ => rfl
  case subus => exact computes_of (legalWord_saturating · · · (by decide)) satResult_subus fun _ _ _ _ _ => rfl
  case shls => exact computes_of (legalWord_saturating · · · (by decide)) satResult_shls fun _ _ _ _ _ => rfl
  case negs =>
    exact maps_of (val := (satResult 4 0 · 0)) (legalWord_negate · · (by decide)) satResult_negs fun _ _ _ _ => rfl
  case abss =>
    exact maps_of (val := (satResult 5 0 · 0)) (legalWord_negate · · (by decide)) satResult_abss fun _ _ _ _ => rfl
  case sats =>
    exact fun s u rd ra n hr => results_of_result hr (legalWord_clamp rd ra n (by decide)) rfl
      (by rw [gpr_noteIssue]; exact satResult_sats _ _)
  case satu =>
    exact fun s u rd ra n hr => results_of_result hr (legalWord_clamp rd ra n (by decide)) rfl
      (by rw [gpr_noteIssue]; exact satResult_satu _ _)
  case reserved => exact fun w => legalWord_saturating_reserved
  case extu =>
    exact fun s u rd ra p w hpw hr => results_of_result hr (legalWord_field rd ra hpw (by decide)) rfl
      (by rw [gpr_noteIssue]; exact fieldResult_extu _ (by omega) _ _)
  case exts =>
    exact fun s u rd ra p w hpw hr => results_of_result hr (legalWord_field rd ra hpw (by decide)) rfl
      (by rw [gpr_noteIssue]; exact fieldResult_exts _ (by omega) _ _)
  case ins =>
    exact fun s u rd ra p w v hpw hr hv => results_of_result hr (legalWord_field rd ra hpw (by decide)) rfl
      (by rw [gpr_noteIssue, gpr_noteIssue]; exact fieldResult_ins hpw _ _ v hv)
  case clz =>
    exact maps_of (val := (fieldResult 3 0 0 · 0)) (legalWord_count · · (by decide)) fieldResult_clz fun _ _ _ _ => rfl
  case popc =>
    exact maps_of (val := (fieldResult 4 0 0 · 0)) (legalWord_count · · (by decide)) fieldResult_popc fun _ _ _ _ => rfl
  case rev8 =>
    exact maps_of (val := (fieldResult 5 0 0 · 0)) (legalWord_count · · (by decide)) fieldResult_rev8 fun _ _ _ _ => rfl
  case fieldReserved => exact fun w => legalWord_field_reserved

/-- Settles O32: the integer operations on an immediate extended with zeros or with its sign (R470). -/
theorem immediatesComputeAsStated : Obligations.ImmediatesComputeAsStated := by
  have sext (n : BitVec 18) : sextTo 18 n.toNat = (n.signExtend 32).toNat := sextTo_toNat (by decide) n
  have zext (n : BitVec 18) : n.toNat = (n.setWidth 32).toNat := (BitVec.toNat_setWidth_of_le (by decide)).symm
  refine ⟨?addi, ?andi, ?ori, ?xori, ?slti, ?sltiu, ?shi, ?lui, ?li, ?reserved⟩
  case addi =>
    exact mapsImm_of (val := fun a n => intResult 0 a (sextTo 18 n.toNat)) (by decide)
      (fun a n => by rw [sext, intResult_add]) fun _ _ _ _ _ => rfl
  case andi =>
    exact mapsImm_of (val := fun a n => intResult 2 a n.toNat) (by decide)
      (fun a n => by rw [zext, BitVec.toNat_and]; rfl) fun _ _ _ _ _ => rfl
  case ori =>
    exact mapsImm_of (val := fun a n => intResult 3 a n.toNat) (by decide)
      (fun a n => by rw [zext, BitVec.toNat_or]; rfl) fun _ _ _ _ _ => rfl
  case xori =>
    exact mapsImm_of (val := fun a n => intResult 4 a n.toNat) (by decide)
      (fun a n => by rw [zext, BitVec.toNat_xor]; rfl) fun _ _ _ _ _ => rfl
  case slti =>
    exact mapsImm_of (val := fun a n => intResult 10 a (sextTo 18 n.toNat)) (by decide)
      (fun a n => by rw [sext, intResult_slt]) fun _ _ _ _ _ => rfl
  case sltiu =>
    exact mapsImm_of (val := fun a n => intResult 11 a (sextTo 18 n.toNat)) (by decide)
      (fun a n => by rw [sext, intResult_sltu]) fun _ _ _ _ _ => rfl
  case shi =>
    exact fun s u rd ra k n hr => results_of_result hr (legalWord_shi rd ra k n) rfl
      (by rw [gpr_noteIssue]; exact shift32_toNat k _ n)
  case lui => exact fun s u rd n hr => results_of_result hr (legalWord_encL rd n (by decide)) rfl (lui_toNat n)
  case li =>
    exact fun s u rd n hr => results_of_result hr (legalWord_encL rd n (by decide)) rfl (sextTo_toNat (by decide) n)
  case reserved => exact fun w => legalWord_shi_reserved

/-- Settles O33: R480's conditions and displacement, and R481's targets with bits [1:0] cleared (R462). -/
theorem transfersOfControlReachTheirTargets : Obligations.TransfersOfControlReachTheirTargets := by
  refine ⟨?brTaken, ?brNot, ?brzTaken, ?brzNot, ?jal, ?jalr⟩
  case brTaken =>
    refine fun s u c ra rb d hr ht => jumps_of_issue hr (legalWord_br c ra rb d) rfl (branch_taken ?_ s u d)
    rw [gpr_noteIssue s u rb, condHolds_noteIssue, ht]
  case brNot =>
    refine fun s u c ra rb d hr ht => jumps_of_issue hr (legalWord_br c ra rb d) rfl (branch_notTaken ?_ s u _)
    rw [gpr_noteIssue s u rb, condHolds_noteIssue, ht]
  case brzTaken =>
    exact fun s u c ra d hr ht => jumps_of_issue hr (legalWord_brz c ra d) rfl
      (branch_taken ((condHolds_noteIssue s u c ra 0).trans ht) s u d)
  case brzNot =>
    exact fun s u c ra d hr ht => jumps_of_issue hr (legalWord_brz c ra d) rfl
      (branch_notTaken ((condHolds_noteIssue s u c ra 0).trans ht) s u _)
  case jal =>
    refine fun s u rd n hr => results_of_issue hr (legalWord_encL rd n (by decide)) rfl ?_
    rw [linkTo_eq_resultAt, nextPc_noteIssue, pc_noteIssue, displaced_toNat (by decide), wordAligned_toNat]
  case jalr =>
    refine fun s u rd ra n hr => results_of_issue hr (legalWord_encI rd ra n (.inr rfl)) rfl ?_
    rw [linkTo_eq_resultAt, nextPc_noteIssue, gpr_noteIssue, addrOf_toNat, wordAligned_toNat]

end Sys2Proof.Machine
end
